-- ==== Sys2Proof/Word.lean ====
section
/-! DEFINITION. The word types. A register is 32 bits wide (00_scope.md R10); memories are bytes. -/

namespace Sys2Proof

/-- One byte. -/
abbrev Byte := BitVec 8

/-- One register word (R10). -/
abbrev Word := BitVec 32

end Sys2Proof
end

