-- ==== Sys2Proof/Syntax.lean ====
section
/-! DEFINITION. The commands of the block: one constructor per row of the spec's table of operations and events. The
table gives its rows no operands; a constructor's operands are what the row's rule needs to be told: the path and the
value of a register access, the fields of an NVMe command, and what the world outside the block shows it (a sample, a
level, a decode outcome). A row that names an event says that the event occurs. -/

namespace Sys2Proof

/-- The paths into the register window: BAR2, the management cores and SMBus (17_register_map.md). -/
inductive Path where
  | bar2 | core | smbus
deriving DecidableEq, Repr

/-- The width of a register access (R10). -/
inductive Width where
  | narrow | word | double
deriving DecidableEq, Repr

/-- The PEC of an SMBus write: none sent, or sent and right or wrong (R603). -/
inductive PecIn where
  | absent | good | bad
deriving DecidableEq, Repr

/-- The instructions that the test access port can be given (R655). -/
inductive TapInstr where
  | bypass | idcode | samplePreload | extest | other
deriving DecidableEq, Repr

/-- A submission queue entry as HST fetches it: opcode, command identifier, namespace, command dwords 10 to 15, and the
bytes that its data pointer names in host memory. -/
structure Sqe where
  op : Byte
  cid : BitVec 16
  nsid : Word
  dw10 : Word
  dw11 : Word
  dw12 : Word
  dw13 : Word
  dw14 : Word
  dw15 : Word
  data : List Byte
deriving DecidableEq, Repr


/-- What SPN reads in one PWM period (R288, R292, R294): the observer's speed, its phase error below 15 electrical
degrees, its angle, the angle differs from the open-loop angle by more than 90 electrical degrees, the phase currents
in 1/256 of full scale, and `MBUS_SENSE` in mV. -/
structure PwmIn where
  speed : Int
  near : Bool
  angle : BitVec 16
  apart : Bool
  cur : List Int
  mbus : Nat
deriving DecidableEq, Repr

/-- What SPN reads from `SPDCMD` at a spindle tick (R320): the averaged voltage in mV, the duty in 0.1 %, or the edge
rate in Hz; the pin static low or high for 100 ms; the period outside its range. -/
structure SpdIn where
  raw : BitVec 14
  low : Bool
  high : Bool
  out : Bool
deriving DecidableEq, Repr

/-- What the world shows a lane while a microword lasts: for how many word clocks more than one a WAITC word goes on
waiting, as long as its condition stays false, and that the stream DMA has not brought the next write unit in time. -/
structure WordEnv where
  wait : Nat
  starved : Bool
deriving DecidableEq, Repr

/-- What a lane's servo demodulator reads at a wedge time (R240 to R242, R278): the servo address mark was found, the wedge
number, the Gray-coded track number, the two position bursts, the time since the last wedge in ns, and the latency to the
demand (R256). -/
structure SampleIn where
  found : Bool
  wnum : BitVec 9
  gray : BitVec 22
  nb : Int
  qb : Int
  interval : Nat
  lat : BitVec 16
deriving DecidableEq, Repr

/-- What starts a contract recheck (R389, R398): a lane that left service or failed to emerge; a crystallizer engine, or
CRYS; the link; or anything else. -/
inductive RecheckCause where
  | lane | engine | link | budget
deriving DecidableEq, Repr

/-- What a lane meets while a unit passes under its head (R30, R104, R112, R140): the signals of the head's two physical
readers, 64 points a symbol, in 1/256 of an ADC step at a VGA gain of 0 dB, from the first symbol that passes with the read
gate high and the servo gate low; where the pattern of the first sync mark is met nearest to its nominal place (symbols late, or
early) and in how many of its symbols it differs there; the stream DMA has not brought a write unit in time; and the fill, in
64-byte units, that the samples ask of each capture FIFO. -/
structure BeginIn where
  rd1 : List Int
  rd2 : List Int
  sync : Option (Int × Nat)
  starved : Bool
  fillA : Nat
  fillB : Nat
deriving DecidableEq, Repr

/-- A codeword that an LDPC decoder ends with (R115): the one that the unit on the media holds, or another, by its information
part. -/
inductive Codeword where
  | stored
  | other (info : List Byte)
deriving DecidableEq, Repr

/-- A ring of GEO: its first track, its symbols per revolution, its wedge length in symbols, the slots of its tracks at code
rates 0.86, 0.89 and 0.92 and, for conventional tracks, sectors (R121), and its track skew in wedges (R374). -/
structure Ring where
  first : Nat
  symbols : Nat
  wedge : Nat
  slots : List Nat
  skew : Nat
deriving DecidableEq, Repr

/-- The GEO section in force: its digest (R546), the lane and head of each surface, the surfaces whose reader A is the second
of the two physical readers (R100), the rings in track order, the wedges of a revolution, the first track of the band of each
zone stripe (zone, lane, surface, track), the spare bands (lane, surface, first track), the bands written toward lower tracks
(surface, first track; R51), the conventional areas and their spare pools in order (lane, surface, first track, tracks), the
saltern bands (lane, surface, first track of the log, slots; a band's number on its surface is its order there), the journal bands (lane, surface, first track, slots), the
checkpoint areas (0 or 1 for A or B, lane, surface, first track), and the two keel tracks of each surface. -/
structure Geo where
  digest : Nat
  surfaces : List (Nat × Nat)
  swapped : List Nat
  rings : List Ring
  wedges : Nat
  stripes : List (Nat × Nat × Nat × Nat)
  spares : List (Nat × Nat × Nat)
  down : List (Nat × Nat)
  conv : List (Nat × Nat × Nat × Nat)
  convSpare : List (Nat × Nat × Nat × Nat)
  saltern : List (Nat × Nat × Nat × Nat)
  journal : List (Nat × Nat × Nat × Nat)
  ckpt : List (Nat × Nat × Nat × Nat)
  keel : List (Nat × Nat × Nat)
deriving DecidableEq, Repr

/-- No GEO section. -/
def Geo.none : Geo :=
  { digest := 0, surfaces := [], swapped := [], rings := [], wedges := 0, stripes := [], spares := [], down := [], conv := []
    convSpare := [], saltern := [], journal := [], ckpt := [], keel := [] }

/-- What the IDS section gives the function and Identify (R445, R461, R546): Vendor, Device, Subsystem Vendor and
Subsystem IDs, serial number, model number and IEEE OUI. -/
structure Ids where
  vid : Nat
  did : Nat
  ssvid : Nat
  ssid : Nat
  sn : List Byte
  mn : List Byte
  ieee : Nat
deriving DecidableEq, Repr

/-- No IDS section applied. -/
def Ids.none : Ids := { vid := 0, did := 0, ssvid := 0, ssid := 0, sn := [], mn := [], ieee := 0 }

/-- What the image and the calibration area say where the spec gives their sections no layout (R541, R546), and what the
loader meets as it reads them: the flash reads of the two slots complete (R549 check 1); the domains that do not come up
(R533); the read time in ms; GEO and IDS; the register values of the FW configuration block and of SPN, CRV and PIN; the head-load
speed (R555); `SPDCMD` is the source until spin-up is complete (R319). -/
structure ImageIn where
  readA : Bool
  readB : Bool
  failed : List (Fin 7)
  ms : BitVec 16
  geo : Geo
  ids : Ids
  regs : List (Nat × Word)
  headLoad : Nat
  pinStart : Bool
deriving DecidableEq, Repr

/-- What lies at an HBM word (R401, R405, R565): a block of the write pool, a unit of the read pool by its place on media, a
read-ahead tile by its first block, the map region, brine, the read-only part of the firmware region (and whether the
flash gives the page again), the download staging area, or another part of the firmware region. -/
inductive HbmPlace where
  | wpool (ns lba : Nat)
  | rpool (surface track pos qtr : Nat)
  | ahead (lba : Nat)
  | map
  | brine
  | image (flash : Bool)
  | staging
  | firmware
deriving DecidableEq, Repr

/-- What happens to a stored word (R563 to R570): a bit of a codeword changes, or of a copy of a triplicated word, or of a
control-store word; a requester reads a word, or writes it, where no command of the block carries the access. -/
inductive MemEvent where
  | change (mem : Fin 12) (inst : Fin 8) (addr : BitVec 31) (bit : Fin 72)
  | changeTmr (word : Fin 8) (copy : Fin 3) (bit : Fin 32)
  | changeStore (lane : Fin 4) (word : Fin 4096) (bit : Fin 160)
  | read (mem : Fin 12) (inst : Fin 8) (addr : BitVec 31) (place : HbmPlace)
  | write (mem : Fin 12) (inst : Fin 8) (addr : BitVec 31)
deriving DecidableEq, Repr

/-- The commands (one constructor per row of the table of operations and events). -/
inductive Instr where
  /-- REGISTER_WRITE (R7): A write to a register that has no row of its own updates its writable fields according to their access types. -/
  | registerWrite (p : Path) (a : Word) (w : Width) (v : BitVec 64)
  /-- BLK_IGNCNT_CLR (R22): A write of 1 to BLK_IGNCNT.clr zeroes the count and invalidates BLK_IGNADDR. -/
  | blkIgncntClr (p : Path) (b : Fin 34) (v : Word)
  /-- LANE_GO (R152): A write of 1 to LANEn_GO.go sets pending and schedules the staged LANEn_CALSEL, LANEn_TR and LANEn_AGC values. -/
  | laneGo (p : Path) (n : Fin 4) (v : Word)
  /-- LANE_SHADOW_ACTIVATE (R152): The staged lane values become active at the next set load, or within 2 µs when the sequencer is halted, and pending clears. -/
  | laneShadowActivate (n : Fin 4)
  /-- SCA_GO (R255): A write to SCA_GO.go checks the shadow loop configuration and either schedules it for the safe point or is ignored. -/
  | scaGo (p : Path) (v : Word)
  /-- SCA_LCFG_ACTIVATE (R255): At the next moment when no loop is computed, the shadow loop configuration becomes active, and enabled loops start from zero states. -/
  | scaLcfgActivate
  /-- SPN_GO (R318): A write to SPN_GO.go checks the shadow speed curve against R312 and schedules it for the next spindle tick. -/
  | spnGo (p : Path) (v : Word)
  /-- HRV_GO (R337): A write to HRV_GO.go schedules the staged budget parameters for the next budget computation. -/
  | hrvGo (p : Path) (v : Word)
  /-- CTR_GO (R400): A write to CTR_GO.mask schedules the named slots' shadow values, with CTR_FRAME and CTR_RSV, for the lanes' next frame starts. -/
  | ctrGo (p : Path) (v : Word)
  /-- COLD_RESET (R12): A rise of PWRON_N or loss of power resets every register and starts the cold-start sequence. -/
  | coldReset (strap : Fin 8)
  /-- VDD_3V3_LOSS (R633): A fall of VDD_3V3 below 2.70 V for 1 µs is taken as loss of VDD_3V3, which ends DONE and holds AON in reset. -/
  | vdd3v3Loss
  /-- SYS_RST (R660): A write of key 5253h with go set starts a warm reset by closing admission, committing dirty data and unloading the heads. -/
  | sysRst (p : Path) (v : Word)
  /-- WARM_RESET_TAKES_EFFECT (R558): Once the pre-reset commit and the unloads have completed, the warm reset acts and the loader restarts from the HBM image copy. -/
  | warmResetTakesEffect
  /-- PERST_N_ASSERT (R448): Assertion of PERST_N resets the HOST domain, discards unsealed commands and releases every contract. -/
  | perstNAssert
  /-- FUNCTION_LEVEL_RESET (R448): A Function Level Reset acts as PERST_N does. -/
  | functionLevelReset
  /-- HOT_RESET (R448): A hot reset acts as PERST_N does. -/
  | hotReset
  /-- DL_DOWN (R448): A DL_Down while PERST_N is deasserted acts as PERST_N does and sets HST_ERR.down. -/
  | dlDown
  /-- CONTROLLER_RESET (R484): CC.EN going from 1 to 0 discards unsealed commands, releases contracts, closes opened zones and restores feature defaults. -/
  | controllerReset
  /-- CONTROLLER_ENABLE (R457): CC.EN going to 1 checks CC and sets CSTS.RDY as CC.CRIME lays down. -/
  | controllerEnable (cc : Word) (acqs : BitVec 12)
  /-- CRYSTAL_TIMEOUT (R26): A crystal that has not started within 20 ms at cold start makes the clocks run from the RC oscillator, and the Gorlo enters diapause. -/
  | crystalTimeout
  /-- SUPPLY_QUALIFIED (R326): CONN_DET low and VIN_SENSE above the on threshold for 50 ms without interruption start the closing ramp of the isolation switch. -/
  | supplyQualified
  /-- ISO_RAMP_STEP (R326): Every 1 µs of the closing ramp, ISO_N is asserted or deasserted against the rising reference, and the ramp ends when MBUS is within 300 mV of VIN. -/
  | isoRampStep (vin mbus : Nat)
  /-- RAMP_TIMEOUT (R326): A closing ramp that has not ended within 100 ms leaves ISO_N high and sets HRV_ERR.ramp. -/
  | rampTimeout
  /-- PGOOD_CORE_RISE (R532): The rise of PGOOD_CORE releases CORE from reset, and the clocks and PLLs start. -/
  | pgoodCoreRise
  /-- PGOOD_CORE_LATE (R533): PGOOD_CORE still low 100 ms after the ramp asserts ALERT_N with the power cause. -/
  | pgoodCoreLate
  /-- IMAGE_LOAD_DONE (R549): The mask-ROM loader ends its checks of the slots and reading of the image, and starts the resident firmware or the minimal loader. -/
  | imageLoadDone (m : ImageIn)
  /-- PGOOD_CORE_LOW (R635): PGOOD_CORE low for 2 µs causes an internal cold reset, or during a harvest forces write-unsafe and holds coast writing. -/
  | pgoodCoreLow
  /-- PGOOD_CORE_RETURN (R635): PGOOD_CORE returning within 1 ms during a harvest resumes the harvest and deals the unfinished slots again. -/
  | pgoodCoreReturn
  /-- PGOOD_CORE_TIMEOUT (R635): PGOOD_CORE low for 1 ms during a harvest makes HRV enter DONE without the keel update. -/
  | pgoodCoreTimeout
  /-- PGOOD_A_LOW (R635): PGOOD_A low while a LANE domain runs forces write-unsafe and marks every running LANE domain failed. -/
  | pgoodALow
  /-- PGOOD_B_LOW (R635): PGOOD_B low is an HBM failure and causes diapause with cause 03h. -/
  | pgoodBLow
  /-- LINK_RETRAIN (R447): A link retrain to a lower width or rate sets HST_ERR.lower and starts the contract recheck. -/
  | linkRetrain (rate : Fin 6) (width : Fin 5)
  /-- SYNTH_LOCK_LOSS (R33): Loss of the lane synthesizer lock while WGn is high forces WGn low as a write-unsafe event. -/
  | synthLockLoss (n : Fin 4)
  /-- SYNTH_LOCK_ACQUIRED (R32): At synthesizer lock after a retune, the held live LANEn writes take effect. -/
  | synthLockAcquired (n : Fin 4)
  /-- PAFLT_ASSERT (R135): PAFLTn asserted is a write-unsafe event while WGn is high, and otherwise fails the read in progress and sets LANEn_ERR.pafault. -/
  | pafltAssert (n : Fin 4) (level : Bool)
  /-- COMMAND_FETCH (R409): When a command context is free, HST fetches a submission queue entry, stamps its arrival time and checks it against any contract. -/
  | commandFetch (q : Fin 65) (e : Sqe)
  /-- GRANT (R410): BUF gives a command its completion slot and all its buffer credits once every one of them is free. -/
  | grant
  /-- HOST_DATA_TLP (R411): A write data TLP is stored into the command's landing blocks in the HBM. -/
  | hostDataTlp (id n : Nat)
  /-- SEAL (R412): After its last data TLP, a write is sealed in one commit-engine step once the budget allows it: zone check, dirty or write-through blocks and completion record. -/
  | sealWrites
  /-- READ_SEAL (R413): When all of a read's data has been transferred and its status is fixed, its completion record is sealed. -/
  | readSeal
  /-- COMPLETION_STAGE (R419): A staged completion is posted to the host completion queue once it has space. -/
  | completionStage (cq : Fin 65) (n : Nat)
  /-- CQ_WAIT_LONG (R419): A completion that waits over 1 ms for completion queue space sets BUF_ERR.cqlong. -/
  | cqWaitLong
  /-- PARTIAL_TILE_TIMEOUT (R416): A tile whose dirty blocks are unchanged for BUF_PTILE.ms is written home, zero-filled, and its blocks become held. -/
  | partialTileTimeout (t : Nat)
  /-- WRITE_DEADLINE_MISS (R371): A conforming write not admitted by its deadline less 100 µs completes with Contract Deadline Missed. -/
  | writeDeadlineMiss (id : Nat)
  /-- CONTRACT_STOP_TIME (R372): At the stop time of a conforming read, tiles still outstanding fail the command with Contract Deadline Missed or Unrecovered Read Error. -/
  | contractStopTime (id : Nat)
  /-- FRAME_START (R383): A lane begins a new frame of contract visits and a background slice. -/
  | frameStart (n : Fin 4)
  /-- BUF_CTL_LOCK (R402): A write of 1 to BUF_CTL.lock checks the pools for overlap and fit, locks them and enables I/O fetch. -/
  | bufCtlLock (p : Path) (v : Word)
  /-- BUF_ABORT_WRITE (R414): A write to BUF_ABORT submits an SQID and CID to the commit engine, which resolves the abort against the command's seal. -/
  | bufAbortWrite (p : Path) (v : Word)
  /-- FLUSH (R481): Flush is sealed at its grant and completes at once with no media access. -/
  | flush (q : Fin 65) (e : Sqe)
  /-- WRITE (R412): A Write to NSID 1 or 2 is fetched, granted, landed and sealed against the zone's write pointer and the harvest budget. -/
  | write (q : Fin 65) (e : Sqe)
  /-- READ (R37): A Read returns for each block the most recently admitted data, from HBM or from media. -/
  | read (q : Fin 65) (e : Sqe)
  /-- ZONE_APPEND (R412): A Zone Append is sealed with the zone's write pointer as its LBA. -/
  | zoneAppend (q : Fin 65) (e : Sqe)
  /-- PLANE_READ (R440): A Plane Read returns the selected bit planes of the tiles of bit-plane-split zones. -/
  | planeRead (q : Fin 65) (e : Sqe)
  /-- ZONE_CODE_RATE (R477): Zone Code Rate queries the code rate of an Empty zone or changes it. -/
  | zoneCodeRate (q : Fin 65) (e : Sqe)
  /-- ZONE_CLOSE (R473): Zone Management Send Close closes a zone and writes its partial tile. -/
  | zoneClose (q : Fin 65) (e : Sqe)
  /-- ZONE_FINISH (R473): Zone Management Send Finish writes the partial tile and unmaps the extents beyond the write pointer. -/
  | zoneFinish (q : Fin 65) (e : Sqe)
  /-- ZONE_OPEN (R472): Zone Management Send Open explicitly opens a zone, closing an implicitly opened zone if 64 are open. -/
  | zoneOpen (q : Fin 65) (e : Sqe)
  /-- ZONE_RESET (R69): Zone Reset increments the zone generation and unmaps its extents in one journal record. -/
  | zoneReset (q : Fin 65) (e : Sqe)
  /-- ZONE_RESET_SEAL (R474): A Zone Reset is sealed once every read of the zone granted before it has completed. -/
  | zoneResetSeal
  /-- OFFLINE_ZONE (R471): Offline Zone moves a Read Only zone to Offline, unmapping its extents and releasing its saltern slots. -/
  | offlineZone (q : Fin 65) (e : Sqe)
  /-- SET_ZONE_DESCRIPTOR_EXTENSION (R436): Set Zone Descriptor Extension binds a shuffle descriptor to an empty zone. -/
  | setZoneDescriptorExtension (q : Fin 65) (e : Sqe)
  /-- REPORT_ZONES (R475): Zone Management Receive Report Zones returns the zone descriptors. -/
  | reportZones (q : Fin 65) (e : Sqe)
  /-- EXTENDED_REPORT_ZONES (R475): Zone Management Receive Extended Report Zones returns the zone descriptors with their extensions. -/
  | extendedReportZones (q : Fin 65) (e : Sqe)
  /-- CREATE_IO_SUBMISSION_QUEUE (R455): Create I/O Submission Queue creates one of up to 64 I/O submission queues. -/
  | createIoSubmissionQueue (e : Sqe)
  /-- CREATE_IO_COMPLETION_QUEUE (R455): Create I/O Completion Queue creates one of up to 64 I/O completion queues with its vector. -/
  | createIoCompletionQueue (e : Sqe)
  /-- DELETE_IO_SUBMISSION_QUEUE (R456): Delete I/O Submission Queue completes after the queue's sealed commands have posted and discards its unsealed commands. -/
  | deleteIoSubmissionQueue (e : Sqe)
  /-- DELETE_IO_COMPLETION_QUEUE (R499): Delete I/O Completion Queue deletes a completion queue that no submission queue still uses. -/
  | deleteIoCompletionQueue (e : Sqe)
  /-- IDENTIFY (R461): Identify returns the controller or namespace data of the CNS requested. -/
  | identify (e : Sqe)
  /-- ABORT (R478): Abort submits the SQID and CID of an I/O command to BUF_ABORT and reports the result. -/
  | abort (e : Sqe)
  /-- ASYNCHRONOUS_EVENT_REQUEST (R498): An Asynchronous Event Request waits to carry one of the events that the Gorlo posts. -/
  | asynchronousEventRequest (e : Sqe)
  /-- SET_ARBITRATION (R490): Set Features Arbitration sets the fetch burst. -/
  | setArbitration (e : Sqe)
  /-- SET_POWER_MANAGEMENT (R522): Set Features Power Management checks the refusals of R387, completes, and starts the power-state transition. -/
  | setPowerManagement (e : Sqe)
  /-- SET_TEMPERATURE_THRESHOLD (R601): Set Features Temperature Threshold sets the thresholds, which the firmware writes to ALR_TTH. -/
  | setTemperatureThreshold (e : Sqe)
  /-- SET_NUMBER_OF_QUEUES (R490): Set Features Number of Queues allocates up to 64 I/O queues of each kind. -/
  | setNumberOfQueues (e : Sqe)
  /-- SET_INTERRUPT_COALESCING (R491): Set Features Interrupt Coalescing sets aggregation, which never holds a contracted completion. -/
  | setInterruptCoalescing (e : Sqe)
  /-- SET_INTERRUPT_VECTOR_CONFIGURATION (R490): Set Features Interrupt Vector Configuration sets coalescing per vector. -/
  | setInterruptVectorConfiguration (e : Sqe)
  /-- SET_ASYNC_EVENT_CONFIGURATION (R490): Set Features Asynchronous Event Configuration enables the standard events. -/
  | setAsyncEventConfiguration (e : Sqe)
  /-- SET_APST (R527): Set Features Autonomous Power State Transition loads the APST table. -/
  | setApst (e : Sqe)
  /-- SET_ACOUSTIC_CEILING (R492): Set Features Acoustic Ceiling writes a speed-point cap to SPN_CEIL.acou. -/
  | setAcousticCeiling (e : Sqe)
  /-- SET_MAGAZINE_ENERGY (R493): Set Features Magazine Energy fails with Feature Not Changeable. -/
  | setMagazineEnergy (e : Sqe)
  /-- GET_FEATURES (R489): Get Features returns a feature's current, default or capability value. -/
  | getFeatures (e : Sqe)
  /-- GET_MAGAZINE_ENERGY (R493): Get Features Magazine Energy returns the budget, dirty counts, speed and harvest state. -/
  | getMagazineEnergy (e : Sqe)
  /-- ERROR_INFORMATION_LOG (R470): Get Log Page 01h returns the Error Information log. -/
  | errorInformationLog (e : Sqe)
  /-- SMART_HEALTH_LOG (R495): Get Log Page 02h returns the SMART / Health Information page. -/
  | smartHealthLog (e : Sqe)
  /-- FIRMWARE_SLOT_LOG (R494): Get Log Page 03h returns the Firmware Slot Information page. -/
  | firmwareSlotLog (e : Sqe)
  /-- COMMANDS_SUPPORTED_LOG (R497): Get Log Page 05h returns the Commands Supported and Effects page. -/
  | commandsSupportedLog (e : Sqe)
  /-- CONTRACT_LOG (R399): Get Log Page C4h returns the contract log. -/
  | contractLog (e : Sqe)
  /-- HARVEST_LOSS_LOG (R496): Get Log Page C5h returns the harvest loss log. -/
  | harvestLossLog (e : Sqe)
  /-- EVENT_HISTORY_LOG (R620): Get Log Page C6h returns the event records of the SRAM and the ring, newest first. -/
  | eventHistoryLog (e : Sqe)
  /-- MEASUREMENT_LOG (R622): Get Log Page C7h returns the measurement log from core 0's local memory. -/
  | measurementLog (e : Sqe)
  /-- ENABLE_DIRECTIVE (R463): Directive Send Enable Directive enables the Streams directive on NSID 1. -/
  | enableDirective (e : Sqe)
  /-- RELEASE_IDENTIFIER (R465): Directive Send Streams Release Identifier releases a stream unless a contract binds it. -/
  | releaseIdentifier (e : Sqe)
  /-- RELEASE_RESOURCES (R465): Directive Send Streams Release Resources releases stream resources unless a contract binds them. -/
  | releaseResources (e : Sqe)
  /-- DIRECTIVE_RECEIVE (R463): Directive Receive returns the Identify and Streams directive parameters. -/
  | directiveReceive (e : Sqe)
  /-- FIRMWARE_IMAGE_DOWNLOAD (R485): Firmware Image Download places a piece of an image into the 24 MiB staging area. -/
  | firmwareImageDownload (e : Sqe)
  /-- FIRMWARE_COMMIT_000 (R487): Firmware Commit action 000b checks the staged image and programs it into the slot. -/
  | firmwareCommit000 (e : Sqe)
  /-- FIRMWARE_COMMIT_001 (R487): Firmware Commit action 001b programs the slot and activates it at the next cold reset. -/
  | firmwareCommit001 (e : Sqe)
  /-- FIRMWARE_COMMIT_010 (R487): Firmware Commit action 010b activates the named slot at the next cold reset. -/
  | firmwareCommit010 (e : Sqe)
  /-- FIRMWARE_COMMIT_011 (R488): Firmware Commit action 011b checks and programs the image and then activates it without a reset. -/
  | firmwareCommit011 (e : Sqe)
  /-- FW_SLOT_PROGRAMMED (R488): When the slot is programmed, the activation notice is posted, CSTS.PP is set and fetching stops. -/
  | fwSlotProgrammed
  /-- FW_ACTIVATION_QUIESCED (R488): Once the in-flight commands have completed and the lanes are stopped, the image is re-read and checked, the control stores are reloaded and the cores restart. -/
  | fwActivationQuiesced
  /-- ESTABLISH_CONTRACT (R388): Establish Contract checks the descriptor and the five admission checks and installs the slot as pending. -/
  | establishContract (e : Sqe)
  /-- ESTABLISH_DRAIN_DONE (R388): Once return home is finished and HRV_DIRTY is at most HRV_BUDGET less W, establishment proceeds to wait for lock. -/
  | establishDrainDone
  /-- ESTABLISH_LOCKED (R388): When the spindle locks at a point at or above p, check 4 is repeated and the contract becomes active. -/
  | establishLocked
  /-- ESTABLISH_LOCK_TIMEOUT (R388): A spindle not locked at p within 30 s refuses the contract with reason 09h. -/
  | establishLockTimeout
  /-- RELEASE_CONTRACT (R396): Release Contract frees the slot and recomputes the demand, the floor and CTR_WRES. -/
  | releaseContract (e : Sqe)
  /-- QUERY_CONTRACTS (R397): Query Contracts returns the contract header and the 16 slot entries. -/
  | queryContracts (e : Sqe)
  /-- CONTRACT_RECHECK (R389): After a loss of lanes, engines, budget or link rate, the firmware re-runs admission and breaks the contracts that no longer fit. -/
  | contractRecheck (why : RecheckCause)
  /-- SHUTDOWN_NOTIFICATION_NORMAL (R482): CC.SHN 01b sets CSTS.SHST to 01b and starts draining dirty data. -/
  | shutdownNotificationNormal
  /-- SHUTDOWN_NOTIFICATION_ABRUPT (R482): CC.SHN 10b sets CSTS.SHST to 10b at once. -/
  | shutdownNotificationAbrupt
  /-- SHUTDOWN_COMPLETE (R482): When the dirty counts reach zero and the event recorder is flushed, CSTS.SHST goes to 10b. -/
  | shutdownComplete
  /-- NAMESPACE_READY (R556): After the chopper test, both namespaces are reported ready, and the harvest-loss event is posted if the loss log holds entries. -/
  | namespaceReady
  /-- HEAD_LOAD_REQUEST (R555): When the observer speed first exceeds the head-load speed, the firmware requests LOAD on every fitted actuator. -/
  | headLoadRequest
  /-- ADOPTION_START (R92): With the heads loaded and the spindle past 3,600 rpm, the keel vote, checkpoint read, replay and adoption begin. -/
  | adoptionStart (lost : List Nat := [])
  /-- ADOPTION_COMPLETE (R92): Adoption ends with overlay entries inserted, the loss log built and the map cache enabled. -/
  | adoptionComplete (segs : List (Nat × Nat) := []) (lost : List Nat := [])
  /-- FLUTTER_STARTUP_DONE (R285): When flutter has run on every voice-coil loop for every head, the trims are applied and the chopper test follows. -/
  | flutterStartupDone (rs : List (Fin 16 × Nat × Nat))
  /-- CFG_RCVCMD_KEEL (R560): In recovery mode after keel loss, a write of keel starts the keel rebuild from media. -/
  | cfgRcvcmdKeel (p : Path) (v : Word)
  /-- KEEL_REBUILD_DONE (R560): The keel rebuild ends by writing a new keel and setting CFG_RCVSTAT. -/
  | keelRebuildDone
  /-- CFG_REVOKE (R548): A write to CFG_REVOKE in factory test mode blows the revocation fuses named. -/
  | cfgRevoke (p : Path) (v : Word)
  /-- FLASH_READ_PAGE (R542): CFG_FLCMD go with op 00b reads a flash page into the page buffer. -/
  | flashReadPage (p : Path) (v : Word)
  /-- FLASH_PROGRAM (R542): CFG_FLCMD go with op 01b programs the page buffer into a permitted flash page. -/
  | flashProgram (p : Path) (v : Word)
  /-- FLASH_ERASE (R542): CFG_FLCMD go with op 10b erases a permitted 64 KiB sector. -/
  | flashErase (p : Path) (v : Word)
  /-- FLASH_OP_DONE (R543): A flash operation ends, clearing busy and setting the result. -/
  | flashOpDone (ok : Bool)
  /-- UNIT_BEGIN (R196): An armed unit begins when its position's start passes under the head: a read with capture, or a write if tile-ready holds. -/
  | unitBegin (n : Fin 4) (m : BeginIn)
  /-- UNIT_END_MARK (R212): A unit passes its end mark: a write is verified and released from the FIFO, and counts and offsets advance. -/
  | unitEndMark (n : Fin 4) (err : List Nat)
  /-- TILE_OUTCOME_POST (R116): The lane posts a tile's decode outcome to BUF and writes the capture header. -/
  | tileOutcomePost (n : Fin 4) (its : List (Option Nat)) (words : List Codeword) (ecc : Bool)
  /-- SET_LOAD_COMPLETE (R146): A set load ends, loading the working registers and sending the preamplifier values, or failing on ECC or an invalid marker. -/
  | setLoadComplete (n : Fin 4) (ecc : Bool)
  /-- EQMU_SAVE (R110): A write of 1 to LANEn_EQMU.save requests that the working taps be copied into the set RAM. -/
  | eqmuSave (p : Path) (n : Fin 4) (v : Word)
  /-- EQ_TAP_COPY (R110): At the next moment when RG is low, the working taps are copied into the active set, and save clears. -/
  | eqTapCopy (n : Fin 4) (k : Nat)
  /-- CALDATA_ACCESS (R148): An access to LANEn_CALDATA reads or writes a set RAM word and advances the address when inc is 1. -/
  | caldataAccess (p : Path) (n : Fin 4) (wr : Option Word) (ecc : Bool)
  /-- BRHW_CLR (R140): A write of 1 to LANEn_BRHW.clr zeroes both capture high-water marks. -/
  | brhwClr (p : Path) (n : Fin 4) (v : Word)
  /-- PASCMD_WRITE (R143): A write to LANEn_PASCMD queues a preamp port transaction, held while WGn is high. -/
  | pascmdWrite (p : Path) (n : Fin 4) (v : Word)
  /-- PAS_FRAME_SEND (R142): A held or queued preamp frame starts on the serial port once WGn is low. -/
  | pasFrameSend (n : Fin 4)
  /-- PAS_FRAME_DONE (R142): A preamp frame ends, returning the read data and clearing busy. -/
  | pasFrameDone (n : Fin 4) (rdata : Byte)
  /-- CRYS_DISPATCH (R168): An idle engine in service takes the first class 0, class 1 or class 2 entry. -/
  | crysDispatch
  /-- ENGINE_PHASE_END (R170): An engine ends a load, sync, prepare or finish phase and checks its stop time. -/
  | enginePhaseEnd (e : Fin 4) (brine : List Nat) (store : Bool) (sync : Option Nat)
  /-- ENGINE_ITERATION_END (R171): An engine ends a global iteration, checks the syndrome and checks its stop time. -/
  | engineIterationEnd (e : Fin 4) (w : Option Codeword) (store : Bool)
  /-- ENGINE_WATCHDOG (R175): An engine running longer than 4.5 ms on one entry goes offline, and its entry is queued again. -/
  | engineWatchdog (e : Fin 4)
  /-- CLASS2_AGEING (R167): A class 2 entry that has waited longer than agems moves to class 1. -/
  | class2Ageing
  /-- CLASS0_EXPIRE_UNDISPATCHED (R176): A class 0 entry whose stop time passes before dispatch ends EXPIRED. -/
  | class0ExpireUndispatched
  /-- CRYS_ENGON (R184): A write of CRYS_CMD.engon starts the return test of an offline engine. -/
  | crysEngon (p : Path) (v : Word)
  /-- ENGINE_RETURN_TEST_DONE (R184): The engine's return test ends, returning it to service or leaving it offline with CRYS_ERR.wdog set. -/
  | engineReturnTestDone (e : Fin 4) (ok : Bool)
  /-- CRYS_DIRCLR (R159): A write of CRYS_CMD.dirclr drops a lane's unpinned records from the directory. -/
  | crysDirclr (p : Path) (v : Word)
  /-- CRYS_MAXUS_CLR (R661): A write of 1 to CRYS_MAXUS.clr sets the longest-outcome time to zero. -/
  | crysMaxusClr (p : Path) (v : Word)
  /-- MCS_START (R187): A write of MCSn_CTL.start clears the sequencer's stack, counters, timers and latches and runs from MCSn_START.addr. -/
  | mcsStart (p : Path) (n : Fin 4) (v : Word)
  /-- MCS_STOP (R226): A write of MCSn_CTL.stop sets HALTREQ, and the sequencer stops at the next safe word end. -/
  | mcsStop (p : Path) (n : Fin 4) (v : Word)
  /-- MCS_KILL (R227): A write of MCSn_CTL.kill ends execution, returns the commands to BUF and enters STOPPED. -/
  | mcsKill (p : Path) (n : Fin 4) (v : Word)
  /-- MCS_LOAD_GO (R230): A write of MCSn_LDCTL.go starts copying the load source from HBM into the control store. -/
  | mcsLoadGo (p : Path) (n : Fin 4) (v : Word)
  /-- MCS_LOAD_DONE (R231): A control-store load ends, comparing its digest with the expected digest and setting match. -/
  | mcsLoadDone (n : Fin 4) (ecc : Bool)
  /-- CS_WINDOW_WRITE (R238): In factory test, a window write holds the low words and stores all 160 bits at the +16 write, clearing match. -/
  | csWindowWrite (p : Path) (a : Word) (v : Word)
  /-- CONT (R192): A microword with SEQ CONT executes for its dwell and continues at the next address. -/
  | cont (n : Fin 4) (e : WordEnv)
  /-- JUMP (R192): A microword with SEQ JUMP continues at NADDR. -/
  | jump (n : Fin 4) (e : WordEnv)
  /-- JCOND (R192): A microword with SEQ JCOND continues at NADDR if its condition holds. -/
  | jcond (n : Fin 4) (e : WordEnv)
  /-- CALL (R192): A microword with SEQ CALL pushes a return address and continues at NADDR. -/
  | call (n : Fin 4) (e : WordEnv)
  /-- RET (R192): A microword with SEQ RET pops the micro-stack. -/
  | ret (n : Fin 4) (e : WordEnv)
  /-- LOOP (R192): A microword with SEQ LOOP tests and decrements a loop counter and branches. -/
  | loop (n : Fin 4) (e : WordEnv)
  /-- WAITC (R208): A microword with SEQ WAITC starts and repeats until its condition is true. -/
  | waitc (n : Fin 4) (e : WordEnv)
  /-- WAITC_END (R208): A WAITC word ends in the first word clock in which its condition is true. -/
  | waitcEnd (n : Fin 4) (e : WordEnv)
  /-- TRAPRET (R224): A microword with SEQ TRAPRET leaves the trap handler, restoring or resetting state as CPOL selects. -/
  | trapret (n : Fin 4) (e : WordEnv)
  /-- FORCED_HARVEST_TRAP (R223): A harvest cause pending for 32,768 word clocks is taken at the current word's end whatever its TRAPEN. -/
  | forcedHarvestTrap (n : Fin 4)
  /-- CMDPOP (R195): BUFOP CMDPOP takes the next queued media command as the current command, completing zero-count commands. -/
  | cmdpop (n : Fin 4)
  /-- CMDDONE (R195): BUFOP CMDDONE completes the current command successfully. -/
  | cmddone (n : Fin 4)
  /-- CMDERR (R195): BUFOP CMDERR ends the current command with a lane error code. -/
  | cmderr (n : Fin 4) (code : Byte)
  /-- REQUEUE (R195): BUFOP REQUEUE returns the current command's incomplete units to BUF. -/
  | requeue (n : Fin 4)
  /-- FLUSHQ (R195): BUFOP FLUSHQ returns every queued command to BUF. -/
  | flushq (n : Fin 4)
  /-- START (R196): TILEOP START arms one unit at POS in the word's datapath mode. -/
  | start (n : Fin 4) (dpath : BitVec 4) (modsel sync : Byte)
  /-- SETLOAD (R196): TILEOP SETLOAD starts loading the calibration set for the current command's surface and track. -/
  | setload (n : Fin 4)
  /-- NEXT (R196): TILEOP NEXT moves POS or the quarter to the next usable position. -/
  | next (n : Fin 4)
  /-- REWIND (R196): TILEOP REWIND restores the position, counts, offset and FIFO head from the trap frame. -/
  | rewind (n : Fin 4)
  /-- DEFECT (R196): TILEOP DEFECT reports POS as damaged, and MAP journals a grown defect. -/
  | defect (n : Fin 4)
  /-- ABANDON (R196): TILEOP ABANDON ends the unit in progress at once. -/
  | abandon (n : Fin 4)
  /-- CLRST (R196): TILEOP CLRST clears the write-unsafe, write-miss and write-verification latches. -/
  | clrst (n : Fin 4)
  /-- LD0 (R197): LCOP LD0 loads LC0 from LCIMM. -/
  | ld0 (n : Fin 4) (imm : BitVec 12)
  /-- LD1 (R197): LCOP LD1 loads LC1 from LCIMM. -/
  | ld1 (n : Fin 4) (imm : BitVec 12)
  /-- LDB (R197): LCOP LDB loads both loop counters from LCIMM. -/
  | ldb (n : Fin 4) (imm : BitVec 12)
  /-- CNT0 (R197): LCOP CNT0 loads LC0 with the remaining count. -/
  | cnt0 (n : Fin 4)
  /-- CNT1 (R197): LCOP CNT1 loads LC1 with the remaining count. -/
  | cnt1 (n : Fin 4)
  /-- DEC0 (R197): LCOP DEC0 decrements LC0, stopping at 0. -/
  | dec0 (n : Fin 4)
  /-- DEC1 (R197): LCOP DEC1 decrements LC1, stopping at 0. -/
  | dec1 (n : Fin 4)
  /-- INC0 (R197): LCOP INC0 increments LC0, stopping at FFFh. -/
  | inc0 (n : Fin 4)
  /-- INC1 (R197): LCOP INC1 increments LC1, stopping at FFFh. -/
  | inc1 (n : Fin 4)
  /-- TIMER_LOAD (R198): TIMOP load loads IMM into the selected timers and starts them. -/
  | timerLoad (n : Fin 4) (sel unit : BitVec 2) (imm : BitVec 16)
  /-- TIMER_STOP (R198): TIMOP stop stops the selected timers. -/
  | timerStop (n : Fin 4) (sel : BitVec 2)
  /-- TIMER_RESTART (R198): TIMOP restart restarts the selected timers from their last loaded value. -/
  | timerRestart (n : Fin 4) (sel : BitVec 2)
  /-- TIMER_EXPIRE (R198): A sequencer timer counting down reaches zero and its condition becomes true. -/
  | timerExpire (n : Fin 4) (t : Fin 2)
  /-- PREAMP_STROBE (R199): PREAMP strobe bits queue their MCSn_PSTRBk frames for the preamp port. -/
  | preampStrobe (n : Fin 4) (strobes : BitVec 7)
  /-- HSEL (R199): PREAMP bit 7 sends a head-select frame for the current command's head. -/
  | hsel (n : Fin 4)
  /-- SEEK (R272): SRVOP SEEK starts a seek to the current command's track with its surface's head. -/
  | seek (n : Fin 4)
  /-- SEEKSALT (R276): SRVOP SEEKSALT seeks, or re-plans a running seek, to the saltern band that HRV names. -/
  | seeksalt (n : Fin 4)
  /-- OFFSET (R201): SRVOP OFFSET applies a track-following offset. -/
  | offset (n : Fin 4) (imm : BitVec 16)
  /-- CLROFF (R201): SRVOP CLROFF removes the track-following offset. -/
  | clroff (n : Fin 4)
  /-- UNLOAD (R277): SRVOP UNLOAD moves the heads to the ramp under velocity control. -/
  | unload (n : Fin 4)
  /-- LOAD (R277): SRVOP LOAD loads the heads from the ramp. -/
  | load (n : Fin 4)
  /-- WIDEN (R203): SYNCOP WIDEN extends the sync search of the unit that the word starts. -/
  | widen (n : Fin 4)
  /-- AGCHOLD (R203): SYNCOP AGCHOLD keeps the previous unit's gain for the unit that the word starts. -/
  | agchold (n : Fin 4)
  /-- MICROCODE_EVENT (R204): A non-zero EVT code posts a microcode event record, and codes 80h to FFh also raise the microcode cause. -/
  | microcodeEvent (n : Fin 4) (code : Byte) (imm : BitVec 16)
  /-- STAT_COUNT (R205): Each set STAT bit adds one to its statistics counter. -/
  | statCount (n : Fin 4) (mask : Byte)
  /-- SERVO_SAMPLE (R242): At each wedge time a lane hands MOTION a valid or missed position sample, and that actuator's loops, seek and limits are computed. -/
  | servoSample (a : Fin 4) (m : SampleIn)
  /-- UNLOAD_COMPLETE (R277): An unload ends with the actuator's heads on the ramp. -/
  | unloadComplete (a : Fin 4)
  /-- LOAD_COMPLETE (R277): A load ends with the actuator track-following on its first valid sample. -/
  | loadComplete (a : Fin 4) (pos : Int)
  /-- SCA_SKCMD_GO (R272): A write to SCA_SKCMDa.go starts a seek to SCA_SKCMDa.track. -/
  | scaSkcmdGo (p : Path) (a : Fin 4) (v : Word)
  /-- SRV_SETCMD_GO (R269): A write to SRV_SETCMD.go starts installing the named servo set. -/
  | srvSetcmdGo (p : Path) (v : Word)
  /-- SET_INSTALL_DONE (R268): The set loader finishes installing a servo set or stops on an invalid set. -/
  | setInstallDone (ecc : Bool)
  /-- SRV_SSDATA_ACCESS (R266): An access to SRV_SSDATA reads or writes a set store word and advances the address when inc is 1. -/
  | srvSsdataAccess (p : Path) (wr : Option Word) (ecc : Bool)
  /-- FLUTTER_GO (R282): A write of SCA_FLCTL.go starts flutter on the named loop. -/
  | flutterGo (p : Path) (v : Word)
  /-- FLUTTER_ABORT (R284): A write of SCA_FLCTL.abort ends flutter as failed. -/
  | flutterAbort (p : Path) (v : Word)
  /-- SCA_STAT_CLR (R661): A write of 1 to SCA_STAT.clr sets the recorded latency to zero. -/
  | scaStatClr (p : Path) (v : Word)
  /-- VIB_FRAME (R649): In each PWM period MOTION runs a vibration-sensor frame and checks the reading for shock. -/
  | vibFrame (reading : BitVec 16)
  /-- VCM_PWM_PERIOD (R651): Each 200 kHz period the voice-coil current controller samples the coil current and sets the next duty. -/
  | vcmPwmPeriod (a : Fin 4) (isns : Int)
  /-- PWM_PERIOD (R287): Each 25 µs PWM period SPN samples the phases, runs the observer and current control, and applies duties or braking. -/
  | pwmPeriod (m : PwmIn)
  /-- PHASE_OVERCURRENT (R291): A phase current above SPN_ILIM.trip turns off all gates for the rest of the period. -/
  | phaseOvercurrent
  /-- SPINDLE_TICK (R249): Every 100 µs the spindle loop, set-point ramp, speed curve and SPDCMD reading are computed. -/
  | spindleTick (m : SpdIn)
  /-- TURN_ON_WINDOW_END (R315): The turn-on window ends SPN_CRVHYS.onhold seconds after upok, restoring the normal hysteresis. -/
  | turnOnWindowEnd
  /-- LOWER_TARGET_RELEASE (R310): A waiting lower target is passed to the ramp once HRV_DIRTY is below HRV_TBUDGET or is zero. -/
  | lowerTargetRelease
  /-- SPN_CTL_ARM (R296): A write that changes SPN_CTL.arm permits or forbids SPN to drive the bridge. -/
  | spnCtlArm (p : Path) (v : Word)
  /-- SPN_CTL_RUN (R296): A write of SPN_CTL.run requests a start or commands the controlled stop under the curve. -/
  | spnCtlRun (p : Path) (v : Word)
  /-- SPN_CTL_SRC (R319): A write of SPN_CTL.src selects the speed curve or SPDCMD as the speed source. -/
  | spnCtlSrc (p : Path) (v : Word)
  /-- SENSE_END (R298): At the end of the sense time the rotor is caught into RUN or braked. -/
  | senseEnd
  /-- STANDSTILL (R299): After SPN_BRK.hold in BRAKE with no current peak, standstill is declared and SPN enters PROBE or OFF. -/
  | standstill
  /-- PROBE_END (R300): The six probe pulses end, and a conclusive probe gives the rotor sector. -/
  | probeEnd (peaks : List Nat)
  /-- ALIGN_END (R301): After SPN_ALIGN.time of alignment current, SPN enters GO. -/
  | alignEnd
  /-- STOP_DRAIN_DONE (R309): During a controlled stop, both dirty counts reaching zero lets the unloads and the ramp down proceed. -/
  | stopDrainDone
  /-- CONN_DET_BREAK (R325): CONN_DET high for 250 ns deasserts ISO_N within 2 µs and triggers a harvest. -/
  | connDetBreak
  /-- REVERSE_CURRENT (R325): MBUS_SENSE above VIN_SENSE by the reverse threshold for 250 ns opens the switch and triggers a harvest. -/
  | reverseCurrent
  /-- SUPPLY_LOSS (R329): VIN_SENSE below HRV_VINTH.lvl for the filter time triggers a harvest. -/
  | supplyLoss
  /-- HRV_FORCE (R329): A write of HRV_CMD.force in factory test mode triggers a harvest. -/
  | hrvForce (p : Path) (v : Word)
  /-- PARK_TIMEOUT (R350): 300 ms after the park unload request, SPN is moved to BRAKE regardless. -/
  | parkTimeout
  /-- REJOIN_RESET (R331): In DONE, a good supply and a mated connector for the rejoin time raise an internal cold reset. -/
  | rejoinReset
  /-- HRV_BUDGET_COMPUTE (R337): At each reference-lane index, or every 8.33 ms, HRV computes the harvest budget and the target budget. -/
  | hrvBudgetCompute
  /-- HRV_CTL_ARM (R335): A write of HRV_CTL.arm enables or disables the budget computation. -/
  | hrvCtlArm (p : Path) (v : Word)
  /-- CHOPPER_ON (R352): MBUS_SENSE rising above HRV_BUS.chon drives CHOP high. -/
  | chopperOn (mbus : Nat)
  /-- CHOPPER_OFF (R352): MBUS_SENSE falling below HRV_BUS.choff drives CHOP low. -/
  | chopperOff (mbus : Nat)
  /-- CHOPPER_FAULT (R353): A chopper current out of range for tdet sets an open or short fault and starts throttling. -/
  | chopperFault (isns : Byte)
  /-- CHOP_TEST (R353): A write of HRV_CMD.chtest applies a 50 µs chopper test pulse. -/
  | chopTest (p : Path) (v : Word)
  /-- CHOP_TEST_END (R353): The chopper test pulse ends and is checked. -/
  | chopTestEnd (isns : Byte)
  /-- HOLD_LOW (R355): HOLD_SENSE falling below 10.0 V ends coast writing and moves HRV to COMMIT. -/
  | holdLow (hold : Nat)
  /-- DOUBLE_FAULT (R356): A chopper-and-throttle double fault keeps the switch open and enters diapause with cause 06h. -/
  | doubleFault
  /-- THERMAL_CRITICAL (R360): A junction temperature above tcrit for 100 ms enters diapause with cause 05h. -/
  | thermalCritical
  /-- DIAPAUSE_COMMIT_DONE (R361): The diapause or pre-reset commit ends with its keel update, and the controlled stop or reset follows. -/
  | diapauseCommitDone
  /-- LOCKSTEP_MISMATCH (R574): A mismatch between master and checker halts the commit engine and enters diapause with cause 01h. -/
  | lockstepMismatch (g : Option (Fin 8)) (cyc : Word)
  /-- JOURNAL_TILE_TIMEOUT (R80): A journal tile is written 100 ms after its first record if not full. -/
  | journalTileTimeout
  /-- JOURNAL_TILE_ON_MEDIA (R79): A journal tile on media in both copies releases the locations and slots that its records supersede. -/
  | journalTileOnMedia
  /-- MAP_CMD_CKPT (R81): A write of MAP_CMD.ckpt starts a checkpoint. -/
  | mapCmdCkpt (p : Path) (v : Word)
  /-- CHECKPOINT_DONE (R81): A checkpoint ends with the keel naming the new area and the earlier journal released, or fails. -/
  | checkpointDone (retried : Bool)
  /-- RETURN_HOME (R95): An overlaid tile is read from the saltern, written home, journalled and released. -/
  | returnHome (ns key : Nat)
  /-- MAP_CTL_EN (R88): A write of MAP_CTL.en enables the map cache or starts draining it. -/
  | mapCtlEn (p : Path) (v : Word)
  /-- MAP_CMD_INV (R89): A write of MAP_CMD.inv starts invalidating the map cache. -/
  | mapCmdInv (p : Path) (v : Word)
  /-- MAP_FILL_LAND (R90): A map cache fill lands, installing the line or discarding it as stale. -/
  | mapFillLand
  /-- MAP_CACHE_CLEAN_DONE (R88): When all lines are clean and invalidated, the cache leaves DRAINING or INVALIDATING. -/
  | mapCacheCleanDone
  /-- DMA_CH_START (R429): A write of DMA_CHn_CTL.start begins execution at the channel PC. -/
  | dmaChStart (p : Path) (n : Fin 16) (v : Word)
  /-- DMA_CH_RESUME (R434): A write of resume repeats the failing beat and continues. -/
  | dmaChResume (p : Path) (n : Fin 16) (v : Word)
  /-- DMA_CH_ABORT (R434): A write of abort abandons the program and puts the channel in IDLE. -/
  | dmaChAbort (p : Path) (n : Fin 16) (v : Word)
  /-- DMA_DOORBELL (R430): A write to DMA_CHn_DB sets the doorbell flag and restarts a channel halted at an END. -/
  | dmaDoorbell (p : Path) (n : Fin 16) (v : Word)
  /-- DMA_SIGSET (R426): A write to DMA_SIGSET sets DMA signals. -/
  | dmaSigset (p : Path) (k : Fin 2) (v : Word)
  /-- DMA_SIGCLR (R426): A write to DMA_SIGCLR clears DMA signals. -/
  | dmaSigclr (p : Path) (k : Fin 2) (v : Word)
  /-- DMA_END (R430): An END halts the channel in ENDHALT or refetches when the doorbell is pending. -/
  | dmaEnd (n : Fin 16)
  /-- DMA_MOVE (R424): A MOVE copies bytes between operands in bursts and fires its attached signal. -/
  | dmaMove (n : Fin 16)
  /-- MOVS (R439): A MOVS copies tiles through the plane shuffler in the direction given. -/
  | movs (n : Fin 16)
  /-- DMA_LOOP (R425): A LOOP repeats its body count times with strides. -/
  | dmaLoop (n : Fin 16)
  /-- ENDL (R425): An ENDL ends the body of the innermost LOOP. -/
  | endl (n : Fin 16)
  /-- DMA_WAIT (R426): A WAIT holds the channel until its signal is set. -/
  | dmaWait (n : Fin 16)
  /-- DMA_WAIT_SATISFIED (R426): A waiting channel's signal is set, and it continues, consuming the signal if asked. -/
  | dmaWaitSatisfied (n : Fin 16)
  /-- SIG (R426): A SIG sets its signal and optionally a channel interrupt. -/
  | sig (n : Fin 16)
  /-- DMA_JUMP (R427): A JUMP continues the program at its target. -/
  | dmaJump (n : Fin 16)
  /-- DMA_BURST (R432): A channel starts a burst once its port request is asserted. -/
  | dmaBurst (n : Fin 16) (rest : Bool) (bad : Option Nat) (inp : List Byte)
  /-- SHF_SLOT_WRITE (R443): A write to a firmware slot's D1 register takes the descriptor and marks the slot valid or invalid. -/
  | shfSlotWrite (p : Path) (k : Fin 16) (hi : Bool) (v : Word)
  /-- PWR_CMD_GO (R504): A write of PWR_CMD.go starts emergence of the wake set and then cocooning of the stop set. -/
  | pwrCmdGo (p : Path) (v : Word)
  /-- COCOON_AGREE (R504): A requested domain agrees and is cocooned, and the next domain is requested. -/
  | cocoonAgree
  /-- COCOON_DELAY_TIMEOUT (R505): A delay longer than PWR_HSCFG.dmax is treated as a refusal with reason 1h. -/
  | cocoonDelayTimeout
  /-- ENTRY_RETRY (R507): After the backoff, PWR runs the rolled-back entry again. -/
  | entryRetry
  /-- EMERGENCE_STEP_DONE (R514): An emergence step's wait ends, and the domain proceeds to its next step or the next domain. -/
  | emergenceStepDone
  /-- EMERGENCE_STEP_TIMEOUT (R516): An emergence step that times out restarts the domain once, and a second timeout marks it failed. -/
  | emergenceStepTimeout
  /-- PWR_PADREL (R513): A write to PWR_PADREL releases a domain's held pads, sending the lane wake frame. -/
  | pwrPadrel (p : Path) (v : Word)
  /-- DOMAIN_IDLE_COCOON (R523): A lane or the HBM idle for PWR_HSCFG.idle ms returns to the cocoon in PS2 or PS4. -/
  | domainIdleCocoon (d : Fin 7)
  /-- APST_TRANSITION (R527): PWR_IDLE reaching an APST entry's idle time starts the transition to its state. -/
  | apstTransition
  /-- ECC_FLIP_ARM (R566): A write of ECC_FLIPCTL.arm arms a flip on the named memory word. -/
  | eccFlipArm (p : Path) (v : Word)
  /-- ECC_SPLIT_EN (R568): A write of ECC_SPLITCTL.en enables split check-bit mode on a memory. -/
  | eccSplitEn (p : Path) (v : Word)
  /-- ECC_CTL_CLR (R563): A write of ECC_CTL.clr zeroes every ECC counter. -/
  | eccCtlClr (p : Path) (v : Word)
  /-- TMR_INJ (R571): A write of TMR_INJ.go replaces one copy of a triplicated word, which the voter then corrects. -/
  | tmrInj (p : Path) (v : Word)
  /-- TMR_LSCTL_INJ (R576): In factory test, a write of TMR_LSCTL.inj inverts one checker output bit for one step. -/
  | tmrLsctlInj (p : Path) (v : Word)
  /-- RAKE_SCRUB (R579): In an idle port clock the rake reads a word and writes back a corrected one. -/
  | rakeScrub (t : Fin 12) (place : HbmPlace)
  /-- RAKE_LAP_END (R582): A rake cursor completes a lap, counting it and checking a control-store digest. -/
  | rakeLapEnd (t : Fin 12) (ms : Word)
  /-- RAKE_LAP_SLOW (R582): A lap running longer than lapmax sets RAKE_ERR.slow. -/
  | rakeLapSlow (t : Fin 12)
  /-- ISST_CMD_GO (R586): A write of ISST_CMD.go starts a self-test slice on a stopped lane. -/
  | isstCmdGo (p : Path) (v : Word)
  /-- ISST_BLOCK_END (R589): An ISST block or repetition ends and is compared, ending the slice on failure or at its length. -/
  | isstBlockEnd (ok : Bool)
  /-- SENSE_ADC_CHECK (R592): Every ISST_SENSECFG.period ms each sense ADC converts its references and flags a failure. -/
  | senseAdcCheck (a : Fin 7) (ok : Bool)
  /-- TEMP_SENSOR_UPDATE (R601): Every 10 ms ALR_TEMP is updated and the thermal thresholds are checked. -/
  | tempSensorUpdate (tj td hbm : Byte)
  /-- ALR_CAUSE_WRITE (R598): A write of 1 to a cause latch clears it only if all its source bits are clear. -/
  | alrCauseWrite (p : Path) (v : Word)
  /-- EVT_SW_POST (R612): A write of EVT_SWc_HDR.post posts a firmware event record. -/
  | evtSwPost (p : Path) (c : Fin 4) (v : Word)
  /-- EVT_TLOCK (R608): A write of EVT_CTL.tlock locks the time base and rewrites the early records. -/
  | evtTlock (p : Path) (v : Word)
  /-- EVT_CMD_FLUSH (R616): A write of EVT_CMD.flush requests a flush of the unflushed records. -/
  | evtCmdFlush (p : Path) (v : Word)
  /-- EVT_FLUSH_PAGE_DONE (R617): A flush page program of four records ends, and the next page or the next sector erase follows. -/
  | evtFlushPageDone (ok : Bool)
  /-- EVT_FLUSH_DONE (R616): A flush ends, and any pending second flush starts. -/
  | evtFlushDone
  /-- EVT_SECTOR_ERASE_DONE (R617): The erase of the ring sector ahead ends. -/
  | evtSectorEraseDone
  /-- MEASUREMENT_INTERVAL_END (R621): At the end of each interval the measurements are latched and gathering restarts. -/
  | measurementIntervalEnd (vin hold mbus : BitVec 16)
  /-- NVME_MI_BASIC_MANAGEMENT (R604): SMBus command 00h returns the NVMe-MI basic management data and the vendor block. -/
  | nvmeMiBasicManagement (tgt : BitVec 7) (off : BitVec 6) (len : BitVec 7)
  /-- SMBUS_SET_ADDRESS (R605): SMBus command F0h sets the register address. -/
  | smbusSetAddress (tgt : BitVec 7) (a : Word) (pec : PecIn)
  /-- SMBUS_REGISTER_READ (R605): SMBus command F1h reads the register at the set address. -/
  | smbusRegisterRead (tgt : BitVec 7)
  /-- SMBUS_REGISTER_WRITE (R605): SMBus command F2h writes a register within the SMBus subset. -/
  | smbusRegisterWrite (tgt : BitVec 7) (a : Word) (v : Word) (pec : PecIn)
  /-- ALERT_RESPONSE (R606): A read of the Alert Response Address returns the Gorlo's address and releases ALERT_N if arbitration is won. -/
  | alertResponse (won : Bool)
  /-- SMBUS_TIMEOUT (R646): SMB_SCL low for 25 to 35 ms resets the sideband interface. -/
  | smbusTimeout
  /-- TAP_INSTRUCTION (R655): An instruction loaded into the test access port selects BYPASS, IDCODE or SAMPLE/PRELOAD outside factory test. -/
  | tapInstruction (ir : TapInstr)
  /-- PERST_N_DEASSERT (R448): The deassertion of PERST_N releases the HOST domain from reset so that the link can train. -/
  | perstNDeassert
  /-- LINK_UP (R534): The PCIe link trains to L0, after which configuration requests get Request Retry Status until the IDS section is applied, and PEWAKE_N is released. -/
  | linkUp (rate : Fin 6) (width : Fin 5)
  /-- COUNTERS_RECORD (R540): Every 10 minutes the resident firmware appends a power-on time and power-cycle counters record to the counters sector, switching and erasing sectors when one is full. -/
  | countersRecord
  /-- IGNORED_READ (R18): A read that the manual does not permit, such as a narrow, misaligned or unimplemented-offset read or a read of a cocooned block, returns zero and is counted and recorded in BLK_IGNCNT and BLK_IGNADDR. -/
  | ignoredRead (p : Path) (a : Word) (w : Width)
  /-- UNSUPPORTED_OPCODE (R462): A command with an opcode that the Gorlo does not support, such as Compare, Format NVM or Sanitize, completes with Invalid Command Opcode. -/
  | unsupportedOpcode (q : Fin 65) (e : Sqe)
  /-- PCIE_ERROR (R499): A correctable or uncorrectable PCIe error is detected and reported through AER, setting HST_ERR.corr or HST_ERR.uncorr; on a data transfer it fails the command with Data Transfer Error. -/
  | pcieError (corr : Bool) (xfer : Option Nat)
  /-- MEMORY_BIT_ERROR (R563): A stored bit in an SRAM, the HBM stack or a copy of a triplicated word changes of itself, to be corrected or detected at the next read, scrub or vote. -/
  | memoryBitError (e : MemEvent)
deriving DecidableEq, Repr

end Sys2Proof
end

