-- ==== Sys2Proof/Decode.lean ====
section
/-! DEFINITION. The words of the table: the table of operations and events gives none of its rows any bits, so no word
spells a command. -/

namespace Sys2Proof

/-- The command that the word `w` of `nbits` bits spells by the table's bits: none, since no row has bits. -/
def decodeTableWord (_nbits _w : Nat) : Option Instr := none

end Sys2Proof
end

