-- ==== Sys2Proof/Config.lean ====
section
/-! DEFINITION. What an implementation fixes and the spec leaves open: constants without a body, so that no proof can
see a value of them. Each is named in a row of the assumption log. -/

namespace Sys2Proof.Config

/-- CRC-32C of a list of bytes (R607); the spec names the code and gives no parameters. -/
opaque crc32c : List Byte → BitVec 32

/-- SHA-384 of a list of bytes, its byte `k` in bits `8k + 7` to `8k`; the spec names the function. -/
opaque sha384 : List Byte → BitVec 384

/-- A root mean square of no samples, and otherwise, by its lowest bit, the rounding of one (R621). -/
opaque rms : Nat → Nat → Nat

/-- A mean of no samples, and otherwise, by its lowest bit, the rounding of one (R622). -/
opaque meanOf : Nat → Nat → Nat

/-- The rounding, by the lowest bit, of the seek reference and its planned acceleration at a sample (R273, R276). -/
opaque roundSeek : Int → Nat → Int

/-- The length of a re-planned motion (R276) where no length of 16 bits meets the limit: from position, velocity,
acceleration, target and limit. -/
opaque replanLength : Int → Int → Int → Int → Nat → Nat

/-- The length of a profile while SRV_SKPa.amax is zero, which no length meets (R273). -/
opaque lengthNoLimit : Int → Nat

/-- The rounding, by the lowest bit, of a product whose given number of low bits the accumulator drops (R260). -/
opaque align : Int → Nat → Int

/-- The signal word of an accumulator that rounds above the greatest signal word (R259). -/
opaque signalTop : Int

/-- The rounding, by the lowest bit, of a demand or a feedforward product brought to a signal word (R253). -/
opaque roundGain : Int → Nat → Int

/-- Whether an exact quotient that is no whole number is brought upward to its register's units (else downward). -/
opaque roundUp : Nat → Nat → Bool

/-- The direct and the quadrature current (R305), from the observer's angle and the phase currents. -/
opaque park : Nat → List Int → Int × Int

/-- The duties of the three phases in 1/5,000 (R287, R305), from the observer's angle and the direct and quadrature voltages. -/
opaque phaseDuty : Nat → Int × Int → List Int

/-- The voltages at which the current control begins (R298), from the observer's speed and angle. -/
opaque emf : Nat → Nat → Int × Int

/-- The braking current with which HRV holds the motor bus (R351), from the bus voltage and the set-point. -/
opaque rectRef : Nat → Nat → Nat

/-- The braking current to which HRV limits SPN while the switch is closed (R328), from `VIN_SENSE` and `MBUS_SENSE` and HRV_ISOCFG.rev. -/
opaque regenBound : Nat → Nat → Nat → Nat

/-- The `n`-th free value, for what the spec leaves open at one event. -/
opaque freeInt : Nat → Int

/-- CTR's estimate whether a write of so many bytes can reach write path step 7 in so many µs (R371). -/
opaque reachable : Nat → Nat → Bool

/-- CTR's estimate whether the next visit can still start by its offset in µs if other work starts now, so many µs after the start of the
frame (R383). -/
opaque visitFits : Nat → Nat → Bool

/-- The context that the resident firmware puts into its event records (R609), by a running count and the event code. -/
opaque fwContext : Nat → Nat → List Byte

/-- The LTSSM state codes that HST_LINK shows (R501): 0 while the link is down, 1 in L0. -/
opaque ltssm : Nat → BitVec 6

/-- The Vendor and Device IDs in the fuses, with which the minimal loader trains the link (R550). -/
opaque fuseVid : BitVec 16
opaque fuseDid : BitVec 16

/-- The root public key in the fuses (R548), as the 97 bytes of a point. -/
opaque rootKey : List Byte

/-- An ECDSA P-384 signature (R544) of a digest is right under a public key: key, digest, r and s. -/
opaque ecdsa : List Byte → BitVec 384 → List Byte → Bool

/-- The rounding, by the lowest bit, of a numerator mantissa times a trim (R285). -/
opaque trimmed : Int → Nat → Nat → Nat → Int

/-- The eight check bits of the SECDED (72,64) code (R563); the spec gives no matrix. -/
opaque secded : BitVec 64 → BitVec 8

/-- The rounding, by the lowest bit, of a quotient that lies halfway between two numbers (R107). -/
opaque tie : Int → Nat → Int

/-- The signal of a reader behind its CTLE (R101, R103), from the boost in 0.5 dB steps, the code of the peaking frequency and
the signal; the spec gives the two settings and no transfer function. -/
opaque ctle : Nat → Nat → List Int → List Int

/-- A signal value amplified by a VGA gain in 0.125 dB steps (R103), rounded. -/
opaque vga : Nat → Int → Int

/-- The VGA gain that the AGC loop holds after a preamble (R105): from LANEn_AGC.target and gain, the gain at the preamble's
start, and the preamble's signal; the spec gives the loop's aim and no arithmetic. -/
opaque agc : Nat → Nat → Nat → List Int → Nat

/-- The offset, in 1/256 of an ADC step, that the DC-offset loop removes from a preamble on (R105), from the offset removed
before and the preamble's signal. -/
opaque dcOffset : Int → List Int → Int

/-- The phase, in 1/64 symbol, that timing recovery acquires in a preamble (R111), from LANEn_TR.acq, the phase before, and the
signals of both readers. -/
opaque acquire : Nat → Int → List Int → List Int → Int

/-- The timing error of a symbol in 1/65,536 symbol, decision directed, from the last four equalised values (R111). -/
opaque timingError : List Int → Int

/-- The low-pass baseline of a reader's samples, in ADC steps (R106). -/
opaque baseline : List Int → List Int

/-- The value of an equalised symbol whose target is one, in the equaliser's output units (R108). -/
opaque unitLevel : Int

/-- The sum of the sign-LMS steps of one tap over a codeword, in 1/8,192 (R108), from LANEn_EQMU.mu and, for each symbol, the
error and the tap's sample. -/
opaque lms : Nat → List (Int × Int) → Int

/-- The metric of a branch of the detector's trellis (R113), from the inverse variance and bias of its pattern and the noise left
after prediction: the sample's noise, and its two predecessors' each with its tap. -/
opaque branch : Int → Int → Int → Int × Int → Int × Int → Int

/-- The log-likelihood ratios of the code symbols before saturation (R113, R171), from the metrics of the 64 branches of each and the
decoder's extrinsic information, of which a first pass has none. -/
opaque llr : List (List Int) → List Int → List Int

/-- The 16 taps of a cancellation filter, in 1/8,192 (R170 to R172), from the soft decisions of the tile, of which phase 3 has none,
the samples of a reader and the neighbour's hard decisions; the spec names the estimate and gives no arithmetic. -/
opaque cancel : List Int → List Int → List Int → List Int

/-- The parity part of a codeword (R114), from the circulant size and the numbers of information and parity columns of its code
and its information part. The matrices are fixed logic, and the spec does not give them. -/
opaque parity : Nat → Nat → Nat → List Bool → List Bool

/-- The fixed patterns of the framer (R112, R119): the sync marks A and B and the postamble. -/
opaque syncMark : Bool → List Bool
opaque postamble : List Bool

/-- The preamplifier register that a set load writes for its `k`-th value (R145): the register layout is that of the
preamplifier the integrator has chosen. -/
opaque preampReg : Nat → Nat

/-- The head that a frame to a preamplifier register selects, if it selects one (R100, R199), from address and data. -/
opaque headSelect : Nat → Nat → Option Nat

/-- The Gray-coded track read across a track boundary is one too low (else one too high), from the track and burst N (R241). -/
opaque grayLow : Nat → Int → Bool

/-- The fraction of a track, in 1/4,096, that two position bursts of zero show (R241). -/
opaque noBurst : Int

/-- Where the resident firmware keeps the image in the HBM firmware region (R401), in 4 KiB units. -/
opaque imageBase : Nat

end Sys2Proof.Config
end

