-- ==== Sys2Proof/Machine/Bits.lean ====
section
/-! DEFINITION. Byte order, sign extension and the sparse tables that hold registers and memories. A table is a list
of key and value pairs; a key it does not list reads as a default that a function gives, and writing that default
removes the key, so a table of rising keys is the one form of its contents. -/

namespace Sys2Proof.Machine
open Sys2Proof

/-- The value of key `a` in the table `m`: its first entry, else the default. -/
def cget {α : Type} (d : Nat → α) : List (Nat × α) → Nat → α
  | [], a => d a
  | (k, v) :: m, a => if k = a then v else cget d m a

/-- Puts `v` at key `a`, before the first greater key. -/
def cput {α : Type} (a : Nat) (v : α) : List (Nat × α) → List (Nat × α)
  | [] => [(a, v)]
  | (k, w) :: m =>
    if k < a then (k, w) :: cput a v m else if k = a then (a, v) :: m else (a, v) :: (k, w) :: m

/-- Writes key `a` of the table `m`; the default value is not listed. -/
def cset {α : Type} [DecidableEq α] (d : Nat → α) (a : Nat) (v : α) (m : List (Nat × α)) : List (Nat × α) :=
  if v = d a then m.filter (fun p => p.1 != a) else cput a v m

/-- The canonical form of a table: keys strictly rising, no entry equal to its default. -/
def cwf {α : Type} [DecidableEq α] (d : Nat → α) (m : List (Nat × α)) : Bool :=
  decide (m.Pairwise (fun p q => p.1 < q.1)) && m.all (fun p => decide (p.2 ≠ d p.1))

/-- `n` bytes of `v`, least significant first. -/
def leBytes : Nat → Nat → List Byte
  | 0, _ => []
  | n + 1, v => BitVec.ofNat 8 v :: leBytes n (v / 256)

/-- The number that bytes spell, least significant first. -/
def ofLe : List Byte → Nat
  | [] => 0
  | b :: bs => b.toNat + 256 * ofLe bs

/-- Byte `i` of a list whose missing bytes are zero. -/
def byteAt (bs : List Byte) (i : Nat) : Byte := bs.getD i 0

/-- `n` bytes of a list from offset `o`, missing bytes zero. -/
def bytesAt (bs : List Byte) (o n : Nat) : List Byte := (List.range n).map (fun i => byteAt bs (o + i))

/-- A number of `w` bits read as two's complement. -/
def sInt (w v : Nat) : Int := if v % 2 ^ w < 2 ^ (w - 1) then (v % 2 ^ w : Nat) else ((v % 2 ^ w : Nat) : Int) - 2 ^ w

/-- An integer as the `w` bits of its two's complement. -/
def ofInt (w : Nat) (i : Int) : Nat := (i % (2 ^ w : Int)).toNat

/-- The bits `lo` to `lo + w - 1` of a number. -/
def natBits (v lo w : Nat) : Nat := v / 2 ^ lo % 2 ^ w

/-- The ceiling of a quotient. -/
def ceilDiv (a b : Nat) : Nat := (a + b - 1) / b

/-- A quotient as a whole number: exact where it divides, otherwise one of its two neighbours, which one open. -/
def quot (a b : Nat) : Nat := a / b + (if b ≠ 0 ∧ a % b ≠ 0 ∧ Config.roundUp a b then 1 else 0)

/-- A product brought to units of `1 / u`: exact where it divides, otherwise one of its two neighbours, which one open. -/
def gain (p : Int) (u : Nat) : Int := p / u + (if p % u = 0 then 0 else Config.roundGain p u % 2)

/-- The whole number nearest to a quotient; of two equally near, one of them, which one open. -/
def near (p : Int) (u : Nat) : Int :=
  let r := 2 * (p % u)
  p / u + (if r < u then 0 else if (u : Int) < r then 1 else Config.tie p u % 2)

/-- A quotient of a seek profile: exact where it divides, otherwise one of its two neighbours, which one open. -/
def seekQuot (p : Int) (u : Nat) : Int := p / u + (if p % u = 0 then 0 else Config.roundSeek p u % 2)

/-- A product brought to the accumulator's step (R260), dropping `n` bits: exact where they are zero, otherwise one of its
two neighbours, which one open. -/
def alignTo (p : Int) (n : Nat) : Int := p / 2 ^ n + (if p % 2 ^ n = 0 then 0 else Config.align p n % 2)

/-- An integer held within two bounds. -/
def clampI (lo hi x : Int) : Int := if x < lo then lo else if hi < x then hi else x

/-- The maximal runs of true values of a list: the place of the first and the length of each. -/
def runsOf (l : List Bool) : List (Nat × Nat) :=
  (l.zipIdx.foldl (fun (r : List (Nat × Nat)) b =>
    if !b.1 then r
    else match r with
      | (f, n) :: rest => if f + n = b.2 then (f, n + 1) :: rest else (b.2, 1) :: r
      | [] => [(b.2, 1)]) []).reverse

/-- The integer square root, one bit at a time. -/
def isqrtGo (n : Nat) : Nat → Nat → Nat
  | 0, r => r
  | k + 1, r => if (r + 2 ^ k) * (r + 2 ^ k) ≤ n then isqrtGo n k (r + 2 ^ k) else isqrtGo n k r

/-- The largest number whose square is at most `n`, for `n` below `2 ^ 128`. -/
def isqrt (n : Nat) : Nat := isqrtGo n 64 0

/-- The smallest number whose square is at least `n`. -/
def isqrtUp (n : Nat) : Nat := if isqrt n * isqrt n = n then isqrt n else isqrt n + 1

/-- A root mean square, from the sum of squares and the number of samples (R621): exact where it is whole, otherwise one of
its two neighbours, which one open; of no samples it is open. -/
def rmsOf (q n : Nat) : Nat :=
  let r := isqrt (q / n)
  if n = 0 then Config.rms q n else if r * r * n = q then r else r + Config.rms q n % 2

/-- A mean, from the sum and the number of samples (R622), rounded in the same way; of no samples it is open. -/
def meanOf (q n : Nat) : Nat :=
  if n = 0 then Config.meanOf q n else if q % n = 0 then q / n else q / n + Config.meanOf q n % 2

/-- The list without its element at `i`. -/
def dropAt {α : Type} (l : List α) (i : Nat) : List α := l.take i ++ l.drop (i + 1)

/-- The list with its element at `i` replaced. -/
def setAt {α : Type} (l : List α) (i : Nat) (x : α) : List α := l.set i x

/-- The sum of a list of numbers. -/
def sumOf {α : Type} (l : List α) (f : α → Nat) : Nat := l.foldl (fun n x => n + f x) 0

/-- The list cut into pieces of `n`, with fuel for the pieces. -/
def chunks {α : Type} (n : Nat) : Nat → List α → List (List α)
  | 0, _ => []
  | k + 1, l => if l.isEmpty then [] else l.take n :: chunks n k (l.drop n)

end Sys2Proof.Machine
end

