-- ==== Sys2Proof/Machine/RegTable.lean ====
section
/-! DEFINITION. The register map: one row per register of the window (17_register_map.md R658, R659), with the
masks of its access types (00_scope.md R7), its reset value and the reset kinds that reach it (R12). A row that
has instances gives the strides of its block, of its first and of its second index. The addresses are window byte
offsets. Every row is written from the register table of its block's chapter. -/

namespace Sys2Proof.Machine

/-- The narrowest reset kind that resets a register (R12); every wider kind resets it too. -/
inductive ResetKind where
  | controller | perst | warm | cold | const
deriving DecidableEq, Repr

/-- The GO registers that govern staged registers (R16). -/
inductive GoKind where
  | lane | sca | spn | hrv | ctr
deriving DecidableEq, Repr

/-- One row of the register map. -/
structure RegDesc where
  base : Nat
  bStride : Nat := 0x400000
  bCount : Nat := 1
  s1 : Nat := 0x400000
  c1 : Nat := 1
  s2 : Nat := 0x400000
  c2 : Nat := 1
  rw : Nat := 0
  rwl : Nat := 0
  w1c : Nat := 0
  w1s : Nat := 0
  wo : Nat := 0
  wz : Nat := 0
  ro : Nat := 0
  reset : Nat := 0
  kind : ResetKind := .warm
  go : Option GoKind := none
  lock : Option Nat := none
deriving DecidableEq, Repr

/-- The row covers the word at window offset `a`. -/
def RegDesc.has (d : RegDesc) (a : Nat) : Bool :=
  let r0 := a - d.base
  let r1 := r0 % d.bStride
  let r2 := r1 % d.s1
  decide (d.base ≤ a) && decide (r0 / d.bStride < d.bCount) && decide (r1 / d.s1 < d.c1) &&
    decide (r2 / d.s2 < d.c2) && (r2 % d.s2 == 0)

/-- A field of a register: the register's window offset, its lowest bit and its width. -/
structure Field where
  addr : Nat
  lo : Nat
  width : Nat
deriving DecidableEq, Repr

/-- BLK_ID of block `b` (R659). -/
def R.BLK_ID (b : Nat) : Nat := 0x10000 * b
/-- BLK_IGNCNT of block `b`. -/
def R.BLK_IGNCNT (b : Nat) : Nat := 0x10000 * b + 4
def F.BLK_IGNCNT_clr (b : Nat) : Field := ⟨R.BLK_IGNCNT b, 31, 1⟩
def F.BLK_IGNCNT_count (b : Nat) : Field := ⟨R.BLK_IGNCNT b, 0, 8⟩
/-- BLK_IGNADDR of block `b`. -/
def R.BLK_IGNADDR (b : Nat) : Nat := 0x10000 * b + 8
def F.BLK_IGNADDR_valid (b : Nat) : Field := ⟨R.BLK_IGNADDR b, 31, 1⟩
def F.BLK_IGNADDR_cause (b : Nat) : Field := ⟨R.BLK_IGNADDR b, 28, 3⟩
def F.BLK_IGNADDR_src (b : Nat) : Field := ⟨R.BLK_IGNADDR b, 26, 2⟩
def F.BLK_IGNADDR_blk (b : Nat) : Field := ⟨R.BLK_IGNADDR b, 20, 6⟩
def F.BLK_IGNADDR_off (b : Nat) : Field := ⟨R.BLK_IGNADDR b, 2, 14⟩
def F.BLK_IGNADDR_rd (b : Nat) : Field := ⟨R.BLK_IGNADDR b, 0, 2⟩

def R.SYS_CAP : Nat := 0x10
def F.SYS_CAP_hbm_gib : Field := ⟨R.SYS_CAP, 16, 8⟩
def F.SYS_CAP_shf : Field := ⟨R.SYS_CAP, 12, 1⟩
def F.SYS_CAP_crys_eng : Field := ⟨R.SYS_CAP, 8, 4⟩
def F.SYS_CAP_lanes : Field := ⟨R.SYS_CAP, 0, 4⟩
def R.MAP_CTL : Nat := 0xB0010
def F.MAP_CTL_lock : Field := ⟨R.MAP_CTL, 31, 1⟩
def F.MAP_CTL_ckpt_mib : Field := ⟨R.MAP_CTL, 8, 6⟩
def F.MAP_CTL_en : Field := ⟨R.MAP_CTL, 0, 1⟩
def R.MAP_CSTAT : Nat := 0xB0014
def F.MAP_CSTAT_state : Field := ⟨R.MAP_CSTAT, 30, 2⟩
def F.MAP_CSTAT_fill : Field := ⟨R.MAP_CSTAT, 29, 1⟩
def F.MAP_CSTAT_dirty : Field := ⟨R.MAP_CSTAT, 0, 17⟩
def R.MAP_CMD : Nat := 0xB0018
def F.MAP_CMD_ckpt : Field := ⟨R.MAP_CMD, 1, 1⟩
def F.MAP_CMD_inv : Field := ⟨R.MAP_CMD, 0, 1⟩
def R.MAP_HITCNT : Nat := 0xB001C
def F.MAP_HITCNT_count : Field := ⟨R.MAP_HITCNT, 0, 32⟩
def R.MAP_MISSCNT : Nat := 0xB0020
def F.MAP_MISSCNT_count : Field := ⟨R.MAP_MISSCNT, 0, 32⟩
def R.MAP_STALECNT : Nat := 0xB0024
def F.MAP_STALECNT_count : Field := ⟨R.MAP_STALECNT, 0, 32⟩
def R.MAP_HBMBASE : Nat := 0xB0030
def F.MAP_HBMBASE_base : Field := ⟨R.MAP_HBMBASE, 0, 18⟩
def R.MAP_OVLBASE : Nat := 0xB0034
def F.MAP_OVLBASE_base : Field := ⟨R.MAP_OVLBASE, 0, 18⟩
def R.MAP_SLIPBASE : Nat := 0xB0038
def F.MAP_SLIPBASE_base : Field := ⟨R.MAP_SLIPBASE, 0, 18⟩
def R.MAP_SALTOCC (i : Nat) : Nat := 0xB0040 + 0x4 * i
def F.MAP_SALTOCC_slots (i : Nat) : Field := ⟨R.MAP_SALTOCC i, 0, 18⟩
def R.MAP_SALTFREE : Nat := 0xB0050
def F.MAP_SALTFREE_slots : Field := ⟨R.MAP_SALTFREE, 0, 21⟩
def R.MAP_JSEQ : Nat := 0xB0054
def F.MAP_JSEQ_seq : Field := ⟨R.MAP_JSEQ, 0, 32⟩
def R.MAP_JDONE : Nat := 0xB0058
def F.MAP_JDONE_seq : Field := ⟨R.MAP_JDONE, 0, 32⟩
def R.MAP_JFILL : Nat := 0xB005C
def F.MAP_JFILL_kib : Field := ⟨R.MAP_JFILL, 0, 32⟩
def R.MAP_KEELSEQ : Nat := 0xB0060
def F.MAP_KEELSEQ_seq : Field := ⟨R.MAP_KEELSEQ, 0, 32⟩
def R.MAP_CKSTAT : Nat := 0xB0064
def F.MAP_CKSTAT_busy : Field := ⟨R.MAP_CKSTAT, 31, 1⟩
def F.MAP_CKSTAT_req : Field := ⟨R.MAP_CKSTAT, 30, 1⟩
def F.MAP_CKSTAT_area : Field := ⟨R.MAP_CKSTAT, 29, 1⟩
def F.MAP_CKSTAT_last : Field := ⟨R.MAP_CKSTAT, 0, 2⟩
def R.MAP_ADOPT : Nat := 0xB0068
def F.MAP_ADOPT_phase : Field := ⟨R.MAP_ADOPT, 30, 2⟩
def F.MAP_ADOPT_tiles : Field := ⟨R.MAP_ADOPT, 0, 21⟩
def R.MAP_RETPEND : Nat := 0xB006C
def F.MAP_RETPEND_tiles : Field := ⟨R.MAP_RETPEND, 0, 21⟩
def R.MAP_ERR : Nat := 0xB0070
def F.MAP_ERR_slipfull : Field := ⟨R.MAP_ERR, 5, 1⟩
def F.MAP_ERR_keel : Field := ⟨R.MAP_ERR, 4, 1⟩
def F.MAP_ERR_ckpt : Field := ⟨R.MAP_ERR, 3, 1⟩
def F.MAP_ERR_jrnl : Field := ⟨R.MAP_ERR, 2, 1⟩
def F.MAP_ERR_ovl : Field := ⟨R.MAP_ERR, 1, 1⟩
def F.MAP_ERR_entry : Field := ⟨R.MAP_ERR, 0, 1⟩
def R.LANE_CTL (n : Nat) : Nat := 0x130010 + 0x10000 * n
def F.LANE_CTL_halfok (n : Nat) : Field := ⟨R.LANE_CTL n, 16, 1⟩
def F.LANE_CTL_iterl (n : Nat) : Field := ⟨R.LANE_CTL n, 8, 4⟩
def F.LANE_CTL_iterg (n : Nat) : Field := ⟨R.LANE_CTL n, 4, 2⟩
def F.LANE_CTL_taen (n : Nat) : Field := ⟨R.LANE_CTL n, 2, 1⟩
def F.LANE_CTL_adapt (n : Nat) : Field := ⟨R.LANE_CTL n, 1, 1⟩
def F.LANE_CTL_capen (n : Nat) : Field := ⟨R.LANE_CTL n, 0, 1⟩
def R.LANE_STAT (n : Nat) : Nat := 0x130014 + 0x10000 * n
def F.LANE_STAT_lock (n : Nat) : Field := ⟨R.LANE_STAT n, 31, 1⟩
def F.LANE_STAT_half (n : Nat) : Field := ⟨R.LANE_STAT n, 30, 1⟩
def F.LANE_STAT_wg (n : Nat) : Field := ⟨R.LANE_STAT n, 29, 1⟩
def F.LANE_STAT_rg (n : Nat) : Field := ⟨R.LANE_STAT n, 28, 1⟩
def F.LANE_STAT_sg (n : Nat) : Field := ⟨R.LANE_STAT n, 27, 1⟩
def F.LANE_STAT_setv (n : Nat) : Field := ⟨R.LANE_STAT n, 26, 1⟩
def F.LANE_STAT_head (n : Nat) : Field := ⟨R.LANE_STAT n, 21, 3⟩
def F.LANE_STAT_ring (n : Nat) : Field := ⟨R.LANE_STAT n, 16, 5⟩
def R.LANE_GO (n : Nat) : Nat := 0x130018 + 0x10000 * n
def F.LANE_GO_pending (n : Nat) : Field := ⟨R.LANE_GO n, 31, 1⟩
def F.LANE_GO_go (n : Nat) : Field := ⟨R.LANE_GO n, 0, 1⟩
def R.LANE_CALSEL (n : Nat) : Nat := 0x13001C + 0x10000 * n
def F.LANE_CALSEL_ovr (n : Nat) : Field := ⟨R.LANE_CALSEL n, 31, 1⟩
def F.LANE_CALSEL_head (n : Nat) : Field := ⟨R.LANE_CALSEL n, 21, 3⟩
def F.LANE_CALSEL_ring (n : Nat) : Field := ⟨R.LANE_CALSEL n, 16, 5⟩
def R.LANE_CALADDR (n : Nat) : Nat := 0x130020 + 0x10000 * n
def F.LANE_CALADDR_inc (n : Nat) : Field := ⟨R.LANE_CALADDR n, 31, 1⟩
def F.LANE_CALADDR_addr (n : Nat) : Field := ⟨R.LANE_CALADDR n, 2, 14⟩
def R.LANE_CALDATA (n : Nat) : Nat := 0x130024 + 0x10000 * n
def F.LANE_CALDATA_data (n : Nat) : Field := ⟨R.LANE_CALDATA n, 0, 32⟩
def R.LANE_TR (n : Nat) : Nat := 0x130028 + 0x10000 * n
def F.LANE_TR_acq (n : Nat) : Field := ⟨R.LANE_TR n, 16, 8⟩
def F.LANE_TR_kp (n : Nat) : Field := ⟨R.LANE_TR n, 8, 8⟩
def F.LANE_TR_ki (n : Nat) : Field := ⟨R.LANE_TR n, 0, 8⟩
def R.LANE_AGC (n : Nat) : Nat := 0x13002C + 0x10000 * n
def F.LANE_AGC_target (n : Nat) : Field := ⟨R.LANE_AGC n, 16, 8⟩
def F.LANE_AGC_gain (n : Nat) : Field := ⟨R.LANE_AGC n, 0, 8⟩
def R.LANE_EQMU (n : Nat) : Nat := 0x130030 + 0x10000 * n
def F.LANE_EQMU_save (n : Nat) : Field := ⟨R.LANE_EQMU n, 31, 1⟩
def F.LANE_EQMU_mu (n : Nat) : Field := ⟨R.LANE_EQMU n, 0, 4⟩
def R.LANE_TATH (n : Nat) : Nat := 0x130034 + 0x10000 * n
def F.LANE_TATH_len (n : Nat) : Field := ⟨R.LANE_TATH n, 16, 8⟩
def F.LANE_TATH_level (n : Nat) : Field := ⟨R.LANE_TATH n, 0, 7⟩
def R.LANE_RATIO (n : Nat) : Nat := 0x130038 + 0x10000 * n
def F.LANE_RATIO_ratio (n : Nat) : Field := ⟨R.LANE_RATIO n, 0, 32⟩
def R.LANE_SYMR (n : Nat) : Nat := 0x13003C + 0x10000 * n
def F.LANE_SYMR_mbaud (n : Nat) : Field := ⟨R.LANE_SYMR n, 0, 16⟩
def R.LANE_ERR (n : Nat) : Nat := 0x130040 + 0x10000 * n
def F.LANE_ERR_modsel (n : Nat) : Field := ⟨R.LANE_ERR n, 7, 1⟩
def F.LANE_ERR_setecc (n : Nat) : Field := ⟨R.LANE_ERR n, 6, 1⟩
def F.LANE_ERR_brovf (n : Nat) : Field := ⟨R.LANE_ERR n, 5, 1⟩
def F.LANE_ERR_lockloss (n : Nat) : Field := ⟨R.LANE_ERR n, 4, 1⟩
def F.LANE_ERR_pafault (n : Nat) : Field := ⟨R.LANE_ERR n, 3, 1⟩
def F.LANE_ERR_wverify (n : Nat) : Field := ⟨R.LANE_ERR n, 2, 1⟩
def F.LANE_ERR_wunsafe (n : Nat) : Field := ⟨R.LANE_ERR n, 1, 1⟩
def F.LANE_ERR_wmiss (n : Nat) : Field := ⟨R.LANE_ERR n, 0, 1⟩
def R.LANE_RDCNT (n : Nat) : Nat := 0x130044 + 0x10000 * n
def F.LANE_RDCNT_count (n : Nat) : Field := ⟨R.LANE_RDCNT n, 0, 32⟩
def R.LANE_OK2CNT (n : Nat) : Nat := 0x130048 + 0x10000 * n
def F.LANE_OK2CNT_count (n : Nat) : Field := ⟨R.LANE_OK2CNT n, 0, 32⟩
def R.LANE_FAILCNT (n : Nat) : Nat := 0x13004C + 0x10000 * n
def F.LANE_FAILCNT_count (n : Nat) : Field := ⟨R.LANE_FAILCNT n, 0, 32⟩
def R.LANE_NOSYNCCNT (n : Nat) : Nat := 0x130050 + 0x10000 * n
def F.LANE_NOSYNCCNT_count (n : Nat) : Field := ⟨R.LANE_NOSYNCCNT n, 0, 32⟩
def R.LANE_INCCNT (n : Nat) : Nat := 0x130054 + 0x10000 * n
def F.LANE_INCCNT_count (n : Nat) : Field := ⟨R.LANE_INCCNT n, 0, 32⟩
def R.LANE_WRCNT (n : Nat) : Nat := 0x130058 + 0x10000 * n
def F.LANE_WRCNT_count (n : Nat) : Field := ⟨R.LANE_WRCNT n, 0, 32⟩
def R.LANE_WVCNT (n : Nat) : Nat := 0x13005C + 0x10000 * n
def F.LANE_WVCNT_count (n : Nat) : Field := ⟨R.LANE_WVCNT n, 0, 32⟩
def R.LANE_TACNT (n : Nat) : Nat := 0x130060 + 0x10000 * n
def F.LANE_TACNT_count (n : Nat) : Field := ⟨R.LANE_TACNT n, 0, 32⟩
def R.LANE_BRHW (n : Nat) : Nat := 0x130064 + 0x10000 * n
def F.LANE_BRHW_clr (n : Nat) : Field := ⟨R.LANE_BRHW n, 31, 1⟩
def F.LANE_BRHW_a (n : Nat) : Field := ⟨R.LANE_BRHW n, 16, 10⟩
def F.LANE_BRHW_b (n : Nat) : Field := ⟨R.LANE_BRHW n, 0, 10⟩
def R.LANE_PASCMD (n : Nat) : Nat := 0x130068 + 0x10000 * n
def F.LANE_PASCMD_busy (n : Nat) : Field := ⟨R.LANE_PASCMD n, 31, 1⟩
def F.LANE_PASCMD_rd (n : Nat) : Field := ⟨R.LANE_PASCMD n, 30, 1⟩
def F.LANE_PASCMD_addr (n : Nat) : Field := ⟨R.LANE_PASCMD n, 23, 7⟩
def F.LANE_PASCMD_wdata (n : Nat) : Field := ⟨R.LANE_PASCMD n, 8, 8⟩
def F.LANE_PASCMD_rdata (n : Nat) : Field := ⟨R.LANE_PASCMD n, 0, 8⟩
def R.LANE_PASCFG (n : Nat) : Nat := 0x13006C + 0x10000 * n
def F.LANE_PASCFG_div (n : Nat) : Field := ⟨R.LANE_PASCFG n, 0, 4⟩
def R.CRYS_CTL : Nat := 0x170010
def F.CRYS_CTL_lock : Field := ⟨R.CRYS_CTL, 31, 1⟩
def F.CRYS_CTL_rereads : Field := ⟨R.CRYS_CTL, 12, 2⟩
def F.CRYS_CTL_iti : Field := ⟨R.CRYS_CTL, 8, 1⟩
def F.CRYS_CTL_itmax : Field := ⟨R.CRYS_CTL, 0, 7⟩
def R.CRYS_BRCFG : Nat := 0x170014
def F.CRYS_BRCFG_base : Field := ⟨R.CRYS_BRCFG, 16, 8⟩
def F.CRYS_BRCFG_size : Field := ⟨R.CRYS_BRCFG, 0, 2⟩
def R.CRYS_SCHED : Nat := 0x170018
def F.CRYS_SCHED_agems : Field := ⟨R.CRYS_SCHED, 16, 8⟩
def F.CRYS_SCHED_guard : Field := ⟨R.CRYS_SCHED, 0, 8⟩
def R.CRYS_STAT : Nat := 0x17001C
def F.CRYS_STAT_offline : Field := ⟨R.CRYS_STAT, 20, 4⟩
def F.CRYS_STAT_busy : Field := ⟨R.CRYS_STAT, 16, 4⟩
def F.CRYS_STAT_qdepth : Field := ⟨R.CRYS_STAT, 0, 9⟩
def R.CRYS_CMD : Nat := 0x170020
def F.CRYS_CMD_engon : Field := ⟨R.CRYS_CMD, 8, 4⟩
def F.CRYS_CMD_dirclr : Field := ⟨R.CRYS_CMD, 0, 4⟩
def R.CRYS_BRWP (i : Nat) : Nat := 0x170030 + 0x4 * i
def F.CRYS_BRWP_ptr (i : Nat) : Field := ⟨R.CRYS_BRWP i, 0, 26⟩
def R.CRYS_BRPIN (i : Nat) : Nat := 0x170040 + 0x4 * i
def F.CRYS_BRPIN_valid (i : Nat) : Field := ⟨R.CRYS_BRPIN i, 31, 1⟩
def F.CRYS_BRPIN_ptr (i : Nat) : Field := ⟨R.CRYS_BRPIN i, 0, 26⟩
def R.CRYS_ENG (i : Nat) : Nat := 0x170050 + 0x4 * i
def F.CRYS_ENG_state (i : Nat) : Field := ⟨R.CRYS_ENG i, 30, 2⟩
def F.CRYS_ENG_lane (i : Nat) : Field := ⟨R.CRYS_ENG i, 28, 2⟩
def F.CRYS_ENG_cls (i : Nat) : Field := ⟨R.CRYS_ENG i, 26, 2⟩
def F.CRYS_ENG_phase (i : Nat) : Field := ⟨R.CRYS_ENG i, 23, 3⟩
def F.CRYS_ENG_iter (i : Nat) : Field := ⟨R.CRYS_ENG i, 16, 7⟩
def F.CRYS_ENG_us (i : Nat) : Field := ⟨R.CRYS_ENG i, 0, 16⟩
def R.CRYS_ERR : Nat := 0x170060
def F.CRYS_ERR_wdog : Field := ⟨R.CRYS_ERR, 4, 1⟩
def F.CRYS_ERR_lsecc : Field := ⟨R.CRYS_ERR, 3, 1⟩
def F.CRYS_ERR_overrun : Field := ⟨R.CRYS_ERR, 2, 1⟩
def F.CRYS_ERR_qfull : Field := ⟨R.CRYS_ERR, 1, 1⟩
def F.CRYS_ERR_brecc : Field := ⟨R.CRYS_ERR, 0, 1⟩
def R.CRYS_QCNT : Nat := 0x170070
def F.CRYS_QCNT_count : Field := ⟨R.CRYS_QCNT, 0, 32⟩
def R.CRYS_OKCNT : Nat := 0x170074
def F.CRYS_OKCNT_count : Field := ⟨R.CRYS_OKCNT, 0, 32⟩
def R.CRYS_ITICNT : Nat := 0x170078
def F.CRYS_ITICNT_count : Field := ⟨R.CRYS_ITICNT, 0, 32⟩
def R.CRYS_MISCCNT : Nat := 0x17007C
def F.CRYS_MISCCNT_count : Field := ⟨R.CRYS_MISCCNT, 0, 32⟩
def R.CRYS_FAILCNT : Nat := 0x170080
def F.CRYS_FAILCNT_count : Field := ⟨R.CRYS_FAILCNT, 0, 32⟩
def R.CRYS_EXPCNT : Nat := 0x170084
def F.CRYS_EXPCNT_count : Field := ⟨R.CRYS_EXPCNT, 0, 32⟩
def R.CRYS_OVRCNT : Nat := 0x170088
def F.CRYS_OVRCNT_count : Field := ⟨R.CRYS_OVRCNT, 0, 32⟩
def R.CRYS_QFULLCNT : Nat := 0x17008C
def F.CRYS_QFULLCNT_count : Field := ⟨R.CRYS_QFULLCNT, 0, 32⟩
def R.CRYS_REREADCNT : Nat := 0x170090
def F.CRYS_REREADCNT_count : Field := ⟨R.CRYS_REREADCNT, 0, 32⟩
def R.CRYS_MAXUS : Nat := 0x170094
def F.CRYS_MAXUS_clr : Field := ⟨R.CRYS_MAXUS, 31, 1⟩
def F.CRYS_MAXUS_max : Field := ⟨R.CRYS_MAXUS, 0, 16⟩
def R.MCS_CTL (n : Nat) : Nat := 0x1A0010 + 0x20000 * n
def F.MCS_CTL_wren (n : Nat) : Field := ⟨R.MCS_CTL n, 3, 1⟩
def F.MCS_CTL_kill (n : Nat) : Field := ⟨R.MCS_CTL n, 2, 1⟩
def F.MCS_CTL_stop (n : Nat) : Field := ⟨R.MCS_CTL n, 1, 1⟩
def F.MCS_CTL_start (n : Nat) : Field := ⟨R.MCS_CTL n, 0, 1⟩
def R.MCS_STAT (n : Nat) : Nat := 0x1A0014 + 0x20000 * n
def F.MCS_STAT_state (n : Nat) : Field := ⟨R.MCS_STAT n, 29, 3⟩
def F.MCS_STAT_stopreq (n : Nat) : Field := ⟨R.MCS_STAT n, 28, 1⟩
def F.MCS_STAT_sp (n : Nat) : Field := ⟨R.MCS_STAT n, 25, 3⟩
def F.MCS_STAT_pend (n : Nat) : Field := ⟨R.MCS_STAT n, 16, 6⟩
def F.MCS_STAT_pc (n : Nat) : Field := ⟨R.MCS_STAT n, 0, 12⟩
def R.MCS_START (n : Nat) : Nat := 0x1A0018 + 0x20000 * n
def F.MCS_START_addr (n : Nat) : Field := ⟨R.MCS_START n, 0, 12⟩
def R.MCS_LC (n : Nat) : Nat := 0x1A001C + 0x20000 * n
def F.MCS_LC_lc1 (n : Nat) : Field := ⟨R.MCS_LC n, 16, 12⟩
def F.MCS_LC_lc0 (n : Nat) : Field := ⟨R.MCS_LC n, 0, 12⟩
def R.MCS_TM (n : Nat) : Nat := 0x1A0020 + 0x20000 * n
def F.MCS_TM_tm1 (n : Nat) : Field := ⟨R.MCS_TM n, 16, 16⟩
def F.MCS_TM_tm0 (n : Nat) : Field := ⟨R.MCS_TM n, 0, 16⟩
def R.MCS_STK0 (n : Nat) : Nat := 0x1A0024 + 0x20000 * n
def F.MCS_STK0_e1 (n : Nat) : Field := ⟨R.MCS_STK0 n, 16, 12⟩
def F.MCS_STK0_e0 (n : Nat) : Field := ⟨R.MCS_STK0 n, 0, 12⟩
def R.MCS_STK1 (n : Nat) : Nat := 0x1A0028 + 0x20000 * n
def F.MCS_STK1_e3 (n : Nat) : Field := ⟨R.MCS_STK1 n, 16, 12⟩
def F.MCS_STK1_e2 (n : Nat) : Field := ⟨R.MCS_STK1 n, 0, 12⟩
def R.MCS_TPOS (n : Nat) : Nat := 0x1A0110 + 0x20000 * n
def F.MCS_TPOS_tidx (n : Nat) : Field := ⟨R.MCS_TPOS n, 16, 10⟩
def F.MCS_TPOS_qtr (n : Nat) : Field := ⟨R.MCS_TPOS n, 12, 2⟩
def F.MCS_TPOS_pos (n : Nat) : Field := ⟨R.MCS_TPOS n, 0, 11⟩
def R.MCS_TF0 (n : Nat) : Nat := 0x1A0030 + 0x20000 * n
def F.MCS_TF0_cause (n : Nat) : Field := ⟨R.MCS_TF0 n, 28, 4⟩
def F.MCS_TF0_forced (n : Nat) : Field := ⟨R.MCS_TF0 n, 27, 1⟩
def F.MCS_TF0_valid (n : Nat) : Field := ⟨R.MCS_TF0 n, 26, 1⟩
def F.MCS_TF0_taddr (n : Nat) : Field := ⟨R.MCS_TF0 n, 12, 12⟩
def F.MCS_TF0_next (n : Nat) : Field := ⟨R.MCS_TF0 n, 0, 12⟩
def R.MCS_TF1 (n : Nat) : Nat := 0x1A0034 + 0x20000 * n
def F.MCS_TF1_lc1 (n : Nat) : Field := ⟨R.MCS_TF1 n, 16, 12⟩
def F.MCS_TF1_lc0 (n : Nat) : Field := ⟨R.MCS_TF1 n, 0, 12⟩
def R.MCS_TF2 (n : Nat) : Nat := 0x1A0038 + 0x20000 * n
def F.MCS_TF2_tidx (n : Nat) : Field := ⟨R.MCS_TF2 n, 16, 10⟩
def F.MCS_TF2_qtr (n : Nat) : Field := ⟨R.MCS_TF2 n, 12, 2⟩
def F.MCS_TF2_pos (n : Nat) : Field := ⟨R.MCS_TF2 n, 0, 11⟩
def R.MCS_TF3 (n : Nat) : Nat := 0x1A003C + 0x20000 * n
def F.MCS_TF3_boff (n : Nat) : Field := ⟨R.MCS_TF3 n, 0, 32⟩
def R.MCS_TRAPCNT (n : Nat) : Nat := 0x1A0040 + 0x20000 * n
def F.MCS_TRAPCNT_count (n : Nat) : Field := ⟨R.MCS_TRAPCNT n, 0, 32⟩
def R.MCS_TRAPMASK (n : Nat) : Nat := 0x1A0044 + 0x20000 * n
def F.MCS_TRAPMASK_mask (n : Nat) : Field := ⟨R.MCS_TRAPMASK n, 3, 4⟩
def R.MCS_ERR (n : Nat) : Nat := 0x1A0048 + 0x20000 * n
def F.MCS_ERR_ldecc (n : Nat) : Field := ⟨R.MCS_ERR n, 3, 1⟩
def F.MCS_ERR_nomatch (n : Nat) : Field := ⟨R.MCS_ERR n, 2, 1⟩
def F.MCS_ERR_forced (n : Nat) : Field := ⟨R.MCS_ERR n, 1, 1⟩
def F.MCS_ERR_fault (n : Nat) : Field := ⟨R.MCS_ERR n, 0, 1⟩
def R.MCS_FLT (n : Nat) : Nat := 0x1A004C + 0x20000 * n
def F.MCS_FLT_valid (n : Nat) : Field := ⟨R.MCS_FLT n, 31, 1⟩
def F.MCS_FLT_code (n : Nat) : Field := ⟨R.MCS_FLT n, 24, 4⟩
def F.MCS_FLT_pc (n : Nat) : Field := ⟨R.MCS_FLT n, 0, 12⟩
def R.MCS_PSTRB (n i : Nat) : Nat := 0x1A0050 + 0x20000 * n + 0x4 * i
def F.MCS_PSTRB_en (n i : Nat) : Field := ⟨R.MCS_PSTRB n i, 31, 1⟩
def F.MCS_PSTRB_addr (n i : Nat) : Field := ⟨R.MCS_PSTRB n i, 8, 7⟩
def F.MCS_PSTRB_data (n i : Nat) : Field := ⟨R.MCS_PSTRB n i, 0, 8⟩
def R.MCS_PHSEL (n : Nat) : Nat := 0x1A006C + 0x20000 * n
def F.MCS_PHSEL_en (n : Nat) : Field := ⟨R.MCS_PHSEL n, 31, 1⟩
def F.MCS_PHSEL_shift (n : Nat) : Field := ⟨R.MCS_PHSEL n, 16, 3⟩
def F.MCS_PHSEL_addr (n : Nat) : Field := ⟨R.MCS_PHSEL n, 8, 7⟩
def F.MCS_PHSEL_base (n : Nat) : Field := ⟨R.MCS_PHSEL n, 0, 8⟩
def R.MCS_STATCNT (n i : Nat) : Nat := 0x1A0070 + 0x20000 * n + 0x4 * i
def F.MCS_STATCNT_count (n i : Nat) : Field := ⟨R.MCS_STATCNT n i, 0, 32⟩
def R.MCS_LDSRC (n : Nat) : Nat := 0x1A0090 + 0x20000 * n
def F.MCS_LDSRC_addr (n : Nat) : Field := ⟨R.MCS_LDSRC n, 0, 32⟩
def R.MCS_LDCTL (n : Nat) : Nat := 0x1A0094 + 0x20000 * n
def F.MCS_LDCTL_go (n : Nat) : Field := ⟨R.MCS_LDCTL n, 31, 1⟩
def F.MCS_LDCTL_busy (n : Nat) : Field := ⟨R.MCS_LDCTL n, 30, 1⟩
def F.MCS_LDCTL_match (n : Nat) : Field := ⟨R.MCS_LDCTL n, 29, 1⟩
def R.MCS_VERSION (n : Nat) : Nat := 0x1A0098 + 0x20000 * n
def F.MCS_VERSION_ver (n : Nat) : Field := ⟨R.MCS_VERSION n, 16, 16⟩
def F.MCS_VERSION_dig (n : Nat) : Field := ⟨R.MCS_VERSION n, 0, 16⟩
def R.MCS_DIGEXP (n i : Nat) : Nat := 0x1A00A0 + 0x20000 * n + 0x4 * i
def F.MCS_DIGEXP_d (n i : Nat) : Field := ⟨R.MCS_DIGEXP n i, 0, 32⟩
def R.MCS_DIGREF (n i : Nat) : Nat := 0x1A00D0 + 0x20000 * n + 0x4 * i
def F.MCS_DIGREF_d (n i : Nat) : Field := ⟨R.MCS_DIGREF n i, 0, 32⟩
def R.MCS_CC0 (n : Nat) : Nat := 0x1A0100 + 0x20000 * n
def F.MCS_CC0_valid (n : Nat) : Field := ⟨R.MCS_CC0 n, 31, 1⟩
def F.MCS_CC0_op (n : Nat) : Field := ⟨R.MCS_CC0 n, 28, 3⟩
def F.MCS_CC0_surface (n : Nat) : Field := ⟨R.MCS_CC0 n, 23, 5⟩
def F.MCS_CC0_start (n : Nat) : Field := ⟨R.MCS_CC0 n, 12, 11⟩
def F.MCS_CC0_qtr (n : Nat) : Field := ⟨R.MCS_CC0 n, 10, 2⟩
def F.MCS_CC0_count (n : Nat) : Field := ⟨R.MCS_CC0 n, 0, 10⟩
def R.MCS_CC1 (n : Nat) : Nat := 0x1A0104 + 0x20000 * n
def F.MCS_CC1_track (n : Nat) : Field := ⟨R.MCS_CC1 n, 0, 22⟩
def R.MCS_CC2 (n : Nat) : Nat := 0x1A0108 + 0x20000 * n
def F.MCS_CC2_modsel (n : Nat) : Field := ⟨R.MCS_CC2 n, 24, 8⟩
def F.MCS_CC2_tag (n : Nat) : Field := ⟨R.MCS_CC2 n, 0, 16⟩
def R.MCS_CMDQ (n : Nat) : Nat := 0x1A010C + 0x20000 * n
def F.MCS_CMDQ_depth (n : Nat) : Field := ⟨R.MCS_CMDQ n, 0, 5⟩
def R.SCA_CTL : Nat := 0x100010
def F.SCA_CTL_run : Field := ⟨R.SCA_CTL, 0, 1⟩
def R.SCA_STAT : Nat := 0x100014
def F.SCA_STAT_clr : Field := ⟨R.SCA_STAT, 31, 1⟩
def F.SCA_STAT_lat : Field := ⟨R.SCA_STAT, 0, 16⟩
def R.SCA_GO : Nat := 0x100018
def F.SCA_GO_pending : Field := ⟨R.SCA_GO, 31, 1⟩
def F.SCA_GO_go : Field := ⟨R.SCA_GO, 0, 1⟩
def R.SCA_SAT : Nat := 0x10001C
def F.SCA_SAT_loop : Field := ⟨R.SCA_SAT, 0, 16⟩
def R.SCA_LCFG (i : Nat) : Nat := 0x100040 + 0x4 * i
def F.SCA_LCFG_en (i : Nat) : Field := ⟨R.SCA_LCFG i, 31, 1⟩
def F.SCA_LCFG_lead (i : Nat) : Field := ⟨R.SCA_LCFG i, 28, 3⟩
def F.SCA_LCFG_src (i : Nat) : Field := ⟨R.SCA_LCFG i, 24, 4⟩
def F.SCA_LCFG_dst (i : Nat) : Field := ⟨R.SCA_LCFG i, 20, 4⟩
def F.SCA_LCFG_aux (i : Nat) : Field := ⟨R.SCA_LCFG i, 16, 4⟩
def F.SCA_LCFG_tap (i : Nat) : Field := ⟨R.SCA_LCFG i, 10, 4⟩
def F.SCA_LCFG_act (i : Nat) : Field := ⟨R.SCA_LCFG i, 8, 2⟩
def F.SCA_LCFG_nsec (i : Nat) : Field := ⟨R.SCA_LCFG i, 0, 4⟩
def R.SCA_LLIM (i : Nat) : Nat := 0x100080 + 0x4 * i
def F.SCA_LLIM_lim (i : Nat) : Field := ⟨R.SCA_LLIM i, 0, 16⟩
def R.SCA_LOUT (i : Nat) : Nat := 0x1000C0 + 0x4 * i
def F.SCA_LOUT_y (i : Nat) : Field := ⟨R.SCA_LOUT i, 0, 32⟩
def R.SCA_FFG (i j : Nat) : Nat := 0x100100 + 0x10 * i + 0x4 * j
def F.SCA_FFG_g (i j : Nat) : Field := ⟨R.SCA_FFG i j, 0, 16⟩
def R.SCA_VDM (i : Nat) : Nat := 0x100200 + 0x4 * i
def F.SCA_VDM_d (i : Nat) : Field := ⟨R.SCA_VDM i, 0, 32⟩
def R.SCA_MDM (i : Nat) : Nat := 0x100210 + 0x4 * i
def F.SCA_MDM_d (i : Nat) : Field := ⟨R.SCA_MDM i, 0, 32⟩
def R.SCA_SDM : Nat := 0x100220
def F.SCA_SDM_d : Field := ⟨R.SCA_SDM, 0, 32⟩
def R.SCA_SEC_B0 (i : Nat) : Nat := 0x101000 + 0x40 * i
def F.SCA_SEC_B0_m (i : Nat) : Field := ⟨R.SCA_SEC_B0 i, 0, 32⟩
def R.SCA_SEC_B1 (i : Nat) : Nat := 0x101004 + 0x40 * i
def F.SCA_SEC_B1_m (i : Nat) : Field := ⟨R.SCA_SEC_B1 i, 0, 32⟩
def R.SCA_SEC_B2 (i : Nat) : Nat := 0x101008 + 0x40 * i
def F.SCA_SEC_B2_m (i : Nat) : Field := ⟨R.SCA_SEC_B2 i, 0, 32⟩
def R.SCA_SEC_B3 (i : Nat) : Nat := 0x10100C + 0x40 * i
def F.SCA_SEC_B3_m (i : Nat) : Field := ⟨R.SCA_SEC_B3 i, 0, 32⟩
def R.SCA_SEC_A1 (i : Nat) : Nat := 0x101010 + 0x40 * i
def F.SCA_SEC_A1_m (i : Nat) : Field := ⟨R.SCA_SEC_A1 i, 0, 32⟩
def R.SCA_SEC_A2 (i : Nat) : Nat := 0x101014 + 0x40 * i
def F.SCA_SEC_A2_m (i : Nat) : Field := ⟨R.SCA_SEC_A2 i, 0, 32⟩
def R.SCA_SEC_A3 (i : Nat) : Nat := 0x101018 + 0x40 * i
def F.SCA_SEC_A3_m (i : Nat) : Field := ⟨R.SCA_SEC_A3 i, 0, 32⟩
def R.SCA_SEC_SHA (i : Nat) : Nat := 0x10101C + 0x40 * i
def F.SCA_SEC_SHA_s (i : Nat) : Field := ⟨R.SCA_SEC_SHA i, 0, 20⟩
def R.SCA_SEC_SHB (i : Nat) : Nat := 0x101020 + 0x40 * i
def F.SCA_SEC_SHB_s (i : Nat) : Field := ⟨R.SCA_SEC_SHB i, 0, 15⟩
def R.SCA_SEC_SCTL (i : Nat) : Nat := 0x101024 + 0x40 * i
def F.SCA_SEC_SCTL_bypass (i : Nat) : Field := ⟨R.SCA_SEC_SCTL i, 31, 1⟩
def F.SCA_SEC_SCTL_p2 (i : Nat) : Field := ⟨R.SCA_SEC_SCTL i, 30, 1⟩
def F.SCA_SEC_SCTL_satst (i : Nat) : Field := ⟨R.SCA_SEC_SCTL i, 1, 1⟩
def F.SCA_SEC_SCTL_satacc (i : Nat) : Field := ⟨R.SCA_SEC_SCTL i, 0, 1⟩
def R.SCA_SEC_SEXP (i : Nat) : Nat := 0x101028 + 0x40 * i
def F.SCA_SEC_SEXP_e (i : Nat) : Field := ⟨R.SCA_SEC_SEXP i, 0, 6⟩
def R.SCA_SEC_S1 (i : Nat) : Nat := 0x10102C + 0x40 * i
def F.SCA_SEC_S1_m (i : Nat) : Field := ⟨R.SCA_SEC_S1 i, 0, 32⟩
def R.SCA_SEC_S2 (i : Nat) : Nat := 0x101030 + 0x40 * i
def F.SCA_SEC_S2_m (i : Nat) : Field := ⟨R.SCA_SEC_S2 i, 0, 32⟩
def R.SCA_SEC_S3 (i : Nat) : Nat := 0x101034 + 0x40 * i
def F.SCA_SEC_S3_m (i : Nat) : Field := ⟨R.SCA_SEC_S3 i, 0, 32⟩
def R.SCA_SKCMD (i : Nat) : Nat := 0x110010 + 0x10 * i
def F.SCA_SKCMD_go (i : Nat) : Field := ⟨R.SCA_SKCMD i, 31, 1⟩
def F.SCA_SKCMD_track (i : Nat) : Field := ⟨R.SCA_SKCMD i, 0, 22⟩
def R.SCA_SKSTAT (i : Nat) : Nat := 0x110014 + 0x10 * i
def F.SCA_SKSTAT_busy (i : Nat) : Field := ⟨R.SCA_SKSTAT i, 31, 1⟩
def F.SCA_SKSTAT_done (i : Nat) : Field := ⟨R.SCA_SKSTAT i, 30, 1⟩
def F.SCA_SKSTAT_replan (i : Nat) : Field := ⟨R.SCA_SKSTAT i, 29, 1⟩
def F.SCA_SKSTAT_n (i : Nat) : Field := ⟨R.SCA_SKSTAT i, 0, 16⟩
def R.SCA_SKFF (i : Nat) : Nat := 0x110018 + 0x10 * i
def F.SCA_SKFF_g (i : Nat) : Field := ⟨R.SCA_SKFF i, 0, 16⟩
def R.SCA_RAMPCFG : Nat := 0x110050
def F.SCA_RAMPCFG_rate : Field := ⟨R.SCA_RAMPCFG, 16, 16⟩
def F.SCA_RAMPCFG_round : Field := ⟨R.SCA_RAMPCFG, 0, 8⟩
def R.SCA_RAMPSP : Nat := 0x110054
def F.SCA_RAMPSP_locked : Field := ⟨R.SCA_RAMPSP, 31, 1⟩
def F.SCA_RAMPSP_active : Field := ⟨R.SCA_RAMPSP, 30, 1⟩
def F.SCA_RAMPSP_sp : Field := ⟨R.SCA_RAMPSP, 0, 16⟩
def R.SCA_RAMPLK : Nat := 0x110058
def F.SCA_RAMPLK_band : Field := ⟨R.SCA_RAMPLK, 0, 8⟩
def R.SCA_FLCTL : Nat := 0x110060
def F.SCA_FLCTL_go : Field := ⟨R.SCA_FLCTL, 31, 1⟩
def F.SCA_FLCTL_abort : Field := ⟨R.SCA_FLCTL, 30, 1⟩
def F.SCA_FLCTL_loop : Field := ⟨R.SCA_FLCTL, 24, 4⟩
def F.SCA_FLCTL_cycles : Field := ⟨R.SCA_FLCTL, 0, 8⟩
def R.SCA_FLAMP : Nat := 0x110064
def F.SCA_FLAMP_h : Field := ⟨R.SCA_FLAMP, 16, 16⟩
def F.SCA_FLAMP_eps : Field := ⟨R.SCA_FLAMP, 0, 16⟩
def R.SCA_FLST : Nat := 0x110068
def F.SCA_FLST_state : Field := ⟨R.SCA_FLST, 30, 2⟩
def F.SCA_FLST_cause : Field := ⟨R.SCA_FLST, 28, 2⟩
def F.SCA_FLST_cycles : Field := ⟨R.SCA_FLST, 0, 8⟩
def R.SCA_FLPER : Nat := 0x11006C
def F.SCA_FLPER_p : Field := ⟨R.SCA_FLPER, 0, 20⟩
def R.SCA_FLA : Nat := 0x110070
def F.SCA_FLA_a : Field := ⟨R.SCA_FLA, 0, 16⟩
def R.SCA_FLLIM : Nat := 0x110074
def F.SCA_FLLIM_pes : Field := ⟨R.SCA_FLLIM, 0, 16⟩
def R.SRV_CTL : Nat := 0x120010
def F.SRV_CTL_autoset : Field := ⟨R.SRV_CTL, 0, 1⟩
def R.SRV_SETST : Nat := 0x120014
def F.SRV_SETST_busy : Field := ⟨R.SRV_SETST, 31, 1⟩
def F.SRV_SETST_act : Field := ⟨R.SRV_SETST, 16, 3⟩
def F.SRV_SETST_count : Field := ⟨R.SRV_SETST, 0, 8⟩
def R.SRV_SETCMD : Nat := 0x120018
def F.SRV_SETCMD_go : Field := ⟨R.SRV_SETCMD, 31, 1⟩
def F.SRV_SETCMD_set : Field := ⟨R.SRV_SETCMD, 0, 3⟩
def R.SRV_SSADDR : Nat := 0x12001C
def F.SRV_SSADDR_inc : Field := ⟨R.SRV_SSADDR, 31, 1⟩
def F.SRV_SSADDR_addr : Field := ⟨R.SRV_SSADDR, 2, 14⟩
def R.SRV_SSDATA : Nat := 0x120020
def F.SRV_SSDATA_data : Field := ⟨R.SRV_SSDATA, 0, 32⟩
def R.SRV_SHOCK : Nat := 0x120024
def F.SRV_SHOCK_level : Field := ⟨R.SRV_SHOCK, 16, 16⟩
def F.SRV_SHOCK_hold : Field := ⟨R.SRV_SHOCK, 0, 16⟩
def R.SRV_UNLD : Nat := 0x120028
def F.SRV_UNLD_vel : Field := ⟨R.SRV_UNLD, 0, 16⟩
def R.SRV_SPDM : Nat := 0x12002C
def F.SRV_SPDM_src : Field := ⟨R.SRV_SPDM, 31, 1⟩
def F.SRV_SPDM_lane : Field := ⟨R.SRV_SPDM, 28, 2⟩
def F.SRV_SPDM_rpm : Field := ⟨R.SRV_SPDM, 0, 16⟩
def R.SRV_STAT : Nat := 0x120030
def F.SRV_STAT_force : Field := ⟨R.SRV_STAT, 8, 4⟩
def F.SRV_STAT_seek : Field := ⟨R.SRV_STAT, 4, 4⟩
def F.SRV_STAT_loaded : Field := ⟨R.SRV_STAT, 0, 4⟩
def R.SRV_ERR : Nat := 0x120034
def F.SRV_ERR_setinv : Field := ⟨R.SRV_ERR, 6, 1⟩
def F.SRV_ERR_setecc : Field := ⟨R.SRV_ERR, 5, 1⟩
def F.SRV_ERR_shock : Field := ⟨R.SRV_ERR, 4, 1⟩
def F.SRV_ERR_lost : Field := ⟨R.SRV_ERR, 0, 4⟩
def R.SRV_WLIM (i : Nat) : Nat := 0x120040 + 0x20 * i
def F.SRV_WLIM_lim (i : Nat) : Field := ⟨R.SRV_WLIM i, 0, 16⟩
def R.SRV_RLIM (i : Nat) : Nat := 0x120044 + 0x20 * i
def F.SRV_RLIM_lim (i : Nat) : Field := ⟨R.SRV_RLIM i, 0, 16⟩
def R.SRV_STL (i : Nat) : Nat := 0x120048 + 0x20 * i
def F.SRV_STL_lim (i : Nat) : Field := ⟨R.SRV_STL i, 16, 16⟩
def F.SRV_STL_cnt (i : Nat) : Field := ⟨R.SRV_STL i, 0, 8⟩
def R.SRV_SKP (i : Nat) : Nat := 0x12004C + 0x20 * i
def F.SRV_SKP_amax (i : Nat) : Field := ⟨R.SRV_SKP i, 16, 16⟩
def F.SRV_SKP_nmin (i : Nat) : Field := ⟨R.SRV_SKP i, 0, 8⟩
def R.SRV_MISS (i : Nat) : Nat := 0x120050 + 0x20 * i
def F.SRV_MISS_lost (i : Nat) : Field := ⟨R.SRV_MISS i, 8, 8⟩
def F.SRV_MISS_wu (i : Nat) : Field := ⟨R.SRV_MISS i, 0, 8⟩
def R.SRV_POS (i : Nat) : Nat := 0x120054 + 0x20 * i
def F.SRV_POS_valid (i : Nat) : Field := ⟨R.SRV_POS i, 31, 1⟩
def F.SRV_POS_track (i : Nat) : Field := ⟨R.SRV_POS i, 0, 22⟩
def R.SRV_PES (i : Nat) : Nat := 0x120058 + 0x20 * i
def F.SRV_PES_pes (i : Nat) : Field := ⟨R.SRV_PES i, 0, 16⟩
def R.SRV_MISSCNT (i : Nat) : Nat := 0x12005C + 0x20 * i
def F.SRV_MISSCNT_count (i : Nat) : Field := ⟨R.SRV_MISSCNT i, 0, 32⟩
def R.SPN_CTL : Nat := 0xF0010
def F.SPN_CTL_arm : Field := ⟨R.SPN_CTL, 31, 1⟩
def F.SPN_CTL_src : Field := ⟨R.SPN_CTL, 4, 2⟩
def F.SPN_CTL_run : Field := ⟨R.SPN_CTL, 0, 1⟩
def R.SPN_STAT : Nat := 0xF0014
def F.SPN_STAT_state : Field := ⟨R.SPN_STAT, 28, 4⟩
def F.SPN_STAT_attempt : Field := ⟨R.SPN_STAT, 26, 2⟩
def F.SPN_STAT_rev : Field := ⟨R.SPN_STAT, 25, 1⟩
def F.SPN_STAT_obslock : Field := ⟨R.SPN_STAT, 24, 1⟩
def F.SPN_STAT_upok : Field := ⟨R.SPN_STAT, 23, 1⟩
def F.SPN_STAT_locked : Field := ⟨R.SPN_STAT, 22, 1⟩
def F.SPN_STAT_caught : Field := ⟨R.SPN_STAT, 21, 1⟩
def F.SPN_STAT_point : Field := ⟨R.SPN_STAT, 16, 3⟩
def F.SPN_STAT_obsrpm : Field := ⟨R.SPN_STAT, 0, 16⟩
def R.SPN_TGT : Nat := 0xF0018
def F.SPN_TGT_curve : Field := ⟨R.SPN_TGT, 29, 3⟩
def F.SPN_TGT_point : Field := ⟨R.SPN_TGT, 26, 3⟩
def F.SPN_TGT_hold : Field := ⟨R.SPN_TGT, 24, 2⟩
def F.SPN_TGT_rpm : Field := ⟨R.SPN_TGT, 0, 16⟩
def R.SPN_CEIL : Nat := 0xF001C
def F.SPN_CEIL_acou : Field := ⟨R.SPN_CEIL, 4, 3⟩
def F.SPN_CEIL_pcap : Field := ⟨R.SPN_CEIL, 0, 3⟩
def R.SPN_PWMCFG : Nat := 0xF0020
def F.SPN_PWMCFG_win : Field := ⟨R.SPN_PWMCFG, 16, 8⟩
def F.SPN_PWMCFG_dead : Field := ⟨R.SPN_PWMCFG, 0, 8⟩
def R.SPN_MOTOR : Nat := 0xF0024
def F.SPN_MOTOR_pp : Field := ⟨R.SPN_MOTOR, 28, 4⟩
def F.SPN_MOTOR_res : Field := ⟨R.SPN_MOTOR, 16, 12⟩
def F.SPN_MOTOR_ind : Field := ⟨R.SPN_MOTOR, 0, 16⟩
def R.SPN_OBS : Nat := 0xF0028
def F.SPN_OBS_bw : Field := ⟨R.SPN_OBS, 16, 16⟩
def F.SPN_OBS_vmin : Field := ⟨R.SPN_OBS, 0, 16⟩
def R.SPN_CURK : Nat := 0xF002C
def F.SPN_CURK_kp : Field := ⟨R.SPN_CURK, 16, 16⟩
def F.SPN_CURK_ki : Field := ⟨R.SPN_CURK, 0, 16⟩
def R.SPN_ILIM : Nat := 0xF0030
def F.SPN_ILIM_trip : Field := ⟨R.SPN_ILIM, 24, 8⟩
def F.SPN_ILIM_run : Field := ⟨R.SPN_ILIM, 16, 8⟩
def F.SPN_ILIM_regen : Field := ⟨R.SPN_ILIM, 8, 8⟩
def R.SPN_ALIGN : Nat := 0xF0034
def F.SPN_ALIGN_cur : Field := ⟨R.SPN_ALIGN, 24, 8⟩
def F.SPN_ALIGN_time : Field := ⟨R.SPN_ALIGN, 16, 8⟩
def F.SPN_ALIGN_pw : Field := ⟨R.SPN_ALIGN, 8, 8⟩
def F.SPN_ALIGN_pdiff : Field := ⟨R.SPN_ALIGN, 0, 8⟩
def R.SPN_OPEN : Nat := 0xF0038
def F.SPN_OPEN_cur : Field := ⟨R.SPN_OPEN, 24, 8⟩
def F.SPN_OPEN_acc : Field := ⟨R.SPN_OPEN, 16, 8⟩
def F.SPN_OPEN_hand : Field := ⟨R.SPN_OPEN, 4, 12⟩
def F.SPN_OPEN_retries : Field := ⟨R.SPN_OPEN, 0, 2⟩
def R.SPN_CATCH : Nat := 0xF003C
def F.SPN_CATCH_rpm : Field := ⟨R.SPN_CATCH, 16, 16⟩
def F.SPN_CATCH_sense : Field := ⟨R.SPN_CATCH, 0, 8⟩
def R.SPN_BRK : Nat := 0xF0040
def F.SPN_BRK_ilim : Field := ⟨R.SPN_BRK, 24, 8⟩
def F.SPN_BRK_izero : Field := ⟨R.SPN_BRK, 16, 8⟩
def F.SPN_BRK_hold : Field := ⟨R.SPN_BRK, 8, 8⟩
def R.SPN_FLY : Nat := 0xF0044
def F.SPN_FLY_rpm : Field := ⟨R.SPN_FLY, 16, 16⟩
def F.SPN_FLY_zvrpm : Field := ⟨R.SPN_FLY, 0, 16⟩
def R.SPN_SPDCFG : Nat := 0xF0048
def F.SPN_SPDCFG_mode : Field := ⟨R.SPN_SPDCFG, 30, 2⟩
def F.SPN_SPDCFG_fscale : Field := ⟨R.SPN_SPDCFG, 16, 8⟩
def F.SPN_SPDCFG_dead : Field := ⟨R.SPN_SPDCFG, 0, 16⟩
def R.SPN_SPDLIM : Nat := 0xF004C
def F.SPN_SPDLIM_max : Field := ⟨R.SPN_SPDLIM, 16, 16⟩
def F.SPN_SPDLIM_min : Field := ⟨R.SPN_SPDLIM, 0, 16⟩
def R.SPN_SPDV : Nat := 0xF0050
def F.SPN_SPDV_valid : Field := ⟨R.SPN_SPDV, 31, 1⟩
def F.SPN_SPDV_stop : Field := ⟨R.SPN_SPDV, 30, 1⟩
def F.SPN_SPDV_raw : Field := ⟨R.SPN_SPDV, 16, 14⟩
def F.SPN_SPDV_rpm : Field := ⟨R.SPN_SPDV, 0, 16⟩
def R.SPN_ERR : Nat := 0xF0054
def F.SPN_ERR_spdcmd : Field := ⟨R.SPN_ERR, 5, 1⟩
def F.SPN_ERR_fly : Field := ⟨R.SPN_ERR, 4, 1⟩
def F.SPN_ERR_ocur : Field := ⟨R.SPN_ERR, 3, 1⟩
def F.SPN_ERR_obslost : Field := ⟨R.SPN_ERR, 2, 1⟩
def F.SPN_ERR_start : Field := ⟨R.SPN_ERR, 1, 1⟩
def F.SPN_ERR_attempt : Field := ⟨R.SPN_ERR, 0, 1⟩
def R.SPN_STARTCNT : Nat := 0xF0058
def F.SPN_STARTCNT_rest : Field := ⟨R.SPN_STARTCNT, 16, 16⟩
def F.SPN_STARTCNT_catch : Field := ⟨R.SPN_STARTCNT, 0, 16⟩
def R.SPN_GO : Nat := 0xF005C
def F.SPN_GO_pending : Field := ⟨R.SPN_GO, 31, 1⟩
def F.SPN_GO_go : Field := ⟨R.SPN_GO, 0, 1⟩
def R.SPN_CRVHDR : Nat := 0xF0060
def F.SPN_CRVHDR_npts : Field := ⟨R.SPN_CRVHDR, 28, 4⟩
def F.SPN_CRVHDR_nbp : Field := ⟨R.SPN_CRVHDR, 23, 5⟩
def F.SPN_CRVHDR_start : Field := ⟨R.SPN_CRVHDR, 20, 3⟩
def R.SPN_CRVHYS : Nat := 0xF0064
def F.SPN_CRVHYS_onhold : Field := ⟨R.SPN_CRVHYS, 16, 16⟩
def F.SPN_CRVHYS_onband : Field := ⟨R.SPN_CRVHYS, 8, 8⟩
def F.SPN_CRVHYS_hyst : Field := ⟨R.SPN_CRVHYS, 0, 8⟩
def R.SPN_CRVPT (i : Nat) : Nat := 0xF0068 + 0x4 * i
def F.SPN_CRVPT_rpm (i : Nat) : Field := ⟨R.SPN_CRVPT i, 0, 16⟩
def R.SPN_CRVBP (i : Nat) : Nat := 0xF0088 + 0x4 * i
def F.SPN_CRVBP_thr (i : Nat) : Field := ⟨R.SPN_CRVBP i, 16, 16⟩
def F.SPN_CRVBP_pt (i : Nat) : Field := ⟨R.SPN_CRVBP i, 0, 3⟩
def R.HRV_CTL : Nat := 0xE0010
def F.HRV_CTL_lock : Field := ⟨R.HRV_CTL, 31, 1⟩
def F.HRV_CTL_arm : Field := ⟨R.HRV_CTL, 0, 1⟩
def R.HRV_STAT : Nat := 0xE0014
def F.HRV_STAT_state : Field := ⟨R.HRV_STAT, 28, 4⟩
def F.HRV_STAT_trig : Field := ⟨R.HRV_STAT, 24, 4⟩
def F.HRV_STAT_iso : Field := ⟨R.HRV_STAT, 23, 1⟩
def F.HRV_STAT_ramp : Field := ⟨R.HRV_STAT, 22, 1⟩
def F.HRV_STAT_wt : Field := ⟨R.HRV_STAT, 21, 1⟩
def F.HRV_STAT_rpm : Field := ⟨R.HRV_STAT, 0, 16⟩
def R.HRV_GO : Nat := 0xE0018
def F.HRV_GO_pending : Field := ⟨R.HRV_GO, 31, 1⟩
def F.HRV_GO_go : Field := ⟨R.HRV_GO, 0, 1⟩
def R.HRV_ISOCFG : Nat := 0xE001C
def F.HRV_ISOCFG_rev : Field := ⟨R.HRV_ISOCFG, 24, 8⟩
def F.HRV_ISOCFG_slew : Field := ⟨R.HRV_ISOCFG, 16, 8⟩
def F.HRV_ISOCFG_rejoin : Field := ⟨R.HRV_ISOCFG, 0, 16⟩
def R.HRV_VINTH : Nat := 0xE0020
def F.HRV_VINTH_lvl : Field := ⟨R.HRV_VINTH, 20, 12⟩
def F.HRV_VINTH_on : Field := ⟨R.HRV_VINTH, 8, 12⟩
def F.HRV_VINTH_filt : Field := ⟨R.HRV_VINTH, 0, 8⟩
def R.HRV_BUS : Nat := 0xE0024
def F.HRV_BUS_hset : Field := ⟨R.HRV_BUS, 24, 8⟩
def F.HRV_BUS_chon : Field := ⟨R.HRV_BUS, 16, 8⟩
def F.HRV_BUS_choff : Field := ⟨R.HRV_BUS, 8, 8⟩
def F.HRV_BUS_zvmax : Field := ⟨R.HRV_BUS, 0, 8⟩
def R.HRV_CHOP : Nat := 0xE0028
def F.HRV_CHOP_imin : Field := ⟨R.HRV_CHOP, 24, 8⟩
def F.HRV_CHOP_ileak : Field := ⟨R.HRV_CHOP, 16, 8⟩
def F.HRV_CHOP_tdet : Field := ⟨R.HRV_CHOP, 8, 8⟩
def R.HRV_DIAPCFG : Nat := 0xE002C
def F.HRV_DIAPCFG_tcrit : Field := ⟨R.HRV_DIAPCFG, 0, 8⟩
def R.HRV_PAR0 : Nat := 0xE0030
def F.HRV_PAR0_eta : Field := ⟨R.HRV_PAR0, 24, 8⟩
def F.HRV_PAR0_margin : Field := ⟨R.HRV_PAR0, 16, 8⟩
def F.HRV_PAR0_wmin : Field := ⟨R.HRV_PAR0, 0, 16⟩
def R.HRV_PAR1 : Nat := 0xE0034
def F.HRV_PAR1_epark : Field := ⟨R.HRV_PAR1, 24, 8⟩
def F.HRV_PAR1_eres : Field := ⟨R.HRV_PAR1, 16, 8⟩
def F.HRV_PAR1_pload : Field := ⟨R.HRV_PAR1, 0, 16⟩
def R.HRV_PAR2 : Nat := 0xE0038
def F.HRV_PAR2_ovh : Field := ⟨R.HRV_PAR2, 16, 16⟩
def F.HRV_PAR2_tseek : Field := ⟨R.HRV_PAR2, 0, 16⟩
def R.HRV_INERTIA : Nat := 0xE003C
def F.HRV_INERTIA_j : Field := ⟨R.HRV_INERTIA, 0, 32⟩
def R.HRV_CRATE : Nat := 0xE0040
def F.HRV_CRATE_bytes : Field := ⟨R.HRV_CRATE, 0, 24⟩
def R.HRV_WIND (i : Nat) : Nat := 0xE0044 + 0x4 * i
def F.HRV_WIND_rpm (i : Nat) : Field := ⟨R.HRV_WIND i, 16, 16⟩
def F.HRV_WIND_mw (i : Nat) : Field := ⟨R.HRV_WIND i, 0, 16⟩
def R.HRV_BUDGET : Nat := 0xE0070
def F.HRV_BUDGET_kib : Field := ⟨R.HRV_BUDGET, 0, 32⟩
def R.HRV_TBUDGET : Nat := 0xE0074
def F.HRV_TBUDGET_kib : Field := ⟨R.HRV_TBUDGET, 0, 32⟩
def R.HRV_DIRTY : Nat := 0xE0078
def F.HRV_DIRTY_kib : Field := ⟨R.HRV_DIRTY, 0, 32⟩
def R.HRV_WTDIRTY : Nat := 0xE007C
def F.HRV_WTDIRTY_kib : Field := ⟨R.HRV_WTDIRTY, 0, 32⟩
def R.HRV_LANES : Nat := 0xE0080
def F.HRV_LANES_n : Field := ⟨R.HRV_LANES, 4, 3⟩
def F.HRV_LANES_mask : Field := ⟨R.HRV_LANES, 0, 4⟩
def R.HRV_HSEQ : Nat := 0xE0084
def F.HRV_HSEQ_seq : Field := ⟨R.HRV_HSEQ, 0, 32⟩
def R.HRV_HRES : Nat := 0xE0088
def F.HRV_HRES_result : Field := ⟨R.HRV_HRES, 30, 2⟩
def F.HRV_HRES_slots : Field := ⟨R.HRV_HRES, 0, 30⟩
def R.HRV_DIAP : Nat := 0xE008C
def F.HRV_DIAP_active : Field := ⟨R.HRV_DIAP, 31, 1⟩
def F.HRV_DIAP_cause : Field := ⟨R.HRV_DIAP, 16, 8⟩
def R.HRV_CMD : Nat := 0xE0090
def F.HRV_CMD_force : Field := ⟨R.HRV_CMD, 31, 1⟩
def F.HRV_CMD_chtest : Field := ⟨R.HRV_CMD, 30, 1⟩
def R.HRV_ERR : Nat := 0xE0094
def F.HRV_ERR_double : Field := ⟨R.HRV_ERR, 8, 1⟩
def F.HRV_ERR_throttle : Field := ⟨R.HRV_ERR, 7, 1⟩
def F.HRV_ERR_chopshort : Field := ⟨R.HRV_ERR, 6, 1⟩
def F.HRV_ERR_chopopen : Field := ⟨R.HRV_ERR, 5, 1⟩
def F.HRV_ERR_over : Field := ⟨R.HRV_ERR, 4, 1⟩
def F.HRV_ERR_ramp : Field := ⟨R.HRV_ERR, 3, 1⟩
def F.HRV_ERR_par : Field := ⟨R.HRV_ERR, 2, 1⟩
def F.HRV_ERR_rev : Field := ⟨R.HRV_ERR, 1, 1⟩
def F.HRV_ERR_dry : Field := ⟨R.HRV_ERR, 0, 1⟩
def R.HRV_VSNS : Nat := 0xE0098
def F.HRV_VSNS_vin : Field := ⟨R.HRV_VSNS, 16, 16⟩
def F.HRV_VSNS_hold : Field := ⟨R.HRV_VSNS, 0, 16⟩
def R.HRV_MSNS : Nat := 0xE009C
def F.HRV_MSNS_chop : Field := ⟨R.HRV_MSNS, 24, 8⟩
def F.HRV_MSNS_mbus : Field := ⟨R.HRV_MSNS, 0, 16⟩
def R.CTR_CTL : Nat := 0x90010
def F.CTR_CTL_en : Field := ⟨R.CTR_CTL, 0, 1⟩
def R.CTR_STAT : Nat := 0x90014
def F.CTR_STAT_broken : Field := ⟨R.CTR_STAT, 16, 16⟩
def F.CTR_STAT_active : Field := ⟨R.CTR_STAT, 0, 16⟩
def R.CTR_DEMAND : Nat := 0x90018
def F.CTR_DEMAND_floor : Field := ⟨R.CTR_DEMAND, 16, 16⟩
def F.CTR_DEMAND_sum : Field := ⟨R.CTR_DEMAND, 0, 16⟩
def R.CTR_DREP : Nat := 0x9001C
def F.CTR_DREP_mbps : Field := ⟨R.CTR_DREP, 0, 16⟩
def R.CTR_WRES : Nat := 0x90020
def F.CTR_WRES_kib : Field := ⟨R.CTR_WRES, 0, 32⟩
def R.CTR_RSV : Nat := 0x90024
def F.CTR_RSV_pct : Field := ⟨R.CTR_RSV, 0, 8⟩
def R.CTR_CRYCFG : Nat := 0x90028
def F.CTR_CRYCFG_fwin : Field := ⟨R.CTR_CRYCFG, 0, 4⟩
def R.CTR_TIME : Nat := 0x9002C
def F.CTR_TIME_us : Field := ⟨R.CTR_TIME, 0, 32⟩
def R.CTR_FRAME : Nat := 0x90030
def F.CTR_FRAME_us : Field := ⟨R.CTR_FRAME, 0, 32⟩
def R.CTR_GO : Nat := 0x90034
def F.CTR_GO_pending : Field := ⟨R.CTR_GO, 31, 1⟩
def F.CTR_GO_mask : Field := ⟨R.CTR_GO, 0, 16⟩
def R.CTR_ERR : Nat := 0x90038
def F.CTR_ERR_brk : Field := ⟨R.CTR_ERR, 2, 1⟩
def F.CTR_ERR_over : Field := ⟨R.CTR_ERR, 1, 1⟩
def F.CTR_ERR_late : Field := ⟨R.CTR_ERR, 0, 1⟩
def R.CTR_C_CFG (i : Nat) : Nat := 0x90100 + 0x20 * i
def F.CTR_C_CFG_state (i : Nat) : Field := ⟨R.CTR_C_CFG i, 30, 2⟩
def F.CTR_C_CFG_dir (i : Nat) : Field := ⟨R.CTR_C_CFG i, 29, 1⟩
def F.CTR_C_CFG_stream (i : Nat) : Field := ⟨R.CTR_C_CFG i, 0, 16⟩
def R.CTR_C_RATE (i : Nat) : Nat := 0x90104 + 0x20 * i
def F.CTR_C_RATE_mbps (i : Nat) : Field := ⟨R.CTR_C_RATE i, 0, 16⟩
def R.CTR_C_LAT (i : Nat) : Nat := 0x90108 + 0x20 * i
def F.CTR_C_LAT_us (i : Nat) : Field := ⟨R.CTR_C_LAT i, 0, 32⟩
def R.CTR_C_BKT (i : Nat) : Nat := 0x9010C + 0x20 * i
def F.CTR_C_BKT_kib (i : Nat) : Field := ⟨R.CTR_C_BKT i, 0, 32⟩
def R.CTR_C_MAX (i : Nat) : Nat := 0x90110 + 0x20 * i
def F.CTR_C_MAX_blk (i : Nat) : Field := ⟨R.CTR_C_MAX i, 0, 10⟩
def R.CTR_C_Q (i : Nat) : Nat := 0x90114 + 0x20 * i
def F.CTR_C_Q_kib (i : Nat) : Field := ⟨R.CTR_C_Q i, 0, 32⟩
def R.CTR_C_OFF (i : Nat) : Nat := 0x90118 + 0x20 * i
def F.CTR_C_OFF_us (i : Nat) : Field := ⟨R.CTR_C_OFF i, 0, 32⟩
def R.CTR_C_RA (i : Nat) : Nat := 0x9011C + 0x20 * i
def F.CTR_C_RA_mib (i : Nat) : Field := ⟨R.CTR_C_RA i, 0, 16⟩
def R.CTR_C_ZSF (i j : Nat) : Nat := 0x90300 + 0x20 * i + 0x8 * j
def F.CTR_C_ZSF_first (i j : Nat) : Field := ⟨R.CTR_C_ZSF i j, 0, 17⟩
def R.CTR_C_ZSC (i j : Nat) : Nat := 0x90304 + 0x20 * i + 0x8 * j
def F.CTR_C_ZSC_count (i j : Nat) : Field := ⟨R.CTR_C_ZSC i j, 0, 18⟩
def R.CTR_C_SERVED (i : Nat) : Nat := 0x90500 + 0x10 * i
def F.CTR_C_SERVED_count (i : Nat) : Field := ⟨R.CTR_C_SERVED i, 0, 32⟩
def R.CTR_C_EXCESS (i : Nat) : Nat := 0x90504 + 0x10 * i
def F.CTR_C_EXCESS_count (i : Nat) : Field := ⟨R.CTR_C_EXCESS i, 0, 32⟩
def R.CTR_C_LATE (i : Nat) : Nat := 0x90508 + 0x10 * i
def F.CTR_C_LATE_count (i : Nat) : Field := ⟨R.CTR_C_LATE i, 0, 32⟩
def R.CTR_C_WORST (i : Nat) : Nat := 0x9050C + 0x10 * i
def F.CTR_C_WORST_us (i : Nat) : Field := ⟨R.CTR_C_WORST i, 0, 32⟩
def R.BUF_CTL : Nat := 0xA0010
def F.BUF_CTL_lock : Field := ⟨R.BUF_CTL, 31, 1⟩
def R.BUF_WPOOL : Nat := 0xA0014
def F.BUF_WPOOL_base : Field := ⟨R.BUF_WPOOL, 16, 8⟩
def F.BUF_WPOOL_size : Field := ⟨R.BUF_WPOOL, 0, 8⟩
def R.BUF_RPOOL : Nat := 0xA0018
def F.BUF_RPOOL_base : Field := ⟨R.BUF_RPOOL, 16, 8⟩
def F.BUF_RPOOL_size : Field := ⟨R.BUF_RPOOL, 0, 8⟩
def R.BUF_RPRSV : Nat := 0xA001C
def F.BUF_RPRSV_mib : Field := ⟨R.BUF_RPRSV, 0, 16⟩
def R.BUF_PTILE : Nat := 0xA0020
def F.BUF_PTILE_ms : Field := ⟨R.BUF_PTILE, 0, 16⟩
def R.BUF_CTX : Nat := 0xA0024
def F.BUF_CTX_ctx : Field := ⟨R.BUF_CTX, 16, 13⟩
def F.BUF_CTX_slots : Field := ⟨R.BUF_CTX, 0, 12⟩
def R.BUF_WPLAND : Nat := 0xA0028
def F.BUF_WPLAND_kib : Field := ⟨R.BUF_WPLAND, 0, 32⟩
def R.BUF_WPHELD : Nat := 0xA002C
def F.BUF_WPHELD_kib : Field := ⟨R.BUF_WPHELD, 0, 32⟩
def R.BUF_WPFREE : Nat := 0xA0030
def F.BUF_WPFREE_kib : Field := ⟨R.BUF_WPFREE, 0, 32⟩
def R.BUF_ABORT : Nat := 0xA0034
def F.BUF_ABORT_go : Field := ⟨R.BUF_ABORT, 31, 1⟩
def F.BUF_ABORT_result : Field := ⟨R.BUF_ABORT, 29, 2⟩
def F.BUF_ABORT_busy : Field := ⟨R.BUF_ABORT, 28, 1⟩
def F.BUF_ABORT_sqid : Field := ⟨R.BUF_ABORT, 16, 7⟩
def F.BUF_ABORT_cid : Field := ⟨R.BUF_ABORT, 0, 16⟩
def R.BUF_STALL : Nat := 0xA0038
def F.BUF_STALL_ctx : Field := ⟨R.BUF_STALL, 3, 1⟩
def F.BUF_STALL_grant : Field := ⟨R.BUF_STALL, 2, 1⟩
def F.BUF_STALL_budget : Field := ⟨R.BUF_STALL, 1, 1⟩
def F.BUF_STALL_cq : Field := ⟨R.BUF_STALL, 0, 1⟩
def R.BUF_ERR : Nat := 0xA003C
def F.BUF_ERR_wpecc : Field := ⟨R.BUF_ERR, 2, 1⟩
def F.BUF_ERR_rpecc : Field := ⟨R.BUF_ERR, 1, 1⟩
def F.BUF_ERR_cqlong : Field := ⟨R.BUF_ERR, 0, 1⟩
def R.BUF_SEALCNT : Nat := 0xA0040
def F.BUF_SEALCNT_count : Field := ⟨R.BUF_SEALCNT, 0, 32⟩
def R.BUF_ABORTCNT : Nat := 0xA0044
def F.BUF_ABORTCNT_count : Field := ⟨R.BUF_ABORTCNT, 0, 32⟩
def R.BUF_PTCNT : Nat := 0xA0048
def F.BUF_PTCNT_count : Field := ⟨R.BUF_PTCNT, 0, 32⟩
def R.DMA_SIG0 : Nat := 0xC0010
def F.DMA_SIG0_s : Field := ⟨R.DMA_SIG0, 0, 32⟩
def R.DMA_SIG1 : Nat := 0xC0014
def F.DMA_SIG1_s : Field := ⟨R.DMA_SIG1, 0, 32⟩
def R.DMA_SIGSET0 : Nat := 0xC0018
def F.DMA_SIGSET0_s : Field := ⟨R.DMA_SIGSET0, 0, 32⟩
def R.DMA_SIGSET1 : Nat := 0xC001C
def F.DMA_SIGSET1_s : Field := ⟨R.DMA_SIGSET1, 0, 32⟩
def R.DMA_SIGCLR0 : Nat := 0xC0020
def F.DMA_SIGCLR0_s : Field := ⟨R.DMA_SIGCLR0, 0, 32⟩
def R.DMA_SIGCLR1 : Nat := 0xC0024
def F.DMA_SIGCLR1_s : Field := ⟨R.DMA_SIGCLR1, 0, 32⟩
def R.DMA_INT : Nat := 0xC0028
def F.DMA_INT_ch : Field := ⟨R.DMA_INT, 0, 16⟩
def R.DMA_BUFPROG : Nat := 0xC0030
def F.DMA_BUFPROG_base : Field := ⟨R.DMA_BUFPROG, 0, 18⟩
def R.DMA_CH_CTL (i : Nat) : Nat := 0xC0100 + 0x40 * i
def F.DMA_CH_CTL_start (i : Nat) : Field := ⟨R.DMA_CH_CTL i, 31, 1⟩
def F.DMA_CH_CTL_resume (i : Nat) : Field := ⟨R.DMA_CH_CTL i, 30, 1⟩
def F.DMA_CH_CTL_abort (i : Nat) : Field := ⟨R.DMA_CH_CTL i, 29, 1⟩
def R.DMA_CH_DB (i : Nat) : Nat := 0xC0104 + 0x40 * i
def F.DMA_CH_DB_ring (i : Nat) : Field := ⟨R.DMA_CH_DB i, 0, 1⟩
def R.DMA_CH_STAT (i : Nat) : Nat := 0xC0108 + 0x40 * i
def F.DMA_CH_STAT_state (i : Nat) : Field := ⟨R.DMA_CH_STAT i, 29, 3⟩
def F.DMA_CH_STAT_db (i : Nat) : Field := ⟨R.DMA_CH_STAT i, 28, 1⟩
def F.DMA_CH_STAT_code (i : Nat) : Field := ⟨R.DMA_CH_STAT i, 24, 4⟩
def F.DMA_CH_STAT_dir (i : Nat) : Field := ⟨R.DMA_CH_STAT i, 23, 1⟩
def F.DMA_CH_STAT_depth (i : Nat) : Field := ⟨R.DMA_CH_STAT i, 21, 2⟩
def R.DMA_CH_PCLO (i : Nat) : Nat := 0xC010C + 0x40 * i
def F.DMA_CH_PCLO_a (i : Nat) : Field := ⟨R.DMA_CH_PCLO i, 4, 28⟩
def R.DMA_CH_PCHI (i : Nat) : Nat := 0xC0110 + 0x40 * i
def F.DMA_CH_PCHI_a (i : Nat) : Field := ⟨R.DMA_CH_PCHI i, 0, 8⟩
def R.DMA_CH_ENDALO (i : Nat) : Nat := 0xC0114 + 0x40 * i
def F.DMA_CH_ENDALO_a (i : Nat) : Field := ⟨R.DMA_CH_ENDALO i, 4, 28⟩
def R.DMA_CH_ENDAHI (i : Nat) : Nat := 0xC0118 + 0x40 * i
def F.DMA_CH_ENDAHI_a (i : Nat) : Field := ⟨R.DMA_CH_ENDAHI i, 0, 8⟩
def R.DMA_CH_ERRLO (i : Nat) : Nat := 0xC011C + 0x40 * i
def F.DMA_CH_ERRLO_a (i : Nat) : Field := ⟨R.DMA_CH_ERRLO i, 6, 26⟩
def R.DMA_CH_ERRHI (i : Nat) : Nat := 0xC0120 + 0x40 * i
def F.DMA_CH_ERRHI_a (i : Nat) : Field := ⟨R.DMA_CH_ERRHI i, 0, 8⟩
def R.DMA_CH_CFG (i : Nat) : Nat := 0xC0124 + 0x40 * i
def F.DMA_CH_CFG_sig (i : Nat) : Field := ⟨R.DMA_CH_CFG i, 16, 6⟩
def F.DMA_CH_CFG_slot (i : Nat) : Field := ⟨R.DMA_CH_CFG i, 8, 4⟩
def F.DMA_CH_CFG_buf (i : Nat) : Field := ⟨R.DMA_CH_CFG i, 0, 1⟩
def R.DMA_CH_BYTES (i : Nat) : Nat := 0xC0128 + 0x40 * i
def F.DMA_CH_BYTES_count (i : Nat) : Field := ⟨R.DMA_CH_BYTES i, 0, 32⟩
def R.SHF_STAT : Nat := 0xD0010
def F.SHF_STAT_valid : Field := ⟨R.SHF_STAT, 0, 16⟩
def R.SHF_ERR : Nat := 0xD0014
def F.SHF_ERR_desc : Field := ⟨R.SHF_ERR, 0, 1⟩
def R.SHF_CNT : Nat := 0xD0018
def F.SHF_CNT_tiles : Field := ⟨R.SHF_CNT, 0, 32⟩
def R.SHF_SLOT_D0 (i : Nat) : Nat := 0xD0100 + 0x10 * i
def F.SHF_SLOT_D0_d (i : Nat) : Field := ⟨R.SHF_SLOT_D0 i, 0, 32⟩
def R.SHF_SLOT_D1 (i : Nat) : Nat := 0xD0104 + 0x10 * i
def F.SHF_SLOT_D1_d (i : Nat) : Field := ⟨R.SHF_SLOT_D1 i, 0, 32⟩
def R.SHF_SLOT_ZONE (i : Nat) : Nat := 0xD0108 + 0x10 * i
def F.SHF_SLOT_ZONE_z (i : Nat) : Field := ⟨R.SHF_SLOT_ZONE i, 0, 17⟩
def R.HST_LINK : Nat := 0x80010
def F.HST_LINK_up : Field := ⟨R.HST_LINK, 31, 1⟩
def F.HST_LINK_rate : Field := ⟨R.HST_LINK, 24, 4⟩
def F.HST_LINK_width : Field := ⟨R.HST_LINK, 16, 4⟩
def F.HST_LINK_ltssm : Field := ⟨R.HST_LINK, 0, 6⟩
def R.HST_RETRAIN : Nat := 0x80014
def F.HST_RETRAIN_count : Field := ⟨R.HST_RETRAIN, 0, 32⟩
def R.HST_ERR : Nat := 0x80018
def F.HST_ERR_down : Field := ⟨R.HST_ERR, 4, 1⟩
def F.HST_ERR_lower : Field := ⟨R.HST_ERR, 3, 1⟩
def F.HST_ERR_uncorr : Field := ⟨R.HST_ERR, 2, 1⟩
def F.HST_ERR_corr : Field := ⟨R.HST_ERR, 1, 1⟩
def F.HST_ERR_flr : Field := ⟨R.HST_ERR, 0, 1⟩
def R.HST_IOCNT : Nat := 0x8001C
def F.HST_IOCNT_count : Field := ⟨R.HST_IOCNT, 0, 32⟩
def R.HST_ADMCNT : Nat := 0x80020
def F.HST_ADMCNT_count : Field := ⟨R.HST_ADMCNT, 0, 32⟩
def R.PWR_CMD : Nat := 0x10010
def F.PWR_CMD_go : Field := ⟨R.PWR_CMD, 31, 1⟩
def F.PWR_CMD_wake : Field := ⟨R.PWR_CMD, 8, 7⟩
def F.PWR_CMD_stop : Field := ⟨R.PWR_CMD, 0, 7⟩
def R.PWR_DSTAT : Nat := 0x10014
def F.PWR_DSTAT_d : Field := ⟨R.PWR_DSTAT, 0, 24⟩
def R.PWR_PSTAT : Nat := 0x10018
def F.PWR_PSTAT_phase : Field := ⟨R.PWR_PSTAT, 29, 3⟩
def F.PWR_PSTAT_wakepend : Field := ⟨R.PWR_PSTAT, 28, 1⟩
def F.PWR_PSTAT_tries : Field := ⟨R.PWR_PSTAT, 0, 16⟩
def R.PWR_HSCFG : Nat := 0x1001C
def F.PWR_HSCFG_dmax : Field := ⟨R.PWR_HSCFG, 24, 8⟩
def F.PWR_HSCFG_backoff : Field := ⟨R.PWR_HSCFG, 16, 8⟩
def F.PWR_HSCFG_idle : Field := ⟨R.PWR_HSCFG, 0, 16⟩
def R.PWR_CFG : Nat := 0x10060
def F.PWR_CFG_hbmhalf : Field := ⟨R.PWR_CFG, 0, 1⟩
def R.PWR_PADHOLD : Nat := 0x10020
def F.PWR_PADHOLD_motion : Field := ⟨R.PWR_PADHOLD, 5, 1⟩
def F.PWR_PADHOLD_lane : Field := ⟨R.PWR_PADHOLD, 0, 4⟩
def R.PWR_PADREL : Nat := 0x10024
def F.PWR_PADREL_motion : Field := ⟨R.PWR_PADREL, 5, 1⟩
def F.PWR_PADREL_lane : Field := ⟨R.PWR_PADREL, 0, 4⟩
def R.PWR_LAST : Nat := 0x10028
def F.PWR_LAST_valid : Field := ⟨R.PWR_LAST, 31, 1⟩
def F.PWR_LAST_dom : Field := ⟨R.PWR_LAST, 8, 3⟩
def F.PWR_LAST_reason : Field := ⟨R.PWR_LAST, 0, 4⟩
def R.PWR_FAIL : Nat := 0x1002C
def F.PWR_FAIL_valid : Field := ⟨R.PWR_FAIL, 31, 1⟩
def F.PWR_FAIL_dom : Field := ⟨R.PWR_FAIL, 8, 3⟩
def F.PWR_FAIL_step : Field := ⟨R.PWR_FAIL, 0, 3⟩
def R.PWR_ERR : Nat := 0x10030
def F.PWR_ERR_roll : Field := ⟨R.PWR_ERR, 7, 1⟩
def F.PWR_ERR_fail : Field := ⟨R.PWR_ERR, 0, 7⟩
def R.PWR_IDLE : Nat := 0x10034
def F.PWR_IDLE_ms : Field := ⟨R.PWR_IDLE, 0, 32⟩
def R.PWR_ROLLCNT : Nat := 0x10038
def F.PWR_ROLLCNT_count : Field := ⟨R.PWR_ROLLCNT, 16, 16⟩
def F.PWR_ROLLCNT_entries : Field := ⟨R.PWR_ROLLCNT, 0, 16⟩
def R.PWR_PASLP (i : Nat) : Nat := 0x10040 + 0x4 * i
def F.PWR_PASLP_en (i : Nat) : Field := ⟨R.PWR_PASLP i, 31, 1⟩
def F.PWR_PASLP_addr (i : Nat) : Field := ⟨R.PWR_PASLP i, 8, 7⟩
def F.PWR_PASLP_data (i : Nat) : Field := ⟨R.PWR_PASLP i, 0, 8⟩
def R.PWR_PAWAK (i : Nat) : Nat := 0x10050 + 0x4 * i
def F.PWR_PAWAK_en (i : Nat) : Field := ⟨R.PWR_PAWAK i, 31, 1⟩
def F.PWR_PAWAK_addr (i : Nat) : Field := ⟨R.PWR_PAWAK i, 8, 7⟩
def F.PWR_PAWAK_data (i : Nat) : Field := ⟨R.PWR_PAWAK i, 0, 8⟩
def R.CFG_STRAP : Nat := 0x40010
def F.CFG_STRAP_mode : Field := ⟨R.CFG_STRAP, 0, 3⟩
def R.CFG_BOOT : Nat := 0x40014
def F.CFG_BOOT_src : Field := ⟨R.CFG_BOOT, 30, 2⟩
def F.CFG_BOOT_warm : Field := ⟨R.CFG_BOOT, 29, 1⟩
def F.CFG_BOOT_fallback : Field := ⟨R.CFG_BOOT, 28, 1⟩
def F.CFG_BOOT_rsna : Field := ⟨R.CFG_BOOT, 24, 4⟩
def F.CFG_BOOT_rsnb : Field := ⟨R.CFG_BOOT, 20, 4⟩
def F.CFG_BOOT_rsnh : Field := ⟨R.CFG_BOOT, 16, 4⟩
def F.CFG_BOOT_ms : Field := ⟨R.CFG_BOOT, 0, 16⟩
def R.CFG_BOOTREC : Nat := 0x40018
def F.CFG_BOOTREC_slot : Field := ⟨R.CFG_BOOTREC, 30, 2⟩
def F.CFG_BOOTREC_seq : Field := ⟨R.CFG_BOOTREC, 0, 30⟩
def R.CFG_IMGVER : Nat := 0x4001C
def F.CFG_IMGVER_ver : Field := ⟨R.CFG_IMGVER, 0, 32⟩
def R.CFG_KEY : Nat := 0x40020
def F.CFG_KEY_rev : Field := ⟨R.CFG_KEY, 16, 16⟩
def F.CFG_KEY_serial : Field := ⟨R.CFG_KEY, 4, 4⟩
def F.CFG_KEY_slot : Field := ⟨R.CFG_KEY, 0, 1⟩
def R.CFG_GEODIG0 : Nat := 0x40024
def F.CFG_GEODIG0_d : Field := ⟨R.CFG_GEODIG0, 0, 32⟩
def R.CFG_GEODIG1 : Nat := 0x40028
def F.CFG_GEODIG1_d : Field := ⟨R.CFG_GEODIG1, 0, 32⟩
def R.CFG_REVOKE : Nat := 0x4002C
def F.CFG_REVOKE_k : Field := ⟨R.CFG_REVOKE, 0, 16⟩
def R.CFG_FLADDR : Nat := 0x40030
def F.CFG_FLADDR_page : Field := ⟨R.CFG_FLADDR, 8, 18⟩
def R.CFG_FLCMD : Nat := 0x40034
def F.CFG_FLCMD_go : Field := ⟨R.CFG_FLCMD, 31, 1⟩
def F.CFG_FLCMD_busy : Field := ⟨R.CFG_FLCMD, 30, 1⟩
def F.CFG_FLCMD_op : Field := ⟨R.CFG_FLCMD, 28, 2⟩
def F.CFG_FLCMD_res : Field := ⟨R.CFG_FLCMD, 26, 2⟩
def R.CFG_FLBUF (i : Nat) : Nat := 0x40100 + 0x4 * i
def F.CFG_FLBUF_d (i : Nat) : Field := ⟨R.CFG_FLBUF i, 0, 32⟩
def R.CFG_POTLO : Nat := 0x40040
def F.CFG_POTLO_ms : Field := ⟨R.CFG_POTLO, 0, 32⟩
def R.CFG_POTHI : Nat := 0x40044
def F.CFG_POTHI_ms : Field := ⟨R.CFG_POTHI, 0, 32⟩
def R.CFG_PCYC : Nat := 0x40048
def F.CFG_PCYC_count : Field := ⟨R.CFG_PCYC, 0, 32⟩
def R.CFG_RCVCMD : Nat := 0x40050
def F.CFG_RCVCMD_keel : Field := ⟨R.CFG_RCVCMD, 0, 1⟩
def R.CFG_RCVSTAT : Nat := 0x40054
def F.CFG_RCVSTAT_phase : Field := ⟨R.CFG_RCVSTAT, 30, 2⟩
def F.CFG_RCVSTAT_geo : Field := ⟨R.CFG_RCVSTAT, 29, 1⟩
def F.CFG_RCVSTAT_pct : Field := ⟨R.CFG_RCVSTAT, 0, 7⟩
def R.ECC_CTL : Nat := 0x50010
def F.ECC_CTL_clr : Field := ⟨R.ECC_CTL, 31, 1⟩
def R.ECC_LAST : Nat := 0x50014
def F.ECC_LAST_valid : Field := ⟨R.ECC_LAST, 31, 1⟩
def F.ECC_LAST_ue : Field := ⟨R.ECC_LAST, 30, 1⟩
def F.ECC_LAST_mem : Field := ⟨R.ECC_LAST, 24, 4⟩
def F.ECC_LAST_inst : Field := ⟨R.ECC_LAST, 20, 3⟩
def R.ECC_LASTADDR : Nat := 0x50018
def F.ECC_LASTADDR_addr : Field := ⟨R.ECC_LASTADDR, 0, 31⟩
def R.ECC_ERR : Nat := 0x5001C
def F.ECC_ERR_ue : Field := ⟨R.ECC_ERR, 0, 12⟩
def R.ECC_FLIPCTL : Nat := 0x50020
def F.ECC_FLIPCTL_arm : Field := ⟨R.ECC_FLIPCTL, 31, 1⟩
def F.ECC_FLIPCTL_done : Field := ⟨R.ECC_FLIPCTL, 30, 1⟩
def F.ECC_FLIPCTL_mem : Field := ⟨R.ECC_FLIPCTL, 24, 4⟩
def F.ECC_FLIPCTL_inst : Field := ⟨R.ECC_FLIPCTL, 20, 3⟩
def R.ECC_FLIPADDR : Nat := 0x50024
def F.ECC_FLIPADDR_addr : Field := ⟨R.ECC_FLIPADDR, 0, 31⟩
def R.ECC_FLIPD0 : Nat := 0x50028
def F.ECC_FLIPD0_m : Field := ⟨R.ECC_FLIPD0, 0, 32⟩
def R.ECC_FLIPD1 : Nat := 0x5002C
def F.ECC_FLIPD1_m : Field := ⟨R.ECC_FLIPD1, 0, 32⟩
def R.ECC_FLIPC : Nat := 0x50030
def F.ECC_FLIPC_m : Field := ⟨R.ECC_FLIPC, 0, 8⟩
def R.ECC_SPLITCTL : Nat := 0x50040
def F.ECC_SPLITCTL_en : Field := ⟨R.ECC_SPLITCTL, 31, 1⟩
def F.ECC_SPLITCTL_mem : Field := ⟨R.ECC_SPLITCTL, 24, 4⟩
def F.ECC_SPLITCTL_inst : Field := ⟨R.ECC_SPLITCTL, 20, 3⟩
def R.ECC_SPLITCB : Nat := 0x50044
def F.ECC_SPLITCB_cb : Field := ⟨R.ECC_SPLITCB, 0, 8⟩
def R.ECC_SPLITRD : Nat := 0x50048
def F.ECC_SPLITRD_valid : Field := ⟨R.ECC_SPLITRD, 31, 1⟩
def F.ECC_SPLITRD_syn : Field := ⟨R.ECC_SPLITRD, 8, 8⟩
def F.ECC_SPLITRD_cb : Field := ⟨R.ECC_SPLITRD, 0, 8⟩
def R.ECC_CE (i : Nat) : Nat := 0x50100 + 0x8 * i
def F.ECC_CE_count (i : Nat) : Field := ⟨R.ECC_CE i, 0, 32⟩
def R.ECC_UE (i : Nat) : Nat := 0x50104 + 0x8 * i
def F.ECC_UE_count (i : Nat) : Field := ⟨R.ECC_UE i, 0, 32⟩
def R.RAKE_CTL : Nat := 0x60010
def F.RAKE_CTL_en : Field := ⟨R.RAKE_CTL, 31, 1⟩
def F.RAKE_CTL_rate : Field := ⟨R.RAKE_CTL, 16, 8⟩
def F.RAKE_CTL_lapmax : Field := ⟨R.RAKE_CTL, 0, 16⟩
def R.RAKE_STAT : Nat := 0x60014
def F.RAKE_STAT_harv : Field := ⟨R.RAKE_STAT, 31, 1⟩
def R.RAKE_ERR : Nat := 0x60018
def F.RAKE_ERR_dig : Field := ⟨R.RAKE_ERR, 16, 4⟩
def F.RAKE_ERR_slow : Field := ⟨R.RAKE_ERR, 0, 12⟩
def R.RAKE_DIG (i : Nat) : Nat := 0x60020 + 0x4 * i
def F.RAKE_DIG_valid (i : Nat) : Field := ⟨R.RAKE_DIG i, 31, 1⟩
def F.RAKE_DIG_match (i : Nat) : Field := ⟨R.RAKE_DIG i, 30, 1⟩
def F.RAKE_DIG_dig (i : Nat) : Field := ⟨R.RAKE_DIG i, 0, 16⟩
def R.RAKE_LAPCNT (i : Nat) : Nat := 0x60100 + 0x10 * i
def F.RAKE_LAPCNT_count (i : Nat) : Field := ⟨R.RAKE_LAPCNT i, 0, 32⟩
def R.RAKE_LAPTIME (i : Nat) : Nat := 0x60104 + 0x10 * i
def F.RAKE_LAPTIME_ms (i : Nat) : Field := ⟨R.RAKE_LAPTIME i, 0, 32⟩
def R.RAKE_CUR (i : Nat) : Nat := 0x60108 + 0x10 * i
def F.RAKE_CUR_addr (i : Nat) : Field := ⟨R.RAKE_CUR i, 0, 32⟩
def R.RAKE_FIX (i : Nat) : Nat := 0x6010C + 0x10 * i
def F.RAKE_FIX_count (i : Nat) : Field := ⟨R.RAKE_FIX i, 0, 32⟩
def R.ISST_CMD : Nat := 0x70010
def F.ISST_CMD_go : Field := ⟨R.ISST_CMD, 31, 1⟩
def F.ISST_CMD_lane : Field := ⟨R.ISST_CMD, 28, 2⟩
def F.ISST_CMD_part : Field := ⟨R.ISST_CMD, 24, 3⟩
def F.ISST_CMD_len : Field := ⟨R.ISST_CMD, 0, 8⟩
def R.ISST_STAT : Nat := 0x70014
def F.ISST_STAT_state : Field := ⟨R.ISST_STAT, 30, 2⟩
def F.ISST_STAT_lane : Field := ⟨R.ISST_STAT, 28, 2⟩
def F.ISST_STAT_part : Field := ⟨R.ISST_STAT, 24, 3⟩
def F.ISST_STAT_block : Field := ⟨R.ISST_STAT, 0, 9⟩
def R.ISST_RES : Nat := 0x70018
def F.ISST_RES_valid : Field := ⟨R.ISST_RES, 31, 1⟩
def F.ISST_RES_pass : Field := ⟨R.ISST_RES, 30, 1⟩
def F.ISST_RES_aborted : Field := ⟨R.ISST_RES, 29, 1⟩
def F.ISST_RES_lane : Field := ⟨R.ISST_RES, 27, 2⟩
def F.ISST_RES_part : Field := ⟨R.ISST_RES, 24, 3⟩
def F.ISST_RES_block : Field := ⟨R.ISST_RES, 0, 9⟩
def R.ISST_ERR : Nat := 0x7001C
def F.ISST_ERR_abort : Field := ⟨R.ISST_ERR, 9, 1⟩
def F.ISST_ERR_sense : Field := ⟨R.ISST_ERR, 8, 1⟩
def F.ISST_ERR_analog : Field := ⟨R.ISST_ERR, 4, 4⟩
def F.ISST_ERR_logic : Field := ⟨R.ISST_ERR, 0, 4⟩
def R.ISST_SENSECFG : Nat := 0x70020
def F.ISST_SENSECFG_en : Field := ⟨R.ISST_SENSECFG, 31, 1⟩
def F.ISST_SENSECFG_period : Field := ⟨R.ISST_SENSECFG, 0, 8⟩
def R.ISST_SENSEST : Nat := 0x70024
def F.ISST_SENSEST_fail : Field := ⟨R.ISST_SENSEST, 0, 7⟩
def R.ISST_POS (i j : Nat) : Nat := 0x70100 + 0x20 * i + 0x4 * j
def F.ISST_POS_block (i j : Nat) : Field := ⟨R.ISST_POS i j, 0, 9⟩
def R.ISST_LAP (i : Nat) : Nat := 0x70114 + 0x20 * i
def F.ISST_LAP_count (i : Nat) : Field := ⟨R.ISST_LAP i, 0, 32⟩
def R.TMR_INJ : Nat := 0x190010
def F.TMR_INJ_go : Field := ⟨R.TMR_INJ, 31, 1⟩
def F.TMR_INJ_copy : Field := ⟨R.TMR_INJ, 24, 2⟩
def F.TMR_INJ_word : Field := ⟨R.TMR_INJ, 16, 3⟩
def R.TMR_INJD : Nat := 0x190014
def F.TMR_INJD_d : Field := ⟨R.TMR_INJD, 0, 32⟩
def R.TMR_FIXCNT : Nat := 0x190018
def F.TMR_FIXCNT_count : Field := ⟨R.TMR_FIXCNT, 0, 32⟩
def R.TMR_FIX : Nat := 0x19001C
def F.TMR_FIX_valid : Field := ⟨R.TMR_FIX, 31, 1⟩
def F.TMR_FIX_copy : Field := ⟨R.TMR_FIX, 24, 2⟩
def F.TMR_FIX_word : Field := ⟨R.TMR_FIX, 16, 3⟩
def R.TMR_LSCTL : Nat := 0x190020
def F.TMR_LSCTL_test : Field := ⟨R.TMR_LSCTL, 31, 1⟩
def F.TMR_LSCTL_inj : Field := ⟨R.TMR_LSCTL, 30, 1⟩
def F.TMR_LSCTL_group : Field := ⟨R.TMR_LSCTL, 16, 3⟩
def R.TMR_LSSTAT : Nat := 0x190024
def F.TMR_LSSTAT_mism : Field := ⟨R.TMR_LSSTAT, 31, 1⟩
def F.TMR_LSSTAT_tested : Field := ⟨R.TMR_LSSTAT, 30, 1⟩
def F.TMR_LSSTAT_stfail : Field := ⟨R.TMR_LSSTAT, 29, 1⟩
def F.TMR_LSSTAT_group : Field := ⟨R.TMR_LSSTAT, 16, 3⟩
def R.TMR_LSCYC : Nat := 0x190028
def F.TMR_LSCYC_cyc : Field := ⟨R.TMR_LSCYC, 0, 32⟩
def R.TMR_W_C0 (i : Nat) : Nat := 0x190100 + 0x10 * i
def F.TMR_W_C0_d (i : Nat) : Field := ⟨R.TMR_W_C0 i, 0, 32⟩
def R.TMR_W_C1 (i : Nat) : Nat := 0x190104 + 0x10 * i
def F.TMR_W_C1_d (i : Nat) : Field := ⟨R.TMR_W_C1 i, 0, 32⟩
def R.TMR_W_C2 (i : Nat) : Nat := 0x190108 + 0x10 * i
def F.TMR_W_C2_d (i : Nat) : Field := ⟨R.TMR_W_C2 i, 0, 32⟩
def R.TMR_W_V (i : Nat) : Nat := 0x19010C + 0x10 * i
def F.TMR_W_V_d (i : Nat) : Field := ⟨R.TMR_W_V i, 0, 32⟩
def R.ALR_CAUSE : Nat := 0x20010
def F.ALR_CAUSE_diap : Field := ⟨R.ALR_CAUSE, 31, 1⟩
def F.ALR_CAUSE_c : Field := ⟨R.ALR_CAUSE, 0, 24⟩
def R.ALR_PINEN : Nat := 0x20014
def F.ALR_PINEN_en : Field := ⟨R.ALR_PINEN, 0, 32⟩
def R.ALR_SUM : Nat := 0x20018
def F.ALR_SUM_pin : Field := ⟨R.ALR_SUM, 31, 1⟩
def F.ALR_SUM_supp : Field := ⟨R.ALR_SUM, 30, 1⟩
def F.ALR_SUM_c : Field := ⟨R.ALR_SUM, 0, 24⟩
def R.ALR_CFGEV : Nat := 0x2001C
def F.ALR_CFGEV_e : Field := ⟨R.ALR_CFGEV, 0, 5⟩
def R.ALR_PWREV : Nat := 0x20020
def F.ALR_PWREV_pgcore : Field := ⟨R.ALR_PWREV, 0, 1⟩
def R.ALR_THERM : Nat := 0x20024
def F.ALR_THERM_e : Field := ⟨R.ALR_THERM, 0, 3⟩
def R.ALR_TEMP : Nat := 0x20028
def F.ALR_TEMP_tj : Field := ⟨R.ALR_TEMP, 8, 8⟩
def F.ALR_TEMP_td : Field := ⟨R.ALR_TEMP, 0, 8⟩
def R.ALR_TTH : Nat := 0x2002C
def F.ALR_TTH_underen : Field := ⟨R.ALR_TTH, 31, 1⟩
def F.ALR_TTH_over : Field := ⟨R.ALR_TTH, 8, 8⟩
def F.ALR_TTH_under : Field := ⟨R.ALR_TTH, 0, 8⟩
def R.ALR_UCODE : Nat := 0x20030
def F.ALR_UCODE_lane : Field := ⟨R.ALR_UCODE, 0, 4⟩
def R.ALR_SMB : Nat := 0x20034
def F.ALR_SMB_addr : Field := ⟨R.ALR_SMB, 0, 7⟩
def R.ALR_CTL : Nat := 0x20038
def F.ALR_CTL_aracnt : Field := ⟨R.ALR_CTL, 16, 16⟩
def F.ALR_CTL_ara : Field := ⟨R.ALR_CTL, 0, 1⟩
def R.EVT_CTL : Nat := 0x30010
def F.EVT_CTL_tlock : Field := ⟨R.EVT_CTL, 31, 1⟩
def F.EVT_CTL_fold : Field := ⟨R.EVT_CTL, 0, 16⟩
def R.EVT_FLMASK : Nat := 0x30014
def F.EVT_FLMASK_c : Field := ⟨R.EVT_FLMASK, 0, 32⟩
def R.EVT_CMD : Nat := 0x30018
def F.EVT_CMD_flush : Field := ⟨R.EVT_CMD, 31, 1⟩
def R.EVT_STAT : Nat := 0x3001C
def F.EVT_STAT_flush : Field := ⟨R.EVT_STAT, 31, 1⟩
def F.EVT_STAT_erase : Field := ⟨R.EVT_STAT, 30, 1⟩
def F.EVT_STAT_unfl : Field := ⟨R.EVT_STAT, 0, 10⟩
def R.EVT_SEQ : Nat := 0x30020
def F.EVT_SEQ_seq : Field := ⟨R.EVT_SEQ, 0, 32⟩
def R.EVT_FLSEQ : Nat := 0x30024
def F.EVT_FLSEQ_seq : Field := ⟨R.EVT_FLSEQ, 0, 32⟩
def R.EVT_DROP : Nat := 0x30028
def F.EVT_DROP_count : Field := ⟨R.EVT_DROP, 0, 32⟩
def R.EVT_ERR : Nat := 0x3002C
def F.EVT_ERR_e : Field := ⟨R.EVT_ERR, 0, 3⟩
def R.EVT_POTLO : Nat := 0x30030
def F.EVT_POTLO_ms : Field := ⟨R.EVT_POTLO, 0, 32⟩
def R.EVT_POTHI : Nat := 0x30034
def F.EVT_POTHI_ms : Field := ⟨R.EVT_POTHI, 0, 32⟩
def R.EVT_PCYC : Nat := 0x30038
def F.EVT_PCYC_count : Field := ⟨R.EVT_PCYC, 0, 32⟩
def R.EVT_RINGHD : Nat := 0x3003C
def F.EVT_RINGHD_slot : Field := ⟨R.EVT_RINGHD, 0, 16⟩
def R.EVT_RDIDX : Nat := 0x30040
def F.EVT_RDIDX_idx : Field := ⟨R.EVT_RDIDX, 0, 9⟩
def R.EVT_RDDATA (i : Nat) : Nat := 0x30044 + 0x4 * i
def F.EVT_RDDATA_d (i : Nat) : Field := ⟨R.EVT_RDDATA i, 0, 32⟩
def R.EVT_SW_P (i j : Nat) : Nat := 0x30100 + 0x40 * i + 0x4 * j
def F.EVT_SW_P_d (i j : Nat) : Field := ⟨R.EVT_SW_P i j, 0, 32⟩
def R.EVT_SW_HDR (i : Nat) : Nat := 0x30120 + 0x40 * i
def F.EVT_SW_HDR_post (i : Nat) : Field := ⟨R.EVT_SW_HDR i, 31, 1⟩
def F.EVT_SW_HDR_src (i : Nat) : Field := ⟨R.EVT_SW_HDR i, 8, 8⟩
def F.EVT_SW_HDR_code (i : Nat) : Field := ⟨R.EVT_SW_HDR i, 0, 8⟩
def R.EVT_MEASCFG : Nat := 0x30200
def F.EVT_MEASCFG_period : Field := ⟨R.EVT_MEASCFG, 0, 8⟩
def R.EVT_MSTAT : Nat := 0x30204
def F.EVT_MSTAT_seq : Field := ⟨R.EVT_MSTAT, 0, 32⟩
def R.EVT_MTEMP : Nat := 0x30208
def F.EVT_MTEMP_tj : Field := ⟨R.EVT_MTEMP, 8, 8⟩
def F.EVT_MTEMP_td : Field := ⟨R.EVT_MTEMP, 0, 8⟩
def R.EVT_MVOLT0 : Nat := 0x3020C
def F.EVT_MVOLT0_vin : Field := ⟨R.EVT_MVOLT0, 16, 16⟩
def F.EVT_MVOLT0_hold : Field := ⟨R.EVT_MVOLT0, 0, 16⟩
def R.EVT_MVOLT1 : Nat := 0x30210
def F.EVT_MVOLT1_mbus : Field := ⟨R.EVT_MVOLT1, 0, 16⟩
def R.EVT_MDIRTY : Nat := 0x30214
def F.EVT_MDIRTY_kib : Field := ⟨R.EVT_MDIRTY, 0, 32⟩
def R.EVT_MVIB : Nat := 0x30218
def F.EVT_MVIB_peak : Field := ⟨R.EVT_MVIB, 16, 16⟩
def F.EVT_MVIB_rms : Field := ⟨R.EVT_MVIB, 0, 16⟩
def R.EVT_MSHOCK : Nat := 0x3021C
def F.EVT_MSHOCK_count : Field := ⟨R.EVT_MSHOCK, 0, 16⟩
def R.EVT_MPES (i : Nat) : Nat := 0x30220 + 0x4 * i
def F.EVT_MPES_rms (i : Nat) : Field := ⟨R.EVT_MPES i, 0, 16⟩
def R.SYS_PADDRV : Nat := 0x40
def F.SYS_PADDRV_qspi : Field := ⟨R.SYS_PADDRV, 6, 2⟩
def F.SYS_PADDRV_pas : Field := ⟨R.SYS_PADDRV, 4, 2⟩
def F.SYS_PADDRV_mot : Field := ⟨R.SYS_PADDRV, 2, 2⟩
def F.SYS_PADDRV_vib : Field := ⟨R.SYS_PADDRV, 0, 2⟩
def R.SRV_VCMCFG (i : Nat) : Nat := 0x120100 + 0x4 * i
def F.SRV_VCMCFG_kp (i : Nat) : Field := ⟨R.SRV_VCMCFG i, 16, 16⟩
def F.SRV_VCMCFG_ki (i : Nat) : Field := ⟨R.SRV_VCMCFG i, 0, 16⟩
def R.SRV_VIBCFG : Nat := 0x120110
def F.SRV_VIBCFG_cmd : Field := ⟨R.SRV_VIBCFG, 16, 16⟩
def F.SRV_VIBCFG_en : Field := ⟨R.SRV_VIBCFG, 15, 1⟩
def F.SRV_VIBCFG_div : Field := ⟨R.SRV_VIBCFG, 0, 8⟩
def R.SRV_VIBRD : Nat := 0x120114
def F.SRV_VIBRD_val : Field := ⟨R.SRV_VIBRD, 0, 16⟩
def R.SYS_RST : Nat := 0x14
def F.SYS_RST_key : Field := ⟨R.SYS_RST, 16, 16⟩
def F.SYS_RST_go : Field := ⟨R.SYS_RST, 0, 1⟩
def R.HBM_STAT : Nat := 0x180010
def F.HBM_STAT_trained : Field := ⟨R.HBM_STAT, 31, 1⟩
def F.HBM_STAT_sref : Field := ⟨R.HBM_STAT, 30, 1⟩
def F.HBM_STAT_half : Field := ⟨R.HBM_STAT, 29, 1⟩
def F.HBM_STAT_hot : Field := ⟨R.HBM_STAT, 28, 1⟩
def F.HBM_STAT_temp : Field := ⟨R.HBM_STAT, 8, 8⟩
def R.HBM_TRAIN : Nat := 0x180014
def F.HBM_TRAIN_count : Field := ⟨R.HBM_TRAIN, 16, 16⟩

/-- The rows of the SYS block. -/
def regsSYS : List RegDesc := [
  { base := 0x10, ro := 0xFF1F0F, kind := .const },
  { base := 0x40, rw := 0xFF, reset := 0x55 },
  { base := 0x14, wo := 0xFFFF0001 }]

/-- The rows of the PWR block. -/
def regsPWR : List RegDesc := [
  { base := 0x10010, wo := 0x80007F7F },
  { base := 0x10014, ro := 0xFFFFFF },
  { base := 0x10018, ro := 0xF000FFFF },
  { base := 0x1001C, rw := 0xFFFFFFFF, reset := 0x640A0014 },
  { base := 0x10060, rw := 0x1 },
  { base := 0x10020, ro := 0x2F, reset := 0x20 },
  { base := 0x10024, wo := 0x2F },
  { base := 0x10028, ro := 0x8000070F },
  { base := 0x1002C, ro := 0x80000707 },
  { base := 0x10030, w1c := 0xFF },
  { base := 0x10034, ro := 0xFFFFFFFF },
  { base := 0x10038, ro := 0xFFFFFFFF },
  { base := 0x10040, s1 := 0x4, c1 := 4, rw := 0x80007FFF },
  { base := 0x10050, s1 := 0x4, c1 := 4, rw := 0x80007FFF }]

/-- The rows of the ALR block. -/
def regsALR : List RegDesc := [
  { base := 0x20010, w1c := 0xFF1FFF, ro := 0x80000000 },
  { base := 0x20014, rw := 0x80FF1FFF, reset := 0x80FF1FFF },
  { base := 0x20018, ro := 0xC0FF1FFF },
  { base := 0x2001C, w1c := 0x1F },
  { base := 0x20020, w1c := 0x1 },
  { base := 0x20024, w1c := 0x7 },
  { base := 0x20028, ro := 0xFFFF },
  { base := 0x2002C, rw := 0x8000FFFF, reset := 0x6400 },
  { base := 0x20030, w1c := 0xF },
  { base := 0x20034, rw := 0x7F, reset := 0x6A },
  { base := 0x20038, rw := 0x1, ro := 0xFFFF0000, reset := 0x1 }]

/-- The rows of the EVT block. -/
def regsEVT : List RegDesc := [
  { base := 0x30010, rw := 0xFFFF, w1s := 0x80000000, reset := 0x3E8, kind := .cold },
  { base := 0x30014, rw := 0x80FF1FFF, reset := 0x80000403, kind := .cold },
  { base := 0x30018, wo := 0x80000000, kind := .cold },
  { base := 0x3001C, ro := 0xC00003FF, kind := .cold },
  { base := 0x30020, rwl := 0xFFFFFFFF, lock := some R.EVT_CTL, kind := .cold },
  { base := 0x30024, ro := 0xFFFFFFFF, kind := .cold },
  { base := 0x30028, ro := 0xFFFFFFFF, kind := .cold },
  { base := 0x3002C, w1c := 0x7, kind := .cold },
  { base := 0x30030, rwl := 0xFFFFFFFF, lock := some R.EVT_CTL, kind := .cold },
  { base := 0x30034, rwl := 0xFFFFFFFF, lock := some R.EVT_CTL, kind := .cold },
  { base := 0x30038, rwl := 0xFFFFFFFF, lock := some R.EVT_CTL, kind := .cold },
  { base := 0x3003C, rwl := 0xFFFF, lock := some R.EVT_CTL, kind := .cold },
  { base := 0x30040, rw := 0x1FF, kind := .cold },
  { base := 0x30044, s1 := 0x4, c1 := 16, ro := 0xFFFFFFFF, kind := .cold },
  { base := 0x30100, s1 := 0x40, c1 := 4, s2 := 0x4, c2 := 8, rw := 0xFFFFFFFF, kind := .cold },
  { base := 0x30120, s1 := 0x40, c1 := 4, rw := 0xFFFF, wo := 0x80000000, kind := .cold },
  { base := 0x30200, rw := 0xFF, reset := 0x3C, kind := .cold },
  { base := 0x30204, ro := 0xFFFFFFFF, kind := .cold },
  { base := 0x30208, ro := 0xFFFF, kind := .cold },
  { base := 0x3020C, ro := 0xFFFFFFFF, kind := .cold },
  { base := 0x30210, ro := 0xFFFF, kind := .cold },
  { base := 0x30214, ro := 0xFFFFFFFF, kind := .cold },
  { base := 0x30218, ro := 0xFFFFFFFF, kind := .cold },
  { base := 0x3021C, ro := 0xFFFF, kind := .cold },
  { base := 0x30220, s1 := 0x4, c1 := 4, ro := 0xFFFF, kind := .cold }]

/-- The rows of the CFG block. -/
def regsCFG : List RegDesc := [
  { base := 0x40010, ro := 0x7, kind := .cold },
  { base := 0x40014, ro := 0xFFFFFFFF, reset := 0xFFF0000, kind := .cold },
  { base := 0x40018, ro := 0xFFFFFFFF, kind := .cold },
  { base := 0x4001C, ro := 0xFFFFFFFF, kind := .cold },
  { base := 0x40020, ro := 0xFFFF00F1, kind := .cold },
  { base := 0x40024, ro := 0xFFFFFFFF, kind := .cold },
  { base := 0x40028, ro := 0xFFFFFFFF, kind := .cold },
  { base := 0x4002C, wo := 0xFFFF },
  { base := 0x40030, rw := 0x3FFFF00 },
  { base := 0x40034, rw := 0x30000000, wo := 0x80000000, ro := 0x4C000000 },
  { base := 0x40100, s1 := 0x4, c1 := 64, rw := 0xFFFFFFFF },
  { base := 0x40040, ro := 0xFFFFFFFF },
  { base := 0x40044, ro := 0xFFFFFFFF },
  { base := 0x40048, ro := 0xFFFFFFFF },
  { base := 0x40050, wo := 0x1 },
  { base := 0x40054, ro := 0xE000007F }]

/-- The rows of the ECC block. -/
def regsECC : List RegDesc := [
  { base := 0x50010, wo := 0x80000000 },
  { base := 0x50014, ro := 0xCF700000 },
  { base := 0x50018, ro := 0x7FFFFFFF },
  { base := 0x5001C, w1c := 0xFFF },
  { base := 0x50020, rw := 0x8F700000, w1c := 0x40000000 },
  { base := 0x50024, rw := 0x7FFFFFFF },
  { base := 0x50028, rw := 0xFFFFFFFF },
  { base := 0x5002C, rw := 0xFFFFFFFF },
  { base := 0x50030, rw := 0xFF },
  { base := 0x50040, rw := 0x8F700000 },
  { base := 0x50044, rw := 0xFF },
  { base := 0x50048, ro := 0x8000FFFF },
  { base := 0x50100, s1 := 0x8, c1 := 12, ro := 0xFFFFFFFF },
  { base := 0x50104, s1 := 0x8, c1 := 12, ro := 0xFFFFFFFF }]

/-- The rows of the RAKE block. -/
def regsRAKE : List RegDesc := [
  { base := 0x60010, rw := 0x80FFFFFF, reset := 0x800A012C },
  { base := 0x60014, ro := 0x80000000 },
  { base := 0x60018, w1c := 0xF0FFF },
  { base := 0x60020, s1 := 0x4, c1 := 4, ro := 0xC000FFFF },
  { base := 0x60100, s1 := 0x10, c1 := 12, ro := 0xFFFFFFFF },
  { base := 0x60104, s1 := 0x10, c1 := 12, ro := 0xFFFFFFFF },
  { base := 0x60108, s1 := 0x10, c1 := 12, ro := 0xFFFFFFFF },
  { base := 0x6010C, s1 := 0x10, c1 := 12, ro := 0xFFFFFFFF }]

/-- The rows of the ISST block. -/
def regsISST : List RegDesc := [
  { base := 0x70010, rw := 0x370000FF, wo := 0x80000000, reset := 0x10 },
  { base := 0x70014, ro := 0xF70001FF },
  { base := 0x70018, ro := 0xFF0001FF },
  { base := 0x7001C, w1c := 0x3FF },
  { base := 0x70020, rw := 0x800000FF, reset := 0x8000000A },
  { base := 0x70024, ro := 0x7F },
  { base := 0x70100, s1 := 0x20, c1 := 4, s2 := 0x4, c2 := 5, ro := 0x1FF },
  { base := 0x70114, s1 := 0x20, c1 := 4, ro := 0xFFFFFFFF }]

/-- The rows of the HST block. -/
def regsHST : List RegDesc := [
  { base := 0x80010, ro := 0x8F0F003F, kind := .perst },
  { base := 0x80014, ro := 0xFFFFFFFF, kind := .perst },
  { base := 0x80018, w1c := 0x1F, kind := .perst },
  { base := 0x8001C, ro := 0xFFFFFFFF, kind := .perst },
  { base := 0x80020, ro := 0xFFFFFFFF, kind := .perst }]

/-- The rows of the CTR block. -/
def regsCTR : List RegDesc := [
  { base := 0x90010, rw := 0x1, kind := .controller },
  { base := 0x90014, ro := 0xFFFFFFFF, kind := .controller },
  { base := 0x90018, rw := 0xFFFF0000, ro := 0xFFFF, kind := .controller },
  { base := 0x9001C, ro := 0xFFFF, kind := .controller },
  { base := 0x90020, rw := 0xFFFFFFFF, kind := .controller },
  { base := 0x90024, rw := 0xFF, reset := 0xA, go := some .ctr },
  { base := 0x90028, rw := 0xF, reset := 0x1 },
  { base := 0x9002C, ro := 0xFFFFFFFF, kind := .controller },
  { base := 0x90030, rw := 0xFFFFFFFF, go := some .ctr, kind := .controller },
  { base := 0x90034, wo := 0xFFFF, ro := 0x80000000, kind := .controller },
  { base := 0x90038, w1c := 0x7, kind := .controller },
  { base := 0x90100, s1 := 0x20, c1 := 16, rw := 0xE000FFFF, go := some .ctr, kind := .controller },
  { base := 0x90104, s1 := 0x20, c1 := 16, rw := 0xFFFF, go := some .ctr, kind := .controller },
  { base := 0x90108, s1 := 0x20, c1 := 16, rw := 0xFFFFFFFF, go := some .ctr, kind := .controller },
  { base := 0x9010C, s1 := 0x20, c1 := 16, rw := 0xFFFFFFFF, go := some .ctr, kind := .controller },
  { base := 0x90110, s1 := 0x20, c1 := 16, rw := 0x3FF, go := some .ctr, kind := .controller },
  { base := 0x90114, s1 := 0x20, c1 := 16, rw := 0xFFFFFFFF, go := some .ctr, kind := .controller },
  { base := 0x90118, s1 := 0x20, c1 := 16, rw := 0xFFFFFFFF, go := some .ctr, kind := .controller },
  { base := 0x9011C, s1 := 0x20, c1 := 16, rw := 0xFFFF, go := some .ctr, kind := .controller },
  { base := 0x90300, s1 := 0x20, c1 := 16, s2 := 0x8, c2 := 4, rw := 0x1FFFF, go := some .ctr, kind := .controller },
  { base := 0x90304, s1 := 0x20, c1 := 16, s2 := 0x8, c2 := 4, rw := 0x3FFFF, go := some .ctr, kind := .controller },
  { base := 0x90500, s1 := 0x10, c1 := 16, ro := 0xFFFFFFFF, kind := .controller },
  { base := 0x90504, s1 := 0x10, c1 := 16, ro := 0xFFFFFFFF, kind := .controller },
  { base := 0x90508, s1 := 0x10, c1 := 16, ro := 0xFFFFFFFF, kind := .controller },
  { base := 0x9050C, s1 := 0x10, c1 := 16, wz := 0xFFFFFFFF, kind := .controller }]

/-- The rows of the BUF block. -/
def regsBUF : List RegDesc := [
  { base := 0xA0010, w1s := 0x80000000 },
  { base := 0xA0014, rwl := 0xFF00FF, lock := some R.BUF_CTL },
  { base := 0xA0018, rwl := 0xFF00FF, lock := some R.BUF_CTL },
  { base := 0xA001C, rw := 0xFFFF, reset := 0x40 },
  { base := 0xA0020, rw := 0xFFFF, reset := 0x3E8 },
  { base := 0xA0024, ro := 0x1FFF0FFF },
  { base := 0xA0028, ro := 0xFFFFFFFF },
  { base := 0xA002C, ro := 0xFFFFFFFF },
  { base := 0xA0030, ro := 0xFFFFFFFF },
  { base := 0xA0034, rw := 0x7FFFFF, wo := 0x80000000, ro := 0x70000000, kind := .controller },
  { base := 0xA0038, ro := 0xF, kind := .controller },
  { base := 0xA003C, w1c := 0x7 },
  { base := 0xA0040, ro := 0xFFFFFFFF },
  { base := 0xA0044, ro := 0xFFFFFFFF },
  { base := 0xA0048, ro := 0xFFFFFFFF }]

/-- The rows of the MAP block. -/
def regsMAP : List RegDesc := [
  { base := 0xB0010, rw := 0x3F01, w1s := 0x80000000, reset := 0x2000 },
  { base := 0xB0014, ro := 0xE001FFFF },
  { base := 0xB0018, wo := 0x3 },
  { base := 0xB001C, ro := 0xFFFFFFFF },
  { base := 0xB0020, ro := 0xFFFFFFFF },
  { base := 0xB0024, ro := 0xFFFFFFFF },
  { base := 0xB0030, rwl := 0x3FFFF, lock := some R.MAP_CTL },
  { base := 0xB0034, rwl := 0x3FFFF, lock := some R.MAP_CTL },
  { base := 0xB0038, rwl := 0x3FFFF, lock := some R.MAP_CTL },
  { base := 0xB0040, s1 := 0x4, c1 := 4, ro := 0x3FFFF },
  { base := 0xB0050, ro := 0x1FFFFF },
  { base := 0xB0054, ro := 0xFFFFFFFF },
  { base := 0xB0058, ro := 0xFFFFFFFF },
  { base := 0xB005C, ro := 0xFFFFFFFF },
  { base := 0xB0060, ro := 0xFFFFFFFF },
  { base := 0xB0064, ro := 0xE0000003 },
  { base := 0xB0068, ro := 0xC01FFFFF },
  { base := 0xB006C, ro := 0x1FFFFF },
  { base := 0xB0070, w1c := 0x3F }]

/-- The rows of the DMA block. -/
def regsDMA : List RegDesc := [
  { base := 0xC0010, ro := 0xFFFFFFFF },
  { base := 0xC0014, ro := 0xFFFFFFFF },
  { base := 0xC0018, w1s := 0xFFFFFFFF },
  { base := 0xC001C, w1s := 0xFFFFFFFF },
  { base := 0xC0020, w1c := 0xFFFFFFFF },
  { base := 0xC0024, w1c := 0xFFFFFFFF },
  { base := 0xC0028, w1c := 0xFFFF },
  { base := 0xC0030, rwl := 0x3FFFF, lock := some R.BUF_CTL },
  { base := 0xC0100, s1 := 0x40, c1 := 16, wo := 0xE0000000 },
  { base := 0xC0104, s1 := 0x40, c1 := 16, wo := 0x1 },
  { base := 0xC0108, s1 := 0x40, c1 := 16, ro := 0xFFE00000 },
  { base := 0xC010C, s1 := 0x40, c1 := 16, rw := 0xFFFFFFF0 },
  { base := 0xC0110, s1 := 0x40, c1 := 16, rw := 0xFF },
  { base := 0xC0114, s1 := 0x40, c1 := 16, ro := 0xFFFFFFF0 },
  { base := 0xC0118, s1 := 0x40, c1 := 16, ro := 0xFF },
  { base := 0xC011C, s1 := 0x40, c1 := 16, ro := 0xFFFFFFC0 },
  { base := 0xC0120, s1 := 0x40, c1 := 16, ro := 0xFF },
  { base := 0xC0124, s1 := 0x40, c1 := 16, rw := 0x3F0F00, ro := 0x1 },
  { base := 0xC0128, s1 := 0x40, c1 := 16, ro := 0xFFFFFFFF }]

/-- The rows of the SHF block. -/
def regsSHF : List RegDesc := [
  { base := 0xD0010, ro := 0xFFFF },
  { base := 0xD0014, w1c := 0x1 },
  { base := 0xD0018, ro := 0xFFFFFFFF },
  { base := 0xD0100, s1 := 0x10, c1 := 16, rw := 0xFFFFFFFF },
  { base := 0xD0104, s1 := 0x10, c1 := 16, rw := 0xFFFFFFFF },
  { base := 0xD0108, s1 := 0x10, c1 := 16, ro := 0x1FFFF }]

/-- The rows of the HRV block. -/
def regsHRV : List RegDesc := [
  { base := 0xE0010, rw := 0x1, w1s := 0x80000000 },
  { base := 0xE0014, ro := 0xFFE0FFFF, reset := 0x200000 },
  { base := 0xE0018, wo := 0x1, ro := 0x80000000 },
  { base := 0xE001C, rw := 0xFFFFFFFF, reset := 0xA0F03E8 },
  { base := 0xE0020, rw := 0xFFFFFFFF, reset := 0x41A44C0A },
  { base := 0xE0024, rw := 0xFFFFFFFF, reset := 0x789691A0 },
  { base := 0xE0028, rw := 0xFFFFFF00, reset := 0x20080A00 },
  { base := 0xE002C, rw := 0xFF, reset := 0x6E },
  { base := 0xE0030, rwl := 0xFFFFFFFF, reset := 0xC0280960, go := some .hrv, lock := some R.HRV_CTL },
  { base := 0xE0034, rwl := 0xFFFFFFFF, reset := 0xA281F40, go := some .hrv, lock := some R.HRV_CTL },
  { base := 0xE0038, rwl := 0xFFFFFFFF, reset := 0x805E6, go := some .hrv, lock := some R.HRV_CTL },
  { base := 0xE003C, rwl := 0xFFFFFFFF, go := some .hrv, lock := some R.HRV_CTL },
  { base := 0xE0040, rwl := 0xFFFFFF, go := some .hrv, lock := some R.HRV_CTL },
  { base := 0xE0044, s1 := 0x4, c1 := 8, rwl := 0xFFFFFFFF, go := some .hrv, lock := some R.HRV_CTL },
  { base := 0xE0070, ro := 0xFFFFFFFF },
  { base := 0xE0074, ro := 0xFFFFFFFF },
  { base := 0xE0078, ro := 0xFFFFFFFF },
  { base := 0xE007C, ro := 0xFFFFFFFF },
  { base := 0xE0080, ro := 0x7F },
  { base := 0xE0084, ro := 0xFFFFFFFF, kind := .cold },
  { base := 0xE0088, ro := 0xFFFFFFFF },
  { base := 0xE008C, ro := 0x80FF0000, kind := .cold },
  { base := 0xE0090, wo := 0xC0000000 },
  { base := 0xE0094, w1c := 0x1FF },
  { base := 0xE0098, ro := 0xFFFFFFFF },
  { base := 0xE009C, ro := 0xFF00FFFF }]

/-- The rows of the SPN block. -/
def regsSPN : List RegDesc := [
  { base := 0xF0010, rw := 0x80000031, reset := 0x20 },
  { base := 0xF0014, ro := 0xFFE7FFFF },
  { base := 0xF0018, ro := 0xFF00FFFF },
  { base := 0xF001C, rw := 0x77, reset := 0x77 },
  { base := 0xF0020, rw := 0xFF00FF, reset := 0xF00028 },
  { base := 0xF0024, rw := 0xFFFFFFFF },
  { base := 0xF0028, rw := 0xFFFFFFFF, reset := 0xC8003C },
  { base := 0xF002C, rw := 0xFFFFFFFF },
  { base := 0xF0030, rw := 0xFFFFFF00, reset := 0xF0802000 },
  { base := 0xF0034, rw := 0xFFFFFFFF, reset := 0x401E6403 },
  { base := 0xF0038, rw := 0xFFFFFFF3, reset := 0x50642583 },
  { base := 0xF003C, rw := 0xFFFF00FF, reset := 0x12C0014 },
  { base := 0xF0040, rw := 0xFFFFFF00, reset := 0x60040A00 },
  { base := 0xF0044, rw := 0xFFFFFFFF, reset := 0x7D00258 },
  { base := 0xF0048, rw := 0xC0FFFFFF, reset := 0x10010 },
  { base := 0xF004C, rw := 0xFFFFFFFF, reset := 0x1C200960 },
  { base := 0xF0050, ro := 0xFFFFFFFF },
  { base := 0xF0054, w1c := 0x3F },
  { base := 0xF0058, ro := 0xFFFFFFFF },
  { base := 0xF005C, wo := 0x1, ro := 0x80000000 },
  { base := 0xF0060, rw := 0xFFF00000, go := some .spn },
  { base := 0xF0064, rw := 0xFFFFFFFF, go := some .spn },
  { base := 0xF0068, s1 := 0x4, c1 := 8, rw := 0xFFFF, go := some .spn },
  { base := 0xF0088, s1 := 0x4, c1 := 16, rw := 0xFFFF0007, go := some .spn }]

/-- The rows of the SCA0 block. -/
def regsSCA0 : List RegDesc := [
  { base := 0x100010, rw := 0x1 },
  { base := 0x100014, wo := 0x80000000, ro := 0xFFFF },
  { base := 0x100018, wo := 0x1, ro := 0x80000000 },
  { base := 0x10001C, w1c := 0xFFFF },
  { base := 0x100040, s1 := 0x4, c1 := 16, rw := 0xFFFF3F0F, go := some .sca },
  { base := 0x100080, s1 := 0x4, c1 := 16, rw := 0xFFFF, reset := 0xFFFF },
  { base := 0x1000C0, s1 := 0x4, c1 := 16, ro := 0xFFFFFFFF },
  { base := 0x100100, s1 := 0x10, c1 := 16, s2 := 0x4, c2 := 4, rw := 0xFFFF },
  { base := 0x100200, s1 := 0x4, c1 := 4, ro := 0xFFFFFFFF },
  { base := 0x100210, s1 := 0x4, c1 := 4, ro := 0xFFFFFFFF },
  { base := 0x100220, ro := 0xFFFFFFFF },
  { base := 0x101000, s1 := 0x40, c1 := 128, rw := 0xFFFFFFFF },
  { base := 0x101004, s1 := 0x40, c1 := 128, rw := 0xFFFFFFFF },
  { base := 0x101008, s1 := 0x40, c1 := 128, rw := 0xFFFFFFFF },
  { base := 0x10100C, s1 := 0x40, c1 := 128, rw := 0xFFFFFFFF },
  { base := 0x101010, s1 := 0x40, c1 := 128, rw := 0xFFFFFFFF },
  { base := 0x101014, s1 := 0x40, c1 := 128, rw := 0xFFFFFFFF },
  { base := 0x101018, s1 := 0x40, c1 := 128, rw := 0xFFFFFFFF },
  { base := 0x10101C, s1 := 0x40, c1 := 128, rw := 0xFFFFF },
  { base := 0x101020, s1 := 0x40, c1 := 128, rw := 0x7FFF },
  { base := 0x101024, s1 := 0x40, c1 := 128, rw := 0xC0000000, w1c := 0x3, reset := 0x80000000 },
  { base := 0x101028, s1 := 0x40, c1 := 128, ro := 0x3F },
  { base := 0x10102C, s1 := 0x40, c1 := 128, ro := 0xFFFFFFFF },
  { base := 0x101030, s1 := 0x40, c1 := 128, ro := 0xFFFFFFFF },
  { base := 0x101034, s1 := 0x40, c1 := 128, ro := 0xFFFFFFFF }]

/-- The rows of the SCA1 block. -/
def regsSCA1 : List RegDesc := [
  { base := 0x110010, s1 := 0x10, c1 := 4, rw := 0x3FFFFF, wo := 0x80000000 },
  { base := 0x110014, s1 := 0x10, c1 := 4, ro := 0xE000FFFF },
  { base := 0x110018, s1 := 0x10, c1 := 4, rw := 0xFFFF },
  { base := 0x110050, rw := 0xFFFF00FF, reset := 0x3E80028 },
  { base := 0x110054, ro := 0xC000FFFF },
  { base := 0x110058, rw := 0xFF, reset := 0x4 },
  { base := 0x110060, rw := 0xF0000FF, wo := 0xC0000000, reset := 0x10 },
  { base := 0x110064, rw := 0xFFFFFFFF, reset := 0xCCD0083 },
  { base := 0x110068, ro := 0xF00000FF },
  { base := 0x11006C, ro := 0xFFFFF },
  { base := 0x110070, ro := 0xFFFF },
  { base := 0x110074, rw := 0xFFFF, reset := 0x400 }]

/-- The rows of the SRV block. -/
def regsSRV : List RegDesc := [
  { base := 0x120010, rw := 0x1, reset := 0x1 },
  { base := 0x120014, ro := 0x800700FF },
  { base := 0x120018, rw := 0x7, wo := 0x80000000 },
  { base := 0x12001C, rw := 0x8000FFFC, reset := 0x80000000 },
  { base := 0x120020, rw := 0xFFFFFFFF },
  { base := 0x120024, rw := 0xFFFFFFFF, reset := 0x10 },
  { base := 0x120028, rw := 0xFFFF, reset := 0x800 },
  { base := 0x12002C, ro := 0xB000FFFF },
  { base := 0x120030, ro := 0xFFF },
  { base := 0x120034, w1c := 0x7F },
  { base := 0x120040, s1 := 0x20, c1 := 4, rw := 0xFFFF, reset := 0x200 },
  { base := 0x120044, s1 := 0x20, c1 := 4, rw := 0xFFFF, reset := 0x400 },
  { base := 0x120048, s1 := 0x20, c1 := 4, rw := 0xFFFF00FF, reset := 0x100000C },
  { base := 0x12004C, s1 := 0x20, c1 := 4, rw := 0xFFFF00FF, reset := 0x400000C },
  { base := 0x120050, s1 := 0x20, c1 := 4, rw := 0xFFFF, reset := 0x2002 },
  { base := 0x120054, s1 := 0x20, c1 := 4, ro := 0x803FFFFF },
  { base := 0x120058, s1 := 0x20, c1 := 4, ro := 0xFFFF },
  { base := 0x12005C, s1 := 0x20, c1 := 4, ro := 0xFFFFFFFF },
  { base := 0x120100, s1 := 0x4, c1 := 4, rw := 0xFFFFFFFF },
  { base := 0x120110, rw := 0xFFFF80FF, reset := 0x9 },
  { base := 0x120114, ro := 0xFFFF }]

/-- The rows of the LANE blocks. -/
def regsLANE : List RegDesc := [
  { base := 0x130010, bStride := 0x10000, bCount := 4, rw := 0x10F37, reset := 0x10A27 },
  { base := 0x130014, bStride := 0x10000, bCount := 4, ro := 0xFCFF0000 },
  { base := 0x130018, bStride := 0x10000, bCount := 4, wo := 0x1, ro := 0x80000000 },
  { base := 0x13001C, bStride := 0x10000, bCount := 4, rw := 0x80FF0000, go := some .lane },
  { base := 0x130020, bStride := 0x10000, bCount := 4, rw := 0x8000FFFC, reset := 0x80000000 },
  { base := 0x130024, bStride := 0x10000, bCount := 4, rw := 0xFFFFFFFF },
  { base := 0x130028, bStride := 0x10000, bCount := 4, rw := 0xFFFFFF, reset := 0x402004, go := some .lane },
  { base := 0x13002C, bStride := 0x10000, bCount := 4, rw := 0xFF00FF, reset := 0x600010, go := some .lane },
  { base := 0x130030, bStride := 0x10000, bCount := 4, rw := 0x8000000F, reset := 0xC },
  { base := 0x130034, bStride := 0x10000, bCount := 4, rw := 0xFF007F, reset := 0x80030 },
  { base := 0x130038, bStride := 0x10000, bCount := 4, ro := 0xFFFFFFFF },
  { base := 0x13003C, bStride := 0x10000, bCount := 4, ro := 0xFFFF },
  { base := 0x130040, bStride := 0x10000, bCount := 4, w1c := 0xFF },
  { base := 0x130044, bStride := 0x10000, bCount := 4, ro := 0xFFFFFFFF },
  { base := 0x130048, bStride := 0x10000, bCount := 4, ro := 0xFFFFFFFF },
  { base := 0x13004C, bStride := 0x10000, bCount := 4, ro := 0xFFFFFFFF },
  { base := 0x130050, bStride := 0x10000, bCount := 4, ro := 0xFFFFFFFF },
  { base := 0x130054, bStride := 0x10000, bCount := 4, ro := 0xFFFFFFFF },
  { base := 0x130058, bStride := 0x10000, bCount := 4, ro := 0xFFFFFFFF },
  { base := 0x13005C, bStride := 0x10000, bCount := 4, ro := 0xFFFFFFFF },
  { base := 0x130060, bStride := 0x10000, bCount := 4, ro := 0xFFFFFFFF },
  { base := 0x130064, bStride := 0x10000, bCount := 4, wo := 0x80000000, ro := 0x3FF03FF },
  { base := 0x130068, bStride := 0x10000, bCount := 4, rw := 0x7F80FF00, ro := 0x800000FF },
  { base := 0x13006C, bStride := 0x10000, bCount := 4, rw := 0xF, reset := 0x1 }]

/-- The rows of the CRYS block. -/
def regsCRYS : List RegDesc := [
  { base := 0x170010, rw := 0x317F, w1s := 0x80000000, reset := 0x1140 },
  { base := 0x170014, rwl := 0xFF0003, reset := 0x2, lock := some R.CRYS_CTL },
  { base := 0x170018, rw := 0xFF00FF, reset := 0x320019 },
  { base := 0x17001C, ro := 0xFF01FF },
  { base := 0x170020, wo := 0xF0F },
  { base := 0x170030, s1 := 0x4, c1 := 4, ro := 0x3FFFFFF },
  { base := 0x170040, s1 := 0x4, c1 := 4, ro := 0x83FFFFFF },
  { base := 0x170050, s1 := 0x4, c1 := 4, ro := 0xFFFFFFFF },
  { base := 0x170060, w1c := 0x1F },
  { base := 0x170070, ro := 0xFFFFFFFF },
  { base := 0x170074, ro := 0xFFFFFFFF },
  { base := 0x170078, ro := 0xFFFFFFFF },
  { base := 0x17007C, ro := 0xFFFFFFFF },
  { base := 0x170080, ro := 0xFFFFFFFF },
  { base := 0x170084, ro := 0xFFFFFFFF },
  { base := 0x170088, ro := 0xFFFFFFFF },
  { base := 0x17008C, ro := 0xFFFFFFFF },
  { base := 0x170090, ro := 0xFFFFFFFF },
  { base := 0x170094, wo := 0x80000000, ro := 0xFFFF }]

/-- The rows of the HBM block. -/
def regsHBM : List RegDesc := [
  { base := 0x180010, ro := 0xF000FF00 },
  { base := 0x180014, ro := 0xFFFF0000 }]

/-- The rows of the TMR block. -/
def regsTMR : List RegDesc := [
  { base := 0x190010, rw := 0x3070000, wo := 0x80000000 },
  { base := 0x190014, rw := 0xFFFFFFFF },
  { base := 0x190018, ro := 0xFFFFFFFF },
  { base := 0x19001C, ro := 0x83070000 },
  { base := 0x190020, rw := 0x80070000, wo := 0x40000000 },
  { base := 0x190024, w1c := 0x40000000, ro := 0xA0070000 },
  { base := 0x190028, ro := 0xFFFFFFFF },
  { base := 0x190100, ro := 0xFFFFFFFF, kind := .cold },
  { base := 0x190110, s1 := 0x10, c1 := 7, ro := 0xFFFFFFFF },
  { base := 0x190104, ro := 0xFFFFFFFF, kind := .cold },
  { base := 0x190114, s1 := 0x10, c1 := 7, ro := 0xFFFFFFFF },
  { base := 0x190108, ro := 0xFFFFFFFF, kind := .cold },
  { base := 0x190118, s1 := 0x10, c1 := 7, ro := 0xFFFFFFFF },
  { base := 0x19010C, ro := 0xFFFFFFFF, kind := .cold },
  { base := 0x19011C, s1 := 0x10, c1 := 7, ro := 0xFFFFFFFF }]

/-- The rows of the MCS blocks. -/
def regsMCS : List RegDesc := [
  { base := 0x1A0010, bStride := 0x20000, bCount := 4, rw := 0x8, wo := 0x7 },
  { base := 0x1A0014, bStride := 0x20000, bCount := 4, ro := 0xFE3F0FFF },
  { base := 0x1A0018, bStride := 0x20000, bCount := 4, rw := 0xFFF },
  { base := 0x1A001C, bStride := 0x20000, bCount := 4, ro := 0xFFF0FFF },
  { base := 0x1A0020, bStride := 0x20000, bCount := 4, ro := 0xFFFFFFFF },
  { base := 0x1A0024, bStride := 0x20000, bCount := 4, ro := 0xFFF0FFF },
  { base := 0x1A0028, bStride := 0x20000, bCount := 4, ro := 0xFFF0FFF },
  { base := 0x1A0110, bStride := 0x20000, bCount := 4, ro := 0x3FF37FF },
  { base := 0x1A0030, bStride := 0x20000, bCount := 4, ro := 0xFCFFFFFF },
  { base := 0x1A0034, bStride := 0x20000, bCount := 4, ro := 0xFFF0FFF },
  { base := 0x1A0038, bStride := 0x20000, bCount := 4, ro := 0x3FF37FF },
  { base := 0x1A003C, bStride := 0x20000, bCount := 4, ro := 0xFFFFFFFF },
  { base := 0x1A0040, bStride := 0x20000, bCount := 4, ro := 0xFFFFFFFF },
  { base := 0x1A0044, bStride := 0x20000, bCount := 4, rw := 0x78 },
  { base := 0x1A0048, bStride := 0x20000, bCount := 4, w1c := 0xF },
  { base := 0x1A004C, bStride := 0x20000, bCount := 4, ro := 0x8F000FFF },
  { base := 0x1A0050, bStride := 0x20000, bCount := 4, s1 := 0x4, c1 := 7, rw := 0x80007FFF },
  { base := 0x1A006C, bStride := 0x20000, bCount := 4, rw := 0x80077FFF },
  { base := 0x1A0070, bStride := 0x20000, bCount := 4, s1 := 0x4, c1 := 8, wz := 0xFFFFFFFF },
  { base := 0x1A0090, bStride := 0x20000, bCount := 4, rw := 0xFFFFFFFF },
  { base := 0x1A0094, bStride := 0x20000, bCount := 4, wo := 0x80000000, ro := 0x60000000 },
  { base := 0x1A0098, bStride := 0x20000, bCount := 4, ro := 0xFFFFFFFF },
  { base := 0x1A00A0, bStride := 0x20000, bCount := 4, s1 := 0x4, c1 := 12, rw := 0xFFFFFFFF },
  { base := 0x1A00D0, bStride := 0x20000, bCount := 4, s1 := 0x4, c1 := 12, ro := 0xFFFFFFFF },
  { base := 0x1A0100, bStride := 0x20000, bCount := 4, ro := 0xFFFFFFFF },
  { base := 0x1A0104, bStride := 0x20000, bCount := 4, ro := 0x3FFFFF },
  { base := 0x1A0108, bStride := 0x20000, bCount := 4, ro := 0xFF00FFFF },
  { base := 0x1A010C, bStride := 0x20000, bCount := 4, ro := 0x1F }]

/-- The three header registers of block `b` (R659). BLK_ID is a constant; the other two follow 00_scope.md. -/
def regsHeader (b : Nat) : List RegDesc := [
  { base := 0x10000 * b, ro := 0xFFFFFFFF, kind := .const },
  { base := 0x10000 * b + 4, wo := 0x80000000, ro := 0xFF, kind := if b = 8 then .perst else .warm },
  { base := 0x10000 * b + 8, ro := 0xFFF0FFFF, kind := if b = 8 then .perst else .warm }]

/-- The rows of the block with index `b` (R658), without the header and the control-store words. -/
def blockRegs (b : Nat) : List RegDesc :=
  match b with
  | 0x0 => regsSYS
  | 0x1 => regsPWR
  | 0x2 => regsALR
  | 0x3 => regsEVT
  | 0x4 => regsCFG
  | 0x5 => regsECC
  | 0x6 => regsRAKE
  | 0x7 => regsISST
  | 0x8 => regsHST
  | 0x9 => regsCTR
  | 0xA => regsBUF
  | 0xB => regsMAP
  | 0xC => regsDMA
  | 0xD => regsSHF
  | 0xE => regsHRV
  | 0xF => regsSPN
  | 0x10 => regsSCA0
  | 0x11 => regsSCA1
  | 0x12 => regsSRV
  | 0x13 | 0x14 | 0x15 | 0x16 => regsLANE
  | 0x17 => regsCRYS
  | 0x18 => regsHBM
  | 0x19 => regsTMR
  | 0x1A | 0x1C | 0x1E | 0x20 => regsMCS
  | _ => []

/-- The row that covers window offset `a`, if a register is implemented there. -/
def regDesc (a : Nat) : Option RegDesc :=
  let b := a / 0x10000
  if b < 0x22 then (regsHeader b ++ blockRegs b).find? (·.has a) else none

end Sys2Proof.Machine
end

