-- ==== Sys2Proof/Machine/State.lean ====
section
/-! DEFINITION. The state of the block: every register, store, queue, counter and pin the spec gives it, as plain data,
and the queue of commands that wait. -/

namespace Sys2Proof.Machine
open Sys2Proof

/-- No command of this block ends in a fault: an access the spec forbids is ignored and counted (R18). -/
inductive Fault where
deriving DecidableEq, Repr

/-- Why a command has no meaning. -/
inductive Refusal where
  /-- Raised by an arm of `exec` for a command that has no meaning yet; safe: the machine stops. -/
  | notModelled (mnemonic : String)
deriving DecidableEq, Repr

/-- The three variants (00_scope.md): FZG4804-H16, FZG4804-H08 and FZG4802-H08. -/
inductive Variant where
  | h16 | h08 | d02
deriving DecidableEq, Repr

/-- One event record (R607), its CRC left to be computed. -/
structure EvtRec where
  time : Nat
  pcyc : Nat
  seq : Nat
  src : Nat
  code : Nat
  early : Bool
  rc : Bool
  folded : Bool
  dropped : Bool
  harvest : Bool
  rep : Nat
  span : Nat
  payload : List Byte
deriving DecidableEq, Repr

/-- The event recorder: its SRAM, oldest record first, each with its flushed mark (R615); the SRAM index of the next
record; the early count (R608); a drop since the last record stored (R611); the records of the flush in progress not
yet written, a second flush asked for and a flush that waits for tlock (R616); the sector being erased, and the ring in
the flash, by slot (R617). -/
structure EvtState where
  sram : List (EvtRec × Bool)
  next : Nat
  early : Nat
  dropMark : Bool
  left : Nat
  again : Bool
  waiting : Bool
  erase : Option Nat
  ring : List (Nat × EvtRec)
deriving DecidableEq, Repr

/-- What EVT gathers over one interval (R621), and the measurement log of core 0, newest entry first (R622). -/
structure MeasState where
  tj : Option (BitVec 8)
  td : Option (BitVec 8)
  dirty : Nat
  vibPeak : Nat
  vibSq : Nat
  vibN : Nat
  shocks : Nat
  pesSq : Vector Nat 4
  pesN : Vector Nat 4
  rpmSum : Nat
  rpmN : Nat
  log : List (List Byte)
deriving DecidableEq, Repr

/-- Nothing gathered. -/
def MeasState.empty : MeasState :=
  { tj := none, td := none, dirty := 0, vibPeak := 0, vibSq := 0, vibN := 0
    shocks := 0, pesSq := Vector.replicate 4 0, pesN := Vector.replicate 4 0, rpmSum := 0, rpmN := 0, log := [] }

/-- The sideband: the register address that command F0h set (R605) and the bytes of the last answer. -/
structure SmbState where
  addr : Nat
  resp : List Byte
deriving DecidableEq, Repr

/-- What one unit of a media command carries: the logical tag and kind of its metadata (R122), the zone generation, the
harvest sequence of a coast tile, the shuffle mark, the read context that waits for it (0: none) and, for a write, its
user data. -/
structure MUnit where
  kind : Nat
  tag : Nat
  gen : Nat
  hseq : Nat
  shuffled : Bool
  ctx : Nat
  data : List Byte
deriving DecidableEq, Repr

/-- A media command (R188): its good-position mask as a number, the units it carries in order, and whether BUF has
withdrawn it (R182). -/
structure MediaCmd where
  op : Nat
  surface : Nat
  track : Nat
  start : Nat
  qtr : Nat
  count : Nat
  modsel : Nat
  mask : Nat
  tag : Nat
  deadline : Option Nat
  cancelled : Bool
  units : List MUnit
deriving DecidableEq, Repr

/-- A place on media as a physical address names it (R122). -/
structure Place where
  lane : Nat
  surface : Nat
  track : Nat
  slot : Nat
  qtr : Nat
deriving DecidableEq, Repr

/-- A tile on media: kind, tag, generation, shuffled and coast marks, harvest sequence, MODSEL bits 7:4, the physical address that
it was written with, and user data (R122). -/
structure Tile where
  kind : Nat
  tag : Nat
  gen : Nat
  shuffled : Bool
  coast : Bool
  hseq : Nat
  modsel : Nat
  place : Place
  data : List Byte
deriving DecidableEq, Repr

/-- What the read chain makes of a unit (R104 to R113): the samples of readers A and B; where the codeword was found to begin,
none where no sync mark matched; for each sync and resync field used the sample after it, the phase in 1/64 symbol and the VGA
gains; the TA events, by first sample and length; the log-likelihood ratios of the codeword's symbols; and the equaliser's taps as
adapted. -/
structure Heard where
  a : List Int
  b : List Int
  sync : Option Int
  marks : List (Nat × Int × Nat × Nat)
  ta : List (Nat × Nat)
  llr : List Int
  taps : List Int
deriving DecidableEq, Repr

/-- Nothing heard. -/
def Heard.none : Heard := { a := [], b := [], sync := Option.none, marks := [], ta := [], llr := [], taps := [] }

/-- A unit armed by START or in progress (R196, R211): its datapath mode, MODSEL, position, and the marks of the word
that started it (R203); `loop` in LOOPBACK (R194); `due` once the position counter has passed its start, and then the slot symbols
of it still to pass (R211); `begun` once it is in progress; `short` where its gate did not stay high (R138, R212); `nocap` where a
read is not captured, or not whole; `bad` where its FIFO or `PAFLTn` has spoilt it (R136, R564); and what a read hears. -/
structure LUnit where
  write : Bool
  loop : Bool
  modsel : Nat
  pos : Nat
  qtr : Nat
  widen : Bool
  agchold : Bool
  due : Bool
  left : Nat
  begun : Bool
  short : Bool
  nocap : Bool
  bad : Bool
  heard : Heard
  fw : Bool
deriving DecidableEq, Repr

/-- A unit read whose end mark has passed and whose outcome is not yet posted (R116): the slot read, the surface and track under
the head (R100), its MODSEL, whether it was captured, whether `PAFLTn` or a gate has failed it (R136), read in LOOPBACK (R194), what
its command says of it, and what the read chain made of it. -/
structure PUnit where
  surface : Nat
  track : Nat
  pos : Nat
  qtr : Nat
  under : Nat × Nat
  modsel : Nat
  captured : Bool
  bad : Bool
  loop : Bool
  mu : MUnit
  heard : Heard
deriving DecidableEq, Repr

/-- A sequencer timer (R198): its unit, the value last loaded, whether it runs, whether it has expired, and the word
clocks passed of the present count of 256. The count itself is MCSn_TM. -/
structure Timer where
  unit : Nat
  loaded : Nat
  running : Bool
  expired : Bool
  pre : Nat
deriving DecidableEq, Repr

/-- A frame of a preamp serial port (R142): direction, register address and data, and whether LANEn_PASCMD waits for
it. -/
structure PaFrame where
  rd : Bool
  addr : Nat
  data : Nat
  cmd : Bool
deriving DecidableEq, Repr

/-- The working registers of a lane that a set load fills beside its taps (R103, R113, R133, R145, R146), for readers A and B in
turn: CTLE boost and peaking code, VGA gain, ADC offset trim in 1/4 step; the set's own taps, from which no adapted tap moves far
(R109); the target g0 to g3; the noise predictor of each pattern (p1, p2, inverse variance, bias); the precompensation table; and
the set's version. -/
structure Front where
  boost : Nat × Nat
  peak : Nat × Nat
  vga : Nat × Nat
  trim : Int × Int
  base : List Int
  target : List Int
  noise : List (Int × Int × Int × Int)
  precomp : List Int
  version : Nat
deriving DecidableEq, Repr

/-- Working registers that no set load has filled. -/
def Front.none : Front :=
  { boost := (0, 0), peak := (0, 0), vga := (0, 0), trim := (0, 0), base := [], target := [], noise := [], precomp := [], version := 0 }

/-- What a lane and its sequencer hold beside their registers. -/
structure Lane where
  /-- Control store, by word address (R190, R236). -/
  cs : List (Nat × BitVec 160)
  /-- The held low words of a window write (R238). -/
  csHold : Vector Word 4
  /-- The queued media commands, next first (R188). -/
  queue : List MediaCmd
  /-- What the current command holds beyond MCSn_CC0 to CC2. -/
  cur : Option MediaCmd
  /-- Buffer offset of the current command, in 64-byte units. -/
  boff : Nat
  wunsafe : Bool
  wmiss : Bool
  wverify : Bool
  tdone : Bool
  trkend : Bool
  setok : Bool
  index : Bool
  outok : Bool
  unit : Option LUnit
  /-- The units whose end mark has passed and whose read outcome is not yet posted, oldest first. -/
  posted : List PUnit
  tm0 : Timer
  tm1 : Timer
  /-- Word clocks for which the harvest cause has been pending (R223). -/
  harvWait : Nat
  /-- The word last fetched, and whether it is a WAITC word that still waits. -/
  word : BitVec 160
  waiting : Bool
  /-- The address of the word last executed; the unit at POS is complete (R221); a set load failed and waits for
  LANEn_GO (R149). -/
  last : Nat
  posDone : Bool
  setBad : Bool
  /-- Units in the write FIFO, head first, each with its place in the current and queued commands (R131), and the bytes that a
  firmware channel has put into it through its port (R420, R422). -/
  wfifo : Nat
  port : List Byte
  /-- The symbol position counter (R211): symbols of the track since its index mark, and whether it has still to be realigned. -/
  sym : Nat
  align : Bool
  /-- The preamp frame queue (R200), the frames of a set load (R146), the frame on the port, a held LANEn_PASCMD transaction
  (R143), and the 16 bits of the frame last begun on `PASDIOn` (R142). -/
  pq : List PaFrame
  pset : List PaFrame
  pcur : Option PaFrame
  pheld : Option PaFrame
  pas : BitVec 16
  /-- Set RAM, by word index (R144). -/
  setRam : List (Nat × Word)
  /-- The index of the active set, the set whose load is in progress, and the working taps (R107, R110). -/
  setIdx : Nat
  loading : Option Nat
  taps : List Int
  /-- The other working registers of the set loaded (R146), the present VGA gains (R105), and the ADC offsets removed. -/
  front : Front
  vga : Nat × Nat
  dc : Int × Int
  /-- A LANEn_GO written while the domain was cocooned waits for a set load (R152). -/
  goHeld : Bool
  /-- The outcome last posted, with its TA-affected mark (R117). -/
  outCode : Nat
  outTa : Bool
  /-- The transitions of the unit last written on `WDn_P/N`, in 1/256 symbol from its first symbol (R133). -/
  wd : List Int
  /-- A retune that waits for the gates (R32), a retune in progress, and the live writes held at the crossing. -/
  tune : Bool
  retune : Bool
  held : List (Nat × Word)
  /-- Level of `PAFLTn`. -/
  paflt : Bool
  /-- The actuator is servo-lost and its lane out of service (R247); a stop of coast writing (R129, R346). -/
  lost : Bool
  left : Bool
  /-- The lane settled in its saltern band in this harvest (R345). -/
  inBand : Bool
deriving DecidableEq, Repr

/-- A seek profile (R273, R276): start position, velocity and acceleration (1/4,096 track and samples), displacement,
length in samples and samples done; a minimum-jerk profile starts at rest. -/
structure Seek where
  p0 : Int
  v0 : Int
  a0 : Int
  d : Int
  n : Nat
  k : Nat
deriving DecidableEq, Repr

/-- What MOTION holds of an actuator beside its registers. Positions are in 1/4,096 track (R241). -/
structure Act where
  /-- The target track and the offset that track following holds (R243), and the present reference. -/
  target : Nat
  offset : Int
  ref : Int
  acc : Int
  /-- The last valid measured position, and the reference at that sample (R242). -/
  pos : Int
  refAt : Int
  /-- The next sample is taken without the prediction window (R518, R277). -/
  free : Bool
  miss : Nat
  settle : Nat
  seek : Option Seek
  /-- A seek asked for and not begun: its target; a seek held behind the one in progress (R275); a re-plan (R276). -/
  want : Option Nat
  next : Option Nat
  replan : Option Nat
  /-- An unload (true) or a load (false) in progress (R277). -/
  ramp : Option Bool
  /-- Held PES input of a missed sample (R247), in 1/4,096 track. -/
  pes : Int
  /-- Shock samples still to pass (R248). -/
  shock : Nat
  /-- The head that the preamplifier has selected. -/
  head : Nat
  /-- The motion in progress is a SEEK or SEEKSALT of microcode, and its target has been reached and settled (R193). -/
  skReq : Bool
  skdone : Bool
  /-- The wedge number that the lane's wedge timer expects next (R242). -/
  wnum : Nat
  /-- The last eight wedge intervals of the lane, newest first, in ns (R278). -/
  wedges : List Nat
  /-- Current controller state s, and the duties of the two outputs, in 1/2,000 (R651). -/
  vcmS : Int
  duty : Int
deriving DecidableEq, Repr

/-- Flutter in progress (R282 to R284): the relay's sign, the samples since its last switch, the switches seen, the
samples of the measured cycles, the largest and smallest loop output of the present cycle and the sum of the half
amplitudes. -/
structure Flut where
  loop : Nat
  up : Bool
  since : Nat
  switches : Nat
  samples : Nat
  hi : Int
  lo : Int
  ampl : Nat
deriving DecidableEq, Repr

/-- What MOTION holds of the array beside its registers. -/
structure Servo where
  /-- The value that each loop sends to its destination (R251), a signal word. -/
  dest : Vector Int 16
  /-- The last vibration reading (R248), and whether it exceeds the shock level. -/
  vib : Int
  shock : Bool
  /-- The set store, by word (R266), the set being installed and the loops still to be written (R268). -/
  store : List (Nat × Word)
  install : Option (Nat × List Nat)
  /-- The set that failed to install and that the firmware has still to rewrite (R271). -/
  badSet : Option Nat
  /-- Writes held until the loader has done with their loop (R270). -/
  heldW : List (Nat × Word)
  flutter : Option Flut
  /-- Ticks for which the measured speed has been in the lock band (R280), and the slope of the
  set-point, in parts of SCA_RAMPCFG.rate, of which there are as many as SCA_RAMPCFG.round has ticks (R279). -/
  lockTicks : Nat
  slope : Int
  /-- PWM periods since the last spindle tick (R249). -/
  pwm : Nat
deriving DecidableEq, Repr

/-- What a completion record says (R412, R413, R499): the status, DNR, dword 0 and the data that the command returned
to the host. -/
structure CplRec where
  sct : Nat
  sc : Nat
  dnr : Bool
  dw0 : Nat
  data : List Byte
deriving DecidableEq, Repr

/-- A place on media from which a read tile takes blocks (R58, R67, R76): lane, surface, track, position and quarter,
the blocks taken, what its metadata must say (R70), and whether they have come. -/
structure RSrc where
  lane : Nat
  surface : Nat
  track : Nat
  pos : Nat
  qtr : Nat
  coast : Bool
  mask : Nat
  gen : Nat
  hseq : Nat
  done : Bool
deriving DecidableEq, Repr

/-- One tile of a read command: its first block, its state (0 queued for its lane, 1 read once and waiting for a reread
or the crystallizer, 2 complete, 3 failed), the code of R470 of a failure (100h and above: a lane's error code) and the us at which it
failed (R181), its sources, and its
16 KiB as far as they are known. -/
structure RTile where
  lba : Nat
  st : Nat
  code : Nat
  at_ : Nat
  srcs : List RSrc
  data : List Byte
deriving DecidableEq, Repr

/-- A command context (R409): its submission queue and entry, its arrival time and, if it conforms, its contract slot
and deadline (R368, R370); its stage (0 fetched, 1 granted, 2 sealed and waiting for write path step 7, 3 its record
staged for the completion queue); the bytes landed; the tiles of a read; the record; its order of seal, and the us at
which its record was staged. -/
structure Ctx where
  id : Nat
  sq : Nat
  sqe : Sqe
  arrival : Nat
  slot : Option Nat
  deadline : Option Nat
  stage : Nat
  landed : Nat
  tiles : List RTile
  record : Option CplRec
  ord : Nat
  since : Nat
deriving DecidableEq, Repr

/-- The state of a 4 KiB block of the write pool that is not free (R403). -/
inductive BlkSt where
  | landing | dirty | wt | held
deriving DecidableEq, Repr

/-- A block of the write pool: its namespace, logical block and state; the context that brought it; its order of
admission; when it last changed; whether its tile has passed its end mark (R79); its write is queued to a lane, under
this number; and its data. -/
structure WBlk where
  ns : Nat
  lba : Nat
  st : BlkSt
  ctx : Nat
  ord : Nat
  born : Nat
  written : Bool
  queued : Bool
  data : List Byte
deriving DecidableEq, Repr

/-- A read-ahead tile in the read pool (R384, R404): contract slot, namespace tile and, once read, its data. -/
structure RaTile where
  slot : Nat
  lba : Nat
  have_ : Bool
  data : List Byte
deriving DecidableEq, Repr

/-- The commit and buffer manager beside its registers: the media commands that wait for each lane, next first; the
contexts in fetch order; the write pool; the read-ahead; the next context number and the seals so far; and the
admission gates that a reset or harvest closes; and the blocks, by order of admission, whose data has an uncorrectable
error (R405); and the rereads of units that have no final outcome yet, by physical address (R179). -/
structure Buf where
  work : Vector (List MediaCmd) 4
  ctxs : List Ctx
  blks : List WBlk
  ahead : List RaTile
  nextId : Nat
  seals : Nat
  closed : Bool
  spoilt : List Nat
  rereads : List (Nat × Nat)
deriving DecidableEq, Repr

/-- An I/O completion queue: identifier, entries, vector and entries that the host has not consumed. -/
structure Cq where
  id : Nat
  size : Nat
  vector : Nat
  used : Nat
deriving DecidableEq, Repr

/-- An I/O submission queue: identifier, entries and completion queue. -/
structure Sq where
  id : Nat
  size : Nat
  cq : Nat
deriving DecidableEq, Repr

/-- A completion queue entry as posted to the host: submission queue, command identifier and record. -/
structure Cqe where
  sq : Nat
  cid : Nat
  rec_ : CplRec
deriving DecidableEq, Repr

/-- An entry of the Error Information log (R470). -/
structure ErrEnt where
  count : Nat
  sq : Nat
  cid : Nat
  sct : Nat
  sc : Nat
  lba : Nat
  ns : Nat
  code : Nat
deriving DecidableEq, Repr

/-- The feature values (R490) that no register holds: arbitration burst, power state, temperature thresholds in kelvin,
numbers of queues (0's based), coalescing time and threshold, the vectors with coalescing disabled, the asynchronous
event configuration, the temperature events enabled, and the APST table: for each power state its idle time in ms and
target. -/
structure Feats where
  burst : Nat
  ps : Nat
  tOver : Nat
  tUnder : Nat
  nsq : Nat
  ncq : Nat
  coalTime : Nat
  coalThr : Nat
  noCoal : List Nat
  aec : Nat
  apste : Bool
  apst : List (Nat × Nat)
deriving DecidableEq, Repr

/-- The defaults of R490. -/
def Feats.default : Feats :=
  { burst := 0, ps := 0, tOver := 373, tUnder := 0, nsq := 63, ncq := 63, coalTime := 0, coalThr := 0, noCoal := []
    aec := 0, apste := false, apst := [] }

/-- The NVMe controller and the PCIe function beside HST's registers. -/
structure Nvme where
  /-- CC.EN, CSTS.RDY, CSTS.CFS, CC.CRIME, CSTS.PP (R454, R457, R488). -/
  en : Bool
  rdy : Bool
  cfs : Bool
  crime : Bool
  pp : Bool
  /-- CC.SHN as accepted and CSTS.SHST (R482). -/
  shst : Nat
  /-- `PERST_N` asserted; the link reached L0 and its configuration requests are answered (R534). -/
  perst : Bool
  config : Bool
  sqs : List Sq
  cqs : List Cq
  /-- Entries of the admin completion queue not consumed. -/
  adminUsed : Nat
  adminSize : Nat
  /-- Completions posted to host memory, newest first. -/
  out : List Cqe
  /-- Vectors raised, newest first, and completions held back by coalescing: vector, count, us of the first. -/
  irqs : List Nat
  agg : List (Nat × Nat × Nat)
  /-- Command identifiers of the Asynchronous Event Requests outstanding (R498). -/
  aers : List Nat
  /-- Events raised and not yet posted, oldest first, and events posted whose page has not been read: type,
  information, page. -/
  events : List (Nat × Nat × Nat)
  masked : List (Nat × Nat × Nat)
  feats : Feats
  /-- The Streams directive is enabled on NSID 1; the stream identifiers open, and the stream resources allocated. -/
  streams : Bool
  openStreams : List Nat
  nsa : Nat
  errs : List ErrEnt
  errCount : Nat
  /-- 512-byte units read and written, read and write commands, and Unrecovered Read Errors (R495). -/
  rdUnits : Nat
  wrUnits : Nat
  rdCmds : Nat
  wrCmds : Nat
  ureads : Nat
  /-- Both namespaces are ready (R556). -/
  nsReady : Bool
  /-- `PEWAKE_N` driven low (R449). -/
  pewake : Bool
  /-- A Delete I/O Submission Queue that waits for its queue's sealed commands (R456). -/
  deletes : List (Nat × Nat)
  /-- The link has reached L0 (R446, R448). -/
  linkUp : Bool
deriving DecidableEq, Repr

/-- A zone descriptor (R60): state as the Zoned Namespace Command Set codes it, write pointer in blocks from the zone's
start, generation, code rate, the descriptor bound (R435), and the order of its last write (R472). -/
structure Zone where
  st : Nat
  wp : Nat
  gen : Nat
  rate : Nat
  desc : Option (List Byte)
  last : Nat
deriving DecidableEq, Repr

/-- The zone is stored shuffled (R436): its descriptor has a mode other than 00h. -/
def Zone.shuf (z : Zone) : Bool := (z.desc.map (fun d => (d.headD 0) != 0)).getD false

/-- A zone as the factory leaves it (R477): Empty, code rate 01b. -/
def Zone.fresh : Zone := { st := 1, wp := 0, gen := 0, rate := 1, desc := none, last := 0 }

/-- A journal record (R78): sequence number, type, key and new value; its CRC-64 is made when it is written. -/
structure JRec where
  seq : Nat
  type : Nat
  key : Nat
  val : BitVec 64
deriving DecidableEq, Repr

/-- A closed journal tile that is not yet on media in both copies (R80): its number, the sequence numbers of its first and last
records, and the copies whose end marks have passed. -/
structure JTile where
  num : Nat
  first : Nat
  last : Nat
  done : Nat
deriving DecidableEq, Repr

/-- A way of the map cache (R86): tag, dirty mark and the eight entries of its line. -/
structure MLine where
  tag : Nat
  dirty : Bool
  ents : List (BitVec 64)
deriving DecidableEq, Repr

/-- A set of the map cache: its ways, none where invalid, and the seven bits of tree pseudo-LRU. -/
structure MSet where
  ways : List (Option MLine)
  plru : Nat
deriving DecidableEq, Repr

/-- The log of a saltern band (R71): lane, surface, band number, fill and tail pointers as slots from its start, the slots from the
tail to the fill pointer, and those of them that are released and not yet contiguous with the tail. -/
structure SaltBand where
  lane : Nat
  surface : Nat
  band : Nat
  slots : Nat
  fill : Nat
  tail : Nat
  occ : Nat
  rel : List Nat
deriving DecidableEq, Repr

/-- An entry of the harvest loss log (R358). -/
structure Loss where
  hseq : Nat
  ns : Nat
  cause : Nat
  blocks : Nat
  lba : Nat
deriving DecidableEq, Repr

/-- An entry of a manifest (R349): the two words of the overlay layout. -/
structure ManEnt where
  w0 : BitVec 64
  w1 : BitVec 64
deriving DecidableEq, Repr

/-- A manifest: harvest sequence, lanes taking part as a mask, result, source (R496), power-on time at the trigger, and entries. -/
structure Manifest where
  hseq : Nat
  lanes : Nat
  result : Nat
  source : Nat
  time : Nat
  ents : List ManEnt
deriving DecidableEq, Repr

/-- A copy of a manifest that MAP keeps in force (R81, R92): its harvest, and the saltern slots that it fills, the first with its
header, each as lane, surface, band and slot. -/
structure ManRef where
  hseq : Nat
  slots : List (Nat × Nat × Nat × Nat)
deriving DecidableEq, Repr

/-- The contents of a checkpoint area (R81): its sequence S and the copies, as tables. -/
structure Ckpt where
  seq : Nat
  map : List (Nat × BitVec 64)
  zones : List (Nat × Zone)
  slip : List (BitVec 64)
  defects : List Nat
deriving DecidableEq, Repr

/-- A keel (R81): sequence, harvest sequence, active area, its S and the lanes of copies 0 and 1, lane, surface and start track of
both journal copies, first journal record, for each lane the surface, band and slot of the last harvest's manifest, the fill and tail
pointers of the saltern bands in GEO's order, and the geometry digest. -/
structure Keel where
  seq : Nat
  hseq : Nat
  area : Nat
  ckseq : Nat
  lanes0 : List Nat
  lanes1 : List Nat
  jrnl : List (Nat × Nat × Nat)
  jfirst : Nat
  man : List (Option (Nat × Nat × Nat))
  salt : List (Nat × Nat)
  digest : Nat
deriving DecidableEq, Repr

/-- A copy of a checkpoint on media (R81): its area, its number, the lanes that it is striped over, and what it holds. -/
structure CkCopy where
  area : Nat
  copy : Nat
  lanes : List Nat
  ckpt : Ckpt
deriving DecidableEq, Repr

/-- A checkpoint in progress (R81): S, the area that it writes, the lanes in service at its start, whether the copies have been
written, whether one was retried, and the KiB of journal before it. -/
structure CkJob where
  seq : Nat
  area : Nat
  lanes : List Nat
  copied : Bool
  retried : Bool
  fill : Nat
deriving DecidableEq, Repr

/-- What ERASE or PATTERN has written on a track (R194): surface, track, the slot symbols from its index mark, and the 16-bit
pattern, none of DC erase. -/
structure RawMark where
  surface : Nat
  track : Nat
  first : Nat
  len : Nat
  pattern : Option Nat
deriving DecidableEq, Repr

/-- What the disks hold: tiles, coast tiles and sectors by physical address, among them the journal, the manifests and the keel; the
checkpoint copies; what ERASE and PATTERN have written; and the harvests that have written a saltern slot (R495). It outlives every
reset. -/
structure Media where
  tiles : List (Nat × Tile)
  ck : List CkCopy
  raw : List RawMark
  harvests : Nat
deriving DecidableEq, Repr

/-- A tile, or an aligned group of four blocks of NSID 2, on its way home (R95, R96): its overlay key and generation, its read, the
units of its write still to pass their end marks, the overlay entries that it returns, whether it goes at media priority, its lane, and
the us at which it began. -/
structure RetJob where
  ns : Nat
  key : Nat
  gen : Nat
  tile : RTile
  left : Nat
  ents : List Nat
  urgent : Bool
  lane : Nat
  since : Nat
deriving DecidableEq, Repr

/-- MAP beside its registers. -/
structure MapSt where
  /-- The extent map in HBM, by extent number (R65), the sets of the cache (R86), the lines in its write-back buffer, oldest first,
  and the fills in flight: line number and stale mark (R90). -/
  hbm : List (Nat × BitVec 64)
  cache : List (Nat × MSet)
  wback : List (Nat × List (BitVec 64))
  fills : List (Nat × Bool)
  zones : List (Nat × Zone)
  /-- The overlay table, by entry index: words 0 and 1 (R74). -/
  ovl : List (Nat × (BitVec 64 × BitVec 64))
  slip : List (BitVec 64)
  /-- Defective physical positions, factory and grown (R54). -/
  defects : List Nat
  /-- The relocation list (R67): extent and new entry. -/
  reloc : List (Nat × BitVec 64)
  /-- Journal records created and not yet on media in both copies, oldest first; us of the first record of the open
  tile; the journal tiles closed and not yet on media; the number of the next journal tile. -/
  jrnl : List JRec
  jsince : Nat
  jout : List JTile
  jnum : Nat
  /-- Saltern slots that wait for a record to reach media (R79): record sequence, slots as in word 1 of an overlay entry. -/
  waits : List (Nat × List Nat)
  ckpt : Option CkJob
  salt : List SaltBand
  keelSeq : Nat
  jfirst : Nat
  /-- S of the active area, and the lanes of its copies. -/
  ckseq : Nat
  ckLanes : List Nat × List Nat
  /-- The keel being written, and its copies that have passed their end marks (R82). -/
  keelUp : Option (Keel × Nat)
  /-- The manifests in force, oldest first; the saltern slots of a harvest's journal tiles, each with its last record; and the released
  slots that a manifest in force lists: slot address and harvest. -/
  mans : List ManRef
  jslots : List (Nat × Nat × Nat × Nat × Nat)
  freed : List (Nat × Nat)
  /-- The places of extents whose record is not yet created, by extent number. -/
  placed : List (Nat × BitVec 64)
  /-- The tiles on their way home (R95). -/
  ret : List RetJob
  loss : List Loss
  /-- Blocks of NSID 2 that the log lists and that have been written since. -/
  lossGone : List Nat
  lossOver : Nat
  lossHdr : Nat × Nat × Nat × Nat
  /-- The keel vote of the adoption in progress. -/
  keel : Option Keel
deriving DecidableEq, Repr

/-- What CTR and the firmware hold of a contract slot beside CTR's registers: the descriptor as established, the
tokens in bytes and the us they were counted at, the break reason, the minimum latency bound of check 2, the 64-bit
counts of R398, the power-on time and order of establishment, and the us of its last event 06h record. -/
structure Contract where
  desc : List Byte
  tokens : Nat
  tokUs : Nat
  why : Nat
  minLat : Nat
  served : Nat
  excess : Nat
  late : Nat
  bytes : Nat
  born : Nat
  order : Nat
  last06 : Option Nat
  lastBlock : Nat
deriving DecidableEq, Repr

/-- An empty contract slot. -/
def Contract.none : Contract :=
  { desc := [], tokens := 0, tokUs := 0, why := 0, minLat := 0, served := 0, excess := 0, late := 0, bytes := 0
    born := 0, order := 0, last06 := Option.none, lastBlock := 0 }

/-- A record of the contract log (R399). -/
structure CtrLog where
  time : Nat
  event : Nat
  handle : Nat
  stream : Nat
  dir : Nat
  reason : Nat
  demand : Nat
  rate : Nat
deriving DecidableEq, Repr

/-- An Establish Contract in progress (R388): its command identifier and descriptor, its slot, the step it waits in
(4 or 5), the evaluation point and the reservation W in KiB. -/
structure Est where
  cid : Nat
  desc : List Byte
  slot : Nat
  step : Nat
  p : Nat
  w : Nat
deriving DecidableEq, Repr

/-- CTR and the firmware's contract work beside CTR's registers. -/
structure CtrSt where
  slots : List Contract
  log : List CtrLog
  logged : Nat
  est : Option Est
  order : Nat
  /-- The lanes that have still to take the shadow values of the GO in progress, and its mask (R400). -/
  take : List Nat
  takeMask : Nat
  /-- Start of the present frame of each lane (us), and the us that background work has taken in it (R382, R383). -/
  frame : List Nat
  bg : List Nat
  /-- The visit each lane is in, by its contract slot, and the bytes transferred in it (R382). -/
  visit : List (Nat × Nat)
deriving DecidableEq, Repr

/-- A LOOP in progress (R425): address of its first body instruction, iterations left, iteration number, strides. -/
structure DmaLoop where
  body : Nat
  left : Nat
  i : Nat
  ss : Int
  ds : Int
deriving DecidableEq, Repr

/-- A MOVE or MOVS in progress: its instruction word as a number, the bytes moved, source and destination addresses
after strides. -/
structure DmaMove where
  ins : Nat
  off : Nat
  src : Nat
  dst : Nat
deriving DecidableEq, Repr

/-- A DMA channel beside its registers. -/
structure DmaCh where
  pc : Nat
  loops : List DmaLoop
  mv : Option DmaMove
  wait : Option (Nat × Bool)
deriving DecidableEq, Repr

/-- A saltern slot dealt to a lane at step 6 (R345): where it lies, and its blocks: quarter, namespace, logical block
and order of admission; `left` quarters have still to pass their end marks. -/
structure Dealt where
  lane : Nat
  surface : Nat
  band : Nat
  slot : Nat
  gen : Nat
  blocks : List (Nat × Nat × Nat × Nat)
  left : Nat
deriving DecidableEq, Repr

/-- A capture record of a lane ring (R157 to R159): the slot of its tile, its first byte and its length in 64-byte units, the samples
captured of each reader, the newest of its slot, complete with its header written, and then the calibration set and MODSEL of its
header, its TA events and its sync entries; and the number of entries that pin it (R161). -/
structure BrRec where
  place : Place
  first : Nat
  len : Nat
  count : Nat
  newest : Bool
  whole : Bool
  set_ : Nat
  modsel : Nat
  ta : List (Nat × Nat)
  marks : List (Nat × Int × Nat × Nat)
  pins : Nat
deriving DecidableEq, Repr

/-- A crystallizer queue entry (R164 to R167): the unit it is for, its lane, class, deadline, order of entry, the us at
which it last entered class 2, its engine failures, whether it has aged into class 1, its sync mark was not found on the fly, and the
records that it pins, its own and its neighbours', by their first bytes in the lane ring. -/
structure CrysEnt where
  unit : PUnit
  lane : Nat
  cls : Nat
  deadline : Option Nat
  ord : Nat
  since : Nat
  fails : Nat
  aged : Bool
  nosync : Bool
  own : Option Nat
  neigh : List Nat
deriving DecidableEq, Repr

/-- The local sample store of an engine (R170 to R175): the samples of its tile, those of them that are erasures, the samples of the
neighbour records, their hard decisions as aligned and the filters of each, the taps and front end it works with, the LLRs of the last
detector pass, the codeword that its decoder has found, and whether LLRs are damped. -/
structure Local where
  a : List Int
  b : List Int
  erased : List Nat
  neigh : List (List Int × List Int)
  hard : List (List Int)
  filt : List (List Int × List Int)
  taps : List Int
  front : Front
  llr : List Int
  word : Option Codeword
  damp : Bool
deriving DecidableEq, Repr

/-- An empty store. -/
def Local.empty : Local :=
  { a := [], b := [], erased := [], neigh := [], hard := [], filt := [], taps := [], front := Front.none, llr := [], word := none, damp := false }

/-- A crystallizer engine: the entry held, the us of its dispatch, the settings it was dispatched with (R171, R172), a
miscorrection recorded (R174), a neighbour record used, cancelled at the next check (R182), its return test running (R184), and its
local sample store. -/
structure Engine where
  ent : Option CrysEnt
  at_ : Nat
  itmax : Nat
  misc : Bool
  iti : Bool
  cancel : Bool
  test : Bool
  store : Local
deriving DecidableEq, Repr

/-- An engine that holds nothing. -/
def Engine.idle : Engine := { ent := none, at_ := 0, itmax := 0, misc := false, iti := false, cancel := false, test := false, store := Local.empty }

/-- The crystallizer beside its registers: the entries waiting, the engines, the directory of each lane ring, oldest
record first, and the next order number. -/
structure CrysSt where
  queue : List CrysEnt
  eng : List Engine
  dir : List (List BrRec)
  ord : Nat
deriving DecidableEq, Repr

/-- CRYS after reset: nothing queued, the rings empty. -/
def CrysSt.reset : CrysSt :=
  { queue := [], eng := List.replicate 4 Engine.idle, dir := List.replicate 4 [], ord := 0 }

/-- A copy of the journal and of the manifest that step 7 writes (R348): its lane, the units still to pass their end marks, and the
saltern slots of its journal tiles and of its manifest, each as lane, surface, band and slot. -/
structure SysCopy where
  lane : Nat
  left : Nat
  jrnl : List (Nat × Nat × Nat × Nat)
  man : List (Nat × Nat × Nat × Nat)
deriving DecidableEq, Repr

/-- HRV beside its registers. -/
structure HrvSt where
  /-- The closing ramp has ended once since cold reset (R329); us of the ramp in progress; `REGEN_A`, `REGEN_B`. -/
  ramped : Bool
  rampUs : Nat
  regen : Bool
  /-- What the coast path serves beside a harvest: 0 nothing, 1 the commit before a warm reset, 2 a diapause commit. -/
  commit : Nat
  dry : Bool
  /-- The commit's step while the switch is closed, coded as HRV_STAT.state; 6: its keel update is committed. -/
  phase : Nat
  /-- Lanes taking part, slots dealt, manifest entries of the slots written, and the power-on time at the trigger. -/
  part : List Nat
  dealt : List Dealt
  ents : List ManEnt
  trigMs : Nat
  /-- Step 7's copies of the journal and the manifest; and its keel update is being written. -/
  copies : List SysCopy
  keel : Bool
  /-- `HOLD_SENSE` has fallen below 10.0 V; step 8 has parked the heads; the actuators not unloaded in time, as a mask; the
  speed at the end of coast writing. -/
  holdLow : Bool
  parked : Bool
  notUp : Nat
  endRpm : Nat
  /-- `CHOP` driven, the faults of R353 in force, a test pulse running, the least current seen while `CHOP` is high. -/
  chop : Bool
  chopOpen : Bool
  chopShort : Bool
  chopTest : Bool
  /-- `PGOOD_CORE` low during a harvest (R635). -/
  coreLow : Bool
  /-- us at which the junction temperature first exceeded tcrit (R360). -/
  critSince : Option Nat
  /-- The cores are halted (R343). -/
  coresHalted : Bool
deriving DecidableEq, Repr

/-- The gates of the spindle bridge (R295). -/
inductive Gates where
  | off | zero | probe | align | rotate | closed | rectify
deriving DecidableEq, Repr

/-- SPN beside its registers. -/
structure Spn where
  gates : Gates
  /-- Periods in which the observer met, or failed, the lock condition in a row (R294), its angle, and the signed speed
  and the readings of the last period. -/
  good : Nat
  fail : Nat
  angle : Nat
  /-- The present period is limited (R291), and the periods limited in a row. -/
  oc : Bool
  ocRow : Nat
  /-- The vectors that the attempts of this start used, the vector of this attempt, the inconclusive probes so far. -/
  used : List Nat
  vec : Nat
  probes : Nat
  /-- Open-loop speed, in 1/4,000 rpm (R302). -/
  ol : Nat
  startPend : Bool
  /-- The step of the stop of R309, 0 for none. -/
  stop : Nat
  /-- The turn-on window is open (R315). -/
  window : Bool
  /-- A lower target that waits (R310): its speed and point; HRV_TBUDGET has been computed for it. -/
  wait : Option (Nat × Nat)
  tbFresh : Bool
  /-- The probe pulse of this start in µs, half longer after each inconclusive probe (R301). -/
  pw : Nat
  /-- The current reference, in 1/256 of full scale, and the integrals of the direct and the quadrature control (R305); the duties of the
  phases in 1/10,000, what R290 still owes each of them, and the low-side interval of each in this period: its start after the sample
  instant and its length, in 2.5 ns (R288 to R290). -/
  iq : Int
  pi : Int × Int
  duty : List Int
  owed : List Int
  low : List (Nat × Nat)
  /-- The zero vector is forced by R355; limited periods under it in a row, and us since MBUS_SENSE exceeded 17 V. -/
  zv : Bool
  /-- Actuators unloaded by R307 that have not been loaded again. -/
  fly : List Nat
  /-- The set-point of the ramp, in 1/10,000 rpm (R279). -/
  spFine : Nat
deriving DecidableEq, Repr

/-- A Firmware Commit in progress (R487, R488): its action, slot and command identifier, and its step. -/
structure FwCommit where
  action : Nat
  slot : Nat
  cid : Nat
  step : Nat
deriving DecidableEq, Repr

/-- The firmware download (R485) and commit: the pieces staged, by byte offset, and the commit in progress. -/
structure FwSt where
  staged : List (Nat × List Byte)
  commit : Option FwCommit
deriving DecidableEq, Repr

/-- PWR beside its registers: the entry's domains, those still to be asked (the first is the one requested) and those it
has cocooned; us of the last request or of the backoff; the domains still to emerge (the first is the one emerging), the
step of R514 that the first waits in, and whether it is its second attempt; what follows the emergence (0 nothing, 1 the
entry, 2 the backoff); the domains that a pending wake needs; the lanes that PWR completes itself (R510); the power
state that the firmware is taking the Gorlo to (R522) and the most recent operational one; and the copies of the SPN,
SCA and SRV registers and of the set store that the firmware keeps in HBM (R503): stored and active values. -/
structure Pwr where
  set_ : List Nat
  ask : List Nat
  gone : List Nat
  since : Nat
  emerg : List Nat
  step : Nat
  again : Bool
  after : Nat
  wake : List Nat
  auto : List Nat
  to_ : Option Nat
  lastOp : Nat
  copy : Option (List (Nat × Word) × List (Nat × Word) × List (Nat × Word))
deriving DecidableEq, Repr

/-- PWR after reset: nothing in progress. -/
def Pwr.reset : Pwr :=
  { set_ := [], ask := [], gone := [], since := 0, emerg := [], step := 0, again := false, after := 0, wake := []
    auto := [], to_ := none, lastOp := 0, copy := none }

/-- The start-up (R532, R553 to R558): the phase (0 waiting for a qualified supply, 1 closing ramp, 2 waiting for
`PGOOD_CORE`, 3 mask-ROM loader, 4 resident firmware, 5 minimal loader, 6 AON held in reset without `VDD_3V3`); the length of the
running image, whose copy the HBM holds; the IDS section applied; the head-load speed and whether LOAD has been requested (R555); the step of R556 that
has been completed (0 none, 1 the rebuild runs, 2 adoption, 3 flutter, 4 ready); the loads of each lane that have failed,
two of which take it out of service (R554); the
warm reset in progress (0 none, 1 the commit, 2 the unloads; R558); the flash operation in progress, its code and
page (R542); what the image says, from rows 1 to 4 of R553 until rows 5 to 8; the lanes whose loads these wait for; the lanes
that the firmware reloads after a digest mismatch (R581); whether the speed curve becomes the source once upok sets (R319); and the in-package switch of `VDDQ_HBM` is
closed (R634). -/
structure Boot where
  phase : Nat
  imgLen : Nat
  ids : Ids
  headLoad : Nat
  loadReq : Bool
  ready : Nat
  reloads : List Nat
  warm : Nat
  fl : Option (Nat × Nat)
  install : Option ImageIn
  loading : List Nat
  relo : List Nat
  toCurve : Bool
  vddq : Bool
deriving DecidableEq, Repr

/-- Nothing started. -/
def Boot.reset : Boot :=
  { phase := 0, imgLen := 0, ids := Ids.none, headLoad := 0, loadReq := false, ready := 0, reloads := [0, 0, 0, 0], warm := 0
    fl := none, install := none, loading := [], relo := [], toCurve := false, vddq := false }

/-- A stored codeword that differs from what its code gives (R563, R566, R568): memory code, instance, word address and
the bits that differ: 64 data bits and 8 check bits. -/
structure Poison where
  mem : Nat
  inst : Nat
  addr : Nat
  data : Nat
  check : Nat
deriving DecidableEq, Repr

/-- The integrity blocks beside their registers: words whose stored code is wrong, and the blocks of the running slice
still to end and those that have passed (R586); the slice repeats what has failed, and the lanes that failed again, which stay
out of service (R594). -/
structure Integ where
  bad : List Poison
  left : Nat
  done : Nat
  again : Bool
  failed : List Nat
deriving DecidableEq, Repr

/-- The state of the block. -/
structure State where
  variant : Variant
  /-- Microseconds since `PWRON_N`. -/
  us : Nat
  /-- The value of `us` at the last reset of the CTR block (R370). -/
  ctrBase : Nat
  /-- The registers: stored and shadow values, by window offset. -/
  regs : List (Nat × Word)
  /-- The active values of the staged registers (R16). -/
  active : List (Nat × Word)
  /-- CORE runs from its crystal (R26, R608). -/
  coreUp : Bool
  evt : EvtState
  meas : MeasState
  smb : SmbState
  lanes : Vector Lane 4
  acts : Vector Act 4
  servo : Servo
  geo : Geo
  buf : Buf
  nvme : Nvme
  map : MapSt
  media : Media
  ctr : CtrSt
  dma : Vector DmaCh 16
  crys : CrysSt
  fw : FwSt
  pwr : Pwr
  boot : Boot
  integ : Integ
  /-- The configuration flash (R537), by byte address; it and the revocation fuses (R548) outlive every reset. -/
  flash : List (Nat × Byte)
  fuses : Nat
  /-- The HBM stack's bytes, by address (R401). -/
  hbm : List (Nat × Byte)
  hrv : HrvSt
  spn : Spn
  /-- The HOST domain is cocooned by a harvest (R343). -/
  hostDown : Bool
  /-- The instruction in the test access port (R655). -/
  tap : TapInstr
  /-- The model's own count of the free values taken so far; no statement rests on it. -/
  free : Nat
  pending : List Instr
deriving DecidableEq, Repr

/-- A timer that is not running. -/
def Timer.off : Timer := { unit := 0, loaded := 0, running := false, expired := false, pre := 0 }

/-- A lane after reset. -/
def Lane.reset : Lane :=
  { cs := [], csHold := Vector.replicate 4 0, queue := [], cur := none, boff := 0, wunsafe := false, wmiss := false
    wverify := false, tdone := false, trkend := false, setok := false, index := false, outok := false, unit := none
    posted := [], tm0 := Timer.off, tm1 := Timer.off, harvWait := 0, word := 0, waiting := false
    last := 0, posDone := false, setBad := false, wfifo := 0, port := [], sym := 0, align := true
    pq := [], pset := [], pcur := none, pheld := none, pas := 0, setRam := [], setIdx := 0, loading := none, taps := []
    front := Front.none, vga := (0, 0), dc := (0, 0), goHeld := false, outCode := 0, outTa := false, wd := [], tune := false, retune := false
    held := [], paflt := false, lost := false, left := false, inBand := false }

/-- An actuator after reset: heads on the ramp. -/
def Act.reset : Act :=
  { target := 0, offset := 0, ref := 0, acc := 0, pos := 0, refAt := 0, free := true, miss := 0, settle := 0
    seek := none, want := none, next := none, replan := none, ramp := none, pes := 0, shock := 0, head := 0, skReq := false, skdone := false, wnum := 0
    wedges := [], vcmS := 0, duty := 0 }

/-- The array after reset. -/
def Servo.reset : Servo :=
  { dest := Vector.replicate 16 0, vib := 0, shock := false, store := [], install := none, badSet := none, heldW := []
    flutter := none, lockTicks := 0, slope := 0, pwm := 0 }

/-- The buffer manager after reset. -/
def Buf.reset : Buf :=
  { work := Vector.replicate 4 [], ctxs := [], blks := [], ahead := [], nextId := 0, seals := 0, closed := false, spoilt := [], rereads := [] }

/-- The controller after reset: disabled. -/
def Nvme.reset : Nvme :=
  { en := false, rdy := false, cfs := false, crime := false, pp := false, shst := 0, perst := false, config := false
    sqs := [], cqs := [], adminUsed := 0, adminSize := 0, out := [], irqs := [], agg := [], aers := [], events := []
    masked := [], feats := Feats.default, streams := false, openStreams := [], nsa := 0, errs := [], errCount := 0, rdUnits := 0, wrUnits := 0
    rdCmds := 0, wrCmds := 0, ureads := 0, nsReady := false, pewake := false, deletes := [], linkUp := false }

/-- MAP after reset. -/
def MapSt.reset : MapSt :=
  { hbm := [], cache := [], wback := [], fills := [], zones := [], ovl := [], slip := [], defects := [], reloc := [], jrnl := []
    jsince := 0, jout := [], jnum := 0, waits := [], ckpt := none, salt := [], keelSeq := 0, jfirst := 0, ckseq := 0, ckLanes := ([], [])
    keelUp := none, mans := [], jslots := [], freed := [], placed := [], ret := [], loss := [], lossGone := [], lossOver := 0
    lossHdr := (0, 0, 0, 0), keel := none }

/-- Disks on which nothing has been written. -/
def Media.blank : Media := { tiles := [], ck := [], raw := [], harvests := 0 }

/-- CTR after reset. -/
def CtrSt.reset : CtrSt :=
  { slots := List.replicate 16 Contract.none, log := [], logged := 0, est := none, order := 0, take := []
    takeMask := 0, frame := [0, 0, 0, 0], bg := [0, 0, 0, 0], visit := List.replicate 4 (0, 0) }

/-- A DMA channel after reset. -/
def DmaCh.reset : DmaCh := { pc := 0, loops := [], mv := none, wait := none }

/-- SPN after reset: all gates off. -/
def Spn.reset : Spn :=
  { gates := .off, good := 0, fail := 0, angle := 0, oc := false, ocRow := 0, used := [], vec := 0, probes := 0, ol := 0
    startPend := false, stop := 0, window := false, wait := none, tbFresh := false, pw := 0, iq := 0, pi := (0, 0), duty := [0, 0, 0], owed := [0, 0, 0], low := []
    zv := false, fly := [], spFine := 0 }

/-- HRV after reset. -/
def HrvSt.reset : HrvSt :=
  { ramped := false, rampUs := 0, regen := false, commit := 0, dry := false, phase := 0, part := [], dealt := []
    ents := [], trigMs := 0, copies := [], keel := false, holdLow := false, parked := false, notUp := 0, endRpm := 0
    chop := false, chopOpen := false, chopShort := false, chopTest := false, coreLow := false, critSince := none, coresHalted := false }

/-- The block right after a cold reset. -/
def State.reset : State :=
  { variant := .h16, us := 0, ctrBase := 0, regs := [], active := []
    coreUp := false
    evt := { sram := [], next := 0, early := 0, dropMark := false, left := 0, again := false, waiting := false
             erase := none, ring := [] }
    meas := MeasState.empty
    smb := { addr := 0, resp := [] }
    lanes := Vector.replicate 4 Lane.reset
    acts := Vector.replicate 4 Act.reset
    servo := Servo.reset
    geo := Geo.none
    buf := Buf.reset
    nvme := Nvme.reset
    map := MapSt.reset
    media := Media.blank
    ctr := CtrSt.reset
    dma := Vector.replicate 16 DmaCh.reset
    crys := CrysSt.reset
    fw := { staged := [], commit := none }
    pwr := Pwr.reset
    boot := Boot.reset
    integ := { bad := [], left := 0, done := 0, again := false, failed := [] }
    flash := []
    fuses := 0
    hbm := []
    hrv := HrvSt.reset
    spn := Spn.reset
    hostDown := false
    tap := .idcode
    free := 0
    pending := [] }

end Sys2Proof.Machine
end

