-- ==== Sys2Proof/Machine/Ops.lean ====
section
/-! DEFINITION. The operations that every family shares: reading and writing registers and their fields, the
accounting of ignored accesses (R18 to R23), the causes and event records that the setting of a source bit brings
about (R597 to R619), and the clocks. -/

namespace Sys2Proof.Machine
open Sys2Proof

/-! ## Registers -/

/-- Lanes fitted (R1). -/
def Variant.lanes : Variant → Nat
  | .h16 => 4
  | .h08 => 4
  | .d02 => 2

/-- Lane `n` is fitted. -/
def State.fitted (s : State) (n : Nat) : Bool := decide (n < s.variant.lanes)

/-- The fitted lanes, lowest first. -/
def State.lanesFitted (s : State) : List Nat := List.range s.variant.lanes

/-- The value a register has when the table does not list it: its reset value (R658; R1 and the PWR chapter for the
values that the variant fixes, R420 for the BUF channels). -/
def resetVal (v : Variant) (a : Nat) : Word :=
  match regDesc a with
  | none => 0
  | some d =>
    if a = R.PWR_PADHOLD then BitVec.ofNat 32 (0x20 + 2 ^ v.lanes - 1)
    else if a = R.PWR_DSTAT then (if v.lanes = 2 then 0x480#32 else 0#32)
    else if d.base = R.DMA_CH_CFG 0 ∧ a < R.DMA_CH_CFG 8 then 1
    else BitVec.ofNat 32 d.reset

/-- The stored value of the register at window offset `a`. -/
def State.reg (s : State) (a : Nat) : Word := cget (resetVal s.variant) s.regs a

/-- Writes the stored value of the register at window offset `a`. -/
def State.setReg (a : Nat) (v : Word) (s : State) : State :=
  { s with regs := cset (resetVal s.variant) a v s.regs }

/-- The active value of the staged register at window offset `a` (R16); `reg` holds its shadow value. -/
def State.actReg (s : State) (a : Nat) : Word := cget (resetVal s.variant) s.active a

/-- The shadow value of a staged register becomes its active value. -/
def State.activate (a : Nat) (s : State) : State :=
  { s with active := cset (resetVal s.variant) a (s.reg a) s.active }

/-- The bits of a field, at the bottom of a word. -/
def Field.ones (f : Field) : Word := BitVec.allOnes 32 >>> (32 - f.width)

/-- A field of a word. -/
def Field.of (f : Field) (w : Word) : Nat := ((w >>> f.lo) &&& f.ones).toNat

/-- A word with one field replaced. -/
def Field.into (f : Field) (v : Nat) (w : Word) : Word :=
  (w &&& ~~~(f.ones <<< f.lo)) ||| ((BitVec.ofNat 32 v &&& f.ones) <<< f.lo)

/-- The value of a field. -/
def State.get (s : State) (f : Field) : Nat := f.of (s.reg f.addr)

/-- The active value of a field of a staged register. -/
def State.getA (s : State) (f : Field) : Nat := f.of (s.actReg f.addr)

/-- Sets a field, keeping the low bits of the value; the register's other fields stay. -/
def State.put (f : Field) (v : Nat) (s : State) : State := s.setReg f.addr (f.into v (s.reg f.addr))

/-- A field that is not zero. -/
def State.flag (s : State) (f : Field) : Bool := s.get f != 0

/-- Adds one to a field, which wraps. -/
def State.inc (f : Field) (s : State) : State := s.put f (s.get f + 1)

/-- Adds `n` to a field, which wraps. -/
def State.add (f : Field) (n : Nat) (s : State) : State := s.put f (s.get f + n)

/-- Adds one to a field, which stops at its greatest value. -/
def State.incStop (f : Field) (s : State) : State :=
  if s.get f + 1 < 2 ^ f.width then s.inc f else s

/-- Bit `i` of a field. -/
def State.bit (s : State) (f : Field) (i : Nat) : Bool := (s.get f).testBit i

/-- A number with bit `i` set or cleared. -/
def withBit (v i : Nat) (b : Bool) : Nat :=
  if v.testBit i = b then v else if b then v + 2 ^ i else v - 2 ^ i

/-- Sets or clears bit `i` of a field. -/
def State.putBit (f : Field) (i : Nat) (b : Bool) (s : State) : State := s.put f (withBit (s.get f) i b)

/-- Applies a list of state changes in order. -/
def doAll {α : Type} (l : List α) (f : α → State → State) (s : State) : State := l.foldl (fun t x => f x t) s

/-- Applies a change if a condition holds. -/
def doIf (c : Bool) (f : State → State) (s : State) : State := if c then f s else s

/-! ## Ignored accesses -/

/-- The paths into the window (17_register_map.md), as BLK_IGNADDR.src codes them. -/
def pathCode : Path → Nat
  | .bar2 => 0
  | .core => 1
  | .smbus => 2

/-- Counts and records an ignored access in block `blk` (R18, R21, R23): window offset `a`, cause `c`. -/
def State.ignore (p : Path) (blk a c : Nat) (rd : Bool) (s : State) : State :=
  let s := s.incStop (F.BLK_IGNCNT_count blk)
  s.setReg (R.BLK_IGNADDR blk)
    (BitVec.ofNat 32 (2 ^ 31 + c * 2 ^ 28 + pathCode p * 2 ^ 26 + a / 0x10000 % 64 * 2 ^ 20 + a / 4 % 2 ^ 14 * 4 +
      (if rd then 1 else 0)))

/-- A write that breaks a rule of its block: cause 101b in the block addressed. -/
def State.ignoreRule (p : Path) (a : Nat) (s : State) : State := s.ignore p (a / 0x10000) a 5 false

/-! ## Time -/

/-- Milliseconds since `PWRON_N`. -/
def State.nowMs (s : State) : Nat := s.us / 1000

/-- CTR_TIME (R370). -/
def State.ctrTime (s : State) : Nat := (s.us - s.ctrBase) % 2 ^ 32

/-! ## Modes -/

/-- HRV_STAT.state (R342): 0 DISARMED, 1 ARMED, 2 ISOLATE, 3 SEEK, 4 COAST, 5 COMMIT, 6 PARK, 7 DONE. -/
def State.hrvState (s : State) : Nat := s.get F.HRV_STAT_state

/-- A harvest runs (R342). -/
def State.harvesting (s : State) : Bool := decide (2 ≤ s.hrvState ∧ s.hrvState ≤ 6)

/-- The Gorlo is in diapause (R360). -/
def State.diapause (s : State) : Bool := s.flag F.HRV_DIAP_active

/-- The state of a power domain in PWR_DSTAT (R528 mask order: lanes 0 to 3, CRYS 4, MOTION 5, HBM 6). -/
def State.dom (s : State) (d : Nat) : Nat := natBits (s.reg R.PWR_DSTAT).toNat (3 * d) 3

/-- Sets the state of a power domain. -/
def State.setDom (d v : Nat) (s : State) : State := s.put ⟨R.PWR_DSTAT, 3 * d, 3⟩ v

/-- A power domain runs. -/
def State.runs (s : State) (d : Nat) : Bool := s.dom d == 0

/-! ## Triplicated words -/

/-- The 2-of-3 vote over three copies, bit by bit (R569). -/
def vote (a b c : Word) : Word := (a &&& b) ||| (a &&& c) ||| (b &&& c)

/-- The vote over the copies of triplicated word `i`. -/
def State.word (s : State) (i : Nat) : Word := vote (s.reg (R.TMR_W_C0 i)) (s.reg (R.TMR_W_C1 i)) (s.reg (R.TMR_W_C2 i))

/-- Shows a triplicated word in the register that mirrors it (R569). -/
def State.mirror (i : Nat) (v : Word) (s : State) : State :=
  match i with
  | 0 => s.setReg R.HRV_HSEQ v
  | 1 => s.setReg R.MAP_KEELSEQ v
  | 2 => s.put F.MAP_CKSTAT_area (v.toNat / 2 ^ 31)
  | 3 => s.setReg R.MAP_JSEQ v
  | 4 => s.setReg R.MAP_JDONE v
  | 6 => s.setReg R.HRV_DIRTY v
  | 7 => s.setReg R.HRV_WTDIRTY v
  | _ => s

/-- A functional write of triplicated word `i`: all three copies at once (R569). -/
def State.setWord (i : Nat) (v : Nat) (s : State) : State :=
  let w := BitVec.ofNat 32 v
  (((s.setReg (R.TMR_W_C0 i) w).setReg (R.TMR_W_C1 i) w).setReg (R.TMR_W_C2 i) w).mirror i w

/-! ## Event records -/

/-- Bytes 0 to 59 of a record (R607). -/
def EvtRec.body (r : EvtRec) : List Byte :=
  let fl (b : Bool) (i : Nat) : Nat := if b then 2 ^ i else 0
  leBytes 8 r.time ++ leBytes 4 r.pcyc ++ leBytes 4 r.seq ++
    [BitVec.ofNat 8 r.src, BitVec.ofNat 8 r.code,
     BitVec.ofNat 8 (fl r.early 0 + fl r.rc 1 + fl r.folded 2 + fl r.dropped 3 + fl r.harvest 4), 0] ++
    leBytes 2 r.rep ++ [0, 0] ++ leBytes 4 r.span ++ bytesAt r.payload 0 32

/-- The 64 bytes of a record, its CRC-32C last (R607). -/
def EvtRec.bytes (r : EvtRec) : List Byte := r.body ++ leBytes 4 (Config.crc32c r.body).toNat

/-- Unflushed records. -/
def EvtState.unflushed (e : EvtState) : Nat := (e.sram.filter (fun x => !x.2)).length

/-- A record matches a new one for folding (R613, R614). -/
def EvtRec.matches (r n : EvtRec) (fold : Nat) : Bool :=
  r.src == n.src && r.code == n.code && bytesAt r.payload 0 4 == bytesAt n.payload 0 4 &&
    decide (n.time - r.time ≤ fold) && decide (r.rep < 0xFFFF)

/-- The record of a fold (R613): one more occurrence. -/
def EvtRec.fold (r n : EvtRec) : EvtRec :=
  { r with rep := r.rep + 1, folded := true, span := (n.time - r.time) % 2 ^ 32 }

/-- Folds `n` into the newest of the `k` most recent unflushed records that matches; the list is newest first. -/
def foldInto (n : EvtRec) (fold : Nat) : Nat → List (EvtRec × Bool) → Option (List (EvtRec × Bool))
  | 0, _ => none
  | _, [] => none
  | k + 1, (r, fl) :: rest =>
    if fl then (foldInto n fold (k + 1) rest).map ((r, fl) :: ·)
    else if r.matches n fold then some ((r.fold n, fl) :: rest)
    else (foldInto n fold k rest).map ((r, fl) :: ·)

/-- A new record as EVT forms it now (R607, R608). -/
def State.newRec (s : State) (src code : Nat) (payload : List Byte) : EvtRec :=
  let lock := s.flag F.EVT_CTL_tlock
  { time := (if lock then (s.get F.EVT_POTHI_ms * 2 ^ 32 + s.get F.EVT_POTLO_ms) else 0) + s.nowMs
    pcyc := if lock then s.get F.EVT_PCYC_count else 0
    seq := if lock then s.get F.EVT_SEQ_seq else s.evt.early
    src := src, code := code, early := !lock, rc := !s.coreUp, folded := false, dropped := s.evt.dropMark
    harvest := s.harvesting, rep := 1, span := 0, payload := payload }

/-- Stores a record in the SRAM over the oldest flushed one, folding it where R613 says so; none if every record is
unflushed (R615). -/
def State.storeRec (s : State) (src code : Nat) (payload : List Byte) : Option State :=
  let n := s.newRec src code payload
  let fold := s.get F.EVT_CTL_fold
  let folded := if fold = 0 then none else foldInto n fold 8 s.evt.sram.reverse
  match folded with
  | some l => some { s with evt := { s.evt with sram := l.reverse } }
  | none =>
    if s.evt.sram.length < 512 ∨ (s.evt.sram.head?.map (·.2)).getD false then
      let keep := if s.evt.sram.length < 512 then s.evt.sram else s.evt.sram.drop 1
      let s := { s with evt := { s.evt with sram := keep ++ [(n, false)], next := (s.evt.next + 1) % 512, dropMark := false } }
      let s := if s.flag F.EVT_CTL_tlock then s.inc F.EVT_SEQ_seq
        else { s with evt := { s.evt with early := s.evt.early + 1 } }
      some (s.put F.EVT_STAT_unfl s.evt.unflushed)
    else none

/-- A request for a flush (R616): it starts one, joins the one that waits, or waits for tlock. -/
def State.askFlush (s : State) : State :=
  if s.flag F.EVT_CTL_tlock then
    if s.flag F.EVT_STAT_flush then { s with evt := { s.evt with again := true } }
    else { s.put F.EVT_STAT_flush 1 with evt := { s.evt with left := s.evt.unflushed } }
  else if s.harvesting then s else { s with evt := { s.evt with waiting := true } }

/-- A cause bit of ALR sets (R598): an enabled one drives `ALERT_N` again (R606) and may start a flush (R616). -/
def State.latchCause (c : Nat) (s : State) : State :=
  let s := if c = 31 then s else s.putBit F.ALR_CAUSE_c c true
  let s := if s.bit F.ALR_PINEN_en c then s.put F.ALR_SUM_supp 0 else s
  if s.bit F.EVT_FLMASK_c c then s.askFlush else s

/-- The payload of a code 01h record (R609) for bit `b` of the source register at `a` of cause `c`. -/
def State.causePayload (s : State) (c a b : Nat) : List Byte :=
  [BitVec.ofNat 8 (a / 0x10000), BitVec.ofNat 8 b] ++ leBytes 2 (a % 0x10000) ++ leBytes 4 (s.reg a).toNat ++
    (if 16 ≤ c ∧ c < 20 then
      leBytes 4 (s.reg (R.LANE_STAT (c - 16))).toNat ++ leBytes 4 (s.reg (R.MCS_STAT (c - 16))).toNat ++
        leBytes 4 (s.reg (R.MCS_CC1 (c - 16))).toNat
     else [])

/-- A record that finds no room (R611, R615): it is counted, EVT_ERR.drop sets, and the record of that setting is
dropped without a chain when it too finds no room. -/
def State.dropRec (s : State) : State :=
  let s := s.inc F.EVT_DROP_count
  let s := { s with evt := { s.evt with dropMark := true } }
  let s := s.putBit F.EVT_ERR_e 0 true
  let s := match s.storeRec 12 1 (s.causePayload 12 R.EVT_ERR 0) with
    | some s => s
    | none => s.inc F.EVT_DROP_count
  s.latchCause 12

/-- Posts an event record (R610 to R615); 384 unflushed records start a flush (R616). -/
def State.post (src code : Nat) (payload : List Byte) (s : State) : State :=
  let before := s.evt.unflushed
  let s := match s.storeRec src code payload with
    | some s => s
    | none => s.dropRec
  if before < 384 ∧ 384 ≤ s.evt.unflushed then s.askFlush else s

/-- A block sets source bit `b` of the register at `a`, which feeds cause `c` (R598, R610). -/
def State.raiseBit (c a b : Nat) (s : State) : State :=
  let s := s.setReg a (s.reg a ||| (1#32 <<< b))
  (s.post c 1 (s.causePayload c a b)).latchCause c

/-- The cause that the source register at `a` feeds (R597). -/
def causeOf (a : Nat) : Nat :=
  let b := a / 0x10000
  if b = 1 then 0 else if b = 2 then (if a = R.ALR_CFGEV then 2 else if a = R.ALR_PWREV then 0 else 11)
  else if b = 0xE then 1 else if b = 8 then 3 else if b = 0xA then 4 else if b = 0xC ∨ b = 0xD then 5
  else if b = 0xB then 6 else if b = 9 then 7 else if b = 0x17 then 8
  else if b = 0x10 ∨ b = 0x12 ∨ b = 0xF then 9 else if b = 5 ∨ b = 6 ∨ b = 7 then 10
  else if b = 3 then 12 else if 0x13 ≤ b ∧ b ≤ 0x16 then 16 + (b - 0x13) else 16 + (b - 0x1A) / 2

/-- Sets the one-bit source field `f` (R610). -/
def State.raise (f : Field) (s : State) : State := s.raiseBit (causeOf f.addr) f.addr f.lo

/-- Sets bit `i` of the source field `f`. -/
def State.raiseAt (f : Field) (i : Nat) (s : State) : State := s.raiseBit (causeOf f.addr) f.addr (f.lo + i)

/-- Sets several source bits in one AON clock: their records take sequence numbers in ascending order of source
code, and at most 16 enter the queue (R610, R611). -/
def State.raiseAll (l : List (Field × Nat)) (s : State) : State :=
  let sorted := l.mergeSort (fun x y => decide (causeOf x.1.addr ≤ causeOf y.1.addr))
  let s := doAll (sorted.take 16) (fun x => State.raiseAt x.1 x.2) s
  doAll (sorted.drop 16)
    (fun x s => ((s.putBit x.1 x.2 true).dropRec).latchCause (causeOf x.1.addr)) s

/-! ## Resets -/

/-- The width of a reset kind: a wider kind resets what a narrower one does (R12). -/
def ResetKind.rank : ResetKind → Nat
  | .controller => 0
  | .perst => 1
  | .warm => 2
  | .cold => 3
  | .const => 4

/-- A reset of kind `k` resets the register at `a`. -/
def resets (k : ResetKind) (a : Nat) : Bool :=
  match regDesc a with
  | some d => decide (d.kind.rank ≤ k.rank)
  | none => true

/-- The register part of a reset of kind `k` (R12): shadow and active values return to reset values. -/
def State.resetRegs (k : ResetKind) (s : State) : State :=
  { s with
    regs := s.regs.filter (fun p => !resets k p.1)
    active := s.active.filter (fun p => !resets k p.1) }

/-- The registers of the blocks `bs` return to their reset values (R503). -/
def State.resetBlocks (bs : List Nat) (s : State) : State :=
  { s with
    regs := s.regs.filter (fun p => !bs.contains (p.1 / 0x10000))
    active := s.active.filter (fun p => !bs.contains (p.1 / 0x10000)) }

end Sys2Proof.Machine
end

