-- ==== Sys2Proof/Machine/Access.lean ====
section
/-! DEFINITION. The register window (00_scope.md R3, R7 to R23, R664, R665; 17_register_map.md R658 to R662): which
accesses are ignored and how they are counted, and what a write of a register does by its access types. -/

namespace Sys2Proof.Machine
open Sys2Proof

/-- The block with index `b` is fitted (R3, R658). -/
def State.blockFitted (s : State) (b : Nat) : Bool :=
  if s.variant.lanes = 4 then decide (b < 0x22)
  else decide (b < 0x22) && !(b == 0xD || b == 0x15 || b == 0x16 || decide (0x1E ≤ b))

/-- The power domain of a block that can be cocooned: 0 to 6 as PWR_DSTAT orders them (R24). -/
def blockDomain (b : Nat) : Option Nat :=
  if 0xF ≤ b ∧ b ≤ 0x12 then some 5 else if b = 0x17 then some 4 else if b = 0x18 then some 6 else none

/-- The domain of block `b` is cocooned (R25). -/
def State.blockDown (s : State) (b : Nat) : Bool :=
  (b == 8 && s.hostDown) ||
    match blockDomain b with
    | some d => s.dom d != 0 && s.dom d != 1
    | none => false

/-- The control-store word register at window offset `a` (R236): its lane, its word and which 32 bits of the word. -/
def csWord (a : Nat) : Option (Fin 4 × Nat × Nat) :=
  let b := a / 0x10000
  let o := a % 0x10000 - 0x1000
  if b < 0x1A ∨ 0x22 ≤ b ∨ a % 0x10000 < 0x1000 ∨ 40960 ≤ o ∨ o % 4 ≠ 0 then none
  else some (Fin.ofNat 4 ((b - 0x1A) / 2), (b - 0x1A) % 2 * 2048 + o / 20, o % 20 / 4)

/-- A register is implemented at window offset `a`. -/
def implemented (a : Nat) : Bool := (regDesc a).isSome || (csWord a).isSome

/-- A register that is host-writable (R661). -/
def hostWritable (a : Nat) : Bool :=
  let b := a / 0x10000
  (a % 0x10000 == 4) || (decide (0x13 ≤ b ∧ b ≤ 0x16) && a == R.LANE_BRHW (b - 0x13)) || a == R.SCA_STAT ||
    a == R.CRYS_MAXUS

/-- A block of the SMBus subset (R662). -/
def smbBlock (b : Nat) : Bool := b == 0 || b == 1 || b == 2 || b == 3 || b == 0xE

/-- A register that SMBus may write (R662). -/
def smbWritable (a : Nat) : Bool :=
  a == R.ALR_CAUSE || a == R.ALR_PINEN || a == R.ALR_CTL || a == R.EVT_CMD || (smbBlock (a / 0x10000) && a % 0x10000 == 4)

/-- The path may write the register. -/
def pathWrites (p : Path) (a : Nat) : Bool :=
  match p with
  | .bar2 => hostWritable a
  | .core => true
  | .smbus => smbWritable a

/-- The bits of a register that a write can act on. -/
def RegDesc.writable (d : RegDesc) : Nat := d.rw ||| d.rwl ||| d.w1c ||| d.w1s ||| d.wo ||| d.wz

/-- The bits of a register that are not reserved. -/
def RegDesc.defined (d : RegDesc) : Nat := d.writable ||| d.ro

/-- The lock bit of a lock register (R7). -/
def State.locked (s : State) (a : Nat) : Bool :=
  if a = R.HRV_CTL then s.flag F.HRV_CTL_lock else if a = R.CRYS_CTL then s.flag F.CRYS_CTL_lock
  else (s.reg a).getLsbD 31

/-- The GO register of a staged register reads pending (R17). -/
def State.goPending (s : State) (g : GoKind) (a : Nat) : Bool :=
  match g with
  | .lane => s.flag (F.LANE_GO_pending (a / 0x10000 - 0x13))
  | .sca => s.flag F.SCA_GO_pending
  | .spn => s.flag F.SPN_GO_pending
  | .hrv => s.flag F.HRV_GO_pending
  | .ctr => s.flag F.CTR_GO_pending

/-- The block that counts an ignored write or read at window offset `a` (R3, R658, R662, R664). -/
def State.countBlock (s : State) (p : Path) (a : Nat) : Nat :=
  if p = .smbus ∧ !(smbBlock (a / 0x10000)) then 2 else if s.blockFitted (a / 0x10000) then a / 0x10000 else 0

/-- A register of actuator 2 or 3 on a part with two lanes, in SCA or SRV: it reads as zero, and a write is ignored (chapter
6, before the SCA register tables). -/
def State.actAbsent (s : State) (a : Nat) : Bool :=
  s.variant == .d02 && (regDesc a).isSome &&
    (decide (R.SCA_SKCMD 2 ≤ a ∧ a < R.SCA_SKCMD 4) || decide (R.SRV_WLIM 2 ≤ a ∧ a < R.SRV_WLIM 4) ||
      decide (R.SRV_VCMCFG 2 ≤ a ∧ a < R.SRV_VCMCFG 4) || (decide (R.SCA_FFG 0 0 ≤ a ∧ a < R.SCA_FFG 16 0) && decide (2 ≤ a / 4 % 4)))

/-- The cause for which an aligned 32-bit write of `v` at window offset `a` is ignored before the rules of its block
are asked, in the order of R664. -/
def State.writeCause (s : State) (p : Path) (a : Nat) (v : Word) : Option Nat :=
  let b := a / 0x10000
  if p = .smbus ∧ !(smbBlock b) then some 1
  else if (b < 0x22 ∧ !(s.blockFitted b)) ∨ s.actAbsent a then some 2
  else match regDesc a with
    | none => if (csWord a).isSome then (if p = .core then none else some 1) else some 7
    | some d =>
      if !(pathWrites p a) then some 1
      else if d.writable = 0 then some 0
      else if v.toNat &&& d.defined ≠ v.toNat then some 4
      else if d.rwl ≠ 0 ∧ (d.lock.map s.locked).getD false ∧ (v.toNat ^^^ (s.reg a).toNat) &&& d.rwl ≠ 0 then some 3
      else if s.blockDown b then some 5
      else match d.go with
        | some g => if s.goPending g a then some 5 else none
        | none => none

/-- The cause for which an aligned 32-bit read at window offset `a` is ignored (R18, R25, R664). -/
def State.readCause (s : State) (p : Path) (a : Nat) : Option Nat :=
  let b := a / 0x10000
  if p = .smbus ∧ !(smbBlock b) then some 1
  else if (b < 0x22 ∧ !(s.blockFitted b)) ∨ !(implemented a) then some 7
  else if s.blockDown b then some 5
  else match csWord a with
    | some (n, _, _) => if s.runs n.val then none else some 5
    | none => none

/-- The path can carry an access: the cores run (R343), and the link's function is there for BAR2. A path that cannot
carries none, and the command does not occur. The sideband answers while `VDD_3V3` is present (R603). -/
def State.pathOpen (s : State) (p : Path) : Bool :=
  match p with
  | .core => !s.hrv.coresHalted
  | .bar2 => !s.hostDown && !s.nvme.perst
  | .smbus => s.boot.phase != 6

/-- The path can carry a write: while a harvest runs none is heeded (R330). -/
def State.writeOpen (s : State) (p : Path) : Bool := s.pathOpen p && !s.harvesting

/-- A read at window offset `a` that has an effect: ignored and counted for a cause of R664, otherwise `eff`. -/
def State.gatedRead (p : Path) (a : Nat) (eff : State → State) (s : State) : State :=
  if !(s.pathOpen p) then s
  else match s.readCause p a with
    | some c => s.ignore p (s.countBlock p a) a c true
    | none => eff s

/-- A write of `v` at window offset `a` through path `p`: ignored and counted for a cause of R664, ignored with cause
101b where `bad` says that it breaks a rule of its block, and otherwise `eff`. -/
def State.gated (p : Path) (a : Nat) (v : Word) (bad : Bool) (eff : State → State) (s : State) : State :=
  if !(s.writeOpen p) then s
  else match s.writeCause p a v with
    | some c => s.ignore p (s.countBlock p a) a c false
    | none => if bad then s.ignoreRule p a else eff s

/-- What the access types make of a write (R7, R8): RW and RWL fields take the value, W1C and W1S bits clear and set,
WZ fields become zero, RO fields stay, and WO fields hold nothing. -/
def RegDesc.apply (d : RegDesc) (old v : Word) : Word :=
  let m (n : Nat) : Word := BitVec.ofNat 32 n
  let keep := old &&& m (d.ro ||| d.w1c ||| d.w1s)
  ((keep &&& ~~~(v &&& m d.w1c)) ||| (v &&& m d.w1s)) ||| (v &&& m (d.rw ||| d.rwl))

/-- A performed write of a register, by its access types. -/
def State.take (a : Nat) (v : Word) (s : State) : State :=
  match regDesc a with
  | some d => s.setReg a (d.apply (s.reg a) v)
  | none => s

/-- A write of BLK_IGNCNT (R22): writing 1 to clr clears the count and BLK_IGNADDR.valid. -/
def State.clearIgn (b : Nat) (v : Word) (s : State) : State :=
  if v.getLsbD 31 then (s.put (F.BLK_IGNCNT_count b) 0).put (F.BLK_IGNADDR_valid b) 0 else s

end Sys2Proof.Machine
end

