-- ==== Sys2Proof/Machine/HostOps.lean ====
section
/-! DEFINITION. What the front end does for every command: completion queue entries and their interrupts (R419, R455,
R491), status codes (R499, R500), asynchronous events (R498) and the Error Information log (R470). -/

namespace Sys2Proof.Machine
open Sys2Proof

/-- Successful Completion with dword 0 and the data returned. -/
def CplRec.good (dw0 : Nat) (data : List Byte) : CplRec := { sct := 0, sc := 0, dnr := false, dw0 := dw0, data := data }

/-- Successful Completion. -/
def CplRec.ok : CplRec := CplRec.good 0 []

/-- An error status (R499); DNR is cleared only for Contract Deadline Missed and Command Aborted due to SQ Deletion,
and for Namespace Not Ready as R500 lays down. -/
def CplRec.bad (sct sc : Nat) : CplRec :=
  { sct := sct, sc := sc, dnr := !((sct == 7 && sc == 0xC1) || (sct == 0 && sc == 8)), dw0 := 0, data := [] }

/-- Successful status. -/
def CplRec.success (r : CplRec) : Bool := r.sct == 0 && r.sc == 0

/-- Invalid Field in Command. -/
def CplRec.field : CplRec := CplRec.bad 0 2

/-- Changes the controller. -/
def State.onNvme (f : Nvme → Nvme) (s : State) : State := { s with nvme := f s.nvme }

/-- The completion queue of a submission queue; 0 is the admin queue. -/
def State.cqOf (s : State) (sq : Nat) : Nat :=
  if sq = 0 then 0 else ((s.nvme.sqs.find? (fun q => q.id == sq)).map (·.cq)).getD 0

/-- A completion queue has space for one more entry: a queue of `n` entries holds `n - 1`. -/
def State.cqRoom (s : State) (cq : Nat) : Bool :=
  if cq = 0 then decide (s.nvme.adminUsed + 1 < s.nvme.adminSize)
  else match s.nvme.cqs.find? (fun q => q.id == cq) with
    | some q => decide (q.used + 1 < q.size)
    | none => false

/-- The host has consumed `n` entries of a completion queue. -/
def State.consume (cq n : Nat) (s : State) : State :=
  if cq = 0 then s.onNvme (fun v => { v with adminUsed := v.adminUsed - n })
  else s.onNvme (fun v => { v with cqs := v.cqs.map (fun q => if q.id = cq then { q with used := q.used - n } else q) })

/-- Raises the vector of a completion queue, or holds the entry back (R491): a contracted completion raises it at
once, and so does the admin queue. -/
def State.signal (cq : Nat) (contracted : Bool) (s : State) : State :=
  let vec := if cq = 0 then 0 else ((s.nvme.cqs.find? (fun q => q.id == cq)).map (·.vector)).getD 0
  let f := s.nvme.feats
  let held := ((s.nvme.agg.find? (fun a => a.1 == vec)).map (fun a => a.2.1)).getD 0
  let since := ((s.nvme.agg.find? (fun a => a.1 == vec)).map (fun a => a.2.2)).getD s.us
  let rest := s.nvme.agg.filter (fun a => a.1 != vec)
  if contracted || cq == 0 || f.coalTime == 0 || f.noCoal.contains vec || decide (f.coalThr < held + 1) then
    s.onNvme (fun v => { v with irqs := vec :: v.irqs, agg := rest })
  else s.onNvme (fun v => { v with agg := rest ++ [(vec, held + 1, since)] })

/-- Posts a completion queue entry. -/
def State.postCqe (sq cid : Nat) (r : CplRec) (contracted : Bool) (s : State) : State :=
  let cq := s.cqOf sq
  let s := s.onNvme (fun v => { v with out := { sq := sq, cid := cid, rec_ := r } :: v.out })
  let s := if cq = 0 then s.onNvme (fun v => { v with adminUsed := v.adminUsed + 1 })
    else s.onNvme (fun v => { v with cqs := v.cqs.map (fun q => if q.id = cq then { q with used := q.used + 1 } else q) })
  s.signal cq contracted

/-- Completes an admin command; its contexts are the firmware's own. -/
def State.adminDone (cid : BitVec 16) (r : CplRec) (s : State) : State := s.postCqe 0 cid.toNat r false

/-- A record that the resident firmware posts (R609); its context is open. -/
def State.fwEvent (code : Nat) (s : State) : State := s.post 0x20 code (Config.fwContext s.free code)

/-- How the minimal loader refuses an admin command (R550): it serves queue-less commands only, each in part. -/
def loaderBad (e : Sqe) : Option CplRec :=
  let id := e.dw10.toNat % 256
  let part (ok : Bool) : Option CplRec := if ok then none else some CplRec.field
  if e.op = 0x02 then part (id == 3)
  else if e.op = 0x06 then part (id == 1)
  else if e.op = 0x09 ∨ e.op = 0x0A then part (id == 7)
  else if e.op = 0x10 ∨ e.op = 0x11 then none
  else some (CplRec.bad 0 1)

/-- An admin command is fetched while the controller is ready and its completion queue has room (R455, R488, R527); in
diapause every command but Identify and Get Log Page completes with Diapause (R362), and the minimal loader serves only
some (R550). -/
def State.admin (diapauseOk : Bool) (f : State → State) (e : Sqe) (s : State) : State :=
  if !(s.nvme.en && s.nvme.rdy) || s.nvme.pp || s.harvesting || s.hostDown || !(s.cqRoom 0) then s
  else
    let s := (s.inc F.HST_ADMCNT_count).put F.PWR_IDLE_ms 0
    if s.diapause && !diapauseOk then s.adminDone e.cid (CplRec.bad 7 0xC0)
    else match (if s.boot.phase = 5 then loaderBad e else none) with
      | some r => s.adminDone e.cid r
      | none => f s

/-- Posts the oldest asynchronous event that waits, if a request is outstanding (R498). -/
def State.sendAen (s : State) : State :=
  match s.nvme.aers, s.nvme.events with
  | cid :: rest, (t, i, p) :: more =>
    let s := s.onNvme (fun v => { v with aers := rest, events := more, masked := (t, i, p) :: v.masked })
    s.postCqe 0 cid (CplRec.good (t + i * 2 ^ 8 + p * 2 ^ 16) []) false
  | _, _ => s

/-- An event of the type is enabled: those of type 7h always, the others by the Asynchronous Event Configuration
feature. -/
def State.aenOn (s : State) (type info : Nat) : Bool :=
  type == 7 || (type == 1 && s.nvme.feats.aec.testBit (if info = 0 then 2 else 1)) ||
    (type == 2 && s.nvme.feats.aec.testBit 9)

/-- An asynchronous event (R498): at most once until its page is read with RAE cleared. -/
def State.aen (type info page : Nat) (s : State) : State :=
  let same (x : Nat × Nat × Nat) : Bool := x.1 == type && x.2.1 == info
  if !(s.aenOn type info) || s.nvme.events.any same || s.nvme.masked.any same then s
  else (s.onNvme (fun v => { v with events := v.events ++ [(type, info, page)] })).sendAen

/-- A log page is read with RAE cleared: its events are enabled again. -/
def State.clearAen (page : Nat) (s : State) : State :=
  s.onNvme (fun v => { v with masked := v.masked.filter (fun x => x.2.2 != page) })

/-- A lane leaves service (R498, R602). -/
def State.laneLeft (s : State) : State := s.aen 1 0 2

/-- Adds an entry to the Error Information log, newest first, 64 at most (R470, R494). -/
def State.logError (sq cid : Nat) (r : CplRec) (lba ns code : Nat) (s : State) : State :=
  s.onNvme (fun v =>
    { v with
      errCount := v.errCount + 1
      errs := ({ count := v.errCount + 1, sq := sq, cid := cid, sct := r.sct, sc := r.sc, lba := lba, ns := ns
                 code := code } :: v.errs).take 64 })

/-- SMART Critical Warning (R495, R602). -/
def State.critWarn (s : State) : Nat :=
  let k := s.get F.ALR_TEMP_tj
  let t : Int := sInt 8 k + 273
  let temp := decide ((s.nvme.feats.tOver : Int) ≤ t) || (s.nvme.feats.tUnder != 0 && decide (t < s.nvme.feats.tUnder))
  let out := allFalse ((List.range s.variant.lanes).map (fun n => s.dom n == 4 || s.get (F.MCS_STAT_state n) == 5 ||
    ((s.lanes.toList.getD n Lane.reset).lost)))
  let harv := s.flag F.HRV_ERR_chopopen || s.flag F.HRV_ERR_chopshort || s.flag F.HRV_ERR_double || s.flag F.HRV_ERR_par
  (if temp then 2 else 0) + (if s.diapause || !out || s.dom 5 == 4 then 4 else 0) + (if harv then 16 else 0)
where
  /-- No element is true. -/
  allFalse (l : List Bool) : Bool := l.all (!·)

end Sys2Proof.Machine
end

