-- ==== Sys2Proof/Machine/Formats.lean ====
section
/-! DEFINITION. What lies on a track (03_read_write_channel.md R114, R119 to R126): the codes, the fields and pitches of tiles,
coast tiles and sectors, wedges, the metadata, the CRC-64 and the scrambler. -/

namespace Sys2Proof.Machine
open Sys2Proof

/-! ## Codes and fields -/

/-- A quasi-cyclic code (R114): its circulant size, information columns and parity columns. -/
structure Code where
  circ : Nat
  info : Nat
  par : Nat
deriving DecidableEq, Repr

/-- The four codes of R114. -/
def codeT86 : Code := ⟨512, 257, 42⟩
def codeT89 : Code := ⟨512, 257, 32⟩
def codeT92 : Code := ⟨512, 257, 22⟩
def codeS89 : Code := ⟨128, 260, 32⟩

/-- The symbols of a codeword, and those of its information part. -/
def Code.n (c : Code) : Nat := c.circ * (c.info + c.par)
def Code.bits (c : Code) : Nat := c.circ * c.info

/-- The code that a MODSEL selects (R150). -/
def codeOf (modsel : Nat) : Code :=
  if natBits modsel 6 2 ≠ 0 then codeS89
  else match natBits modsel 4 2 with
    | 0 => codeT86
    | 1 => codeT89
    | _ => codeT92

/-- What a field of a unit holds (R119): preamble, sync mark, codeword symbols, postamble. -/
inductive FieldKind where
  | pre | sync | code | post
deriving DecidableEq, Repr

/-- The fields of a unit of a MODSEL in order, with their symbols (R119, R125, R126). -/
def unitFields (modsel : Nat) : List (FieldKind × Nat) :=
  let n := (codeOf modsel).n
  match natBits modsel 6 2 with
  | 0 => [(.pre, 1536), (.sync, 64), (.code, n), (.post, 32)]
  | 1 => [(.pre, 512), (.sync, 64), (.code, n / 4), (.pre, 128), (.sync, 64), (.code, n / 4), (.pre, 128), (.sync, 64), (.code, n / 4),
      (.pre, 128), (.sync, 64), (.code, n / 4), (.post, 32)]
  | _ => [(.pre, 512), (.sync, 64), (.code, n), (.post, 32)]

/-- The symbols of fields. -/
def fieldsLen (l : List (FieldKind × Nat)) : Nat := sumOf l (·.2)

/-- The splice gap of a unit. -/
def spliceGap (modsel : Nat) : Nat :=
  match natBits modsel 6 2 with
  | 0 => 512
  | 1 => 248
  | _ => 256

/-- The symbols of a unit from its first preamble symbol to its last postamble symbol, and its pitch. -/
def unitLen (modsel : Nat) : Nat := fieldsLen (unitFields modsel)
def pitch (modsel : Nat) : Nat := unitLen modsel + spliceGap modsel

/-- Where the unit at a position and quarter begins, in symbols of slots from the index mark (R52, R126). -/
def unitStart (modsel pos qtr : Nat) : Nat :=
  if natBits modsel 6 2 = 1 then pos * pitch 0 + qtr * pitch modsel else pos * pitch modsel

end Sys2Proof.Machine

namespace Sys2Proof
open Sys2Proof.Machine

/-! ## Wedges -/

/-- A wedge and the resync field after it, in symbols (R120). -/
def Ring.gap (r : Ring) : Nat := r.wedge + 320

/-- The symbol of the track at which wedge `k` begins. -/
def Ring.wedgeAt (r : Ring) (k : Nat) : Nat := k * r.symbols / 512

/-- The last wedge to begin at or before symbol `x`. -/
def Ring.wedgeOf (r : Ring) (x : Nat) : Nat := ((x + 1) * 512 - 1) / r.symbols

/-- Symbol `x` of the track lies in a wedge. -/
def Ring.inWedge (r : Ring) (x : Nat) : Bool := decide (x - r.wedgeAt (r.wedgeOf x) < r.wedge)

/-- The symbols of slots on a track, which wedges and resync fields leave (R121). -/
def Ring.total (r : Ring) : Nat := r.symbols - 512 * r.gap

/-- The slots of a pitch that a track holds (R121). -/
def Ring.slotsFor (r : Ring) (p : Nat) : Nat := r.total / p

/-- GEO's slot counts are those of R121's formula: what the Oluok builder checks. -/
def Ring.fits (r : Ring) : Bool := r.slots == [r.slotsFor (pitch 0), r.slotsFor (pitch 16), r.slotsFor (pitch 32), r.slotsFor (pitch 128)]

/-- The symbols of slots before symbol `x`, counted from an index mark over further revolutions. -/
def Ring.usable (r : Ring) (x : Nat) : Nat :=
  let y := x % r.symbols
  let k := r.wedgeOf y
  x / r.symbols * r.total + (r.wedgeAt k - k * r.gap) + (y - r.wedgeAt k - r.gap)

/-- The times that the place `a` of the slot symbols has passed once symbol `x` is reached. -/
def Ring.passed (r : Ring) (a x : Nat) : Nat := if r.total = 0 then 0 else (r.usable x + r.total - 1 - a) / r.total

/-- The slot symbols, counted from a unit's start, before which wedges split it. -/
def Ring.cuts (r : Ring) (start len : Nat) : List Nat :=
  ((List.range 513).map (fun k => r.wedgeAt k - k * r.gap)).filterMap (fun u =>
    if start < u ∧ u < start + len then some (u - start) else none)

end Sys2Proof

namespace Sys2Proof.Machine
open Sys2Proof

/-- A field that begins at symbol `o` of its unit, split at the cuts that lie in it: a resync field follows each (R120). -/
def cutField (cuts : List Nat) (o : Nat) (f : FieldKind × Nat) : List (FieldKind × Nat) :=
  let r := (cuts.filter (fun c => decide (o ≤ c ∧ c < o + f.2))).foldl
    (fun (x : Nat × List (FieldKind × Nat)) c => (c, x.2 ++ [(f.1, c - x.1), (.pre, 256), (.sync, 64)])) (o, [])
  r.2 ++ [(f.1, o + f.2 - r.1)]

/-- The fields of a unit as they pass under the head, with the resync fields. -/
def cutFields (cuts : List Nat) : Nat → List (FieldKind × Nat) → List (FieldKind × Nat)
  | _, [] => []
  | o, f :: fs => cutField cuts o f ++ cutFields cuts (o + f.2) fs

/-! ## Metadata, CRC-64 and scrambler -/

/-- One bit of the reflected CRC-64 of ECMA-182 (R123). -/
def crcBit (c : BitVec 64) : BitVec 64 :=
  if c.getLsbD 0 then (c >>> 1) ^^^ 0xC96C5795D7870F42#64 else c >>> 1

/-- The CRC-64 of R123. -/
def crc64 (bs : List Byte) : BitVec 64 :=
  ~~~(bs.foldl (fun c b => (List.range 8).foldl (fun c _ => crcBit c) (c ^^^ b.setWidth 64)) (BitVec.allOnes 64))

/-- The physical address of a unit in its 64-bit layout (R122), for a coast tile with its quarter. -/
def Place.addr (p : Place) : Nat :=
  p.lane % 4 * 2 ^ 62 + p.surface % 32 * 2 ^ 57 + p.track % 2 ^ 22 * 2 ^ 35 + p.slot % 512 * 2 ^ 26 + p.qtr % 4 * 2 ^ 24

/-- Bytes 0 to 55 of a tile's metadata (R122). -/
def Tile.meta_ (t : Tile) : List Byte :=
  leBytes 8 (t.kind * 2 ^ 62 + t.tag % 2 ^ 58) ++
    [BitVec.ofNat 8 (if t.kind = 0 then t.gen else 0), BitVec.ofNat 8 t.modsel,
     BitVec.ofNat 8 ((if t.shuffled then 1 else 0) + (if t.coast then 2 else 0)), 0] ++
    leBytes 4 (if t.coast then t.hseq else 0) ++ leBytes 8 t.place.addr ++ List.replicate 32 0

/-- The user bytes of a unit of a MODSEL (R114, R119, R125, R126), without its 64 bytes of metadata. -/
def userBytes (modsel : Nat) : Nat := (codeOf modsel).bits / 8 - 64

/-- The user data of a tile, missing bytes zero. -/
def Tile.user (t : Tile) : List Byte := bytesAt t.data 0 (userBytes (t.modsel * 16))

/-- The CRC-64 of a tile (R123). -/
def Tile.crc (t : Tile) : BitVec 64 := crc64 (t.user ++ t.meta_)

/-- The seed of the scrambler at a place (R124). -/
def Place.seed (p : Place) : Nat :=
  let a := ((p.surface * 4194304 + p.track) * 2048 + p.slot * 4 + p.qtr) % (2 ^ 31 - 1)
  if a = 0 then 1 else a

/-- One step of the PRBS x^31 + x^28 + 1: the bit it gives and its next state. -/
def prbsStep (x : Nat) : Bool × Nat :=
  let b := x.testBit 30 != x.testBit 27
  (b, x * 2 % 2 ^ 31 + (if b then 1 else 0))

/-- The next `n` bits of the PRBS. -/
def prbs : Nat → Nat → List Bool
  | 0, _ => []
  | n + 1, x => (prbsStep x).1 :: prbs n (prbsStep x).2

/-- The bits of bytes, the least significant of each first. -/
def bitsOf (bs : List Byte) : List Bool := bs.flatMap (fun b => (List.range 8).map (fun i => b.getLsbD i))

/-- Eight bits as a byte, least significant first. -/
def byteOf (l : List Bool) : Byte := BitVec.ofNat 8 (l.foldr (fun b n => 2 * n + (if b then 1 else 0)) 0)

/-- Bytes scrambled, or descrambled, at a place (R124). -/
def scramble (p : Place) (bs : List Byte) : List Byte :=
  (chunks 8 bs.length ((bitsOf bs).zipWith xor (prbs (8 * bs.length) p.seed))).map byteOf

/-- The information part of a tile's codeword (R114): its user data and metadata, scrambled. -/
def Tile.info (t : Tile) : List Byte := scramble t.place (t.user ++ t.meta_ ++ leBytes 8 t.crc.toNat)

/-- What an information part says when it is read at place `p` (R116): it descrambles, and its CRC-64 and its physical address
match; user data and metadata. Bits that R122 reserves are ignored. -/
def checkInfo (p : Place) (info : List Byte) : Option (List Byte × List Byte) :=
  let b := scramble p info
  let n := b.length - 64
  let m := b.drop n
  if ofLe (m.drop 56) = (crc64 (b.take (n + 56))).toNat ∧ ofLe (bytesAt m 16 8) / 2 ^ 24 = p.addr / 2 ^ 24 then some (b.take n, m)
  else none

/-- A tile that metadata and user data spell (R122). -/
def Tile.parse (p : Place) (data m : List Byte) : Tile :=
  { kind := ofLe (bytesAt m 0 8) / 2 ^ 62, tag := ofLe (bytesAt m 0 8) % 2 ^ 58, gen := (byteAt m 8).toNat, modsel := (byteAt m 9).toNat
    shuffled := (byteAt m 10).getLsbD 0, coast := (byteAt m 10).getLsbD 1, hseq := ofLe (bytesAt m 12 4), place := p, data := data }

end Sys2Proof.Machine

namespace Sys2Proof
open Sys2Proof.Machine

/-- What a codeword gives at place `p`, where it passes the checks of R116. A unit that was written to another place
descrambles into noise and fails them (R124). -/
def Codeword.tile (c : Codeword) (there : Option Tile) (p : Place) : Option Tile :=
  match c with
  | .stored => there.filter (fun t => t.place == p)
  | .other info => (checkInfo p info).map (fun x => Tile.parse p x.1 x.2)

end Sys2Proof
end

