-- ==== Sys2Proof/Machine/Signal.lean ====
section
/-! DEFINITION. The signal chain of a lane (03_read_write_channel.md R100 to R113, R133): front end and ADCs, the
thermal-asperity detector, the equaliser and its adaptation, timing recovery, the detector; and the write path's
precompensation. -/

namespace Sys2Proof.Machine
open Sys2Proof

/-! ## Front end and equaliser -/

/-- A sample of an ADC (R104): the signal in 1/256 step, the set's trim in 1/4 step and the offset removed in 1/256 step, held to
8 bits. -/
def adc (x trim off : Int) : Int := clampI (-128) 127 (near (x + 64 * trim - off) 256)

/-- One output of the equaliser (R107), from the samples of readers A and B, newest first, of which the 12th is the cursor's: in
units of 1/8,192, rounded to 10 bits with saturation. -/
def equalise (taps xa xb : List Int) : Int :=
  let dot (h x : List Int) : Int := (h.zipWith (· * ·) x).foldl (· + ·) 0
  clampI (-512) 511 (near (dot (taps.take 24) xa + dot (taps.drop 24) xb) 8192)

/-- The equaliser's output at symbol `k` of the samples `xa` and `xb` (R107). -/
def eqAt (taps xa xb : List Int) (k : Nat) : Int :=
  let near24 (x : List Int) : List Int := (List.range 24).map (fun i => if i ≤ k + 11 then x.getD (k + 11 - i) 0 else 0)
  equalise taps (near24 xa) (near24 xb)

/-! ## Thermal asperities -/

/-- The TA events of the samples of two readers (R106): the symbols of runs of at least `len` of which the baseline of one
reader is further from zero than `level`; none at a level of zero. -/
def taEvents (level len : Nat) (xa xb : List Int) : List (Nat × Nat) :=
  let marks (x : List Int) : List Bool :=
    let far := (Config.baseline x).map (fun v => decide (level < v.natAbs))
    let long := (runsOf far).filter (fun r => decide (len ≤ r.2))
    (List.range far.length).map (fun k => long.any (fun r => decide (r.1 ≤ k ∧ k < r.1 + r.2)))
  if level = 0 then []
  else
    let a := marks xa
    let b := marks xb
    runsOf ((List.range (max a.length b.length)).map (fun k => a.getD k false || b.getD k false))

/-- Symbol `k` lies in an event, or within `margin` symbols of one. -/
def inTa (events : List (Nat × Nat)) (margin k : Nat) : Bool :=
  events.any (fun e => decide (e.1 ≤ k + margin ∧ k < e.1 + e.2 + margin))

/-! ## Timing recovery -/

/-- What a lane needs to hear a unit: its front end and taps, LANEn_AGC and LANEn_TR as active, LANEn_TATH, and LANEn_EQMU.mu. -/
structure HearCfg where
  front : Front
  taps : List Int
  target : Nat
  agc : Nat
  acq : Nat
  kp : Nat
  ki : Nat
  level : Nat
  len : Nat
  mu : Nat
  hold : Bool
deriving DecidableEq, Repr

/-- The read chain in mid-unit: symbols heard, VGA gains and ADC offsets, the sampling phase and the frequency of the tracking loop
in 1/2^32 symbol, the samples and equalised values newest first, the marks of Heard, and the symbols that hold codeword. -/
structure Hear where
  k : Nat
  vga : Nat × Nat
  dc : Int × Int
  phase : Int
  freq : Int
  xa : List Int
  xb : List Int
  ys : List Int
  marks : List (Nat × Int × Nat × Nat)
  code : List Nat
deriving DecidableEq, Repr

/-- The signals of readers A and B behind the CTLE. -/
def frontEnd (f : Front) (a b : List Int) : List Int × List Int :=
  (Config.ctle f.boost.1 f.peak.1 a, Config.ctle f.boost.2 f.peak.2 b)

/-- The sampling phase in 1/64 symbol: what the phase interpolator resolves (R104). -/
def Hear.phase64 (h : Hear) : Int := h.phase / 2 ^ 26

/-- One symbol: both readers are sampled at the present phase. -/
def Hear.sample (c : HearCfg) (w : List Int × List Int) (h : Hear) : Hear :=
  let i := (64 * (h.k : Int) + h.phase64).toNat
  let x (g : Nat) (trim off : Int) (w : List Int) : Int := adc (Config.vga g (w.getD i 0)) trim off
  let xa := x h.vga.1 c.front.trim.1 h.dc.1 w.1 :: h.xa
  let xb := x h.vga.2 c.front.trim.2 h.dc.2 w.2 :: h.xb
  { h with k := h.k + 1, xa := xa, xb := xb, ys := equalise c.taps (xa.take 24) (xb.take 24) :: h.ys }

/-- One step of the second-order tracking loop (R111): gains of kp/1,024 and ki/65,536, a frequency of at most 0.25 %. -/
def Hear.track (c : HearCfg) (h : Hear) : Hear :=
  let e := Config.timingError (h.ys.take 4)
  let f := clampI (-10737418) 10737418 (h.freq + c.ki * e)
  { h with freq := f, phase := h.phase + 64 * (c.kp : Int) * e + f }

/-- A field passes, as far as the signal goes. A preamble sets gain and offset, unless AGC is held (R105, R203), and acquires
phase; a sync mark ends in a mark; codeword symbols and the postamble are tracked. -/
def Hear.field (c : HearCfg) (w : List Int × List Int) (f : FieldKind × Nat) (h : Hear) : Hear :=
  let n := min f.2 (w.1.length / 64 - h.k)
  let part (w : List Int) : List Int := (w.drop (64 * h.k)).take (64 * n)
  if n = 0 then h
  else match f.1 with
    | .pre =>
      let a := part w.1
      let b := part w.2
      let g (g : Nat) (w : List Int) : Nat := min 255 (Config.agc c.target c.agc g w)
      let h := if c.hold then h
        else { h with vga := (g h.vga.1 a, g h.vga.2 b), dc := (Config.dcOffset h.dc.1 a, Config.dcOffset h.dc.2 b) }
      let h := { h with phase := 2 ^ 26 * Config.acquire c.acq h.phase64 a b, freq := 0 }
      (List.range n).foldl (fun h _ => h.sample c w) h
    | .sync =>
      let h := (List.range n).foldl (fun h _ => (h.sample c w).track c) h
      { h with marks := h.marks ++ [(h.k, h.phase64 % 64, h.vga.1, h.vga.2)] }
    | .code =>
      let h := { h with code := h.code ++ (List.range n).map (h.k + ·) }
      (List.range n).foldl (fun h _ => (h.sample c w).track c) h
    | .post => (List.range n).foldl (fun h _ => (h.sample c w).track c) h

/-! ## Detector and adaptation -/

/-- A symbol of the data as the target sees it. -/
def level (b : Bool) : Int := if b then 1 else -1

/-- The value that the target gives symbols, newest first, in equaliser units. -/
def targetOf (f : Front) (bits : List Bool) : Int :=
  near (Config.unitLevel * ((f.target.zipWith (fun g b => g * level b) bits).foldl (· + ·) 0)) 8192

/-- The metrics of the 64 branches of the trellis at a symbol (R113): each takes one of the 32 states, three symbols of target
memory and two of the predictor's, and the next symbol. The newest four symbols choose the pattern's coefficients. -/
def branches (f : Front) (y0 y1 y2 : Int) : List Int :=
  (List.range 64).map (fun v =>
    let bits := (List.range 6).map (fun i => v.testBit i)
    let p := f.noise.getD (v % 16) (0, 0, 0, 0)
    Config.branch p.2.2.1 p.2.2.2 (y0 - targetOf f bits) (p.1, y1 - targetOf f (bits.drop 1)) (p.2.1, y2 - targetOf f (bits.drop 2)))

/-- The LLRs of a codeword's symbols (R106, R113, R175): 6 bits, saturating at 31, zero where a symbol is lost. -/
def detect (f : Front) (lost : Nat → Bool) (ys : List (Nat × Int)) (prior : List Int) : List Int :=
  let y := ys.map (·.2)
  let m := (List.range y.length).map (fun k =>
    branches f (y.getD k 0) (if 1 ≤ k then y.getD (k - 1) 0 else 0) (if 2 ≤ k then y.getD (k - 2) 0 else 0))
  (ys.zip (Config.llr m prior)).map (fun x => if lost x.1.1 then 0 else clampI (-31) 31 x.2)

/-- A working tap as adapted (R109): no further than 1,024 from the set's. -/
def tapNear (t x : Int) : Int := clampI (max (-0x8000) (t - 1024)) (min 0x7FFF (t + 1024)) x

/-- The taps after the sign-LMS of a codeword (R108): the error of a symbol is its equalised value less the target applied to the
hard decisions; lost symbols are passed over. -/
def adaptTaps (c : HearCfg) (lost : Nat → Bool) (xa xb : List Int) (ys : List (Nat × Int)) (llr : List Int) : List Int :=
  let hard := llr.map (fun v => decide (0 ≤ v))
  let errs := (ys.zipIdx.filter (fun y => !(lost y.1.1))).map (fun y =>
    (y.1.1, y.1.2 - targetOf c.front ((List.range 4).map (fun j => if j ≤ y.2 then hard.getD (y.2 - j) false else false))))
  let step (x : List Int) (i : Nat) : Int := Config.lms c.mu (errs.map (fun e => (e.2, if i ≤ e.1 + 11 then x.getD (e.1 + 11 - i) 0 else 0)))
  c.taps.zipIdx.map (fun t =>
    tapNear (c.front.base.getD t.2 0) (t.1 + (if t.2 < 24 then step xa t.2 else step xb (t.2 - 24))))

/-- The search window of the first sync mark (R112, R203): from 512 symbols before its nominal place, preamble symbol 1,024 of a
tile, until 256 symbols after its nominal end, or 1,024 with WIDEN; and at most 6 symbols may differ. -/
def syncIn (widen : Bool) (m : Option (Int × Nat)) : Option Int :=
  m.bind (fun x => if -512 ≤ x.1 ∧ x.1 ≤ (if widen then 1024 else 256) ∧ x.2 ≤ 6 then some x.1 else none)

/-- What the read chain makes of the signals of readers A and B over the fields of a unit, from the gains and offsets of the
unit before; and the gains and offsets it leaves (R103 to R113). -/
def hear (c : HearCfg) (vga : Nat × Nat) (dc : Int × Int) (widen : Bool) (m : Option (Int × Nat)) (fields : List (FieldKind × Nat))
    (a b : List Int) : Heard × (Nat × Nat) × (Int × Int) :=
  let w := frontEnd c.front a b
  let h0 : Hear := { k := 0, vga := vga, dc := dc, phase := 0, freq := 0, xa := [], xb := [], ys := [], marks := [], code := [] }
  let h := fields.foldl (fun h f => h.field c w f) h0
  let xa := h.xa.reverse
  let xb := h.xb.reverse
  let events := taEvents c.level c.len xa xb
  let ys := h.code.map (fun k => (k, eqAt c.taps xa xb k))
  let llr := detect c.front (inTa events 16) ys []
  ({ a := xa, b := xb, sync := syncIn widen m, marks := h.marks, ta := events, llr := llr
     taps := adaptTaps c (inTa events 0) xa xb ys llr }, h.vga, h.dc)

/-! ## The crystallizer's engines -/

/-- The symbols of a unit's fields that hold codeword (R119, R120, R126), counted from its first symbol. -/
def codeIdx (fields : List (FieldKind × Nat)) : List Nat :=
  (fields.foldl (fun (x : Nat × List Nat) f =>
    (x.1 + f.2, if f.1 = .code then x.2 ++ (List.range f.2).map (x.1 + ·) else x.2)) (0, [])).2

/-- The hard decisions of samples as they come out of the equaliser, as 1 and -1 (R170). -/
def hardOf (taps xa xb : List Int) : List Int := (List.range xa.length).map (fun k => if 0 ≤ eqAt taps xa xb k then 1 else -1)

/-- A list moved by `d` places, zeros where nothing lies. -/
def shifted (l : List Int) (d : Int) : List Int :=
  (List.range l.length).map (fun k => if 0 ≤ (k : Int) + d then l.getD ((k : Int) + d).toNat 0 else 0)

/-- The sum of the products of two lists. -/
def correlate (x y : List Int) : Int := (x.zipWith (· * ·) y).foldl (· + ·) 0

/-- A neighbour's hard decisions aligned to samples within 8 symbols, where they correlate best (R170). -/
def alignTo8 (x hard : List Int) : List Int :=
  let ds : List Int := (List.range 17).map (fun k => (k : Int) - 8)
  shifted hard (ds.foldl (fun best d => if correlate x (shifted hard best) < correlate x (shifted hard d) then d else best) 0)

/-- Samples of a reader less what the filters make of the neighbours' hard decisions (R172), one 16-tap filter for each. -/
def cancelled (x : List Int) (filters hards : List (List Int)) : List Int :=
  x.zipIdx.map (fun v => v.1 - (filters.zip hards).foldl (fun n fh =>
    n + near (correlate fh.1 ((List.range 16).map (fun i => if i ≤ v.2 then fh.2.getD (v.2 - i) 0 else 0))) 8192) 0)

/-- The load phase has brought the samples, the bytes that met an error as erasures (R170, R175); phase 3 prepares the neighbours. -/
def Local.prepare (l : Local) : Local :=
  let hards := l.neigh.map (fun n => alignTo8 l.a (hardOf l.taps n.1 n.2))
  { l with hard := hards, filt := hards.map (fun h => (Config.cancel [] l.a h, Config.cancel [] l.b h)) }

/-- A global iteration up to its detector pass (R171 to R174): the filters in iterations 1 to 8, the equaliser, the detector with the
extrinsic information, halved after a miscorrection. `code` are the unit's codeword symbols. -/
def Local.iterate (l : Local) (code : List Nat) (iti : Bool) (iter mu : Nat) : Local :=
  let filt := if iti && decide (iter < 8) then
      l.hard.map (fun h => (Config.cancel l.llr l.a h, Config.cancel l.llr l.b h)) else l.filt
  let xa := if iti then cancelled l.a (filt.map (·.1)) l.hard else l.a
  let xb := if iti then cancelled l.b (filt.map (·.2)) l.hard else l.b
  let lost (k : Nat) : Bool := l.erased.contains k
  let c : HearCfg := { front := l.front, taps := l.taps, target := 0, agc := 0, acq := 0, kp := 0, ki := 0, level := 0, len := 0, mu := mu, hold := true }
  let ys (taps : List Int) : List (Nat × Int) := code.map (fun k => (k, eqAt taps xa xb k))
  let taps := adaptTaps c lost xa xb (ys l.taps) l.llr
  { l with filt := filt, taps := taps, llr := detect l.front lost (ys taps) (if l.damp then l.llr.map (fun v => v / 2) else l.llr) }

/-! ## The write path -/

/-- The symbols of a unit as the framer gives them (R119, R126): the 2T pattern of a preamble, the sync marks, the codeword and the
postamble. -/
def framed (fields : List (FieldKind × Nat)) (code : List Bool) : List Bool :=
  (fields.foldl (fun (x : List Bool × List Bool × Bool) f =>
    match f.1 with
    | .pre => (x.1 ++ (List.range f.2).map (fun k => decide (k % 4 < 2)), x.2.1, x.2.2)
    | .sync => (x.1 ++ Config.syncMark x.2.2, x.2.1, true)
    | .code => (x.1 ++ x.2.1.take f.2, x.2.1.drop f.2, x.2.2)
    | .post => (x.1 ++ Config.postamble, x.2.1, x.2.2)) ([], code, false)).1

/-- The index of a transition into the precompensation table (R133), bit 3 first: the symbols three and two positions before it, the
symbol after it, and its direction. A transition stands at the first symbol of its new sign, so that the symbol after it is the next
(DEDUCED: the symbols on its two sides are its direction). -/
def precompIndex (b3 b2 after up : Bool) : Nat :=
  (if b3 then 8 else 0) + (if b2 then 4 else 0) + (if after then 2 else 0) + (if up then 1 else 0)

/-- The transitions of symbols as written (R133): each moved by its entry of the table, in 1/256 symbol from the first symbol. -/
def transitions (table : List Int) (sym : List Bool) : List Int :=
  let at_ (k : Nat) : Bool := sym.getD k false
  (List.range sym.length).filterMap (fun k =>
    if k = 0 ∨ at_ k = at_ (k - 1) then none
    else some (256 * (k : Int) + table.getD (precompIndex (at_ (k - 3)) (at_ (k - 2)) (at_ (k + 1)) (at_ k)) 0))

/-- What a lane drives on `WDn_P/N` for a tile (R114, R119, R120, R133). -/
def Tile.written (t : Tile) (table : List Int) (fields : List (FieldKind × Nat)) : List Int :=
  let c := codeOf (t.modsel * 16)
  let info := bitsOf t.info
  transitions table (framed fields (info ++ Config.parity c.circ c.info c.par info))

end Sys2Proof.Machine
end

