-- ==== Sys2Proof/Machine/LaneOps.lean ====
section
/-! DEFINITION. What the sequencer, the channel and MOTION do to a lane: its units, its write gate, its trap causes,
its commands and its preamp port (03_read_write_channel.md, 05_track_sequencer.md). -/

namespace Sys2Proof.Machine
open Sys2Proof

/-- Lane `n`. -/
def State.lane (s : State) (n : Fin 4) : Lane := s.lanes[n]

/-- Changes lane `n`. -/
def State.onLane (n : Fin 4) (f : Lane → Lane) (s : State) : State :=
  { s with lanes := s.lanes.set n (f s.lanes[n]) }

/-- Actuator `a`. -/
def State.act (s : State) (a : Fin 4) : Act := s.acts[a]

/-- Changes actuator `a`. -/
def State.onAct (a : Fin 4) (f : Act → Act) (s : State) : State := { s with acts := s.acts.set a (f s.acts[a]) }

/-- The four lanes. -/
def allLanes : List (Fin 4) := [0, 1, 2, 3]

/-- The sequencer state of lane `n` (R185). -/
def State.mcs (s : State) (n : Fin 4) : Nat := s.get (F.MCS_STAT_state n)

/-- Microcode executes on lane `n`: RUNNING or TRAP. -/
def State.executing (s : State) (n : Fin 4) : Bool := s.mcs n == 3 || s.mcs n == 4

/-- The lane domain is fitted and runs. -/
def State.laneUp (s : State) (n : Fin 4) : Bool := s.fitted n && s.runs n

/-- Bits `lo` to `lo + w - 1` of a microword (R190). -/
def wordBits (m : BitVec 160) (lo w : Nat) : Nat := natBits m.toNat lo w

/-- Factory test mode: strap value 010b (R530). -/
def State.factory (s : State) : Bool := s.get F.CFG_STRAP_mode == 2

/-! ## Units -/

/-- The bytes of one unit of a MODSEL in 64-byte units (R119, R125, R126). -/
def unitSize (modsel : Nat) : Nat := if natBits modsel 6 2 = 0 then 257 else 65

/-- A MODSEL that R150 reserves. -/
def modselBad (m : Nat) : Bool :=
  natBits m 6 2 == 3 || natBits m 0 3 != 0 || (natBits m 6 2 == 0 && natBits m 4 2 == 3) ||
    (natBits m 6 2 != 0 && natBits m 4 2 != 0)

/-- The 64-byte units that a dual-clock FIFO of 72 KiB holds (R28). -/
def fifoRoom : Nat := 1152

/-- The units of the commands, in queue order, that `room` 64-byte units of FIFO hold whole. -/
def fifoUnits : List MediaCmd → Nat → Nat
  | [], _ => 0
  | c :: cs, room =>
    let n := if c.op = 1 ∨ c.op = 2 ∨ c.op = 4 then c.count else 0
    let k := room / unitSize c.modsel
    if k < n then k else n + fifoUnits cs (room - n * unitSize c.modsel)

/-- The 64-byte units of FIFO that the first `n` units of the commands take. -/
def fifoUsed : List MediaCmd → Nat → Nat
  | [], _ => 0
  | c :: cs, n =>
    let m := if c.op = 1 ∨ c.op = 2 ∨ c.op = 4 then c.count else 0
    if n ≤ m then n * unitSize c.modsel else m * unitSize c.modsel + fifoUsed cs (n - m)

/-- The stream DMA fills the write FIFO in queue order as far as it has room (R28, R29) beside what a firmware channel has put there. -/
def Lane.fillFifo (l : Lane) : Lane :=
  { l with wfifo := fifoUnits (l.cur.toList ++ l.queue) (fifoRoom - ceilDiv l.port.length 64) }

/-- The free bytes of the write FIFO. -/
def Lane.writeFree (l : Lane) : Nat := 64 * fifoRoom - (64 * fifoUsed (l.cur.toList ++ l.queue) l.wfifo + l.port.length)

/-- The write FIFO holds a whole unit that a firmware channel put there (R131). -/
def Lane.portUnit (l : Lane) (modsel : Nat) : Bool := decide (64 * unitSize modsel ≤ l.port.length)

/-- The 64-byte units in the read FIFO: those of the units whose outcome is not yet posted (R28). -/
def Lane.readFill (l : Lane) : Nat := sumOf l.posted (fun p => if p.loop then 0 else unitSize p.modsel)

/-- The read FIFO has room for a unit of a MODSEL; without it the FIFO holds the lane back (R29). -/
def Lane.readRoom (l : Lane) (modsel : Nat) : Bool := decide (l.readFill + unitSize modsel ≤ fifoRoom)

/-- The request of a lane's port (R432): of the write FIFO while more than 4 KiB of it are free, of the read FIFO while it holds at
least 4 KiB. -/
def Lane.portReq (l : Lane) (write : Bool) : Bool := if write then decide (4096 < l.writeFree) else decide (64 ≤ l.readFill)

/-- Puts the queue of lane `n` in place: its depth is MCSn_CMDQ.depth. -/
def State.setQueue (n : Fin 4) (q : List MediaCmd) (s : State) : State :=
  (s.onLane n (fun l => { l with queue := q }.fillFifo)).put (F.MCS_CMDQ_depth n) q.length

/-- Shows the current command in MCSn_CC0 to CC2 (R188). -/
def State.setCur (n : Fin 4) (c : Option MediaCmd) (s : State) : State :=
  let s := s.onLane n (fun l => { l with cur := c }.fillFifo)
  match c with
  | none => ((s.setReg (R.MCS_CC0 n) 0).setReg (R.MCS_CC1 n) 0).setReg (R.MCS_CC2 n) 0
  | some c =>
    let s := (((((s.put (F.MCS_CC0_valid n) 1).put (F.MCS_CC0_op n) c.op).put (F.MCS_CC0_surface n) c.surface).put
      (F.MCS_CC0_start n) c.start).put (F.MCS_CC0_qtr n) c.qtr).put (F.MCS_CC0_count n) c.count
    ((s.put (F.MCS_CC1_track n) c.track).put (F.MCS_CC2_modsel n) c.modsel).put (F.MCS_CC2_tag n) c.tag

/-- The first usable position of a mask at or after `p`, below 2,048. -/
def nextGood (mask : Nat) : Nat → Nat → Option Nat
  | 0, _ => none
  | fuel + 1, p => if 2048 ≤ p then none else if mask.testBit p then some p else nextGood mask fuel (p + 1)

/-- Sets POS, quarter and tile index (MCSn_TPOS). -/
def State.setPos (n : Fin 4) (pos qtr tidx : Nat) (s : State) : State :=
  ((s.put (F.MCS_TPOS_pos n) pos).put (F.MCS_TPOS_qtr n) qtr).put (F.MCS_TPOS_tidx n) tidx

/-- Returns media commands to BUF, which places or queues them again (R195, R227, R229). -/
def State.returnCmds (n : Fin 4) (cs : List MediaCmd) (s : State) : State :=
  { s with buf := { s.buf with work := s.buf.work.set n (cs.filter (fun c => c.count != 0) ++ s.buf.work[n]) } }

/-- The position and quarter of the first unit of the current command that is not complete (R221). -/
def State.firstOpen (s : State) (n : Fin 4) : Nat × Nat :=
  let l := s.lane n
  let pos := s.get (F.MCS_TPOS_pos n)
  let qtr := s.get (F.MCS_TPOS_qtr n)
  match l.unit with
  | some u => (u.pos, u.qtr)
  | none =>
    if !l.posDone then (pos, qtr)
    else
      let coast := (l.cur.map (fun c => c.op == 2)).getD false
      if coast && decide (qtr < 3) then (pos, qtr + 1)
      else ((nextGood ((l.cur.map (·.mask)).getD 0) 2048 (pos + 1)).getD pos, 0)

/-- What is left of the current command: its incomplete units. -/
def State.curLeft (s : State) (n : Fin 4) : Option MediaCmd :=
  (s.lane n).cur.map (fun c =>
    { c with
      start := (s.firstOpen n).1
      qtr := (s.firstOpen n).2
      units := c.units.drop (s.get (F.MCS_TPOS_tidx n)) })

/-- Returns the current and the queued commands to BUF. -/
def State.returnAll (n : Fin 4) (s : State) : State :=
  let cs := (s.curLeft n).toList ++ (s.lane n).queue
  ((s.returnCmds n cs).setQueue n []).setCur n none

/-- Ends the unit in progress or armed (R213, R214): a write unit stays at the head of the FIFO; a read unit that had
begun gets the outcome INCOMPLETE, posted to BUF with a reread. -/
def State.endUnit (n : Fin 4) (s : State) : State :=
  let l := s.lane n
  match l.unit with
  | none => s
  | some u =>
    let s := s.onLane n (fun l => { l with unit := none })
    let s := (s.put (F.LANE_STAT_wg n) 0).put (F.LANE_STAT_rg n) 0
    if u.begun && !u.write && !u.loop then (s.inc (F.LANE_INCCNT_count n)).onLane n (fun l => { l with outok := false, outCode := 5, outTa := !u.heard.ta.isEmpty })
    else s

/-! ## Traps and the write gate -/

/-- Latches trap cause `c` of lane `n` unless bit `m` of the executing word's WFMASK or MCSn_TRAPMASK masks it
(R206, R219). A sequencer that executes no microcode latches none but the harvest cause. -/
def State.latchTrap (n : Fin 4) (c : Nat) (m : Option Nat) (s : State) : State :=
  let wf := match m with
    | some b => (wordBits (s.lane n).word 40 8).testBit b
    | none => false
  let tm := decide (3 ≤ c) && (s.reg (R.MCS_TRAPMASK n)).toNat.testBit c
  if wf || tm || !(s.executing n) then s else s.putBit (F.MCS_STAT_pend n) (c - 1) true

/-- A write-unsafe event of lane `n` (R135, R215): `WGn` drops, the latch sets, LANEn_ERR records it, the unit being
written is invalid, and trap cause 2h latches unless WFMASK bit `m` masks its source. -/
def State.writeUnsafe (n : Fin 4) (m : Option Nat) (s : State) : State :=
  let s := s.onLane n (fun l => { l with wunsafe := true })
  let s := if s.flag (F.LANE_STAT_wg n) then
      let s := (s.put (F.LANE_STAT_wg n) 0).raise (F.LANE_ERR_wunsafe n)
      if ((s.lane n).unit.map (·.write)).getD false then s.endUnit n else s
    else s
  s.latchTrap n 2 m

/-- The retune of a synthesizer begins: it is not locked until SYNTH_LOCK_ACQUIRED (R32). -/
def State.retuneNow (n : Fin 4) (s : State) : State :=
  (s.onLane n (fun l => { l with tune := false, retune := true })).put (F.LANE_STAT_lock n) 0

/-! ## The preamp port -/

/-- Puts a strobe or set-load frame in the queue in front of the port (R200). -/
def State.queueFrame (n : Fin 4) (f : PaFrame) (s : State) : State :=
  s.onLane n (fun l => { l with pq := l.pq ++ [f] })

/-- The head of a surface (GEO's head map, R100). -/
def State.headOf (s : State) (surface : Nat) : Nat := (s.geo.surfaces.getD surface (0, 0)).2

/-- The lane that GEO assigns a surface to. -/
def State.laneOf (s : State) (surface : Nat) : Option Nat := (s.geo.surfaces[surface]?).map (·.1)

/-- The ring of a track: the rings rise with the track, each from its first track. -/
def State.ringOf (s : State) (track : Nat) : Nat := (s.geo.rings.filter (fun r => r.first ≤ track)).length - 1

/-- The lane is out of the writing of coast tiles and of the budget: not fitted, failed, in FAULT, servo-lost, or its
domain not running (R229, R247, R336, R516), or its microcode would not load at start-up or is reloaded (R554, R581). -/
def State.inService (s : State) (n : Fin 4) : Bool :=
  s.fitted n && s.boot.reloads.getD n 0 != 2 && !(s.boot.relo.contains n.val) && s.dom n != 4 && s.mcs n != 5 && !(s.lane n).lost && s.dom 5 != 4 &&
    !(s.integ.failed.contains n.val) && !(s.spn.fly.contains n.val)

/-- The saltern bands of a lane in GEO's order: surface, number on that surface, first track of the log, slots (R71). -/
def State.saltBands (s : State) (lane : Nat) : List (Nat × Nat × Nat × Nat) :=
  let mine := s.geo.saltern.filter (fun b => b.1 == lane)
  mine.zipIdx.map (fun b => (b.1.2.1, ((mine.take b.2).filter (fun x => x.2.1 == b.1.2.1)).length, b.1.2.2.1, b.1.2.2.2))

/-! ## Working registers and sets -/

/-- A 16-bit two's-complement value of the set RAM at byte `o` of set `i`. -/
def Lane.set16 (l : Lane) (i o : Nat) : Int :=
  sInt 16 (natBits (cget (fun _ => (0 : Word)) l.setRam (128 * i + o / 4)).toNat (8 * (o % 4)) 16)

/-- A byte of the set RAM. -/
def Lane.set8 (l : Lane) (i o : Nat) : Nat :=
  natBits (cget (fun _ => (0 : Word)) l.setRam (128 * i + o / 4)).toNat (8 * (o % 4)) 8

/-- The 48 equaliser taps of a set (R145): as the table's offsets leave 24 of 16 bits for each reader. -/
def Lane.setTaps (l : Lane) (i : Nat) : List Int := (List.range 48).map (fun k => l.set16 i (0x10 + 2 * k))

/-- The other working registers that set `i` gives (R145, R146). -/
def Lane.setFront (l : Lane) (i : Nat) : Front :=
  let b := l.set8 i
  { boost := (b 4 % 32, b 5 % 32), peak := (b 4 / 32, b 5 / 32), vga := (b 6, b 7), trim := (sInt 8 (b 8), sInt 8 (b 9))
    base := l.setTaps i
    target := (List.range 4).map (fun k => l.set16 i (0x70 + 2 * k))
    noise := (List.range 16).map (fun k => (l.set16 i (0x80 + 8 * k), l.set16 i (0x82 + 8 * k), l.set16 i (0x84 + 8 * k), l.set16 i (0x86 + 8 * k)))
    precomp := (List.range 16).map (fun k => sInt 8 (b (0x100 + k)))
    version := (cget (fun _ => (0 : Word)) l.setRam (128 * i + 126)).toNat }

/-- The frames that send a set's seven preamplifier values (R145, R146), in their order in the set. -/
def Lane.setFrames (l : Lane) (i : Nat) : List PaFrame :=
  (List.range 7).map (fun k => { rd := false, addr := Config.preampReg k, data := l.set8 i (0x110 + k), cmd := false })

/-! ## The head and the position counter -/

/-- The 16 bits of a frame of the preamp port (R142): direction, address and, of a write, data. -/
def PaFrame.bits (f : PaFrame) : BitVec 16 :=
  BitVec.ofNat 16 ((if f.rd then 2 ^ 15 else 0) + f.addr % 128 * 2 ^ 8 + (if f.rd then 0 else f.data % 256))

/-- `PASENn` is high for a frame (R142). -/
def Lane.pasen (l : Lane) : Bool := l.pcur.isSome

/-- The surface under the head that lane `n`'s preamplifier has selected (R100), by GEO's head map. -/
def State.surfaceUnder (s : State) (n : Fin 4) : Option Nat :=
  s.geo.surfaces.findIdx? (fun x => x.1 == n.val && x.2 == s.acts[n].head)

/-- The surface and track under the head of lane `n`: the track that its actuator follows. -/
def State.under (s : State) (n : Fin 4) : Nat × Nat := ((s.surfaceUnder n).getD s.geo.surfaces.length, s.acts[n].target)

/-- The ring of the track under the head of lane `n`. -/
def State.ringUnder (s : State) (n : Fin 4) : Ring :=
  s.geo.rings.getD (s.ringOf s.acts[n].target) { first := 0, symbols := 0, wedge := 0, slots := [], skew := 0 }

/-- The preamplifier selects a head; the position counter is realigned after a head switch (R211). -/
def State.selectHead (n : Fin 4) (h : Nat) (s : State) : State :=
  if s.acts[n].head = h then s
  else (s.onLane n (fun l => { l with align := true })).onAct n (fun a => { a with head := h })

/-- The head is in a wedge, as far as the position counter knows. -/
def State.inWedge (s : State) (n : Fin 4) : Bool := !(s.lane n).align && (s.ringUnder n).inWedge ((s.lane n).sym % (s.ringUnder n).symbols)

/-- The symbols of a word clock: 8, or 4 in coast half-rate mode (R127). -/
def State.perClock (s : State) (n : Fin 4) : Nat := if s.flag (F.LANE_STAT_half n) then 4 else 8

/-- `k` symbols pass under the head of lane `n` (R211): an armed unit whose start they pass is due, and the rest of one that is due
grows less. -/
def State.roll (n : Fin 4) (k : Nat) (s : State) : State :=
  let r := s.ringUnder n
  let x := (s.lane n).sym
  if (s.lane n).align || r.total = 0 then s
  else
    s.onLane n (fun l => { l with
      sym := (x + k) % r.symbols
      unit := l.unit.map (fun u =>
        let a := unitStart u.modsel u.pos u.qtr
        if u.due then { u with left := u.left - (r.usable (x + k) - r.usable x) }
        else if r.passed a x < r.passed a (x + k) then
          { u with due := true, left := unitLen u.modsel - (r.usable (x + k) - a) % r.total }
        else u) })

/-- The head is at the start of position POS in this word clock (R193). -/
def State.slotAt (s : State) (n : Fin 4) (pos qtr modsel : Nat) : Bool :=
  let r := s.ringUnder n
  let a := unitStart modsel pos qtr
  let x := (s.lane n).sym
  !(s.lane n).align && decide (0 < r.total ∧ r.passed a x < r.passed a (x + s.perClock n))

end Sys2Proof.Machine
end

