-- ==== Sys2Proof/Machine/MapOps.lean ====
section
/-! DEFINITION. MAP (02_media_and_map.md): the extent map and its cache, zones, placement, the saltern overlay, the
journal, checkpoints and the keel. -/

namespace Sys2Proof.Machine
open Sys2Proof

/-- Changes MAP. -/
def State.onMap (f : MapSt → MapSt) (s : State) : State := { s with map := f s.map }

/-- Changes the media. -/
def State.onMedia (f : Media → Media) (s : State) : State := { s with media := f s.media }

/-- Changes the buffer manager. -/
def State.onBuf (f : Buf → Buf) (s : State) : State := { s with buf := f s.buf }

/-- A field of a 64-bit entry. -/
def bits64 (v : BitVec 64) (lo w : Nat) : Nat := natBits v.toNat lo w

/-! ## Dirty counts -/

/-- KiB of journal records not yet on media (R80, R339). -/
def State.journalKib (s : State) : Nat := ceilDiv (32 * s.map.jrnl.length) 1024

/-- Blocks of the write pool in a state. -/
def State.blksIn (s : State) (st : BlkSt) : Nat := (s.buf.blks.filter (fun b => b.st == st)).length

/-- The budget rule of R341 does not act: a harvest, a diapause or a commit is in progress. -/
def State.draining (s : State) : Bool := s.harvesting || s.diapause || s.hrv.commit != 0

/-- HRV_ERR.over while the dirty count exceeds the budget (R341). -/
def State.checkOver (s : State) : State :=
  if s.get F.HRV_BUDGET_kib < s.get F.HRV_DIRTY_kib && !s.draining && !(s.flag F.HRV_ERR_over) then s.raise F.HRV_ERR_over
  else s

/-- Brings HRV_DIRTY and HRV_WTDIRTY to what the write pool and the journal hold (R339, R340). -/
def State.syncDirty (s : State) : State :=
  let d := 4 * s.blksIn .dirty + s.journalKib
  let w := 4 * s.blksIn .wt
  let s := if s.get F.HRV_DIRTY_kib = d then s else s.setWord 6 d
  let s := if s.get F.HRV_WTDIRTY_kib = w then s else s.setWord 7 w
  let s := { s with meas := { s.meas with dirty := max s.meas.dirty d } }
  s.checkOver

/-! ## Zones -/

/-- The zones of NSID 1. -/
def zoneCount : Nat := 131072

/-- The descriptor of zone `z`. -/
def State.zone (s : State) (z : Nat) : Zone := cget (fun _ => Zone.fresh) s.map.zones z

/-- Changes the descriptor of zone `z`. -/
def State.onZone (z : Nat) (f : Zone → Zone) (s : State) : State :=
  s.onMap (fun m => { m with zones := cset (fun _ => Zone.fresh) z (f (s.zone z)) m.zones })

/-- A zone descriptor as a journal value (R60, R78, R436): state, code rate, shuffle flag, a descriptor bound, generation, write
pointer, and bytes 0 to 2 of the descriptor, whose others are zero; the spec gives the value's 64 bits no layout (DESIGN CHOICE). -/
def Zone.pack (z : Zone) : BitVec 64 :=
  let d := z.desc.getD []
  BitVec.ofNat 64 (z.st + z.rate * 2 ^ 4 + (if z.shuf then 2 ^ 6 else 0) + (if z.desc.isSome then 2 ^ 7 else 0) + z.gen * 2 ^ 8 +
    z.wp * 2 ^ 16 + (byteAt d 0).toNat * 2 ^ 40 + (byteAt d 1).toNat * 2 ^ 48 + (byteAt d 2).toNat * 2 ^ 56)

/-- The zone descriptor that a journal value gives. -/
def Zone.unpack (v : BitVec 64) : Zone :=
  { st := bits64 v 0 4, wp := bits64 v 16 17, gen := bits64 v 8 8, rate := bits64 v 4 2
    desc := if v.getLsbD 7 then some (leBytes 3 (bits64 v 40 24) ++ List.replicate 5 0) else none, last := 0 }

/-! ## Geometry -/

/-- The slots of a track of zoned data at a code rate. -/
def State.slotsAt (s : State) (track rate : Nat) : Nat :=
  ((s.geo.rings[s.ringOf track]?).map (fun r => r.slots.getD rate 0)).getD 0

/-- The key of a physical position. -/
def physKey (surface track pos q : Nat) : Nat := ((surface * 4194304 + track) * 2048 + pos) * 4 + q

/-- The surface, track and position of a key. -/
def keySurface (k : Nat) : Nat := k / 4 / 2048 / 4194304
def keyTrack (k : Nat) : Nat := k / 4 / 2048 % 4194304
def keyPos (k : Nat) : Nat := k / 4 % 2048

/-- A position is defective (R54). -/
def State.defective (s : State) (surface track pos : Nat) : Bool := s.map.defects.contains (physKey surface track pos 0)

/-- The good positions of a track with `n` positions. -/
def State.goodSlots (s : State) (surface track n : Nat) : List Nat :=
  (List.range n).filter (fun p => !(s.defective surface track p))

/-- The good-position mask of a track (R188). -/
def State.goodMask (s : State) (surface track n : Nat) : Nat :=
  (s.goodSlots surface track n).foldl (fun m p => m + 2 ^ p) 0

/-- The band that begins at a track is written toward lower tracks (R51). -/
def State.bandDown (s : State) (surface first : Nat) : Bool := s.geo.down.contains (surface, first)

/-- The track after `track` in the write order of a band. -/
def nextTrack (down : Bool) (track : Nat) : Nat := if down then track - 1 else track + 1

/-- The slots that a zoned band provides (R53). -/
def State.bandSlots (s : State) : Nat := if s.variant.lanes = 4 then 4224 else 8320

/-- The `k`-th good slot in write order (R58) among the first `lim` slots from the start of `track`. -/
def State.walk (s : State) (surface rate : Nat) (down : Bool) : Nat → Nat → Nat → Nat → Option (Nat × Nat)
  | 0, _, _, _ => none
  | fuel + 1, lim, track, k =>
    let n := s.slotsAt track rate
    let good := s.goodSlots surface track (min n lim)
    if k < good.length then some (track, good.getD k 0)
    else if n = 0 ∨ lim ≤ n then none
    else s.walk surface rate down fuel (lim - n) (nextTrack down track) (k - good.length)

/-- The tracks of a band: those that hold the slots of R53 at code rate 0.86. -/
def State.bandTracks (s : State) (track : Nat) : Nat :=
  let n := s.slotsAt track 0
  if n = 0 then 0 else ceilDiv s.bandSlots n

/-- A track lies in the band of a surface that begins at `first`. -/
def State.inBand (s : State) (surface first track : Nat) : Bool :=
  if s.bandDown surface first then decide (track ≤ first ∧ first - track < s.bandTracks first)
  else decide (first ≤ track ∧ track - first < s.bandTracks first)

/-- The `k`-th good slot of a zoned band at a code rate. -/
def State.goodAt (s : State) (surface rate first k : Nat) : Option (Nat × Nat) :=
  s.walk surface rate (s.bandDown surface first) s.bandSlots s.bandSlots first k

/-- The good slots of a band that precede a slot of `track` in write order, from track `cur` of the band on. -/
def State.goodBefore (s : State) (surface rate : Nat) (down : Bool) (track slot : Nat) : Nat → Nat → Nat → Option Nat
  | 0, _, _ => none
  | fuel + 1, lim, cur =>
    let n := s.slotsAt cur rate
    if cur = track then some (s.goodSlots surface cur (min slot lim)).length
    else if n = 0 ∨ lim ≤ n then none
    else (s.goodBefore surface rate down track slot fuel (lim - n) (nextTrack down cur)).map
      (· + (s.goodSlots surface cur (min n lim)).length)

/-- Where a slot stands among the good slots of its band. -/
def State.goodIndex (s : State) (surface rate first track slot : Nat) : Option Nat :=
  s.goodBefore surface rate (s.bandDown surface first) track slot s.bandSlots s.bandSlots first

/-- The zoned bands of a surface, stripes and spare bands, by their first tracks. -/
def State.zonedBands (s : State) (surface : Nat) : List Nat :=
  (s.geo.stripes.filter (fun x => x.2.2.1 == surface)).map (·.2.2.2) ++ (s.geo.spares.filter (fun x => x.2.1 == surface)).map (·.2.2)

/-- The zoned band in which a track of a surface lies. -/
def State.bandOf (s : State) (surface track : Nat) : Option Nat := (s.zonedBands surface).find? (fun f => s.inBand surface f track)

/-- The bands of a surface (R50), each by its lowest and highest track. -/
def State.bandsOf (s : State) (surface : Nat) : List (Nat × Nat) :=
  let long (first slots : Nat) : Nat × Nat := (first, first + (ceilDiv slots (max 1 (s.slotsAt first 0)) - 1))
  (s.zonedBands surface).map (fun f => if s.bandDown surface f then (f + 1 - s.bandTracks f, f) else (f, f + s.bandTracks f - 1)) ++
    (((s.geo.conv ++ s.geo.convSpare).filter (fun x => x.2.1 == surface)).map (fun x => (x.2.2.1, x.2.2.1 + x.2.2.2 - 1))) ++
    (((s.geo.saltern ++ s.geo.journal).filter (fun x => x.2.1 == surface)).map (fun x => long x.2.2.1 x.2.2.2)) ++
    ((s.geo.ckpt.filter (fun x => x.2.2.1 == surface)).map (fun x => long x.2.2.2 8704))

/-! ## Extent entries -/

/-- The fields of an entry (R65). -/
def entLane (v : BitVec 64) : Nat := bits64 v 62 2
def entSurface (v : BitVec 64) : Nat := bits64 v 57 5
def entTrack (v : BitVec 64) : Nat := bits64 v 35 22
def entSlot (v : BitVec 64) : Nat := bits64 v 26 9
def entState (v : BitVec 64) : Nat := bits64 v 23 3
def entShf (v : BitVec 64) : Bool := v.getLsbD 22
def entGen (v : BitVec 64) : Nat := bits64 v 14 8

/-- An entry of state `st`. -/
def mkEntry (lane surface track slot st : Nat) (shf : Bool) (gen : Nat) : BitVec 64 :=
  BitVec.ofNat 64 (lane * 2 ^ 62 + surface * 2 ^ 57 + track * 2 ^ 35 + slot * 2 ^ 26 + st * 2 ^ 23 +
    (if shf then 2 ^ 22 else 0) + gen * 2 ^ 14)

/-- An entry with another state. -/
def withState (v : BitVec 64) (st : Nat) : BitVec 64 :=
  mkEntry (entLane v) (entSurface v) (entTrack v) (entSlot v) st (entShf v) (entGen v)

/-- The entry is bad (R66). -/
def State.entryBad (s : State) (v : BitVec 64) : Bool :=
  let st := entState v
  decide (5 ≤ st) || bits64 v 0 14 != 0 ||
    ((st == 1 || st == 2 || st == 3) && s.laneOf (entSurface v) != some (entLane v))

/-! ## The cache -/

/-- Sets of the cache. -/
def cacheSets : Nat := 8192

/-- A set as the cache leaves it when invalid. -/
def MSet.empty : MSet := { ways := List.replicate 8 none, plru := 0 }

/-- A set of the cache. -/
def State.mset (s : State) (i : Nat) : MSet := cget (fun _ => MSet.empty) s.map.cache i

/-- Changes a set of the cache. -/
def State.onMset (i : Nat) (f : MSet → MSet) (s : State) : State :=
  s.onMap (fun m => { m with cache := cset (fun _ => MSet.empty) i (f (s.mset i)) m.cache })

/-- The way of a set that holds a tag. -/
def MSet.find (m : MSet) (tag : Nat) : Option Nat :=
  (List.range 8).find? (fun w => ((m.ways.getD w none).map (fun l => l.tag == tag)).getD false)

/-- The pseudo-LRU bits after an access to way `w`: each node on its path points away from it. -/
def plruTouch (p w : Nat) : Nat :=
  let b2 := w.testBit 2
  let b1 := w.testBit 1
  let b0 := w.testBit 0
  let p := withBit p 0 (!b2)
  let p := withBit p (if b2 then 2 else 1) (!b1)
  withBit p (3 + w / 2) (!b0)

/-- The way that pseudo-LRU replaces. -/
def plruVictim (p : Nat) : Nat :=
  let b2 := p.testBit 0
  let b1 := p.testBit (if b2 then 2 else 1)
  let h := (if b2 then 2 else 0) + (if b1 then 1 else 0)
  2 * h + (if p.testBit (3 + h) then 1 else 0)

/-- An entry as the HBM holds it. -/
def State.hbmEntry (s : State) (x : Nat) : BitVec 64 := cget (fun _ => (0 : BitVec 64)) s.map.hbm x

/-- Writes an entry in the HBM. -/
def State.setHbmEntry (x : Nat) (v : BitVec 64) (s : State) : State :=
  s.onMap (fun m => { m with hbm := cset (fun _ => (0 : BitVec 64)) x v m.hbm })

/-- Writes a line in the HBM. -/
def State.setHbmLine (line : Nat) (es : List (BitVec 64)) (s : State) : State :=
  doAll es.zipIdx (fun e s => s.setHbmEntry (line * 8 + e.2) e.1) s

/-- The write-back buffer goes to the HBM (R86). -/
def State.drainBack (s : State) : State :=
  (doAll s.map.wback (fun l s => s.setHbmLine l.1 l.2) s).onMap (fun m => { m with wback := [] })

/-- A dirty line enters the write-back buffer of eight lines (R86), whose oldest makes room. -/
def State.writeBack (line : Nat) (es : List (BitVec 64)) (s : State) : State :=
  let s := match s.map.wback with
    | l :: rest => if rest.length < 7 then s else (s.setHbmLine l.1 l.2).onMap (fun m => { m with wback := rest })
    | [] => s
  s.onMap (fun m => { m with wback := m.wback ++ [(line, es)] })

/-- A line as the HBM and the write-back buffer hold it. -/
def State.memLine (s : State) (line : Nat) : List (BitVec 64) :=
  (((s.map.wback.reverse.find? (fun l => l.1 == line)).map (·.2))).getD ((List.range 8).map (fun k => s.hbmEntry (line * 8 + k)))

/-- The line of the cache that holds entry `x`: its set and way. -/
def State.resident (s : State) (x : Nat) : Option (Nat × Nat) :=
  let i := x / 8 % cacheSets
  ((s.mset i).find (x / 65536)).map (fun w => (i, w))

/-- The value of an extent's entry: the resident line's, else that of the write-back buffer or the HBM. -/
def State.entry (s : State) (x : Nat) : BitVec 64 :=
  match s.resident x with
  | some (i, w) => (((s.mset i).ways.getD w none).map (fun l => l.ents.getD (x % 8) 0)).getD 0
  | none => (s.memLine (x / 8)).getD (x % 8) 0

/-- Installs a line, writing a dirty victim back first (R86). The lowest invalid way is filled first, and node 0 of the tree is its
root, nodes 1 and 2 its children and 3 to 6 the leaves' parents from the lowest ways up, each pointing at the half to replace next
(DESIGN CHOICE: R86 says only tree pseudo-LRU). -/
def State.install (line : Nat) (s : State) : State :=
  let i := line % cacheSets
  let m := s.mset i
  let w := ((List.range 8).find? (fun w => (m.ways.getD w none).isNone)).getD (plruVictim m.plru)
  let s := match m.ways.getD w none with
    | some l => if l.dirty then (s.writeBack (l.tag * cacheSets + i) l.ents).put F.MAP_CSTAT_dirty (s.get F.MAP_CSTAT_dirty - 1) else s
    | none => s
  let l : MLine := { tag := line / cacheSets, dirty := false, ents := s.memLine line }
  s.onMset i (fun m => { ways := m.ways.set w (some l), plru := plruTouch m.plru w })

/-- The fill of a line lands (R87, R90): the line is installed, or discarded as stale. -/
def State.landLine (line : Nat) (s : State) : State :=
  match s.map.fills.find? (fun f => f.1 == line) with
  | none => s
  | some f =>
    let rest := s.map.fills.filter (fun f => f.1 != line)
    let s := (s.onMap (fun m => { m with fills := rest })).put F.MAP_CSTAT_fill (if rest.isEmpty then 0 else 1)
    if f.2 then s.inc F.MAP_STALECNT_count else s.install line

/-- The oldest fill lands. -/
def State.landFill (s : State) : State :=
  match s.map.fills with
  | [] => s
  | (line, _) :: _ => s.landLine line

/-- A fill of a line from the HBM starts, in ENABLED (R87, R88). -/
def State.startFill (line : Nat) (s : State) : State :=
  if s.get F.MAP_CSTAT_state = 1 then (s.onMap (fun m => { m with fills := m.fills ++ [(line, false)] })).put F.MAP_CSTAT_fill 1 else s

/-- A lookup of entry `x` (R86 to R88): it waits for a fill of its line in flight, which then lands; the counters and the replacement
state follow, and a miss starts a fill while the cache is enabled. -/
def State.lookup (x : Nat) (s : State) : State :=
  let s := s.landLine (x / 8)
  match s.resident x with
  | some (i, w) => (s.onMset i (fun m => { m with plru := plruTouch m.plru w })).inc F.MAP_HITCNT_count
  | none => (s.inc F.MAP_MISSCNT_count).startFill (x / 8)

/-- An update of entry `x` (R87, R88): it waits for a fill of its line in flight; in ENABLED a line that misses is filled, and the
line written and marked dirty; otherwise the HBM is written, with a resident line. -/
def State.setEntry (x : Nat) (v : BitVec 64) (s : State) : State :=
  let s := s.landLine (x / 8)
  let en := s.get F.MAP_CSTAT_state == 1
  let s := if en && (s.resident x).isNone then s.install (x / 8) else s
  match s.resident x with
  | none => s.drainBack.setHbmEntry x v
  | some (i, w) =>
    let old := ((s.mset i).ways.getD w none)
    let was := (old.map (·.dirty)).getD false
    let new := old.map (fun l => { l with dirty := en, ents := l.ents.set (x % 8) v })
    let s := s.onMset i (fun m => { ways := m.ways.set w new, plru := plruTouch m.plru w })
    let s := if en then s else s.drainBack.setHbmLine (x / 8) ((new.map (·.ents)).getD [])
    if en && !was then s.inc F.MAP_CSTAT_dirty
    else if !en && was then s.put F.MAP_CSTAT_dirty (s.get F.MAP_CSTAT_dirty - 1)
    else s

/-- Every fill in flight becomes stale (R90). -/
def State.staleFills (s : State) : State :=
  s.onMap (fun m => { m with fills := m.fills.map (fun f => (f.1, true)) })

/-- Every dirty line is written back and every line invalidated (R89). -/
def State.cleanCache (s : State) : State :=
  let s := doAll s.map.cache (fun e s =>
    doAll (e.2.ways.filterMap id) (fun l s => if l.dirty then s.setHbmLine (l.tag * cacheSets + e.1) l.ents else s) s) s.drainBack
  (s.onMap (fun m => { m with cache := [] })).put F.MAP_CSTAT_dirty 0

/-- The lines of the cache that are valid. -/
def State.cachedLines (s : State) : List Nat :=
  s.map.cache.flatMap (fun (e : Nat × MSet) => e.2.ways.filterMap (fun o => o.map (fun (l : MLine) => l.tag * cacheSets + e.1)))

/-- The extents whose entries the cache, the write-back buffer or the HBM hold, or that have a place not yet recorded. -/
def State.extents (s : State) : List Nat :=
  let lines := s.map.wback.map (·.1) ++ s.cachedLines
  let all : List Nat := s.map.hbm.map (·.1) ++ lines.flatMap (fun l => (List.range 8).map (l * 8 + ·)) ++ s.map.placed.map (·.1)
  all.eraseDups

/-! ## The saltern and the overlay -/

/-- Buckets of the overlay table. -/
def ovlBuckets : Nat := 262144

/-- An entry of the overlay table. -/
def State.ovlAt (s : State) (i : Nat) : BitVec 64 × BitVec 64 := cget (fun _ => ((0 : BitVec 64), (0 : BitVec 64))) s.map.ovl i

/-- Writes an entry of the overlay table. -/
def State.setOvl (i : Nat) (v : BitVec 64 × BitVec 64) (s : State) : State :=
  s.onMap (fun m => { m with ovl := cset (fun _ => ((0 : BitVec 64), (0 : BitVec 64))) i v m.ovl })

/-- The fields of an overlay entry (R74, R349): use, the 31-bit key of the tile, generation, mask, namespace, harvest
sequence. -/
def ovlUse (e : BitVec 64 × BitVec 64) : Nat := bits64 e.1 62 2
def ovlKey (e : BitVec 64 × BitVec 64) : Nat := bits64 e.1 31 31
def ovlGen (e : BitVec 64 × BitVec 64) : Nat := bits64 e.1 23 8
def ovlMask (e : BitVec 64 × BitVec 64) : Nat := bits64 e.1 19 4
def ovlNs (e : BitVec 64 × BitVec 64) : Nat := if e.2.getLsbD 36 then 2 else 1
def ovlHseq (e : BitVec 64 × BitVec 64) : Nat := bits64 e.2 0 32

/-- The key of the tile, or of the aligned group of four blocks, that holds block `lba`. -/
def tileKey (ns lba : Nat) : Nat := if ns = 2 then lba / 4 * 4 else lba / 4

/-- Word 0 of an overlay entry. -/
def ovlW0 (use key gen mask : Nat) : BitVec 64 :=
  BitVec.ofNat 64 (use * 2 ^ 62 + key * 2 ^ 31 + gen * 2 ^ 23 + mask * 2 ^ 19)

/-- Word 1 of an overlay entry. -/
def ovlW1 (lane surface band slot ns hseq : Nat) : BitVec 64 :=
  BitVec.ofNat 64 (lane * 2 ^ 62 + surface * 2 ^ 57 + band * 2 ^ 53 + slot * 2 ^ 37 + (if ns = 2 then 2 ^ 36 else 0) +
    hseq)

/-- The live entries of a tile with a generation, by probing from the home bucket to the first with an empty entry
(R75). -/
def State.probe (s : State) (ns key gen : Nat) : Nat → Nat → List (Nat × (BitVec 64 × BitVec 64))
  | 0, _ => []
  | fuel + 1, b =>
    let es := (List.range 4).map (fun k => (4 * b + k, s.ovlAt (4 * b + k)))
    let hit := es.filter (fun e => ovlUse e.2 == 1 && ovlKey e.2 == key && ovlGen e.2 == gen && ovlNs e.2 == ns)
    if es.any (fun e => ovlUse e.2 == 0) then hit else hit ++ s.probe ns key gen fuel ((b + 1) % ovlBuckets)

/-- The live overlay entries of a tile. -/
def State.overlay (s : State) (ns key gen : Nat) : List (Nat × (BitVec 64 × BitVec 64)) :=
  s.probe ns key gen ovlBuckets (key / 128 % ovlBuckets)

/-- The first empty or deleted entry in the probe order (R77). -/
def State.ovlRoom (s : State) : Nat → Nat → Option Nat
  | 0, _ => none
  | fuel + 1, b =>
    match (List.range 4).find? (fun k => ovlUse (s.ovlAt (4 * b + k)) == 0 || ovlUse (s.ovlAt (4 * b + k)) == 2) with
    | some k => some (4 * b + k)
    | none => s.ovlRoom fuel ((b + 1) % ovlBuckets)

/-- A harvest sequence number is newer than another (R76). -/
def newer (a b : Nat) : Bool := let d := (a + 2 ^ 32 - b) % 2 ^ 32; decide (1 ≤ d ∧ d < 2 ^ 31)

/-- The log of a saltern band. -/
def State.saltLog (s : State) (lane surface band : Nat) : Option SaltBand :=
  s.map.salt.find? (fun b => b.lane == lane && b.surface == surface && b.band == band)

/-- The occupied slots of a band (R71): those from the tail to the fill pointer that are not released. -/
def SaltBand.held (b : SaltBand) : Nat := b.occ - b.rel.length

/-- The occupied slots of a lane. -/
def State.saltOcc (s : State) (lane : Nat) : Nat := sumOf (s.map.salt.filter (fun b => b.lane == lane)) SaltBand.held

/-- The slots of a lane's saltern bands. -/
def State.saltSlots (s : State) (lane : Nat) : Nat := sumOf (s.geo.saltern.filter (fun b => b.1 == lane)) (fun b => b.2.2.2)

/-- The slots of a lane that a harvest may still take: three quarters of all less the occupied (R72). -/
def State.saltRoom (s : State) (lane : Nat) : Nat := 3 * s.saltSlots lane / 4 - s.saltOcc lane

/-- Shows the saltern occupancy and free space (R72), and the live overlay entries. -/
def State.syncSalt (s : State) : State :=
  let free := (allLanes.filter s.inService).map (fun n => s.saltRoom n.val)
  let s := doAll s.lanesFitted (fun n => State.put (F.MAP_SALTOCC_slots n) (s.saltOcc n)) s
  let s := s.put F.MAP_SALTFREE_slots (free.foldl (· + ·) 0 - free.foldl max 0)
  s.put F.MAP_RETPEND_tiles (s.map.ovl.filter (fun e => ovlUse e.2 == 1)).length

/-- The log has room at its fill pointer: one slot stays free, so that equal pointers mean an empty log (DESIGN CHOICE). -/
def SaltBand.room (b : SaltBand) : Bool := decide (b.occ + 1 < b.slots)

/-- The tail of a log advances over released slots contiguous with it (R71, R95). -/
def SaltBand.advance (b : SaltBand) : SaltBand :=
  let n := b.slots
  let run := ((List.range (min b.occ b.rel.length)).takeWhile (fun k => b.rel.contains ((b.tail + k) % n))).length
  let gone := (List.range run).map (fun k => (b.tail + k) % n)
  { b with tail := (b.tail + run) % n, occ := b.occ - run, rel := b.rel.filter (fun x => !gone.contains x) }

/-- The log after the release of slot `slot`, which lies from its tail to its fill pointer. -/
def SaltBand.release (b : SaltBand) (slot : Nat) : SaltBand :=
  if b.rel.contains slot || decide (b.slots = 0 ∨ b.slots ≤ slot ∨ b.occ ≤ (slot + b.slots - b.tail) % b.slots) then b
  else { b with rel := slot :: b.rel }.advance

/-- Releases the saltern slot of an overlay entry's word 1. -/
def State.releaseSlot (w1 : BitVec 64) (s : State) : State :=
  (s.onMap (fun m => { m with salt := m.salt.map (fun b =>
    if b.lane == bits64 w1 62 2 && b.surface == bits64 w1 57 5 && b.band == bits64 w1 53 4 then b.release (bits64 w1 37 16)
    else b) })).syncSalt

/-- The saltern band with room that lies nearest to a track (R71, R276), of equally near ones the surface under the head first: surface,
number, first track of its log, and its slots. -/
def State.saltNear (s : State) (n : Fin 4) (at_ : Nat) : Option (Nat × Nat × Nat × Nat) :=
  let bands := (s.saltBands n.val).filter (fun b => ((s.saltLog n.val b.1 b.2.1).map SaltBand.room).getD true)
  let dist (b : Nat × Nat × Nat × Nat) : Nat := 2 * (max b.2.2.1 at_ - min b.2.2.1 at_) + (if s.surfaceUnder n = some b.1 then 0 else 1)
  bands.foldl (fun best b => match best with
    | none => some b
    | some c => if dist b < dist c then some b else some c) none

/-- Where slot `slot` of a saltern band lies: track and position. -/
def State.saltPlace (s : State) (lane sf band slot : Nat) : Option (Nat × Nat) :=
  match (s.geo.saltern.filter (fun b => b.1 == lane && b.2.1 == sf))[band]? with
  | none => none
  | some (_, _, tr, _) => if s.slotsAt tr 0 = 0 then none else some (tr + slot / s.slotsAt tr 0, slot % s.slotsAt tr 0)

/-- The saltern slot at a place, by the band whose log holds its track: band and slot. -/
def State.saltSlotAt (s : State) (p : Place) : Option (Nat × Nat) :=
  let bands := (s.geo.saltern.filter (fun b => b.1 == p.lane && b.2.1 == p.surface)).zipIdx
  (bands.find? (fun b => decide (b.1.2.2.1 ≤ p.track ∧ (p.track - b.1.2.2.1) * s.slotsAt b.1.2.2.1 0 + p.slot < b.1.2.2.2))).map
    (fun b => (b.2, (p.track - b.1.2.2.1) * s.slotsAt b.1.2.2.1 0 + p.slot))

/-! ## Media commands of MAP -/

/-- MODSEL of a zone's tiles, of coast tiles and of conventional sectors (R150). -/
def tileModsel (rate : Nat) : Nat := rate * 16
def coastModsel : Nat := 64
def sectorModsel : Nat := 128

/-- Appends a unit to the work of a lane: it joins the last command of the lane if it continues it on the same track. -/
def State.addWork (n : Fin 4) (c : MediaCmd) (s : State) : State :=
  s.onBuf (fun b =>
    let w := b.work[n]
    let joins (l : MediaCmd) : Bool :=
      l.op == c.op && l.surface == c.surface && l.track == c.track && l.modsel == c.modsel && c.qtr == 0 && l.qtr == 0 && l.op != 2 &&
        !l.cancelled && decide (l.count < 1023) && l.deadline == c.deadline &&
        nextGood l.mask 2048 (l.start + 1 + (l.count - 1)) == some c.start && decide (l.start < c.start)
    match w.getLast? with
    | some l =>
      if joins l then
        { b with work := b.work.set n (w.dropLast ++ [{ l with count := l.count + 1, units := l.units ++ c.units }]) }
      else { b with work := b.work.set n (w ++ [c]) }
    | none => { b with work := b.work.set n [c] })

/-- The record types of system tiles (R122): journal, checkpoint, keel and manifest. The spec gives their codes nowhere (DESIGN
CHOICE). -/
def sysJournal : Nat := 1
def sysKeel : Nat := 3
def sysManifest : Nat := 4

/-- A unit of a system tile (R122): record type in bits 57:50 of its tag, index in bits 49:0. -/
def sysUnit (type idx hseq : Nat) (data : List Byte) : MUnit :=
  { kind := 2, tag := type * 2 ^ 50 + idx % 2 ^ 50, gen := 0, hseq := hseq, shuffled := false, ctx := 0, data := data }

/-- The record type of a tag, and its index. -/
def sysType (tag : Nat) : Nat := tag / 2 ^ 50 % 256
def sysIndex (tag : Nat) : Nat := tag % 2 ^ 50

/-- A coast-write command, with the good positions of its track (R54, R188). -/
def State.coastCmd (s : State) (surface track pos qtr : Nat) (units : List MUnit) : MediaCmd :=
  { op := 2, surface := surface, track := track, start := pos, qtr := qtr, count := units.length, modsel := coastModsel
    mask := s.goodMask surface track (s.slotsAt track 0), tag := 0, deadline := none, cancelled := false, units := units }

/-- The lanes in service. -/
def State.lanesIn (s : State) : List Nat := ((allLanes.filter s.inService).map (·.val))

/-! ## The journal -/

/-- The 32 bytes of a journal record (R78). -/
def JRec.bytes (r : JRec) : List Byte :=
  let b := leBytes 4 r.seq ++ [BitVec.ofNat 8 r.type, 0, 0, 0] ++ leBytes 8 r.key ++ leBytes 8 r.val.toNat
  b ++ leBytes 8 (crc64 b).toNat

/-- The record that 32 bytes hold; none where their CRC-64 fails (R78, R85). -/
def JRec.parse (b : List Byte) : Option JRec :=
  if ofLe (bytesAt b 24 8) = (crc64 (bytesAt b 0 24)).toNat then
    some { seq := ofLe (bytesAt b 0 4), type := (byteAt b 4).toNat, key := ofLe (bytesAt b 8 8), val := BitVec.ofNat 64 (ofLe (bytesAt b 16 8)) }
  else none

/-- The records of the open journal tile. -/
def State.openRecs (s : State) : List JRec :=
  match s.map.jout.getLast? with
  | none => s.map.jrnl
  | some t => s.map.jrnl.filter (fun r => newer r.seq t.last)

/-- The lanes of the two copies of a journal tile (R80): the lowest-numbered lane in service and the next; the only one takes both
(DESIGN CHOICE). -/
def State.journalLanes (s : State) : List Nat :=
  match s.lanesIn with
  | a :: b :: _ => [a, b]
  | [a] => [a, a]
  | [] => []

/-- Where copy `copy` of journal tile `num` goes on a lane: its journal bands hold the tiles by number, round and round, over their
good slots at code rate 0.86; a second copy on one lane lies half-way round. The spec gives neither order nor rate (DESIGN
CHOICE). -/
def State.journalPlace (s : State) (lane copy num : Nat) : Option (Nat × Nat × Nat) :=
  let bands := s.geo.journal.filter (fun b => b.1 == lane)
  let bad (b : Nat × Nat × Nat × Nat) : Nat := (s.map.defects.filter (fun d => decide (keySurface d = b.2.1 ∧
    b.2.2.1 ≤ keyTrack d ∧ (keyTrack d - b.2.2.1) * s.slotsAt b.2.2.1 0 + keyPos d < b.2.2.2))).length
  let total := sumOf bands (fun b => b.2.2.2 - bad b)
  let go := bands.foldl (fun (x : Nat × Option (Nat × Nat × Nat)) b =>
    let n := b.2.2.2 - bad b
    if x.2.isSome then x
    else if x.1 < n then (x.1, (s.walk b.2.1 0 false b.2.2.2 b.2.2.2 b.2.2.1 x.1).map (fun p => (b.2.1, p.1, p.2)))
    else (x.1 - n, none)) ((num + copy * (total / 2)) % max 1 total, none)
  go.2

/-- Queues one copy of a journal tile to a lane (R80). -/
def State.queueJournal (lane copy : Nat) (t : JTile) (s : State) : State :=
  match s.journalPlace lane copy t.num with
  | none => s
  | some (sf, tr, pos) =>
    let rs := s.map.jrnl.filter (fun r => !(newer t.first r.seq) && !(newer r.seq t.last))
    s.addWork (Fin.ofNat 4 lane)
      { op := 1, surface := sf, track := tr, start := pos, qtr := 0, count := 1, modsel := tileModsel 0
        mask := s.goodMask sf tr (s.slotsAt tr 0), tag := 0, deadline := none, cancelled := false
        units := [sysUnit sysJournal t.num 0 (rs.flatMap JRec.bytes)] }

/-- Closes the open journal tile (R80), and queues its two copies. -/
def State.closeJournal (s : State) : State :=
  match s.openRecs.head?, s.openRecs.getLast? with
  | some a, some b =>
    let t : JTile := { num := s.map.jnum, first := a.seq, last := b.seq, done := 0 }
    let s := s.onMap (fun m => { m with jout := m.jout ++ [t], jnum := m.jnum + 1 })
    doAll s.journalLanes.zipIdx (fun l s => s.queueJournal l.1 l.2 t) s
  | _, _ => s

/-- Creates a journal record (R78, R80): a journal tile closes at 512 records. -/
def State.journal (type key val : Nat) (s : State) : State :=
  let seq := ((s.word 3).toNat + 1) % 2 ^ 32
  let first := s.openRecs.isEmpty
  let s := (s.setWord 3 seq).onMap (fun m => { m with
    jrnl := m.jrnl ++ [{ seq := seq, type := type, key := key, val := BitVec.ofNat 64 val }]
    jsince := if first then s.us else m.jsince })
  (doIf (decide (512 ≤ s.openRecs.length)) State.closeJournal s).syncDirty

/-- A copy of journal tile `num` has passed its end mark. -/
def State.journalMark (num : Nat) (s : State) : State :=
  s.onMap (fun m => { m with jout := m.jout.map (fun t => if t.num = num then { t with done := t.done + 1 } else t) })

/-- Every record up to `last` is on media in both copies (R79): what they supersede is released. -/
def State.landRecords (last : Nat) (s : State) : State :=
  let due := s.map.waits.filter (fun w => !(newer w.1 last))
  let s := (s.onMap (fun m => { m with
    jrnl := m.jrnl.filter (fun r => newer r.seq last), waits := m.waits.filter (fun w => newer w.1 last) })).setWord 4 last
  (doAll (due.flatMap (·.2)) (fun w => State.releaseSlot (BitVec.ofNat 64 w)) s).syncDirty

/-- The oldest closed journal tile is on media in both copies (R79, R81); a checkpoint may be due. -/
def State.landJournal (s : State) : State :=
  match s.map.jout with
  | t :: rest =>
    if t.done < 2 then s
    else
      let s := ((s.onMap (fun m => { m with jout := rest })).add F.MAP_JFILL_kib 16).landRecords t.last
      if s.get F.MAP_CTL_ckpt_mib * 1024 ≤ s.get F.MAP_JFILL_kib && !(s.flag F.MAP_CKSTAT_busy) then s.put F.MAP_CKSTAT_req 1 else s
  | [] => s

/-- A slot release (R78, R79): its record, whose key is the slot address, bits 63:37 of word 1 of the overlay layout, and whose value
the harvest that wrote the slot (DESIGN CHOICE); the slot is free once that record is on media. -/
def State.freeSlot (w1 : BitVec 64) (s : State) : State :=
  let s := s.journal 3 (w1.toNat / 2 ^ 37) (bits64 w1 0 32)
  s.onMap (fun m => { m with
    waits := m.waits ++ [((s.word 3).toNat, [w1.toNat])], freed := m.freed ++ [(w1.toNat / 2 ^ 37, bits64 w1 0 32)] })

/-- Changes a zone's descriptor and journals it (R60). -/
def State.journalZone (z : Nat) (f : Zone → Zone) (s : State) : State :=
  let s := s.onZone z f
  s.journal 2 z (s.zone z).pack.toNat

/-- Changes an extent's entry and journals it. -/
def State.journalEntry (x : Nat) (v : BitVec 64) (s : State) : State := (s.setEntry x v).journal 1 x v.toNat

/-- The manifests that MAP still needs (R358): the newest, and those of which an entry is live; the slots of the others are released. -/
def State.tidyMans (s : State) : State :=
  let keep (r : ManRef) : Bool := (s.map.mans.getLast?.map (·.hseq)) == some r.hseq ||
    s.map.ovl.any (fun e => ovlUse e.2 == 1 && ovlHseq e.2 == r.hseq)
  let gone := s.map.mans.filter (fun r => !(keep r))
  let s := s.onMap (fun m => { m with mans := m.mans.filter keep })
  let s := doAll gone (fun r s => doAll r.slots (fun x s => s.freeSlot (ovlW1 x.1 x.2.1 x.2.2.1 x.2.2.2 1 r.hseq)) s) s
  s.onMap (fun m => { m with freed := m.freed.filter (fun f => m.mans.any (fun r => r.hseq == f.2)) })

/-- Overlay entries are marked deleted and their slots released (R77, R95, R99). -/
def State.deleteEntries (es : List (Nat × (BitVec 64 × BitVec 64))) (s : State) : State :=
  (doAll es (fun e s => s.setOvl e.1 (e.2.1 &&& ~~~(3#64 <<< 62) ||| 2#64 <<< 62, e.2.2))
    (doAll es (fun e s => s.freeSlot e.2.2) s)).tidyMans.syncSalt

/-- The overlay entries of a zone are deleted and their slots released (R69, R99). -/
def State.dropOverlay (z : Nat) (s : State) : State :=
  let mine := s.map.ovl.filter (fun e => ovlUse e.2 == 1 && ovlNs e.2 == 1 && ovlKey e.2 / 16384 == z)
  (s.deleteEntries mine).onMap (fun m => { m with ret := m.ret.filter (fun r => !(r.ns == 1 && r.key / 16384 == z)) })

/-- The key of a record of type 09h (R666): the overlay entry's table index, below the address of its slot, by which replay finds the
entry in a table built anew (DESIGN CHOICE: the spec names the index alone, and a rebuild may give the entry another). -/
def maskKey (i : Nat) (e : BitVec 64 × BitVec 64) : Nat := e.2.toNat / 2 ^ 37 * 2 ^ 37 + i

/-- A block of newer data has reached its home position (R666): it leaves the masks of the live entries that cover
it. -/
def State.clearMask (ns lba gen : Nat) (s : State) : State :=
  let es := (s.overlay ns (tileKey ns lba) gen).filter (fun e => (ovlMask e.2).testBit (lba % 4))
  doAll es (fun e s =>
    let m := withBit (ovlMask e.2) (lba % 4) false
    let w0 := ovlW0 (if m = 0 then 2 else 1) (ovlKey e.2) (ovlGen e.2) m
    let s := (s.setOvl e.1 (w0, e.2.2)).journal 9 (maskKey e.1 e.2) w0.toNat
    if m = 0 then (s.freeSlot e.2.2).tidyMans else s) s

/-! ## Placement -/

/-- The lane of extent `e` of a zone (R57, R59), and whether it is a replacement. -/
def State.extentLane (s : State) (e : Nat) : Option (Nat × Bool) :=
  let n := s.variant.lanes
  let ins := s.lanesIn
  if ins.contains (e % n) then some (e % n, false)
  else if ins.isEmpty then none
  else
    let k := ((List.range e).filter (fun x => !(ins.contains (x % n)))).length
    some (ins.getD (k % ins.length) 0, true)

/-- The stripe of a zone on a lane: surface and first track. -/
def State.stripe (s : State) (z lane : Nat) : Option (Nat × Nat) :=
  (s.geo.stripes.find? (fun x => x.1 == z && x.2.1 == lane)).map (fun x => x.2.2)

/-- The slot of tile `t` of an extent placed by an entry (R58): track and slot, in its band. -/
def State.tileSlot (s : State) (v : BitVec 64) (rate t : Nat) : Option (Nat × Nat) :=
  (s.bandOf (entSurface v) (entTrack v)).bind (fun f =>
    (s.goodIndex (entSurface v) rate f (entTrack v) (entSlot v)).bind (fun k => s.goodAt (entSurface v) rate f (k + t)))

/-- The place of an extent that holds data, or is to hold it, as an entry. -/
def State.located (s : State) (x : Nat) : Option (BitVec 64) :=
  let gen := (s.zone (x / 128)).gen
  let live (v : BitVec 64) : Bool := (entState v == 1 || entState v == 2 || entState v == 3) && entGen v == gen
  if live (s.entry x) then some (s.entry x)
  else ((s.map.placed.find? (fun p => p.1 == x)).map (·.2)).filter live

/-- The last tile, in write order, of the extents of a spare band: its track and slot, and the code rate of its zone. -/
def State.spareEnd (s : State) (surface first : Nat) : Option (Nat × Nat × Nat) :=
  let far (t : Nat) : Nat := max t first - min t first
  (s.extents.filterMap (fun x => (s.located x).bind (fun v =>
    if entSurface v = surface ∧ s.inBand surface first (entTrack v) then
      (s.tileSlot v (s.zone (x / 128)).rate 127).map (fun p => (p.1, p.2, (s.zone (x / 128)).rate))
    else none))).foldl (fun (b : Option (Nat × Nat × Nat)) p => match b with
      | none => some p
      | some q => if far q.1 < far p.1 ∨ (q.1 = p.1 ∧ q.2.1 < p.2.1) then some p else some q) none

/-- Places an extent in a spare band of a lane and ring (R56, R59): of those with room the first in GEO's order, after the last tile of
the extents that it holds, or on the next track where that is of another code rate; so that R51 holds for what follows (DESIGN CHOICE:
R56 names neither band nor place). -/
def State.placeSpare (s : State) (lane ring rate : Nat) : Option (Nat × Nat × Nat) :=
  let cand := s.geo.spares.filter (fun b => b.1 == lane && s.ringOf b.2.2 == ring)
  let at_ (b : Nat × Nat × Nat) : Option (Nat × Nat × Nat) :=
    let k : Option Nat := match s.spareEnd b.2.1 b.2.2 with
      | none => some 0
      | some (tr, sl, r) =>
        if r = rate then (s.goodIndex b.2.1 rate b.2.2 tr sl).map (· + 1)
        else s.goodIndex b.2.1 rate b.2.2 (nextTrack (s.bandDown b.2.1 b.2.2) tr) 0
    k.bind (fun k => if (s.goodAt b.2.1 rate b.2.2 (k + 127)).isSome then
        (s.goodAt b.2.1 rate b.2.2 k).map (fun p => (b.2.1, p.1, p.2)) else none)
  (cand.filterMap at_).head?

/-- The home position of extent `e` of zone `z` at its first write, as an entry of state home (R56 to R59). -/
def State.placeExtent (s : State) (z e : Nat) : Option (BitVec 64) :=
  let d := s.zone z
  let mk (lane : Nat) (p : Nat × Nat × Nat) : BitVec 64 := mkEntry lane p.1 p.2.1 p.2.2 1 d.shuf d.gen
  (s.extentLane e).bind (fun l => (s.stripe z l.1).bind (fun b =>
    let spare := (s.placeSpare l.1 (s.ringOf b.2) d.rate).map (mk l.1)
    let p := 128 * (e / s.variant.lanes)
    if l.2 || (s.goodAt b.1 d.rate b.2 (p + 127)).isNone then spare
    else (s.goodAt b.1 d.rate b.2 p).map (fun t => mk l.1 (b.1, t.1, t.2))))

/-- Gives extent `x` a place, where it can have one (R56 to R59). -/
def State.place (x : Nat) (s : State) : Option State :=
  (s.placeExtent (x / 128) (x % 128)).map (fun e =>
    s.onMap (fun m => { m with placed := (x, e) :: m.placed.filter (fun p => p.1 != x) }))

/-- The sector that a list of areas of one lane holds at index `k`: surface, track and sector. -/
def State.sectorAt (s : State) (lane : Nat) : List (Nat × Nat × Nat × Nat) → Nat → Option (Nat × Nat × Nat)
  | [], _ => none
  | (l, sf, tr, n) :: rest, k =>
    if l ≠ lane then s.sectorAt lane rest k
    else
      let per := s.slotsAt tr 3
      if k < n * per then some (sf, tr + k / per, k % per) else s.sectorAt lane rest (k - n * per)

/-- The entries of the slip table that are in use (R61). -/
def State.slipUsed (s : State) : List (BitVec 64) := s.map.slip.filter (fun e => bits64 e 62 2 != 0)

/-- A slip table as R61 orders it: by lane, and by logical block within each lane; it holds 65,536 entries. -/
def slipSorted (l : List (BitVec 64)) : List (BitVec 64) :=
  (((l.filter (fun e => bits64 e 62 2 != 0)).mergeSort (fun a b => decide (bits64 a 35 27 ≤ bits64 b 35 27))).take 65536)

/-- The physical sector of a block of NSID 2 (R61, R62): lane, surface, track and sector. -/
def State.sectorOf (s : State) (b : Nat) : Option (Nat × Nat × Nat × Nat) :=
  let n := s.variant.lanes
  let lane := b / 512 % n
  let rel := b / 512 / n * 512 + b % 512
  let mine := s.map.slip.filter (fun e => bits64 e 60 2 == lane)
  match mine.find? (fun e => bits64 e 62 2 == 2 && bits64 e 35 25 == b) with
  | some e => (s.sectorAt lane s.geo.convSpare (bits64 e 0 32)).map (fun p => (lane, p))
  | none =>
    let slips := mine.filter (fun e => bits64 e 62 2 == 1 && decide (bits64 e 35 25 ≤ b))
    let add := (slips.foldl (fun (x : Nat × Nat) e =>
      if x.1 ≤ bits64 e 35 25 then (bits64 e 35 25, bits64 e 0 32) else x) (0, 0)).2
    (s.sectorAt lane s.geo.conv (rel + add)).map (fun p => (lane, p))

/-- A grown defect of a block of NSID 2 is handled by reassignment (R62, R63): the lane's first spare sector that is neither in use nor
defective (DESIGN CHOICE: the spec names no order) takes its place, in an entry of type 10b; every place of the sorted table that
changes is journalled (record type 05h). With all 65,536 entries in use, or no spare sector left, nothing changes. -/
def State.reassign (b : Nat) (s : State) : State :=
  let lane := b / 512 % s.variant.lanes
  let own (e : BitVec 64) : Bool := bits64 e 62 2 == 2 && bits64 e 60 2 == lane
  let used := (s.slipUsed.filter own).map (fun e => bits64 e 0 32)
  let free (k : Nat) : Bool := !(used.contains k) && (s.sectorAt lane s.geo.convSpare k).any (fun p => !(s.defective p.1 p.2.1 p.2.2))
  let rest := s.slipUsed.filter (fun e => !(own e && bits64 e 35 25 == b))
  if 65536 ≤ rest.length then s
  else match (List.range (used.length + s.map.defects.length + 1)).find? free with
    | none => s
    | some k =>
      let new := slipSorted (rest ++ [BitVec.ofNat 64 (2 * 2 ^ 62 + lane * 2 ^ 60 + b * 2 ^ 35 + k)])
      let old := s.map.slip
      let s := s.onMap (fun m => { m with slip := new })
      doAll ((List.range (max old.length new.length)).filter (fun i => old.getD i 0 != new.getD i 0))
        (fun i s => s.journal 5 i (new.getD i 0).toNat) s

/-! ## Reads -/

/-- The places of the blocks in `mask` that a coast entry supplies. -/
def State.coastSrcs (s : State) (e : BitVec 64 × BitVec 64) (mask : Nat) : List RSrc :=
  let lane := bits64 e.2 62 2
  let sf := bits64 e.2 57 5
  match s.saltPlace lane sf (bits64 e.2 53 4) (bits64 e.2 37 16) with
  | none => []
  | some (tr, pos) =>
    ((List.range 4).filter (fun k => mask.testBit k)).map (fun k =>
      { lane := lane, surface := sf, track := tr, pos := pos, qtr := k, coast := true
        mask := 2 ^ k, gen := ovlGen e, hseq := ovlHseq e, done := false })

/-- For each block of a tile the newest live entry that covers it (R76): entries, each with the blocks it supplies. -/
def newestCover (es : List (BitVec 64 × BitVec 64)) : List ((BitVec 64 × BitVec 64) × Nat) :=
  let pick (k : Nat) : Option (BitVec 64 × BitVec 64) :=
    (es.filter (fun e => (ovlMask e).testBit k)).foldl (fun b e => match b with
      | none => some e
      | some c => if newer (ovlHseq e) (ovlHseq c) then some e else some c) none
  es.map (fun e => (e, ((List.range 4).filter (fun k => pick k == some e)).foldl (fun m k => m + 2 ^ k) 0))

/-- The blocks of a tile that lie below its zone's write pointer; the others read as zeros (R67, R416). -/
def State.belowWp (s : State) (key : Nat) : Nat :=
  let d := s.zone (key / 16384)
  ((List.range 4).filter (fun k => decide (4 * (key % 16384) + k < d.wp))).foldl (fun m k => m + 2 ^ k) 0

/-- What a read of a tile resolves to (R67, R68): none where it fails as bad, otherwise the places to read; no place
at all reads as zeros. The blocks in `want` are wanted. -/
def State.resolve1 (s : State) (key want : Nat) : Option (List RSrc) :=
  let v := s.entry (key / 128)
  let d := s.zone (key / 16384)
  let st := entState v
  if entGen v ≠ d.gen then some []
  else if s.entryBad v || st == 4 then none
  else if st = 0 then some []
  else
    let es := if st = 2 then (s.overlay 1 key (entGen v)).map (·.2) else []
    let cov := newestCover es
    let taken := sumOf cov (·.2)
    let coast := cov.flatMap (fun c => s.coastSrcs c.1 (c.2 &&& want))
    let rest := want &&& (15 - taken) &&& s.belowWp key
    if rest = 0 then some coast
    else match s.tileSlot v d.rate (key % 128) with
      | none => none
      | some (tr, sl) =>
        some ({ lane := entLane v, surface := entSurface v, track := tr, pos := sl, qtr := 0, coast := false, mask := rest
                gen := entGen v, hseq := 0, done := false } :: coast)

/-- The same for an aligned group of four blocks of NSID 2. -/
def State.resolve2 (s : State) (key want : Nat) : Option (List RSrc) :=
  let cov := newestCover ((s.overlay 2 key 0).map (·.2))
  let coast := cov.flatMap (fun c => s.coastSrcs c.1 (c.2 &&& want))
  let taken := sumOf cov (·.2)
  let home := ((List.range 4).filter (fun k => want.testBit k && !(taken.testBit k))).map (fun k =>
    (s.sectorOf (key + k)).map (fun (p : Nat × Nat × Nat × Nat) =>
      ({ lane := p.1, surface := p.2.1, track := p.2.2.1, pos := p.2.2.2, qtr := 0, coast := false, mask := 2 ^ k, gen := 0
         hseq := 0, done := false } : RSrc)))
  if home.any (·.isNone) then none else some (home.filterMap id ++ coast)

/-! ## Checkpoints -/

/-- What the copies of a checkpoint hold (R81). -/
def State.ckptNow (s : State) (seq : Nat) : Ckpt :=
  let c := s.cleanCache
  { seq := seq, map := c.map.hbm, zones := s.map.zones, slip := s.map.slip, defects := s.map.defects }

/-- The lanes of copy 0 and of copy 1 (R81 step 3). -/
def ckptLanes : List Nat → List Nat × List Nat
  | [a] => ([a], [a])
  | [a, b] => ([a], [b])
  | [a, b, c] => ([a, c], [b])
  | a :: b :: c :: d :: _ => ([a, c], [b, d])
  | [] => ([], [])

/-- A reference to a copy of a manifest (type 07h): its key is the address of the header's slot, its value the harvest (DESIGN CHOICE: the
spec names the type and neither field). -/
def State.journalMan (r : ManRef) (s : State) : State :=
  match r.slots with
  | x :: _ => s.journal 7 ((ovlW1 x.1 x.2.1 x.2.2.1 x.2.2.2 1 0).toNat / 2 ^ 37) r.hseq
  | [] => s

/-- What the journal alone holds of the overlay, written anew: manifests, masks of NSID 2, and releases. -/
def State.restate (s : State) : State :=
  let s := doAll s.map.mans State.journalMan s
  let s := doAll (s.map.ovl.filter (fun e => ovlUse e.2 == 1 && ovlNs e.2 == 2)) (fun e s =>
    s.journal 9 (maskKey e.1 e.2) e.2.1.toNat) s
  doAll s.map.freed (fun f s => s.journal 3 f.1 f.2) s

/-- A checkpoint starts (R81 step 1), and what the inactive area held is written over. The journal before S will be released, so what
only it holds of the overlay follows S anew: the masks changed by R666, the slots released and listed by a manifest in force, and the
manifests themselves, in records of type 07h with the address of the header's slot and the harvest (DESIGN CHOICE: the spec names the
record type 07h and not when it is made, and not how masks and releases outlive a checkpoint). -/
def State.ckptStart (s : State) : State :=
  let s := (s.put F.MAP_CKSTAT_busy 1).put F.MAP_CKSTAT_req 0
  let area := 1 - s.get F.MAP_CKSTAT_area
  let s := s.journal 6 0 (((s.word 3).toNat + 1) % 2 ^ 32)
  let seq := (s.word 3).toNat
  let s := s.onMap (fun m => { m with
    ckpt := some { seq := seq, area := area, lanes := s.lanesIn, copied := false, retried := false, fill := s.get F.MAP_JFILL_kib } })
  let s := s.onMedia (fun d => { d with ck := d.ck.filter (fun c => c.area != area) })
  s.restate

/-- The checkpoint in progress has failed: a lane left service (R81), and MAP asks again at once. -/
def State.ckptFail (s : State) : State :=
  ((s.onMap (fun m => { m with ckpt := none })).put F.MAP_CKSTAT_busy 0).put F.MAP_CKSTAT_last 3 |>.put F.MAP_CKSTAT_req 1

/-! ## The keel -/

/-- The surfaces that a keel update writes (R82, R348) with the lanes that can write: one each of the first three, or of both of
two. R82 leaves the surface of each lane open, and which of two lanes takes two copies: the lowest-numbered surfaces of a lane, and two
on the lower-numbered of two lanes (DESIGN CHOICE). -/
def State.keelSurfaces (s : State) (lanes : List Nat) : List Nat :=
  let of (l : Nat) : List Nat := (s.geo.surfaces.zipIdx.filter (fun x => x.1.1 == l)).map (·.2)
  match lanes with
  | a :: b :: c :: _ => (of a).take 1 ++ (of b).take 1 ++ (of c).take 1
  | [a, b] => (of a).take 2 ++ (of b).take 1
  | [a] => (of a).take 3
  | [] => []

/-- The saltern bands in GEO's order: lane, surface and number on that surface. -/
def State.bandList (s : State) : List (Nat × Nat × Nat) :=
  s.geo.saltern.zipIdx.map (fun b => (b.1.1, b.1.2.1, ((s.geo.saltern.take b.2).filter (fun x => x.2.1 == b.1.2.1)).length))

/-- The keel as MAP would write it now, with its sequence one higher and the checkpoint that it names. -/
def State.newKeel (s : State) (area ckseq : Nat) (lanes : List Nat × List Nat) : Keel :=
  let last := s.map.mans.getLast?.map (·.hseq)
  let man (l : Nat) : Option (Nat × Nat × Nat) := ((s.map.mans.filter (fun r => some r.hseq == last)).filterMap (fun r =>
    (r.slots.head?).bind (fun x => if x.1 = l then some (x.2.1, x.2.2.1, x.2.2.2) else none))).head?
  { seq := s.map.keelSeq + 1, hseq := (s.word 0).toNat, area := area, ckseq := ckseq, lanes0 := lanes.1, lanes1 := lanes.2
    jrnl := (s.journalLanes.filterMap (fun l => (s.geo.journal.find? (fun b => b.1 == l)).map (fun b => (l, b.2.1, b.2.2.1)))).take 2
    jfirst := if ckseq = s.map.ckseq then s.map.jfirst else ckseq, man := (List.range 4).map man
    salt := s.bandList.map (fun b => ((s.saltLog b.1 b.2.1 b.2.2).map (fun x => (x.fill, x.tail))).getD (0, 0)), digest := s.geo.digest }

/-- Lanes as a mask. -/
def laneMask (l : List Nat) : Nat := l.foldl (fun m n => withBit m n true) 0

/-- The lanes of a mask. -/
def maskLanes (m : Nat) : List Nat := (List.range 4).filter m.testBit

/-- The bytes of a keel (R81): the fields in the order of its table, each least significant byte first, and the CRC-64. The table
gives widths to the sequence alone (DESIGN CHOICE). -/
def Keel.bytes (k : Keel) : List Byte :=
  let place (p : Nat × Nat × Nat) : List Byte := [BitVec.ofNat 8 p.1, BitVec.ofNat 8 p.2.1] ++ leBytes 4 p.2.2
  let man (m : Option (Nat × Nat × Nat)) : List Byte := match m with
    | some p => [1, BitVec.ofNat 8 p.1, BitVec.ofNat 8 p.2.1] ++ leBytes 2 p.2.2
    | none => [0, 0, 0, 0, 0]
  let b := leBytes 8 k.seq ++ leBytes 4 k.hseq ++ [BitVec.ofNat 8 k.area] ++ leBytes 4 k.ckseq ++
    [BitVec.ofNat 8 (laneMask k.lanes0), BitVec.ofNat 8 (laneMask k.lanes1), BitVec.ofNat 8 k.jrnl.length] ++ k.jrnl.flatMap place ++
    leBytes 4 k.jfirst ++ k.man.flatMap man ++ [BitVec.ofNat 8 k.salt.length] ++
    k.salt.flatMap (fun p => leBytes 2 p.1 ++ leBytes 2 p.2) ++ leBytes 8 k.digest
  b ++ leBytes 8 (crc64 b).toNat

/-- The keel that a coast tile holds; none where its CRC-64 fails (R83). -/
def Keel.parse (b : List Byte) : Option Keel :=
  let nj := (byteAt b 19).toNat
  let o := 20 + 6 * nj
  let ns := (byteAt b (o + 24)).toNat
  let e := o + 25 + 4 * ns
  let man (i : Nat) : Option (Nat × Nat × Nat) :=
    let a := o + 4 + 5 * i
    if byteAt b a = 1 then some ((byteAt b (a + 1)).toNat, (byteAt b (a + 2)).toNat, ofLe (bytesAt b (a + 3) 2)) else none
  if ofLe (bytesAt b (e + 8) 8) = (crc64 (bytesAt b 0 (e + 8))).toNat then
    some { seq := ofLe (bytesAt b 0 8), hseq := ofLe (bytesAt b 8 4), area := (byteAt b 12).toNat, ckseq := ofLe (bytesAt b 13 4)
           lanes0 := maskLanes (byteAt b 17).toNat, lanes1 := maskLanes (byteAt b 18).toNat
           jrnl := (List.range nj).map (fun i => ((byteAt b (20 + 6 * i)).toNat, (byteAt b (21 + 6 * i)).toNat, ofLe (bytesAt b (22 + 6 * i) 4)))
           jfirst := ofLe (bytesAt b o 4), man := (List.range 4).map man
           salt := (List.range ns).map (fun i => (ofLe (bytesAt b (o + 25 + 4 * i) 2), ofLe (bytesAt b (o + 27 + 4 * i) 2)))
           digest := ofLe (bytesAt b e 8) }
  else none

/-- The command that writes a copy of a keel on a surface, in the slot that its sequence gives (R81). -/
def State.keelCmd (s : State) (k : Keel) (hseq surface : Nat) : Option (Nat × MediaCmd) :=
  match s.geo.keel.find? (fun x => x.1 == surface), s.laneOf surface with
  | some x, some n => some (n, s.coastCmd surface (if k.seq % 2 = 0 then x.2.1 else x.2.2) 0 0 [sysUnit sysKeel k.seq hseq k.bytes])
  | _, _ => none

/-- A keel update begins outside a harvest (R82): its copies are queued to their lanes. -/
def State.keelBegin (k : Keel) (s : State) : State :=
  let s := s.onMap (fun m => { m with keelUp := some (k, 0) })
  doAll ((s.keelSurfaces s.lanesIn).filterMap (s.keelCmd k 0)) (fun c s => s.addWork (Fin.ofNat 4 c.1) c.2) s

/-- The checkpoint that a committed keel names is in force (R81 steps 4 and 5): the journal before S is released, and with it the
saltern slots that hold records before S. -/
def State.ckptFinish (c : CkJob) (s : State) : State :=
  let s := ((s.put F.MAP_CKSTAT_busy 0).put F.MAP_CKSTAT_last (if c.retried then 2 else 1)).put F.MAP_JFILL_kib
    (s.get F.MAP_JFILL_kib - c.fill)
  let old := s.map.jslots.filter (fun x => newer c.seq x.1)
  let s := s.onMap (fun m => { m with ckpt := none, jslots := m.jslots.filter (fun x => !(newer c.seq x.1)) })
  doAll old (fun x s => s.freeSlot (ovlW1 x.2.1 x.2.2.1 x.2.2.2.1 x.2.2.2.2 1 0)) s

/-- A keel update is committed (R82): two copies have passed their end marks. -/
def State.keelCommit (k : Keel) (s : State) : State :=
  let s := (s.onMap (fun m => { m with keelSeq := k.seq, jfirst := k.jfirst, ckseq := k.ckseq, ckLanes := (k.lanes0, k.lanes1) })).setWord 1
    (k.seq % 2 ^ 32)
  let s := s.setWord 2 (k.area * 2 ^ 31 + k.ckseq % 2 ^ 31)
  match s.map.ckpt with
  | some c => if c.copied && c.seq == k.ckseq then s.ckptFinish c else s
  | none => s

/-- A copy of the keel being written has passed its end mark; the second commits the update. -/
def State.keelMark (seq : Nat) (s : State) : State :=
  match s.map.keelUp with
  | some (k, n) =>
    if k.seq % 2 ^ 50 ≠ seq then s
    else if n = 0 then s.onMap (fun m => { m with keelUp := some (k, 1) })
    else (s.onMap (fun m => { m with keelUp := none })).keelCommit k
  | none => s

end Sys2Proof.Machine
end

