-- ==== Sys2Proof/Machine/EccOps.lean ====
section
/-! DEFINITION. The SECDED codes (14_integrity_and_selftest.md R563, R566, R568): a word of a memory whose stored codeword
is not the one of its contents is listed in the state, and a read or a write of words finds it there. -/

namespace Sys2Proof.Machine
open Sys2Proof

/-- The bits set among the lowest `w`. -/
def popcount (v w : Nat) : Nat := ((List.range w).filter v.testBit).length

/-- The bits by which a stored codeword is wrong. -/
def Poison.weight (p : Poison) : Nat := popcount p.data 64 + popcount p.check 8

/-- A word lies among `n` words of a memory from `addr` on. -/
def Poison.within (p : Poison) (mem inst addr n : Nat) : Bool :=
  p.mem == mem && p.inst == inst && decide (addr ≤ p.addr ∧ p.addr < addr + n)

/-- The error of a word, listed or none. -/
def State.poisonAt (s : State) (mem inst addr : Nat) : Poison :=
  (s.integ.bad.find? (fun p => p.within mem inst addr 1)).getD { mem := mem, inst := inst, addr := addr, data := 0, check := 0 }

/-- Lists the error of a word; a right codeword is not listed. -/
def State.setPoison (p : Poison) (s : State) : State :=
  let rest := s.integ.bad.filter (fun q => !(q.within p.mem p.inst p.addr 1))
  { s with integ := { s.integ with bad := if p.data = 0 ∧ p.check = 0 then rest else p :: rest } }

/-- The words from `addr` on are right. -/
def State.cleanWords (mem inst addr n : Nat) (s : State) : State :=
  { s with integ := { s.integ with bad := s.integ.bad.filter (fun p => !(p.within mem inst addr n)) } }

/-- An error met by a read is counted and recorded (R563). -/
def State.eccSeen (mem inst addr : Nat) (ue : Bool) (s : State) : State :=
  let s := if ue then s.inc (F.ECC_UE_count mem) else s.inc (F.ECC_CE_count mem)
  let s := ((s.put F.ECC_LAST_valid 1).put F.ECC_LAST_ue (if ue then 1 else 0)).put F.ECC_LAST_mem mem
  let s := (s.put F.ECC_LAST_inst inst).put F.ECC_LASTADDR_addr addr
  if ue then s.raiseAt F.ECC_ERR_ue mem else s

/-- Split check-bit mode is on for a memory (R568). -/
def State.split (s : State) (mem inst : Nat) : Bool :=
  s.flag F.ECC_SPLITCTL_en && s.get F.ECC_SPLITCTL_mem == mem && s.get F.ECC_SPLITCTL_inst == inst

/-- A fresh free value. -/
def State.fresh (s : State) : Int × State := (Config.freeInt s.free, { s with free := s.free + 1 })

/-- One wrong word is read: one bit is corrected, two are uncorrectable; what the code makes of more is open. -/
def State.meet (p : Poison) (x : Bool × State) : Bool × State :=
  if p.weight ≤ 2 then (x.1 || p.weight == 2, x.2.eccSeen p.mem p.inst p.addr (p.weight == 2))
  else
    let (v, s) := x.2.fresh
    (x.1 || decide (0 ≤ v), s.eccSeen p.mem p.inst p.addr (decide (0 ≤ v)))

/-- Reads `n` words of a memory from `addr` on: whether one of them is uncorrectable. `ue` says that the world shows an
uncorrectable error at one of them, at a word that is open. In split check-bit mode the last word's check bits and syndrome
are captured, and nothing is counted (R568); `content` is what that word was given to hold, where the model knows it. -/
def State.readWords (mem inst addr n : Nat) (ue : Bool) (content : Option (BitVec 64)) (s : State) : Bool × State :=
  if s.split mem inst then
    let (v, s) := s.fresh
    let d := content.getD (BitVec.ofInt 64 v)
    let p := s.poisonAt mem inst (addr + n - 1)
    let cb := (Config.secded d).toNat ^^^ p.check
    let syn := cb ^^^ (Config.secded (d ^^^ BitVec.ofNat 64 p.data)).toNat
    (false, ((s.put F.ECC_SPLITRD_valid 1).put F.ECC_SPLITRD_syn syn).put F.ECC_SPLITRD_cb cb)
  else
    let x := (s.integ.bad.filter (fun p => p.within mem inst addr n)).foldl (fun x p => State.meet p x) (false, s)
    if ue && !x.1 then
      let (v, s) := x.2.fresh
      (true, s.eccSeen mem inst (addr + v.natAbs % max 1 n) true)
    else x

/-- `n` words of a memory from `addr` on have been written: their codewords are right, but for split check bits (R568) and
for the armed flip (R566). -/
def State.wroteWords (mem inst addr n : Nat) (content : Option (BitVec 64)) (s : State) : State :=
  let s := s.cleanWords mem inst addr n
  let s := if s.split mem inst then
      doAll (List.range n) (fun i s =>
        let (v, s) := s.fresh
        let d := content.getD (BitVec.ofInt 64 v)
        s.setPoison { mem := mem, inst := inst, addr := addr + i, data := 0
                      check := (Config.secded d).toNat ^^^ s.get F.ECC_SPLITCB_cb }) s
    else s
  let a := s.get F.ECC_FLIPADDR_addr
  if s.flag F.ECC_FLIPCTL_arm && s.get F.ECC_FLIPCTL_mem == mem && s.get F.ECC_FLIPCTL_inst == inst &&
      decide (addr ≤ a ∧ a < addr + n) then
    let p := s.poisonAt mem inst a
    let s := s.setPoison { p with
      data := p.data ^^^ (s.get (F.ECC_FLIPD0_m) + 2 ^ 32 * s.get F.ECC_FLIPD1_m)
      check := p.check ^^^ s.get F.ECC_FLIPC_m }
    (s.put F.ECC_FLIPCTL_arm 0).put F.ECC_FLIPCTL_done 1
  else s

end Sys2Proof.Machine
end

