-- ==== Sys2Proof/Machine/ServoOps.lean ====
section
/-! DEFINITION. The servo compute array (06_servo_compute.md): the arithmetic of sections and loops, the demands, the
seek generator, and the conditions under which MOTION forces write-unsafe. Signal words are integers in units of
1/65,536 (R259); positions are integers in units of 1/4,096 track (R241). -/

namespace Sys2Proof.Machine
open Sys2Proof

/-- Heads of actuator `a` are loaded. -/
def State.loaded (s : State) (a : Fin 4) : Bool := s.bit F.SRV_STAT_loaded a

/-- A quotient by `2 ^ e`, halves upward (R259, R261). -/
def halfUp (v : Int) (e : Nat) : Int := if e = 0 then v else (v + 2 ^ (e - 1)) / 2 ^ e

/-! ## Sections -/

/-- Holds an accumulator within ±2¹⁵ (R260), and says whether it had to. -/
def accClamp (v : Int) : Int × Bool :=
  let c := clampI (-(2 ^ 63)) (2 ^ 63 - 1) v
  (c, c != v)

/-- A coefficient times a signal word, in steps of 2⁻⁴⁸ (R258, R260). -/
def prodSignal (m : Int) (sh : Nat) (w : Int) : Int :=
  if 15 ≤ sh then m * w * 2 ^ (sh - 15) else alignTo (m * w) (15 - sh)

/-- A coefficient times an accumulator value, in steps of 2⁻⁴⁸ (R257). -/
def prodAcc (m : Int) (sh : Nat) (y : Int) : Int := alignTo (m * y) (47 - sh)

/-- The states of a section after a computation (R261): the shared exponent, the three mantissas and whether they
were clamped. -/
def renorm (v1 v2 v3 : Int) : Nat × Int × Int × Int × Bool :=
  let fits (e : Nat) : Bool :=
    decide ((halfUp v1 e).natAbs < 2 ^ 23 ∧ (halfUp v2 e).natAbs < 2 ^ 23 ∧ (halfUp v3 e).natAbs < 2 ^ 23)
  match (List.range 41).find? fits with
  | some e => (e, halfUp v1 e, halfUp v2 e, halfUp v3 e, false)
  | none =>
    let c (v : Int) : Int := clampI (-(2 ^ 23 - 1)) (2 ^ 23 - 1) (halfUp v 40)
    (40, c v1, c v2, c v3, true)

/-- The states of section `i` become zero (R255, R262). -/
def State.zeroSection (i : Nat) (s : State) : State :=
  (((s.setReg (R.SCA_SEC_S1 i) 0).setReg (R.SCA_SEC_S2 i) 0).setReg (R.SCA_SEC_S3 i) 0).setReg (R.SCA_SEC_SEXP i) 0

/-- A register read as a 32-bit two's-complement value. -/
def State.regInt (s : State) (a : Nat) : Int := (s.reg a).toInt

/-- Stores the states of section `i` (R261). -/
def State.putStates (i : Nat) (r : Nat × Int × Int × Int × Bool) (s : State) : State :=
  let p (v : Int) : Word := BitVec.ofInt 32 v
  (((s.setReg (R.SCA_SEC_S1 i) (p r.2.1)).setReg (R.SCA_SEC_S2 i) (p r.2.2.1)).setReg (R.SCA_SEC_S3 i)
    (p r.2.2.2.1)).put (F.SCA_SEC_SEXP_e i) r.1

/-- One computation of section `i` from the input `x` (R257 to R262): its output and the state after it. -/
def State.section (i : Nat) (x : Int) (s : State) : Int × State :=
  if s.flag (F.SCA_SEC_SCTL_bypass i) then (x, s.zeroSection i)
  else
    let two := s.flag (F.SCA_SEC_SCTL_p2 i)
    let sha (k : Nat) : Nat := natBits (s.get (F.SCA_SEC_SHA_s i)) (5 * k) 5
    let shb (k : Nat) : Nat := natBits (s.get (F.SCA_SEC_SHB_s i)) (5 * k) 5
    let e := s.get (F.SCA_SEC_SEXP_e i)
    let s1 := s.regInt (R.SCA_SEC_S1 i) * 2 ^ e
    let s2 := s.regInt (R.SCA_SEC_S2 i) * 2 ^ e
    let s3 := if two then 0 else s.regInt (R.SCA_SEC_S3 i) * 2 ^ e
    let y := accClamp (prodSignal (s.regInt (R.SCA_SEC_B0 i)) (sha 0) x + s1)
    let v1 := accClamp (prodSignal (s.regInt (R.SCA_SEC_B1 i)) (sha 1) x -
      prodAcc (s.regInt (R.SCA_SEC_A1 i)) (shb 0) y.1 + s2)
    let v2 := accClamp (prodSignal (s.regInt (R.SCA_SEC_B2 i)) (sha 2) x -
      prodAcc (s.regInt (R.SCA_SEC_A2 i)) (shb 1) y.1 + s3)
    let v3 := if two then (0, false) else accClamp (prodSignal (s.regInt (R.SCA_SEC_B3 i)) (sha 3) x -
      prodAcc (s.regInt (R.SCA_SEC_A3 i)) (shb 2) y.1)
    let r := renorm v1.1 v2.1 v3.1
    let satA := y.2 || v1.2 || v2.2 || v3.2
    let s := s.putStates i r
    let s := doIf satA (State.put (F.SCA_SEC_SCTL_satacc i) 1) s
    let s := doIf r.2.2.2.2 (State.put (F.SCA_SEC_SCTL_satst i) 1) s
    let s := doIf (satA || r.2.2.2.2) (State.raiseAt F.SCA_SAT_loop (i / 8)) s
    let out := halfUp y.1 32
    (if out = 2 ^ 31 then clampI (-(2 ^ 31)) (2 ^ 31 - 1) Config.signalTop else out, s)

/-! ## Seek profiles -/

/-- The numerator of the displacement of a profile at sample `k`, over `2 · n⁵` (R273, R276). -/
def Seek.num (q : Seek) (k : Int) : Int :=
  let n : Int := q.n
  2 * n ^ 5 * q.v0 * k + n ^ 5 * q.a0 * k ^ 2 + n ^ 2 * (20 * q.d - 12 * q.v0 * n - 3 * q.a0 * n ^ 2) * k ^ 3 +
    n * (16 * q.v0 * n + 3 * q.a0 * n ^ 2 - 30 * q.d) * k ^ 4 + (12 * q.d - 6 * q.v0 * n - q.a0 * n ^ 2) * k ^ 5

/-- The numerator of its velocity, over `2 · n⁵`. -/
def Seek.vnum (q : Seek) (k : Int) : Int :=
  let n : Int := q.n
  2 * n ^ 5 * q.v0 + 2 * n ^ 5 * q.a0 * k + 3 * n ^ 2 * (20 * q.d - 12 * q.v0 * n - 3 * q.a0 * n ^ 2) * k ^ 2 +
    4 * n * (16 * q.v0 * n + 3 * q.a0 * n ^ 2 - 30 * q.d) * k ^ 3 + 5 * (12 * q.d - 6 * q.v0 * n - q.a0 * n ^ 2) * k ^ 4

/-- The numerator of its acceleration, over `2 · n⁵`. -/
def Seek.anum (q : Seek) (k : Int) : Int :=
  let n : Int := q.n
  2 * n ^ 5 * q.a0 + 6 * n ^ 2 * (20 * q.d - 12 * q.v0 * n - 3 * q.a0 * n ^ 2) * k +
    12 * n * (16 * q.v0 * n + 3 * q.a0 * n ^ 2 - 30 * q.d) * k ^ 2 + 20 * (12 * q.d - 6 * q.v0 * n - q.a0 * n ^ 2) * k ^ 3

/-- The reference position at the present sample of a profile: its end exactly, otherwise the rounded quotient. -/
def Seek.ref (q : Seek) : Int :=
  if q.n ≤ q.k then q.p0 + q.d else q.p0 + seekQuot (q.num q.k) (2 * q.n ^ 5)

/-- The reference acceleration `lead` samples ahead, as a signal word; zero past the end. -/
def Seek.acc (q : Seek) (lead : Nat) : Int :=
  if q.n ≤ q.k + lead then 0 else seekQuot (16 * q.anum (q.k + lead)) (2 * q.n ^ 5)

/-- `√w ≤ t`, or `-√w ≤ t`. -/
def sqrtLe (neg : Bool) (w t : Int) : Bool :=
  if neg then decide (0 ≤ t ∨ t * t ≤ w) else decide (0 ≤ t ∧ w ≤ t * t)

/-- The peak acceleration of the motion over `n` samples from position `p`, velocity `v` and acceleration `a` to rest at `g`
is at most `m` (R276). `n ^ 2` times the acceleration at the fraction `τ` of the motion is
`a·n² + 3·c3·τ + 6·c4·τ² + 10·c5·τ³`; between the ends it peaks where its derivative is zero, at `(-4·c4 ± √w) / (20·c5)`. -/
def replanFits (p v a g : Int) (m n : Nat) : Bool :=
  let k : Int := n
  let d := g - p
  let c3 := 20 * d - 12 * v * k - 3 * a * k ^ 2
  let c4 := 16 * v * k + 3 * a * k ^ 2 - 30 * d
  let c5 := 12 * d - 6 * v * k - a * k ^ 2
  let top : Int := m * k ^ 2
  let w := 16 * c4 ^ 2 - 40 * c5 * c3
  let peak (neg : Bool) : Bool :=
    let le (t : Int) := sqrtLe neg w t
    let ge (t : Int) := sqrtLe (!neg) w (-t)
    let inside := if 0 < c5 then ge (4 * c4) && le (20 * c5 + 4 * c4) else le (4 * c4) && ge (20 * c5 + 4 * c4)
    let y := 40 * c5 * (10 * c5 * a * k ^ 2 - 2 * c3 * c4) + 4 * c4 * w
    let l := 400 * c5 ^ 2 * top
    !inside || (sqrtLe (!neg) (w ^ 3) (l - y) && sqrtLe neg (w ^ 3) (y + l))
  decide (a.natAbs ≤ m) &&
    (if c5 = 0 then
      decide (c4 = 0 ∨ 0 < c3 * c4 ∨ 4 * c4.natAbs < c3.natAbs ∨ ((8 * c4 * a * k ^ 2 - 3 * c3 ^ 2).natAbs : Int) ≤ 8 * c4.natAbs * top)
    else if w < 0 then true
    else peak false && peak true)

/-- The first number from `n` on, among `fuel` of them, that passes a test. -/
def firstFit (ok : Nat → Bool) : Nat → Nat → Option Nat
  | 0, _ => none
  | fuel + 1, n => if ok n then some n else firstFit ok fuel (n + 1)

/-- The length of a re-planned motion (R276): the smallest whose peak acceleration is at most `m`; open where none of
65,535 is. -/
def replanLength (p v a g : Int) (m : Nat) : Nat :=
  (firstFit (replanFits p v a g m) 65535 1).getD (max 1 (Config.replanLength p v a g m))

/-- The length of a profile (R273): the larger of nmin and the smallest N whose peak acceleration is at most amax. -/
def seekLength (d : Int) (amax nmin : Nat) : Nat :=
  let need := 57735 * 256 * d.natAbs
  let m := if amax = 0 then (if d = 0 then 0 else Config.lengthNoLimit d)
    else isqrtUp (ceilDiv need (10000 * 4096 * amax))
  max nmin (max 1 m)

/-- A seek, unload or load is in progress on actuator `a` (R245, R274). -/
def State.moving (s : State) (a : Fin 4) : Bool := s.bit F.SRV_STAT_seek a

/-! ## The write-unsafe force -/

/-- The conditions of R245 on actuator `a`, each with the WFMASK bit of its source (R206). -/
def State.forceSources (s : State) (a : Fin 4) : List (Bool × Nat) :=
  let pes := (s.act a).pes
  let wu := s.get (F.SRV_MISS_wu a)
  [(decide (s.get (F.SRV_WLIM_lim a) < pes.natAbs), 0),
   (decide (wu ≤ (s.act a).miss), 0),
   (s.moving a, 0),
   (s.servo.shock || (s.act a).shock != 0, 1),
   ((s.servo.flutter.map (fun f => s.getA (F.SCA_LCFG_act f.loop) == a)).getD false, 0)]

/-- Starts the force of R245 on lane `a` if a condition holds; a force that begins is a write-unsafe event. -/
def State.forceOn (a : Fin 4) (s : State) : State :=
  match (s.forceSources a).find? (·.1) with
  | none => s
  | some (_, m) =>
    if s.bit F.SRV_STAT_force a then s.onLane a (fun l => { l with wunsafe := true })
    else (s.putBit F.SRV_STAT_force a true).writeUnsafe a (some m)

/-- Ends the force at a valid sample at which no condition holds. -/
def State.forceOff (a : Fin 4) (s : State) : State :=
  if (s.forceSources a).any (·.1) then s else s.putBit F.SRV_STAT_force a false

/-! ## Motion requests -/

/-- A seek, unload or load begins on actuator `a`: busy, not done. -/
def State.beginMove (a : Fin 4) (s : State) : State :=
  ((((s.onAct a (fun x => { x with skdone := false })).put (F.SCA_SKSTAT_busy a) 1).put (F.SCA_SKSTAT_done a) 0).putBit
    F.SRV_STAT_seek a true).forceOn a

/-- It ends. -/
def State.endMove (a : Fin 4) (done : Bool) (s : State) : State :=
  ((s.put (F.SCA_SKSTAT_busy a) 0).put (F.SCA_SKSTAT_done a) (if done then 1 else 0)).putBit F.SRV_STAT_seek a false

/-- A seek request that begins at the next valid sample (R272), to the track given. -/
def State.wantSeek (a : Fin 4) (track : Nat) (s : State) : State :=
  ((s.onAct a (fun x => { x with want := some track })).put (F.SCA_SKSTAT_replan a) 0).beginMove a

/-- SRVOP SEEK (R272, R275): held while a seek is in progress. -/
def State.seek (a : Fin 4) (track : Nat) (s : State) : State :=
  if s.moving a then s.onAct a (fun x => { x with next := some track }) else s.wantSeek a track

/-- SEEKSALT (R276): re-plans a seek in progress at the next sample, otherwise a seek. -/
def State.seekSalt (a : Fin 4) (track : Nat) (s : State) : State :=
  if (s.act a).seek.isSome then
    (s.onAct a (fun x => { x with replan := some track, next := none })).put (F.SCA_SKSTAT_replan a) 1
  else if (s.act a).ramp.isSome then s.onAct a (fun x => { x with next := some track })
  else s.wantSeek a track

/-- UNLOAD or LOAD (R277): velocity control to or from the ramp; an unload ends any seek. -/
def State.rampMove (a : Fin 4) (unload : Bool) (s : State) : State :=
  (s.onAct a (fun x =>
    { x with ramp := some unload, seek := none, want := none, next := none, replan := none })).beginMove a

/-- Unloads every fitted actuator whose heads are loaded. -/
def State.unloadAll (s : State) : State :=
  doAll allLanes (fun a => doIf (s.fitted a && s.loaded a && (s.act a).ramp != some true) (State.rampMove a true)) s

/-! ## Loops -/

/-- Loop `n` is enabled in the active configuration (R255). -/
def State.loopOn (s : State) (n : Nat) : Bool := s.getA (F.SCA_LCFG_en n) == 1

/-- The input of loop `n` (R250). -/
def State.loopInput (s : State) (n : Nat) : Int :=
  let a : Fin 4 := Fin.ofNat 4 (s.getA (F.SCA_LCFG_act n))
  match s.getA (F.SCA_LCFG_src n) with
  | 1 => 16 * (s.act a).pes
  | 2 => 16 * (s.act a).pes + s.regInt (R.SCA_LOUT (s.getA (F.SCA_LCFG_aux n)))
  | 3 => ((s.act a).seek.map (fun q => q.acc (s.getA (F.SCA_LCFG_lead n)))).getD 0
  | 4 => clampI (-(2 ^ 31)) (2 ^ 31 - 1) (65536 * ((s.get F.SCA_RAMPSP_sp : Int) - s.get F.SRV_SPDM_rpm))
  | 5 => s.servo.vib
  | _ => 0

/-- The cascade of loop `n` from section `k` (R263): the output of each section computed, newest first. -/
def State.cascade (n : Nat) : Nat → Nat → Int → List Int → State → Int × List Int × State
  | 0, _, x, l, s => (x, l, s)
  | c + 1, k, x, l, s =>
    let r := s.section (8 * n + k) x
    State.cascade n c (k + 1) r.1 (r.1 :: l) r.2

/-- One computation of loop `n` (R251, R254, R263). -/
def State.runLoop (n : Nat) (s : State) : State :=
  let lim : Int := s.get (F.SCA_LLIM_lim n)
  let r := s.cascade n (s.getA (F.SCA_LCFG_nsec n)) 0 (s.loopInput n) []
  let out := clampI (-lim) lim r.1
  let tap := s.getA (F.SCA_LCFG_tap n)
  let sent := if tap = 0 then out else clampI (-lim) lim (r.2.1.reverse.getD (tap - 1) 0)
  let s := r.2.2.setReg (R.SCA_LOUT n) (BitVec.ofInt 32 out)
  { s with servo := { s.servo with dest := s.servo.dest.set! n sent } }

/-- A loop that is disabled: output zero, states cleared (R255). -/
def State.stopLoop (n : Nat) (s : State) : State :=
  let s := doAll (List.range 8) (fun k => State.zeroSection (8 * n + k)) (s.setReg (R.SCA_LOUT n) 0)
  { s with servo := { s.servo with dest := s.servo.dest.set! n 0 } }

/-- The value that R253 adds for loop `n`: what it sends, or the relay of flutter (R283). -/
def State.loopValue (s : State) (n : Nat) : Int :=
  match s.servo.flutter with
  | some f => if f.loop = n then (if f.up then (s.get F.SCA_FLAMP_h : Int) else -(s.get F.SCA_FLAMP_h : Int))
      else s.servo.dest.toList.getD n 0
  | none => s.servo.dest.toList.getD n 0

/-- The loops that are enabled and computed at the samples of actuator `a`, in slot order (R249, R252). -/
def State.loopsOf (s : State) (a : Fin 4) : List Nat :=
  (List.range 16).filter (fun n => s.loopOn n && s.getA (F.SCA_LCFG_act n) == a && s.getA (F.SCA_LCFG_src n) != 4)

/-- The demands of actuator `a` (R253). -/
def State.demands (a : Fin 4) (s : State) : State :=
  let on (d : Nat) (own : Bool) : List Nat := (List.range 16).filter (fun n =>
    s.loopOn n && s.getA (F.SCA_LCFG_dst n) == d && (s.getA (F.SCA_LCFG_act n) == a) == own)
  let sum (l : List Nat) (f : Nat → Int) : Int := l.foldl (fun t n => t + f n) 0
  let ff := gain (sInt 16 (s.get (F.SCA_SKFF_g a)) * (s.act a).acc) 65536
  let cross (n : Nat) : Int := gain (sInt 16 (s.get (F.SCA_FFG_g n a)) * s.servo.dest.toList.getD n 0) 16384
  let v := clampI (-65536) 65536 (sum (on 1 true) s.loopValue + ff + sum (on 4 false) cross)
  let m := clampI (-65536) 65536 (sum (on 2 true) s.loopValue)
  (s.setReg (R.SCA_VDM a) (BitVec.ofInt 32 v)).setReg (R.SCA_MDM a) (BitVec.ofInt 32 m)

/-- The demands of actuator `a` go to zero (R247). -/
def State.noDemand (a : Fin 4) (s : State) : State := (s.setReg (R.SCA_VDM a) 0).setReg (R.SCA_MDM a) 0

end Sys2Proof.Machine
end

