-- ==== Sys2Proof/Machine/SetOps.lean ====
section
/-! DEFINITION. The servo set loader (06_servo_compute.md R266 to R271): a set is installed one loop at a time, after
the loop's next computation. -/

namespace Sys2Proof.Machine
open Sys2Proof

/-- Word `w` of set `i` of the set store (R267). -/
def State.setWord9 (s : State) (i w : Nat) : Word := cget (fun _ => (0 : Word)) s.servo.store (1280 * i + w)

/-- The coefficient registers of section `n`, in the order of the set layout. -/
def sectionRegs (n : Nat) : List Nat :=
  [R.SCA_SEC_B0 n, R.SCA_SEC_B1 n, R.SCA_SEC_B2 n, R.SCA_SEC_B3 n, R.SCA_SEC_A1 n, R.SCA_SEC_A2 n, R.SCA_SEC_A3 n,
   R.SCA_SEC_SHA n, R.SCA_SEC_SHB n]

/-- The registers that the loader writes for loop `n`, each with its word within a set (R267, R268). -/
def State.loopWords (s : State) (n : Nat) : List (Nat × Nat) :=
  let a := s.getA (F.SCA_LCFG_act n)
  (List.range 8).flatMap (fun k => (List.range 9).map
    (fun j => ((sectionRegs (8 * n + k)).getD j 0, 9 * (8 * n + k) + j))) ++
  (List.range 4).map (fun t => (R.SCA_FFG n t, 1152 + 4 * n + t)) ++
  (if s.getA (F.SCA_LCFG_dst n) = 1 then [(R.SCA_SKFF a, 1216 + a), (R.SRV_SKP a, 1220 + a)] else [])

/-- Writes the words of set `i` for loop `n`, then the software writes held meanwhile (R268, R270). -/
def State.installLoop (i n : Nat) (s : State) : State :=
  let ws := s.loopWords n
  let s := doAll ws (fun w s => State.take w.1 (s.setWord9 i w.2) s) s
  let mine := s.servo.heldW.filter (fun h => ws.any (fun w => w.1 == h.1))
  let rest := s.servo.heldW.filter (fun h => !(ws.any (fun w => w.1 == h.1)))
  doAll mine (fun h s => State.take h.1 h.2 s) { s with servo := { s.servo with heldW := rest } }

/-- Installs loop `n` of set `i`, or, where one of the words has an uncorrectable error, stops the loader before it (R271). -/
def State.installOr (i n : Nat) (s : State) : State :=
  let x := (s.loopWords n).foldl (fun (x : Bool × State) w =>
    let y := x.2.readWords 6 0 ((1280 * i + w.2) / 2) 1 false none
    (x.1 || y.1, y.2)) (false, s)
  if x.1 then
    ({ x.2 with servo := { x.2.servo with install := none, badSet := some i } }.put F.SRV_SETST_busy 0).raise F.SRV_ERR_setecc
  else x.2.installLoop i n

/-- The loader's part after a computation of loop `n`. -/
def State.afterLoop (n : Nat) (s : State) : State :=
  match s.servo.install with
  | some (i, l) =>
    if l.contains n then
      let s := s.installOr i n
      { s with servo := { s.servo with install := s.servo.install.map (fun x => (x.1, x.2.filter (· != n))) } }
    else s
  | none => s

/-- Loop `n` is computed: it is enabled, SCA_CTL.run is 1, and the loop is the spindle's or its actuator takes samples (R247, R249). -/
def State.computed (s : State) (n : Nat) : Bool :=
  let a : Fin 4 := Fin.ofNat 4 (s.getA (F.SCA_LCFG_act n))
  s.loopOn n && s.flag F.SCA_CTL_run &&
    (s.getA (F.SCA_LCFG_src n) == 4 || (s.loaded a && (s.act a).ramp.isNone && !(s.lane a).lost))

/-- Writes the loops of `l` that are not computed, as far as no error stops the loader. -/
def State.installIdle (i : Nat) (l : List Nat) (s : State) : State :=
  doAll (l.filter (fun n => !(s.computed n))) (fun n s => if s.servo.install.isSome then s.installOr i n else s) s

/-- Starts installing set `i`: an invalid marker stops it (R271), and the loops that are not computed are written at
once. -/
def State.startInstall (i : Nat) (s : State) : State :=
  if s.setWord9 i 1279 ≠ 0x53455431#32 then { s with servo := { s.servo with badSet := some i } }.raise F.SRV_ERR_setinv
  else
    let s := s.put F.SRV_SETST_busy 1
    let s := { s with servo := { s.servo with install := some (i, (List.range 16).filter s.computed) } }
    s.installIdle i (List.range 16)

/-- The speed point of set `i`, rpm. -/
def State.setPoint (s : State) (i : Nat) : Nat := (s.setWord9 i 1277).toNat

/-- Distance of two speeds. -/
def apart (a b : Nat) : Nat := max a b - min a b

/-- The set whose point is nearest to the measured speed; the lowest of equals. -/
def State.nearestSet (s : State) (rpm : Nat) : Option Nat :=
  ((List.range 8).filter (fun i => s.setPoint i != 0)).foldl
    (fun b i => match b with
      | none => some i
      | some j => if apart (s.setPoint i) rpm < apart (s.setPoint j) rpm then some i else b) none

/-- Automatic installation (R269), but of a set that the firmware has still to rewrite (R271). -/
def State.autoset (s : State) : State :=
  if s.flag F.SRV_SETST_busy || !(s.flag F.SRV_CTL_autoset || s.harvesting) then s
  else
    let rpm := s.get F.SRV_SPDM_rpm
    let act := s.get F.SRV_SETST_act
    match s.nearestSet rpm with
    | none => s
    | some i =>
      let pa := s.setPoint act
      let pi := s.setPoint i
      if s.servo.badSet ≠ some i ∧ i ≠ act ∧ min pa pi ≤ 100 * (apart pa rpm - apart pi rpm) ∧ apart pi rpm < apart pa rpm then s.startInstall i
      else s

end Sys2Proof.Machine
end

