-- ==== Sys2Proof/Machine/Budget.lean ====
section
/-! DEFINITION. The harvest budget (08_harvest.md R333 to R338): the lanes counted, the conditions that make it zero,
and the energy integral in fixed point. The arithmetic is exact to far below one KiB, and how its quotients are brought
to whole KiB is open. -/

namespace Sys2Proof.Machine
open Sys2Proof

/-- SPN_STAT.state (R295): 0 OFF, 1 SENSE, 2 BRAKE, 3 PROBE, 4 ALIGN, 5 GO, 6 RUN, 7 STOP, 8 RECT, 9 FAULT. -/
def State.spnState (s : State) : Nat := s.get F.SPN_STAT_state

/-- The measured speed, rpm (R278). -/
def State.rpm (s : State) : Nat := s.get F.SRV_SPDM_rpm

/-- Lane `n` is counted (R336). -/
def State.laneCounted (s : State) (n : Fin 4) : Bool :=
  s.laneUp n && s.mcs n != 0 && s.mcs n != 5 && s.flag (F.MCS_LDCTL_match n) && s.loaded n && !(s.lane n).lost

/-- The lanes counted. -/
def State.counted (s : State) : List Nat := (allLanes.filter s.laneCounted).map (·.val)

/-- The lanes that the budget uses: one fewer than counted, three at most (R42, R336). -/
def State.budgetLanes (s : State) : Nat := min 3 (s.counted.length - 1)

/-- The budget parameters in force are invalid (R335). -/
def State.parBad (s : State) : Bool :=
  s.getA F.HRV_INERTIA_j == 0 || s.getA F.HRV_CRATE_bytes == 0 || s.getA F.HRV_PAR0_eta == 0 ||
    s.getA F.HRV_PAR1_pload == 0 || decide (8000 < s.getA F.HRV_PAR1_pload)

/-- A condition that makes the budget zero holds (R335). -/
def State.budgetZero (s : State) : Bool :=
  !(s.flag F.SPN_STAT_upok) || s.spnState == 9 || !(s.flag F.HRV_CTL_arm) || s.parBad || s.harvesting || s.diapause

/-- The square of the angular speed of 1 rpm, (2π / 60)², in units of 10⁻²¹. -/
def omegaSq : Nat := 10966227112321509576

/-- The windage in mW, times 2²⁰, at a speed in rpm times 2²⁰: linear between entries and held at the ends (R334). -/
def State.windage (s : State) (n20 : Nat) : Nat :=
  let t := ((List.range 8).map (fun k => (s.getA (F.HRV_WIND_rpm k) * 2 ^ 20, s.getA (F.HRV_WIND_mw k)))).filter
    (fun e => e.1 != 0)
  let below := (t.filter (fun e => e.1 ≤ n20)).getLast?
  let above := (t.filter (fun e => decide (n20 < e.1))).head?
  match below, above with
  | none, none => 0
  | some b, none => b.2 * 2 ^ 20
  | none, some a => a.2 * 2 ^ 20
  | some b, some a =>
    ((b.2 : Int) * 2 ^ 20 + ((a.2 : Int) - b.2) * 2 ^ 20 * (n20 - b.1 : Nat) / (a.1 - b.1 : Nat)).toNat

/-- E_u of R333 as a span of squared speed: ω₀² less ω_stop², in rpm² times 2⁴⁰, zero where it is not positive. -/
def State.usable (s : State) (rpm : Nat) : Nat :=
  let kept := (s.getA F.HRV_PAR1_epark + s.getA F.HRV_PAR1_eres) * 512 * 10 ^ 29 * 2 ^ 40 /
    (s.getA F.HRV_PAR0_eta * s.getA F.HRV_INERTIA_j * omegaSq)
  (rpm * rpm - s.getA F.HRV_PAR0_wmin * s.getA F.HRV_PAR0_wmin) * 2 ^ 40 - kept

/-- The bytes that the `k`-th of 32 parts of the energy writes, with `n` lanes (R334). -/
def State.energyPart (s : State) (n rpm x k : Nat) : Nat :=
  let at_ (i : Nat) : Nat := isqrt (rpm * rpm * 2 ^ 40 - i * x / 32)
  let wm := (at_ (k - 1) + at_ k) / 2
  let eta := s.getA F.HRV_PAR0_eta
  let p := s.getA F.HRV_PAR1_pload * 256 * 2 ^ 20 + eta * s.windage wm
  n * s.getA F.HRV_CRATE_bytes * wm * x * eta * s.getA F.HRV_INERTIA_j * omegaSq * 256 * 1000 /
    (60 * 2 ^ 40 * 32 * 512 * 10 ^ 30 * p)

/-- The budget in KiB at a speed with `n` lanes (R334), the cap of R73 included; zero where R335 lays it down. -/
def State.budgetAt (s : State) (n rpm : Nat) : Nat :=
  let x := s.usable rpm
  if n = 0 ∨ s.budgetZero ∨ x = 0 then 0
  else
    let d := sumOf (List.range 32) (fun i => s.energyPart n rpm x (i + 1))
    let less := n * s.getA F.HRV_CRATE_bytes * rpm * s.getA F.HRV_PAR2_tseek / 6000000 +
      s.getA F.HRV_PAR2_ovh * 2 ^ 20
    min (quot ((d - less) * 100) ((100 + s.getA F.HRV_PAR0_margin) * 1024)) (s.get F.MAP_SALTFREE_slots * 16)

/-- ω₀: the lower of the measured and the targeted speed (R333). -/
def State.budgetRpm (s : State) : Nat := min s.rpm (s.get F.SPN_TGT_rpm)

/-- A write contract is active (R389, R498). -/
def State.writeContract (s : State) : Bool :=
  (List.range 16).any (fun i => s.get (F.CTR_C_CFG_state i) == 2 && s.getA (F.CTR_C_CFG_dir i) == 0)

/-- The budget takes a value (R335, R365): HRV_STAT.wt is 1 while it is zero, and its rise is reported (R498, R609). -/
def State.setBudget (kib : Nat) (s : State) : State :=
  let rise := kib == 0 && !(s.flag F.HRV_STAT_wt)
  let s := (s.put F.HRV_BUDGET_kib kib).put F.HRV_STAT_wt (if kib = 0 then 1 else 0)
  let s := if rise then
      let s := s.post 1 0x13 (leBytes 4 0 ++ leBytes 4 (s.get F.HRV_DIRTY_kib))
      if s.writeContract then s.aen 7 3 0xC6 else s
    else s
  s.checkOver

end Sys2Proof.Machine
end

