-- ==== Sys2Proof/Machine/SpnOps.lean ====
section
/-! DEFINITION. The spindle drive (07_spindle.md): its states, the speed curve, targets and the controlled stop. -/

namespace Sys2Proof.Machine
open Sys2Proof

/-- Changes SPN. -/
def State.onSpn (f : Spn → Spn) (s : State) : State := { s with spn := f s.spn }

/-- The gates of a state (R295). -/
def gatesOf (k : Nat) : Gates :=
  match k with
  | 2 => .zero
  | 3 => .probe
  | 4 => .align
  | 5 => .rotate
  | 6 => .closed
  | 7 => .closed
  | 8 => .rectify
  | _ => .off

/-- Enters a state; SPN_STAT.upok is cleared on leaving RUN for any state but STOP and RECT, and without it, or in FAULT, the budget
is zero (R297, R335). -/
def State.spnTo (k : Nat) (s : State) : State :=
  let s := if s.spnState = 6 ∧ k ≠ 6 ∧ k ≠ 7 ∧ k ≠ 8 then (s.put F.SPN_STAT_upok 0).setBudget 0 else if k = 9 then s.setBudget 0 else s
  (s.put F.SPN_STAT_state k).onSpn (fun x => { x with gates := gatesOf k })

/-- Both dirty counts are zero. -/
def State.clean (s : State) : Bool := s.get F.HRV_DIRTY_kib == 0 && s.get F.HRV_WTDIRTY_kib == 0

/-! ## The speed curve -/

/-- point_for (R314): the point of the highest breakpoint whose threshold is at most `d`, or 0. -/
def State.pointFor (s : State) (d : Nat) : Nat :=
  (List.range (s.getA F.SPN_CRVHDR_nbp)).foldl
    (fun p j => if s.getA (F.SPN_CRVBP_thr j) ≤ d then s.getA (F.SPN_CRVBP_pt j) else p) 0

/-- A point under the acoustic and the power-state cap (R316). -/
def State.capped (s : State) (p : Nat) : Nat := min p (min (s.get F.SPN_CEIL_acou) (s.get F.SPN_CEIL_pcap))

/-- The speed of point `k`, rpm. -/
def State.pointRpm (s : State) (k : Nat) : Nat := s.getA (F.SPN_CRVPT_rpm k)

/-- The curve in the shadow registers meets R312. -/
def State.curveGood (s : State) : Bool :=
  let np := s.get F.SPN_CRVHDR_npts
  let nb := s.get F.SPN_CRVHDR_nbp
  decide (np ≤ 8 ∧ nb ≤ 16) &&
    (List.range (np - 1)).all (fun k => decide (s.get (F.SPN_CRVPT_rpm k) < s.get (F.SPN_CRVPT_rpm (k + 1)))) &&
    (List.range (nb - 1)).all (fun j => decide (s.get (F.SPN_CRVBP_thr j) < s.get (F.SPN_CRVBP_thr (j + 1))) &&
      decide (s.get (F.SPN_CRVBP_pt j) ≤ s.get (F.SPN_CRVBP_pt (j + 1)))) &&
    (List.range nb).all (fun j => decide (s.get (F.SPN_CRVBP_pt j) < np)) &&
    decide (s.get F.SPN_CRVHDR_start < np ∨ np = 0 ∧ s.get F.SPN_CRVHDR_start = 0 ∧ nb = 0)

/-- The staged registers of the curve. -/
def curveRegs : List Nat :=
  [R.SPN_CRVHDR, R.SPN_CRVHYS] ++ (List.range 8).map R.SPN_CRVPT ++ (List.range 16).map R.SPN_CRVBP

/-! ## Targets -/

/-- Passes a target to the ramp (R310); from the start of a deceleration on, the target's budget is in force (R44). -/
def State.passTarget (rpm pt : Nat) (s : State) : State :=
  let lower := decide (rpm < s.get F.SPN_TGT_rpm)
  let s := (((s.put F.SPN_TGT_rpm rpm).put F.SPN_TGT_hold 0).put F.SPN_STAT_point pt).put F.SPN_TGT_point pt
  let s := s.onSpn (fun x => { x with wait := none })
  if lower then s.setBudget (s.budgetAt s.budgetLanes s.budgetRpm) else s

/-- A new target: a higher one is passed at once, a lower one waits for the target's budget unless nothing is dirty
(R310, R44). -/
def State.setTarget (rpm pt : Nat) (s : State) : State :=
  if rpm < s.get F.SPN_TGT_rpm ∧ s.get F.HRV_DIRTY_kib ≠ 0 then
    if s.spn.wait = some (rpm, pt) then s
    else ((s.put F.SPN_TGT_hold 1).put F.SPN_TGT_point pt).onSpn (fun x => { x with wait := some (rpm, pt), tbFresh := false })
  else s.passTarget rpm pt

/-- The curve is the source and asks for a speed (R296). -/
def State.curveRuns (s : State) : Bool := s.get F.SPN_CTL_src == 1 && s.flag F.SPN_CTL_run

/-- `SPDCMD` is the source and commands a speed. -/
def State.pinRuns (s : State) : Bool :=
  s.get F.SPN_CTL_src == 2 && s.flag F.SPN_SPDV_valid && !(s.flag F.SPN_SPDV_stop)

/-- The speed source asks for a speed above zero. -/
def State.wantsSpin (s : State) : Bool := s.curveRuns || s.pinRuns

/-- Evaluates the curve (R314) and passes the target of R310. -/
def State.evalCurve (s : State) : State :=
  let d := s.get F.CTR_DREP_mbps
  let h := if s.spn.window then s.getA F.SPN_CRVHYS_onband else s.getA F.SPN_CRVHYS_hyst
  let up := s.pointFor d
  let dn := s.pointFor (d * (100 + h) / 100)
  let cur := s.get F.SPN_TGT_curve
  let cur := if cur < up then up else if dn < cur then dn else cur
  let s := s.put F.SPN_TGT_curve cur
  let p := s.capped cur
  s.setTarget (s.pointRpm p) p

/-- The target of the source, at a start and after a stop is cancelled. -/
def State.sourceTarget (s : State) : State :=
  if s.curveRuns then s.evalCurve else if s.pinRuns then s.setTarget (s.get F.SPN_SPDV_rpm) 0 else s

/-! ## Starting and stopping -/

/-- A start (R296): from OFF to SENSE, with cur of R315 and the turn-on window open. It cancels a stop in its steps 1
to 3 (R309), and has no effect in any other state. The heads are to be loaded at its head-load speed (R555). -/
def State.startSpin (s : State) : State :=
  if !(s.flag F.SPN_CTL_arm) || (s.diapause && s.get F.HRV_DIAP_cause == 4) then s
  else if 1 ≤ s.spn.stop ∧ s.spn.stop ≤ 3 then
    let s := if s.spnState = 7 then s.spnTo 6 else s
    let s := { s with boot := { s.boot with loadReq := s.boot.loadReq && s.spn.stop == 1 } }
    (s.onSpn (fun x => { x with stop := 0, wait := none })).sourceTarget
  else if s.spnState = 0 then
    let cur := max (s.getA F.SPN_CRVHDR_start) (s.pointFor (s.get F.CTR_DREP_mbps))
    let s := s.onSpn (fun x => { x with used := [], probes := 0, startPend := true, window := true, wait := none })
    let s := ((s.put F.SPN_STAT_attempt 0).put F.SPN_STAT_caught 0).put F.SPN_TGT_curve cur
    let s := { s with boot := { s.boot with loadReq := false } }
    (s.put F.SPN_TGT_rpm 0).spnTo 1
  else s

/-- Step 2 of the stop (R309): unloads, then STOP once every actuator is unloaded. -/
def State.stopUnload (s : State) : State :=
  let s := (s.onSpn (fun x => { x with stop := 2 })).unloadAll
  if s.get F.SRV_STAT_loaded = 0 then
    ((s.onSpn (fun x => { x with stop := 3, wait := none })).put F.SPN_TGT_rpm 0 |>.put F.SPN_TGT_hold 0).spnTo 7
  else s

/-- A stop is commanded (R304, R309). -/
def State.stopSpin (s : State) : State :=
  match s.spnState with
  | 1 | 3 | 4 | 5 => (s.onSpn (fun x => { x with startPend := false })).spnTo 2
  | 2 => s.onSpn (fun x => { x with startPend := false })
  | 6 => if s.spn.stop = 0 then s.onSpn (fun x => { x with stop := 1, wait := none }) else s
  | 9 => s.spnTo 0
  | _ => s

/-- Admission is write-through from a stop command on (R309). -/
def State.stopping (s : State) : Bool := s.spn.stop != 0

/-- SPN hands the spindle to closed-loop control (R298, R302): the set-point is loaded with the measured speed, and the bridge voltage
is that of the back-EMF. -/
def State.enterRun (s : State) : State :=
  let s := (s.put F.SCA_RAMPSP_sp s.rpm).onSpn (fun x => { x with spFine := s.rpm * 10000, startPend := false, pi := Config.emf (s.get F.SPN_STAT_obsrpm) x.angle })
  let s := { s with servo := { s.servo with slope := 0, lockTicks := 0 } }
  (s.spnTo 6).sourceTarget

/-- An attempt fails (R303). -/
def State.attemptFail (s : State) : State :=
  let s := s.raise F.SPN_ERR_attempt
  if s.get F.SPN_OPEN_retries ≤ s.get F.SPN_STAT_attempt then
    ((s.raise F.SPN_ERR_start).onSpn (fun x => { x with startPend := false })).spnTo 9
  else ((s.inc F.SPN_STAT_attempt).onSpn (fun x => { x with startPend := true })).spnTo 2

/-- Loss of control in RUN or STOP (R306): back to SENSE, whose attempts are those of a new start. -/
def State.loseControl (f : Field) (s : State) : State :=
  (((s.raise f).onSpn (fun x => { x with startPend := s.wantsSpin, stop := 0, ocRow := 0, used := [], probes := 0 })).put
    F.SPN_STAT_attempt 0).spnTo 1

/-- A harvest trigger (R308). -/
def State.spnHarvest (s : State) : State :=
  match s.spnState with
  | 6 | 7 => (s.onSpn (fun x => { x with stop := 0, wait := none })).spnTo 8
  | 1 | 3 | 4 | 5 => (s.onSpn (fun x => { x with startPend := false })).spnTo 2
  | _ => s

/-- The measured speed is below SPN_FLY.rpm with heads loaded and no harvest in progress (R307): they are unloaded, and
their lanes leave service. -/
def State.flyCheck (s : State) : State :=
  let up := allLanes.filter (fun a => s.loaded a && (s.act a).ramp != some true)
  if s.rpm < s.get F.SPN_FLY_rpm && !(s.harvesting) && !up.isEmpty then
    let s := doAll up (fun a => State.rampMove a true) s
    let s := s.onSpn (fun x => { x with fly := x.fly ++ (up.map (·.val)).filter (fun n => !x.fly.contains n) })
    (s.raise F.SPN_ERR_fly).laneLeft
  else s

/-- The reference lane (R278): the lowest lane in service with its heads loaded and its last sample valid. -/
def State.refLane (s : State) : Option (Fin 4) :=
  allLanes.find? (fun a => s.inService a && s.loaded a && s.flag (F.SRV_POS_valid a))

/-- The measured speed when there is no reference lane is the observer's (R278). -/
def State.observerSpeed (s : State) : State :=
  if s.refLane.isNone then (s.put F.SRV_SPDM_src 1).put F.SRV_SPDM_rpm (s.get F.SPN_STAT_obsrpm) else s

end Sys2Proof.Machine
end

