-- ==== Sys2Proof/Machine/CtrOps.lean ====
section
/-! DEFINITION. Rate contracts (09_rate_contracts.md): conformity, deadlines and their accounts, admission, the demand
and its floor, breaks and the contract log. Quantities of the admission arithmetic are rational numbers. -/

namespace Sys2Proof.Machine
open Sys2Proof

/-- Changes CTR. -/
def State.onCtr (f : CtrSt → CtrSt) (s : State) : State := { s with ctr := f s.ctr }

/-- Contract slot `i` beside its registers. -/
def State.contract (s : State) (i : Nat) : Contract := s.ctr.slots.getD i Contract.none

/-- Changes contract slot `i`. -/
def State.onContract (i : Nat) (f : Contract → Contract) (s : State) : State :=
  s.onCtr (fun c => { c with slots := c.slots.set i (f (c.slots.getD i Contract.none)) })

/-- The state of slot `i` in force: 0 empty, 1 pending, 2 active, 3 broken. -/
def State.slotState (s : State) (i : Nat) : Nat := s.getA (F.CTR_C_CFG_state i)

/-- The slots in a state of the list. -/
def State.slotsIn (s : State) (l : List Nat) : List Nat := (List.range 16).filter (fun i => l.contains (s.slotState i))

/-- A contract is pending or active (R387). -/
def State.bound (s : State) : Bool := !(s.slotsIn [1, 2]).isEmpty

/-- The registers of slot `i`. -/
def slotRegs (i : Nat) : List Nat :=
  [R.CTR_C_CFG i, R.CTR_C_RATE i, R.CTR_C_LAT i, R.CTR_C_BKT i, R.CTR_C_MAX i, R.CTR_C_Q i, R.CTR_C_OFF i, R.CTR_C_RA i] ++
    (List.range 4).flatMap (fun k => [R.CTR_C_ZSF i k, R.CTR_C_ZSC i k])

/-- CTR_STAT, CTR_DEMAND.sum and CTR_DREP follow the slots in force and the floor (R386). -/
def State.ctrTotals (s : State) : State :=
  let mask (l : List Nat) : Nat := l.foldl (fun m i => m + 2 ^ i) 0
  let sum := sumOf (s.slotsIn [1, 2]) (fun i => s.getA (F.CTR_C_RATE_mbps i))
  let s := (s.put F.CTR_STAT_broken (mask (s.slotsIn [3]))).put F.CTR_STAT_active (mask (s.slotsIn [1, 2]))
  let s := s.put F.CTR_DEMAND_sum sum
  s.put F.CTR_DREP_mbps (max (s.get F.CTR_DEMAND_sum) (s.get F.CTR_DEMAND_floor))

/-- Writes a register of CTR as shadow and active value at once. -/
def State.install2 (a : Nat) (v : Nat) (s : State) : State := (s.setReg a (BitVec.ofNat 32 v)).activate a

/-- Puts slot `i` in a state, in force at once. -/
def State.setSlot (i st : Nat) (s : State) : State :=
  ((s.put (F.CTR_C_CFG_state i) st).activate (R.CTR_C_CFG i)).ctrTotals

/-- Adds a contract log record (R399). -/
def State.ctrLogRec (event handle stream dir reason rate : Nat) (s : State) : State :=
  let r : CtrLog := { time := (s.get F.EVT_POTHI_ms * 2 ^ 32 + s.get F.EVT_POTLO_ms) + s.nowMs, event := event
                      handle := handle, stream := stream, dir := dir, reason := reason
                      demand := s.get F.CTR_DEMAND_sum, rate := rate }
  s.onCtr (fun c => { c with log := (r :: c.log).take 126, logged := c.logged + 1 })

/-- A log record about slot `i`. -/
def State.logSlot (event i reason : Nat) (s : State) : State :=
  s.ctrLogRec event i (s.getA (F.CTR_C_CFG_stream i)) (s.getA (F.CTR_C_CFG_dir i)) reason (s.getA (F.CTR_C_RATE_mbps i))

/-! ## Conformity and deadlines -/

/-- A zone lies in the zone set of slot `i`. -/
def State.inZoneSet (s : State) (i z : Nat) : Bool :=
  (List.range 4).any (fun k =>
    let f := s.getA (F.CTR_C_ZSF_first i k)
    decide (f ≤ z ∧ z < f + s.getA (F.CTR_C_ZSC_count i k)))

/-- The bucket of slot `i` now, in bytes: 1 MB/s is a byte in each microsecond (R368). -/
def State.tokensNow (s : State) (i : Nat) : Nat :=
  min (s.getA (F.CTR_C_BKT_kib i) * 1024)
    ((s.contract i).tokens + s.getA (F.CTR_C_RATE_mbps i) * (s.us - (s.contract i).tokUs))

/-- The active slot that a stream and direction are bound to, while deadlines are in force. -/
def State.slotOf (s : State) (stream dir : Nat) : Option Nat :=
  if s.get F.CTR_CTL_en = 0 then none
  else (s.slotsIn [2]).find? (fun i => s.getA (F.CTR_C_CFG_stream i) == stream && s.getA (F.CTR_C_CFG_dir i) == dir)

/-- The check of a command at its fetch (R368 to R370): its slot and deadline if it conforms, which takes its bytes from
the bucket; a command that does not conform is counted. -/
def State.conform (stream dir bytes : Nat) (zones : List Nat) (s : State) : Option (Nat × Nat) × State :=
  match s.slotOf stream dir with
  | none => (none, s)
  | some i =>
    let t := s.tokensNow i
    if bytes ≤ s.getA (F.CTR_C_MAX_blk i) * 4096 ∧ zones.all (s.inZoneSet i) ∧ bytes ≤ t then
      (some (i, (s.ctrTime + s.getA (F.CTR_C_LAT_us i)) % 2 ^ 32),
       s.onContract i (fun c => { c with tokens := t - bytes, tokUs := s.us }))
    else (none, (s.inc (F.CTR_C_EXCESS_count i)).onContract i (fun c => { c with excess := c.excess + 1 }))

/-- CTR_TIME has passed `t`; times are compared modulo 2³² (R370). -/
def State.past (s : State) (t : Nat) : Bool := let d := (s.ctrTime + 2 ^ 32 - t) % 2 ^ 32; decide (1 ≤ d ∧ d < 2 ^ 31)

/-- The accounts of a conforming command whose completion is posted (R373, R398, R399). -/
def State.account (i arrival deadline bytes : Nat) (r : CplRec) (s : State) : State :=
  let took := (s.ctrTime + 2 ^ 32 - arrival) % 2 ^ 32
  let above := s.past deadline
  let missed := above || (r.sct == 7 && r.sc == 0xC1)
  let s := s.put (F.CTR_C_WORST_us i) (max took (s.get (F.CTR_C_WORST_us i)))
  let s := s.inc (F.CTR_C_SERVED_count i)
  let s := s.onContract i (fun c => { c with
    served := c.served + 1
    late := c.late + (if r.success then 0 else 1)
    bytes := c.bytes + (if r.success then bytes else 0) })
  let s := if r.success then s else (s.inc (F.CTR_C_LATE_count i)).raise F.CTR_ERR_late
  let s := doIf above (State.raise F.CTR_ERR_over) s
  let due := match (s.contract i).last06 with
    | none => true
    | some t => decide (1000000 ≤ s.us - t)
  if missed && due then (s.logSlot 6 i 0).onContract i (fun c => { c with last06 := some s.us }) else s

/-! ## Admission -/

/-- What admission takes of one contract: rate, maximum command size and bucket depth in bytes, latency bound,
direction and zone set. -/
structure Terms where
  rate : Nat
  maxBytes : Nat
  depth : Nat
  lat : Nat
  read : Bool
  zones : List (Nat × Nat)
deriving DecidableEq, Repr

/-- The terms of slot `i`. -/
def State.terms (s : State) (i : Nat) : Terms :=
  { rate := s.getA (F.CTR_C_RATE_mbps i), maxBytes := s.getA (F.CTR_C_MAX_blk i) * 4096
    depth := s.getA (F.CTR_C_BKT_kib i) * 1024, lat := s.getA (F.CTR_C_LAT_us i)
    read := s.getA (F.CTR_C_CFG_dir i) == 1
    zones := (List.range 4).map (fun k => (s.getA (F.CTR_C_ZSF_first i k), s.getA (F.CTR_C_ZSC_count i k))) }

/-- Zone `z` lies in the zone set. -/
def Terms.has (t : Terms) (z : Nat) : Bool := t.zones.any (fun r => decide (r.1 ≤ z ∧ z < r.1 + r.2))

/-- The stripes of a zone set. -/
def State.stripesOf (s : State) (t : Terms) : List (Nat × Nat × Nat × Nat) := s.geo.stripes.filter (fun x => t.has x.1)

/-- C_i at a speed, in bytes per µs (R374). -/
def State.capacity (s : State) (t : Terms) (rpm : Nat) : Rat :=
  let one (x : Nat × Nat × Nat × Nat) : Rat :=
    let r := s.ringOf x.2.2.2
    let skew := ((s.geo.rings[r]?).map (·.skew)).getD 0
    ((s.slotsAt x.2.2.2 (s.zone x.1).rate * 16384 * rpm * 512 : Nat) : Rat) / ((60000000 * (512 + skew) : Nat) : Rat)
  match (s.stripesOf t).map one with
  | [] => 0
  | c :: cs => cs.foldl min c

/-- t_seek in µs at a speed (R375): the longest seek on any lane between tracks of the zone sets, with the servo set for
that speed. -/
def State.worstSeek (s : State) (ts : List Terms) (rpm : Nat) : Rat :=
  let one (a : Nat) : Nat :=
    let mine := (ts.flatMap s.stripesOf).filter (fun x => x.2.1 == a)
    let ends := mine.map (fun x =>
      let n := s.bandTracks x.2.2.2
      if s.bandDown x.2.2.1 x.2.2.2 then (x.2.2.2 + 1 - n, x.2.2.2) else (x.2.2.2, x.2.2.2 + n - 1))
    match ends with
    | [] => 0
    | e :: es =>
      let lo := es.foldl (fun m x => min m x.1) e.1
      let hi := es.foldl (fun m x => max m x.2) e.2
      let skp : Word := match s.nearestSet rpm with
        | some i => s.setWord9 i (1220 + a)
        | none => s.reg (R.SRV_SKP a)
      seekLength (((hi - lo) * 4096 : Nat) : Int) ((F.SRV_SKP_amax a).of skp) ((F.SRV_SKP_nmin a).of skp) +
        s.get (F.SRV_STL_cnt a)
  let n := s.lanesIn.foldl (fun m a => max m (one a)) 0
  if rpm = 0 ∨ s.geo.wedges = 0 then 0 else ((n * 60000000 : Nat) : Rat) / ((rpm * s.geo.wedges : Nat) : Rat)

/-- r_link in quarters of a byte per µs (R446): by rate code and width. -/
def State.linkRate (s : State) : Nat :=
  [0, 890, 1780, 3500, 7000, 14000].getD (s.get F.HST_LINK_rate) 0 * s.get F.HST_LINK_width

/-- The guard of R667 in µs for a set of contracts: none without read contracts. -/
def State.guardFor (s : State) (ts : List Terms) : Option Nat :=
  match (ts.filter (·.read)).map (·.maxBytes) with
  | [] => none
  | m :: ms =>
    let top := ms.foldl max m
    if s.linkRate = 0 then some 2551 else some (max 250 (ceilDiv (4 * top + 100 * s.linkRate) (10 * s.linkRate) * 10))

/-- What the checks work out: p as a speed, t_sw, U and T, in µs where they are times. -/
structure Plan where
  rpm : Nat
  tsw : Rat
  util : Rat
  frame : Rat
deriving DecidableEq

/-- The plan of a set of contracts at a speed; none if check 1 fails (R376). -/
def State.plan (s : State) (ts : List Terms) (rpm : Nat) : Option Plan :=
  let n : Nat := s.lanesIn.length
  let rho : Rat := (s.getA F.CTR_RSV_pct : Nat) / 100
  let caps := ts.map (fun t => s.capacity t rpm)
  if n = 0 ∨ rpm = 0 ∨ caps.any (· == 0) then none
  else
    let util := (ts.zip caps).foldl (fun u x => u + (x.1.rate : Rat) / ((n : Rat) * x.2)) 0
    if 1 - rho ≤ util then none
    else
      let tsw := s.worstSeek ts rpm + (60000000 : Rat) / (rpm : Rat)
      let t0 := (ts.length : Rat) * tsw / (1 - rho - util)
      let frame := ts.foldl (fun m t => if t.rate = 0 then m else max m (((n * t.maxBytes : Nat) : Rat) / (t.rate : Rat))) t0
      some { rpm := rpm, tsw := tsw, util := util, frame := frame }

/-- The minimum latency bound of check 2 in µs (R377). -/
def State.minLat (s : State) (ts : List Terms) (pl : Plan) (t : Terms) : Rat :=
  if t.read then
    pl.frame + pl.tsw + (t.maxBytes : Rat) / s.capacity t pl.rpm + 4100 + (((s.guardFor ts).getD 0 : Nat) : Rat)
  else if s.linkRate = 0 then (t.lat : Rat) + 1 else 8 * (t.maxBytes : Rat) / (s.linkRate : Rat) + 250

/-- W in bytes (R379). -/
def reservation (ts : List Terms) (pl : Plan) : Rat :=
  let ws := ts.filter (fun t => !t.read)
  if ws.isEmpty then 0
  else ws.foldl (fun w t => w + (t.rate : Rat) * (pl.frame + pl.tsw) + (t.depth : Rat)) 1048576

/-- A rational number of some unit as a whole number of units; how a fraction is rounded is open. -/
def Rat.units (r : Rat) : Nat := quot r.num.toNat r.den

/-- Crystallizer engines fitted and in service. -/
def State.enginesIn (s : State) : Nat :=
  if s.dom 4 = 4 then 0
  else ((List.range s.variant.lanes).filter (fun e => !(s.bit F.CRYS_STAT_offline e))).length

/-- The point that SPN will target for a reported demand, before and after the caps. -/
def State.pointOf (s : State) (demand : Nat) : Nat × Nat := (s.pointFor demand, s.capped (s.pointFor demand))

/-- The checks 1 to 4 at a speed (R376 to R379): the reason of the first that fails. -/
def State.checks (s : State) (ts : List Terms) (rpm budget : Nat) : Option Nat :=
  match s.plan ts rpm with
  | none => if ts.isEmpty then none else some 4
  | some pl =>
    if ts.any (fun t => decide ((t.lat : Rat) < s.minLat ts pl t)) || (s.guardFor ts).any (fun g => decide (2550 < g)) then
      some 5
    else if ts.any (·.read) && decide (s.enginesIn < s.get F.CTR_CRYCFG_fwin * s.lanesIn.length) then some 6
    else if ((budget * 1024 : Nat) : Rat) < reservation ts pl then some 7
    else none

/-- The speed of a point for admission; under `SPDCMD` it is the speed commanded (R322). -/
def State.speedOf (s : State) (p : Nat) : Nat := if s.get F.SPN_CTL_src = 2 then s.get F.SPN_TGT_rpm else s.pointRpm p

/-- Check 5, and then the others at the point of a demand (R380), with the predicted budget (R379). -/
def State.contractReason (s : State) (ts : List Terms) (demand : Nat) : Option Nat :=
  let p := s.pointOf demand
  if p.1 ≠ p.2 then some 8
  else let rpm := s.speedOf p.2; s.checks ts rpm (s.budgetAt s.budgetLanes rpm)

/-- The terms of the slots of a list. -/
def State.termsOf (s : State) (l : List Nat) : List Terms := l.map s.terms

/-- CRYS_SCHED.guard as the firmware sets it for the contracts bound (R667). -/
def State.setGuard (s : State) : State :=
  match s.guardFor (s.termsOf (s.slotsIn [1, 2])) with
  | some g => s.put F.CRYS_SCHED_guard (min 255 (g / 10))
  | none => s

/-- W in KiB of the contracts bound at a point (R379). -/
def State.wresAt (s : State) (p : Nat) : Nat :=
  let ts := s.termsOf (s.slotsIn [1, 2])
  ((s.plan ts (s.speedOf p)).map (fun pl => Rat.units (reservation ts pl / 1024))).getD 0

/-- CTR_WRES for the contracts in force (R379, R381, R392). -/
def State.setWres (s : State) : State :=
  let act := s.termsOf (s.slotsIn [1, 2])
  let rpm := s.speedOf (s.pointOf (s.get F.CTR_DREP_mbps)).2
  match s.plan act rpm with
  | some pl => s.put F.CTR_WRES_kib (Rat.units (reservation act pl / 1024))
  | none => if (act.filter (fun t => !t.read)).isEmpty then s.put F.CTR_WRES_kib 0 else s

/-- Breaks contract `i` for a reason (R391, R398). -/
def State.breakSlot (i why : Nat) (s : State) : State :=
  let s := (s.onContract i (fun c => { c with why := why })).setSlot i 3
  (((s.logSlot 4 i why).aen 7 1 0xC4).raise F.CTR_ERR_brk).fwEvent 4

/-- The active slots in order of establishment. -/
def State.oldestFirst (s : State) : List Nat :=
  (s.slotsIn [2]).mergeSort (fun a b => decide ((s.contract a).order ≤ (s.contract b).order))

/-- Re-runs admission at a point's speed with a budget, oldest contract first, and breaks each that cannot join (R389): the reason the
event names, or that of the first check that fails. -/
def State.readmit (why : Option Nat) (rpm budget : Nat) (s : State) : State :=
  let kept := s.oldestFirst.foldl (fun (k : List Nat × List (Nat × Nat)) i =>
    match s.checks (s.termsOf (k.1 ++ [i])) rpm budget with
    | none => (k.1 ++ [i], k.2)
    | some r => (k.1, k.2 ++ [(i, why.getD r)])) ([], [])
  doAll kept.2 (fun x s => s.breakSlot x.1 x.2) s

/-- The speed of breakpoint `j`'s point after the caps (R386). -/
def State.bpRpm (s : State) (j : Nat) : Nat := s.pointRpm (s.capped (s.getA (F.SPN_CRVBP_pt j)))

/-- The floor of R386 for the contracts bound: zero, or the threshold of the lowest breakpoint whose point passes; none if none passes.
The point of a breakpoint after the caps exceeds no cap, so check 5 passes there (DEDUCED). -/
def State.floorOf (s : State) : Option Nat :=
  let n := s.getA F.SPN_CRVHDR_nbp
  let ts := s.termsOf (s.slotsIn [1, 2])
  if s.get F.SPN_CTL_src = 2 ∨ n = 0 ∨ (s.contractReason ts (s.get F.CTR_DEMAND_sum)).isNone then some 0
  else ((List.range n).find? (fun j => (s.checks ts (s.bpRpm j) (s.budgetAt s.budgetLanes (s.bpRpm j))).isNone)).map
    (fun j => s.getA (F.SPN_CRVBP_thr j))

/-- CTR_DEMAND.floor takes a value, and the reported demand follows. -/
def State.putFloor (v : Nat) (s : State) : State := (s.put F.CTR_DEMAND_floor v).ctrTotals

/-- The firmware sets the floor after a release or a break (R386): where no breakpoint passes, it is the threshold of the highest,
admission is run again there, and the floor follows what that breaks. -/
def State.setFloor (s : State) : State :=
  match s.floorOf with
  | some v => s.putFloor v
  | none =>
    let j := s.getA F.SPN_CRVHDR_nbp - 1
    let t := (s.putFloor (s.getA (F.SPN_CRVBP_thr j))).readmit none (s.bpRpm j) (s.budgetAt s.budgetLanes (s.bpRpm j))
    match t.floorOf with
    | some v => t.putFloor v
    | none => t

/-- What the firmware recomputes after a release or a break (R392, R667). -/
def State.afterRelease (s : State) : State := s.ctrTotals.setFloor.setWres.setGuard

/-- The speed of the present point (R389). -/
def State.presentRpm (s : State) : Nat := s.speedOf (s.get F.SPN_STAT_point)

/-- Every contract is released by a reset (R393): logged, without an asynchronous event. -/
def State.releaseByReset (s : State) : State :=
  doAll (s.slotsIn [1, 2, 3]) (fun i s => (s.setSlot i 0).logSlot 5 i 0) s

end Sys2Proof.Machine
end

