-- ==== Sys2Proof/Machine/PowerCore.lean ====
section
/-! DEFINITION. What other blocks ask of the power states (12_power_states.md R519, R523 to R525): which domains a state
cocoons, whether BUF holds grants, and the return to an operational state. Domains are numbered as PWR_DSTAT numbers them:
lanes 0 to 3, CRYS 4, MOTION 5 and HBM 6. -/

namespace Sys2Proof.Machine
open Sys2Proof

/-- Changes PWR. -/
def State.onPwr (f : Pwr → Pwr) (s : State) : State := { s with pwr := f s.pwr }

/-- The domains that a power state cocoons (R519). -/
def psCocoons (k : Nat) : List Nat :=
  if k ≤ 1 then [] else if k ≤ 3 then [0, 1, 2, 3, 4] else [0, 1, 2, 3, 4, 5, 6]

/-- BUF grants nothing (R525): an entry runs, the Gorlo is in or leaves a non-operational state, or the HBM or MOTION
does not run. -/
def State.powerHolds (s : State) : Bool :=
  let ph := s.get F.PWR_PSTAT_phase
  ph == 1 || ph == 2 || decide (3 ≤ s.nvme.feats.ps) || !(s.runs 6) || (!(s.runs 5) && s.dom 5 != 4)

/-- An I/O command fetched in PS3 or PS4 (R524, R525, R508): the Gorlo returns to the most recent operational state; a
wake in an entry is noted and acted on when the entry ends. -/
def State.leavePs (s : State) : State :=
  if s.nvme.feats.ps < 3 then s
  else
    let k := s.pwr.lastOp
    let s := { s with nvme := { s.nvme with feats := { s.nvme.feats with ps := k } } }
    let s := s.onPwr (fun p => { p with to_ := some k })
    let ph := s.get F.PWR_PSTAT_phase
    if ph = 1 ∨ ph = 2 then
      (s.put F.PWR_PSTAT_wakepend 1).onPwr (fun p => { p with wake := [0, 1, 2, 3, 4, 5, 6].filter (fun d => !((psCocoons k).contains d)) })
    else s

/-- A self-test slice holds lane `n` (R587). -/
def State.slice (s : State) (n : Nat) : Bool := s.get F.ISST_STAT_state != 0 && s.get F.ISST_STAT_lane == n

end Sys2Proof.Machine
end

