-- ==== Sys2Proof/Machine/IoCmd.lean ====
section
/-! DEFINITION. What an I/O command asks for: its fields, its checks before admission (11_host_interface.md R462 to
R477, 10_buffer_and_dma.md R440) and the states of zones. -/

namespace Sys2Proof

/-- The first logical block that a command names. -/
def Sqe.slba (e : Sqe) : Nat := e.dw10.toNat + e.dw11.toNat * 2 ^ 32

/-- The number of logical blocks of a read, a write or a Plane Read. -/
def Sqe.nlb (e : Sqe) : Nat := e.dw12.toNat % 65536 + 1

/-- DTYPE and DSPEC (R464). -/
def Sqe.dtype (e : Sqe) : Nat := e.dw12.toNat / 2 ^ 20 % 16
def Sqe.dspec (e : Sqe) : Nat := e.dw13.toNat / 2 ^ 16

/-- Limited Retry (R469). -/
def Sqe.limited (e : Sqe) : Bool := e.dw12.getLsbD 31

/-- A command that carries data to be written. -/
def Sqe.isWrite (e : Sqe) : Bool := e.op == 0x01 || e.op == 0x7D

/-- A command that reads blocks. -/
def Sqe.isRead (e : Sqe) : Bool := e.op == 0x02 || e.op == 0x85

/-- The zone that a zone command or a write of NSID 1 names. -/
def Sqe.zone (e : Sqe) : Nat := e.slba / 65536

/-- The zones that a read or a write touches. -/
def Sqe.zones (e : Sqe) : List Nat :=
  (List.range (e.nlb / 65536 + 2)).map (e.zone + ·) |>.filter (fun z => decide (z * 65536 < e.slba + e.nlb))

/-- A Zone Code Rate has a wrong field (R477). -/
def Sqe.codeRateBad (e : Sqe) : Bool :=
  e.slba % 65536 != 0 || (!(e.dw12.getLsbD 31) && e.dw12.toNat % 4 == 3) || e.dw12.toNat / 4 % 2 ^ 29 != 0 || e.dw13 != 0 ||
    e.dw14 != 0 || e.dw15 != 0

/-- The namespaces of an I/O command (R462). -/
def Sqe.nsOk (e : Sqe) : Bool :=
  if e.op = 0 then e.nsid == 1 || e.nsid == 2 || e.nsid == 0xFFFFFFFF
  else if e.op = 1 ∨ e.op = 2 then e.nsid == 1 || e.nsid == 2 else e.nsid == 1

/-- The tiles of a read: each with the mask of the blocks wanted; a Plane Read wants whole tiles. -/
def Sqe.tiles (e : Sqe) : List (Nat × Nat) :=
  let a := e.slba
  let b := e.slba + e.nlb
  (List.range ((b - 1) / 4 + 1 - a / 4)).map (fun i =>
    let t := (a / 4 + i) * 4
    (t, ((List.range 4).filter (fun k => decide (a ≤ t + k ∧ t + k < b))).foldl (fun m k => m + 2 ^ k) 0))

/-- The kind of R410: 0 writes, 1 reads, 2 the rest. -/
def Sqe.kind (e : Sqe) : Nat := if e.isWrite then 0 else if e.isRead then 1 else 2

end Sys2Proof

namespace Sys2Proof.Machine
open Sys2Proof

/-! ## Plane Read -/

/-- The container bytes of a zone in bit-plane split; none in another mode (R438). -/
def Zone.container (z : Zone) : Option Nat :=
  match z.desc with
  | some (m :: b :: _) => if m = 2 then some (if b.toNat ≤ 8 then 1 else 2) else none
  | _ => none

/-- The container bit that plane `p` of `b`-bit samples in `w`-byte containers holds (R438): the sample bits from the
most significant down, then the bits that the sample does not use from the highest down; `high` is the alignment. -/
def planeBit (w b : Nat) (high : Bool) (p : Nat) : Nat :=
  let shift := if high then 8 * w - b else 0
  if p < b then b - 1 - p + shift
  else ((List.range (8 * w)).reverse.filter (fun k => !(decide (shift ≤ k ∧ k < shift + b)))).getD (p - b) 0

/-- Plane `p` of a tile (R438): bit 7 - r of byte m is the bit of sample 8m + r. -/
def planeOf (w b : Nat) (high : Bool) (p : Nat) (data : List Byte) : List Byte :=
  let k := planeBit w b high p
  (List.range (2048 / w)).map (fun m => (List.range 8).foldl (fun v r =>
    if (ofLe (bytesAt data ((8 * m + r) * w) w)).testBit k then v ||| BitVec.ofNat 8 (2 ^ (7 - r)) else v) 0)

/-- The parts of tile `t` of a zone in channel split (R437), of `c` channels of `w` bytes: the frame length, the head and the frame
count. -/
def splitParts (c w t : Nat) : Nat × Nat × Nat :=
  let f := c * w
  let h := if f = 0 then 0 else (f - 16384 * t % f) % f
  (f, h, if f = 0 then 0 else (16384 - h) / f)

/-- Where byte `i` of a tile on media comes from in channel split (R437). -/
def splitFrom (c w t i : Nat) : Nat :=
  let (f, h, n) := splitParts c w t
  if i < h ∨ h + n * f ≤ i then i
  else h + (i - h) % (n * w) / w * f + (i - h) / (n * w) * w + (i - h) % w

/-- Where byte `i` of an interleaved tile lies on media in channel split (R437). -/
def splitBack (c w t i : Nat) : Nat :=
  let (f, h, n) := splitParts c w t
  if i < h ∨ h + n * f ≤ i then i
  else h + (i - h) % f / w * (n * w) + (i - h) / f * w + (i - h) % w

/-- A tile shuffled (direction 0) or unshuffled (direction 1) by a descriptor (R437, R438). -/
def shuffle (d : List Byte) (back : Bool) (t : Nat) (data : List Byte) : List Byte :=
  let b1 := (byteAt d 1).toNat
  let b2 := (byteAt d 2).toNat
  match (byteAt d 0).toNat with
  | 1 =>
    ((List.range 16384).map (if back then splitBack b1 b2 t else splitFrom b1 b2 t)).map (byteAt data)
  | 2 =>
    let w := if b1 ≤ 8 then 1 else 2
    let high := b2 % 2 == 1
    let p := 2048 / w
    if !back then (List.range (8 * w)).flatMap (fun i => planeOf w b1 high i data)
    else (List.range (16384 / w)).flatMap (fun j =>
      leBytes w ((List.range (8 * w)).foldl (fun v i =>
        if (byteAt data (i * p + j / 8)).getLsbD (7 - j % 8) then v + 2 ^ planeBit w b1 high i else v) 0))
  | _ => bytesAt data 0 16384

/-- The data of the home tile at `t` of NSID 1 as its zone stores it, shuffled (R439), or back as it was. -/
def State.homeOrder (s : State) (t : Nat) (back : Bool) (data : List Byte) : List Byte :=
  let z := s.zone (t / 65536)
  if z.shuf && s.variant != .d02 then shuffle (z.desc.getD []) back (t / 4 % 16384) data else data

/-- The planes that a mask selects. -/
def planesOf (mask : Nat) : List Nat := (List.range 16).filter mask.testBit

/-- The bytes that a read returns to the host (R441). -/
def State.readBytes (s : State) (e : Sqe) : Nat :=
  if e.op = 0x85 then
    match (s.zone e.zone).container with
    | some c => e.nlb / 4 * (planesOf (e.dw13.toNat % 65536)).length * (2048 / c)
    | none => 0
  else e.nlb * 4096

/-- A Plane Read breaks R440. -/
def State.planeBad (s : State) (e : Sqe) : Bool :=
  let mask := e.dw13.toNat % 65536
  e.slba % 4 != 0 || e.nlb % 4 != 0 || mask == 0 || decide (2097152 < s.readBytes e) ||
    e.zones.any (fun z => match (s.zone z).container with
      | some c => decide (2 ^ (8 * c) ≤ mask)
      | none => true)

/-! ## Checks -/

/-- NSZE (R459). -/
def nsSize (ns : Nat) : Nat := if ns = 2 then 33554432 else 8589934592

/-- The Zone Management Send actions (R473). -/
def zoneActions : List Nat := [1, 2, 3, 4, 5, 0x10]

/-- Namespace Not Ready, with the DNR of R500. -/
def State.notReady (s : State) : CplRec :=
  { CplRec.bad 0 0x82 with dnr := s.get F.MAP_ADOPT_phase == 3 || s.dom 5 == 4 }

/-- The directive fields of a read or write are wrong (R463, R464). -/
def State.directiveBad (s : State) (e : Sqe) : Bool :=
  decide (1 < e.dtype) || (e.dtype == 1 && (!s.nvme.streams || e.nsid != 1 || e.dspec == 0))

/-- The descriptor of R435 in the first 8 bytes of a list is valid on this part (R6, R436). -/
def State.descOk (s : State) (d : List Byte) : Bool :=
  let b (i : Nat) : Nat := (byteAt d i).toNat
  ((List.range 5).all (fun i => b (3 + i) == 0)) &&
    (if b 0 = 0 then b 1 == 0 && b 2 == 0
     else if s.variant = .d02 then false
     else if b 0 = 1 then decide (2 ≤ b 1 ∧ b 1 ≤ 16 ∧ 1 ≤ b 2 ∧ b 2 ≤ 8)
     else b 0 == 2 && decide (1 ≤ b 1 ∧ b 1 ≤ 16 ∧ b 2 ≤ 1))

/-- A Zone Management Send has a reserved or ill-placed field (R473, R436). -/
def State.zoneSendBad (s : State) (e : Sqe) : Bool :=
  let act := e.dw13.toNat % 256
  let all := e.dw13.getLsbD 8
  !(zoneActions.contains act) || (!all && (e.slba % 65536 != 0)) || (act == 0x10 && all) ||
    (act == 0x10 && !(s.descOk e.data && ((List.range 56).all (fun i => byteAt e.data (8 + i) == 0))))

/-- The I/O opcodes of R462. -/
def State.ioOpcode (s : State) (op : Byte) : Bool :=
  [0x00#8, 0x01#8, 0x02#8, 0x79#8, 0x7A#8, 0x7D#8, 0x86#8].contains op || (op == 0x85 && s.variant != .d02)

/-- The status with which an I/O command ends before it is granted, if any. -/
def State.vetIo (s : State) (e : Sqe) : Option CplRec :=
  if !(s.ioOpcode e.op) then some (CplRec.bad 0 1)
  else if !e.nsOk then some (CplRec.bad 0 0x0B)
  else if s.diapause then some (CplRec.bad 7 0xC0)
  else if !s.nvme.nsReady then some s.notReady
  else if e.isWrite || e.isRead then
    if s.directiveBad e || (e.op != 0x85 && decide (512 < e.nlb)) || (e.op == 0x7D && e.slba % 65536 != 0) then
      some CplRec.field
    else if nsSize e.nsid.toNat < e.slba + e.nlb then some (CplRec.bad 0 0x80)
    else if e.op = 0x85 ∧ s.planeBad e then some CplRec.field
    else if e.isWrite && e.nsid == 1 && decide (65536 < e.slba % 65536 + e.nlb) then some (CplRec.bad 1 0xB8)
    else none
  else if e.op = 0 then none
  else if (e.op = 0x79 ∧ s.zoneSendBad e) ∨ (e.op = 0x86 ∧ e.codeRateBad) then some CplRec.field
  else if (e.op != 0x79 || !(e.dw13.getLsbD 8)) && decide (nsSize 1 ≤ e.slba) then some (CplRec.bad 0 0x80)
  else none

/-! ## Zones -/

/-- A zone is open; a zone is active (R472). -/
def Zone.isOpen (z : Zone) : Bool := z.st == 2 || z.st == 3
def Zone.isActive (z : Zone) : Bool := z.st == 2 || z.st == 3 || z.st == 4

/-- Zones that a condition holds of, among those that are not as the factory left them. -/
def State.zonesWhere (s : State) (f : Zone → Bool) : List Nat := (s.map.zones.filter (fun x => f x.2)).map (·.1)

/-- Opens a zone to state `st` (R472): the status on failure, else the state with the zone open, an implicitly opened
one closed first where 64 are open. -/
def State.openZone (s : State) (z st : Nat) : Except CplRec State :=
  let d := s.zone z
  if d.isOpen then .ok (if d.st = st ∨ st = 2 then s else s.journalZone z (fun d => { d with st := st }))
  else if !d.isActive ∧ 128 ≤ (s.zonesWhere Zone.isActive).length then .error (CplRec.bad 1 0xBD)
  else
    let go (s : State) : State := s.journalZone z (fun d => { d with st := st })
    if (s.zonesWhere Zone.isOpen).length < 64 then .ok (go s)
    else match (s.zonesWhere (fun d => d.st == 2)) with
      | [] => .error (CplRec.bad 1 0xBE)
      | a :: rest =>
        let old := rest.foldl (fun m x => if (s.zone x).last < (s.zone m).last then x else m) a
        .ok (go (s.journalZone old (fun d => { d with st := 4 })))

/-- The status with which a zone refuses a write (R471, R499). -/
def Zone.writeBad (z : Zone) : Option CplRec :=
  if z.st = 0xE then some (CplRec.bad 1 0xB9) else if z.st = 0xD then some (CplRec.bad 1 0xBA)
  else if z.st = 0xF then some (CplRec.bad 1 0xBB) else none

/-- The states from which a Zone Management Send action is accepted, and those that Select All takes. -/
def actionFrom (act : Nat) : List Nat :=
  match act with
  | 1 => [2, 3, 4]
  | 2 => [1, 2, 3, 4, 0xE]
  | 3 => [1, 2, 3, 4]
  | 4 => [1, 2, 3, 4, 0xE]
  | 5 => [0xD]
  | _ => [1]

def selectAll (act : Nat) : List Nat :=
  match act with
  | 1 => [2, 3]
  | 2 => [2, 3, 4]
  | 3 => [4]
  | 4 => [2, 3, 4, 0xE]
  | 5 => [0xD]
  | _ => []

end Sys2Proof.Machine
end

