-- ==== Sys2Proof/Machine/BufOps.lean ====
section
/-! DEFINITION. The commit and buffer manager (10_buffer_and_dma.md R402 to R419, 01_architecture.md R34 to R37): the
pools, grant, landing, sealing, completion, the media commands of the write pool and of reads, and what the lanes answer
to them. -/

namespace Sys2Proof.Machine
open Sys2Proof

/-- The context numbered `id`. -/
def State.ctx? (s : State) (id : Nat) : Option Ctx := s.buf.ctxs.find? (fun c => c.id == id)

/-- Changes the context numbered `id`. -/
def State.onCtx (id : Nat) (f : Ctx → Ctx) (s : State) : State :=
  s.onBuf (fun b => { b with ctxs := b.ctxs.map (fun c => if c.id = id then f c else c) })

/-- Blocks of the write pool (R403) and units of the read pool (R404). -/
def State.poolBlocks (s : State) : Nat := s.get F.BUF_WPOOL_size * 16384
def State.poolUnits (s : State) : Nat := s.get F.BUF_RPOOL_size * 4096

/-- Free blocks of the write pool. -/
def State.freeBlocks (s : State) : Nat := s.poolBlocks - s.buf.blks.length

/-- Read pool units that granted reads hold: one for each tile until the data has gone to the host. -/
def State.unitsHeld (s : State) : Nat := sumOf (s.buf.ctxs.filter (fun c => c.stage == 1)) (·.tiles.length)

/-- Completion slots in use. -/
def State.slotsUsed (s : State) : Nat := (s.buf.ctxs.filter (fun c => decide (1 ≤ c.stage))).length

/-- A sealing waits for budget: a write whose data has all landed and that is not sealed. -/
def Ctx.landedAll (c : Ctx) : Bool := c.sqe.isWrite && c.stage == 1 && decide (c.sqe.nlb * 4096 ≤ c.landed)

/-- Shows the buffer's occupancy and stalls (R442). -/
def State.syncBuf (s : State) : State :=
  let s := (s.put F.BUF_CTX_ctx s.buf.ctxs.length).put F.BUF_CTX_slots s.slotsUsed
  let s := ((s.put F.BUF_WPLAND_kib (4 * s.blksIn .landing)).put F.BUF_WPHELD_kib (4 * s.blksIn .held)).put
    F.BUF_WPFREE_kib (4 * s.freeBlocks)
  let bit (f : Field) (b : Bool) (s : State) : State := s.put f (if b then 1 else 0)
  bit F.BUF_STALL_ctx (decide (4096 ≤ s.buf.ctxs.length))
    (bit F.BUF_STALL_grant (s.buf.ctxs.any (fun c => c.stage == 0))
      (bit F.BUF_STALL_budget (s.buf.ctxs.any Ctx.landedAll) (bit F.BUF_STALL_cq (s.buf.ctxs.any (fun c => c.stage == 3)) s)))

/-! ## Fetch -/

/-- BUF fetches and grants I/O commands: the pools are locked (R402), the controller is ready, no activation holds the
queues (R488), and admission is not closed (R343, R361). -/
def State.fetchOpen (s : State) : Bool :=
  s.flag F.BUF_CTL_lock && s.nvme.en && s.nvme.rdy && !s.nvme.pp && !s.buf.closed && !s.harvesting &&
    s.nvme.shst == 0 && !s.hostDown

/-- HST fetches an entry of submission queue `q` (R409, R370): a context is taken, and a read or a write of NSID 1 is
checked against its contract. A command that ends before its grant has its record at once. -/
def State.fetch1 (q : Nat) (e : Sqe) (s : State) : State :=
  if !s.fetchOpen || !(s.nvme.sqs.any (fun x => x.id == q)) || s.nvme.deletes.any (fun x => x.1 == q) || decide (4096 ≤ s.buf.ctxs.length) then s.syncBuf
  else
    let s := ((s.inc F.HST_IOCNT_count).put F.PWR_IDLE_ms 0).leavePs
    let bad := s.vetIo e
    let s := if bad.isNone && e.dtype == 1 && e.isWrite && !(s.nvme.openStreams.contains e.dspec) then
        { s with nvme := { s.nvme with openStreams := s.nvme.openStreams ++ [e.dspec] } }
      else s
    let r := if bad.isNone && e.nsid == 1 && e.dtype == 1 && (e.isWrite || e.isRead) then
        s.conform e.dspec (if e.isRead then 1 else 0) (s.readBytes e) e.zones
      else (none, s)
    let s := r.2
    let c : Ctx :=
      { id := s.buf.nextId, sq := q, sqe := e, arrival := s.ctrTime, slot := r.1.map (·.1), deadline := r.1.map (·.2)
        stage := if bad.isSome then 3 else 0, landed := 0, tiles := [], record := bad, ord := 0, since := s.us }
    (s.onBuf (fun b => { b with nextId := b.nextId + 1, ctxs := b.ctxs ++ [c] })).syncBuf

/-! ## Completion -/

/-- The record of a context is staged for its completion queue. -/
def State.stageRecord (id : Nat) (r : CplRec) (s : State) : State :=
  s.onCtx id (fun c => { c with record := some r, stage := 3, since := s.us })

/-- The completion of a context is posted (R419): its accounts, its error log entry, its queue entry; the context and
its slot are free. -/
def State.postCtx (c : Ctx) (s : State) : State :=
  match c.record with
  | none => s
  | some r =>
    let s := s.postCqe c.sq c.sqe.cid.toNat r c.slot.isSome
    let s := match c.slot, c.deadline with
      | some i, some d => s.account i c.arrival d (s.readBytes c.sqe) r
      | _, _ => s
    let s := s.onNvme (fun v => { v with
      rdUnits := v.rdUnits + (if c.sqe.isRead && r.success then c.sqe.nlb * 8 else 0)
      wrUnits := v.wrUnits + (if c.sqe.isWrite && r.success then c.sqe.nlb * 8 else 0)
      rdCmds := v.rdCmds + (if c.sqe.isRead then 1 else 0)
      wrCmds := v.wrCmds + (if c.sqe.isWrite then 1 else 0)
      ureads := v.ureads + (if r.sct = 2 ∧ r.sc = 0x81 then 1 else 0) })
    s.onBuf (fun b => { b with ctxs := b.ctxs.filter (fun x => x.id != c.id) })

/-- A record that may be posted: staged, or a write-through record none of whose blocks is still in the pool (R36). -/
def State.postable (s : State) (c : Ctx) : Bool :=
  c.stage == 3 ||
    (c.stage == 2 && !(s.buf.blks.any (fun b => b.ctx == c.id && (b.st == .wt || b.st == .dirty))))

/-- Delete I/O Submission Queue completes once the queue has no command left (R456), and the queue is gone. -/
def State.endDeletes (s : State) : State :=
  doAll s.nvme.deletes (fun d s =>
    if s.buf.ctxs.any (fun c => c.sq == d.1) || !(s.cqRoom 0) then s
    else
      (s.onNvme (fun v => { v with
        sqs := v.sqs.filter (fun q => q.id != d.1), deletes := v.deletes.filter (fun x => x.1 != d.1) })).adminDone
          (BitVec.ofNat 16 d.2) CplRec.ok) s

/-- Posts every record that may be posted and whose queue has space, in order. -/
def State.postAll (s : State) : State :=
  (doAll s.buf.ctxs (fun c s =>
    if s.postable c && s.cqRoom (s.cqOf c.sq) then s.postCtx c
    else if s.postable c && c.stage == 2 then s.onCtx c.id (fun c => { c with stage := 3, since := s.us })
    else s) s).endDeletes.syncBuf

/-! ## The pool -/

/-- The newest admitted data of a block in the write pool (R37, R466). -/
def State.poolBlk (s : State) (ns lba : Nat) : Option WBlk :=
  (s.buf.blks.filter (fun b => b.st != .landing && b.ns == ns && b.lba == lba)).foldl
    (fun o b => match o with
      | none => some b
      | some x => if x.ord < b.ord then some b else some x) none

/-- Replaces the bytes from offset `o` of a list. -/
def patch (data : List Byte) (o : Nat) (bs : List Byte) : List Byte :=
  (data.take o ++ List.replicate (o - data.length) 0) ++ bs ++ data.drop (o + bs.length)

/-- The blocks of tile `t` (its first block) in the pool that are admitted. -/
def State.tileBlks (s : State) (t : Nat) : List WBlk :=
  s.buf.blks.filter (fun b => b.st != .landing && b.ns == 1 && b.lba / 4 * 4 == t)

/-- The 16 KiB of a tile as the pool holds it, missing blocks zero (R416). -/
def State.tileData (s : State) (t : Nat) : List Byte :=
  (List.range 4).flatMap (fun k => match s.poolBlk 1 (t + k) with
    | some b => bytesAt b.data 0 4096
    | none => List.replicate 4096 0)

/-! ## Media commands -/

/-- The dirty count exceeds the budget outside a harvest, diapause or commit (R341). -/
def State.overBudget (s : State) : Bool := decide (s.get F.HRV_BUDGET_kib < s.get F.HRV_DIRTY_kib) && !s.draining

/-- Frames are in force: some contract is active (R382). -/
def State.framed (s : State) : Bool := s.flag F.CTR_CTL_en && !(s.slotsIn [2]).isEmpty

/-- The contract that a waiting command works for (R384): the one of the read that it serves or reads ahead for, or the write contract in
whose zone set its tiles lie. -/
def State.slotOfCmd (s : State) (c : MediaCmd) : Option Nat :=
  match c.units with
  | [] => none
  | u :: _ =>
    if u.kind ≠ 0 then none
    else if c.op = 1 then (s.slotsIn [2]).find? (fun i => s.getA (F.CTR_C_CFG_dir i) == 0 && s.inZoneSet i (u.tag / 65536))
    else
      (if u.ctx = 0 then (s.buf.ahead.find? (fun a => a.lba == u.tag / 4 * 4)).map (·.slot) else (s.ctx? u.ctx).bind (·.slot)).filter
        (fun i => s.slotState i == 2)

/-- The order of a visit (R384): reads by deadline, then read-ahead by block; writes in the order of the stripe, which is that of their
blocks. -/
def State.visitOrder (s : State) (a b : MediaCmd) : Bool :=
  let left (d : Nat) : Nat := (d + 2 ^ 32 - s.ctrTime + 2 ^ 31) % 2 ^ 32
  let first (c : MediaCmd) : Nat := (c.units.map (·.tag)).headD 0
  match a.deadline, b.deadline with
  | some x, some y => decide (left x ≤ left y)
  | some _, none => true
  | none, some _ => false
  | none, none => decide (first a ≤ first b)

/-- CTR's estimate for work that is not the lane's next visit's (R383): the visits left in the frame come first, then the next frame's. -/
def State.visitFits (s : State) (n : Nat) : Bool :=
  let at_ (i : Nat) : Nat := s.getA (F.CTR_C_OFF_us i)
  let off := match (s.slotsIn [2]).filter (fun i => decide ((s.ctr.visit.getD n (0, 0)).1 < i)) with
    | i :: _ => at_ i
    | [] => s.getA F.CTR_FRAME_us + at_ ((s.slotsIn [2]).headD 0)
  Config.visitFits off (s.us - s.ctr.frame.getD n 0)

/-- The `k`-th good position after `p`. -/
def goodAfter (mask p : Nat) : Nat → Option Nat
  | 0 => some p
  | k + 1 => (nextGood mask 2048 (p + 1)).bind (fun x => goodAfter mask x k)

/-- The first `k` units of a command, and the rest of it. -/
def MediaCmd.split (k : Nat) (c : MediaCmd) : MediaCmd × List MediaCmd :=
  match goodAfter c.mask c.start k with
  | some p => if c.count ≤ k then (c, []) else
    ({ c with count := k, units := c.units.take k }, [{ c with start := p, count := c.count - k, units := c.units.drop k }])
  | none => (c, [])

/-- What a lane in the visit `v` starts next of the waiting commands `w`, with what is left of them and the visit then. While the dirty
count exceeds the budget, what drains it goes first (R43, R341). In a frame the visits come in slot order, each up to its quantum and of one
tile at least, and a contract without work is skipped (R382); an uncontracted command starts only if no visit has work and the next can
still start by its offset (R383; DESIGN CHOICE, the spec lets it start before a visit too). -/
def State.startNext (s : State) (n : Fin 4) (v : Nat × Nat) (w : List MediaCmd) :
    Option (MediaCmd × List MediaCmd × (Nat × Nat)) :=
  let drains (c : MediaCmd) : Bool := c.op == 1 || c.op == 4
  let plain (c : MediaCmd) : MediaCmd × List MediaCmd × (Nat × Nat) := (c, w.erase c, v)
  if s.overBudget && w.any drains then (w.find? drains).map plain
  else if !s.framed then w.head?.map plain
  else
    let work (i : Nat) : List MediaCmd := (w.filter (fun c => s.slotOfCmd c == some i)).mergeSort s.visitOrder
    let moved (i : Nat) : Nat := if i = v.1 then v.2 else 0
    let room (i : Nat) : Nat := (s.getA (F.CTR_C_Q_kib i) * 1024 - moved i) / 16384
    match (s.slotsIn [2]).find? (fun i => decide (v.1 ≤ i) && !(work i).isEmpty && (moved i == 0 || room i != 0)) with
    | some i => (work i).head?.map (fun c =>
      let p := c.split (max 1 (room i))
      (p.1, p.2 ++ w.erase c, (i, moved i + 16384 * p.1.count)))
    | none => if s.visitFits n.val then (w.find? (fun c => (s.slotOfCmd c).isNone)).map plain else none

/-- The next commands that a lane starts, `k` at most, what is left of the waiting ones, and the visit then. -/
def State.starts (s : State) (n : Fin 4) : Nat → Nat × Nat → List MediaCmd → List MediaCmd × List MediaCmd × (Nat × Nat)
  | 0, v, w => ([], w, v)
  | k + 1, v, w =>
    match s.startNext n v w with
    | none => ([], w, v)
    | some (c, w, v) => let r := s.starts n k v w; (c :: r.1, r.2)

/-- Hands waiting commands to a sequencer with room in its queue (R188): 16 at most, to a lane in service that runs
(R523) and that no self-test slice holds (R587). -/
def State.feed (n : Fin 4) (s : State) : State :=
  let q := (s.lane n).queue
  if s.inService n && s.runs n && !(s.slice n) && !s.draining && decide (q.length < 16) && !(s.buf.work[n]).isEmpty then
    let r := s.starts n (16 - q.length) (s.ctr.visit.getD n.val (0, 0)) s.buf.work[n]
    ((s.onBuf (fun b => { b with work := b.work.set n r.2.1 })).onCtr (fun c => { c with visit := c.visit.set n.val r.2.2 })).setQueue n
      (q ++ r.1)
  else s

/-- A unit belongs to the write of a tile on its way home. -/
def RetJob.owns (r : RetJob) (u : MUnit) : Bool :=
  r.left != 0 && u.ctx == 0 && u.kind + 1 == r.ns && u.tag / 4 * 4 == (if r.ns = 1 then 4 * r.key else r.key)

/-- A system unit that came back from its lane (R80, R82): a journal copy goes to the last of the lanes that now take copies, a keel copy
to the surfaces on which a keel update would now go and that hold none of this sequence. -/
def State.unqueueSystem (u : MUnit) (s : State) : State :=
  if sysType u.tag = sysJournal then
    match s.map.jout.find? (fun t => t.num % 2 ^ 50 == sysIndex u.tag), s.journalLanes.zipIdx.getLast? with
    | some t, some l => s.queueJournal l.1 l.2 t
    | _, _ => s
  else if sysType u.tag = sysKeel then
    match s.map.keelUp with
    | some (k, _) =>
      let has (f : Nat) : Bool := s.media.tiles.any (fun t => t.2.place.surface == f && t.2.kind == 2 && t.2.tag == u.tag) ||
        allLanes.any (fun m => (s.buf.work[m] ++ (s.lane m).queue ++ (s.lane m).cur.toList).any (fun c => c.surface == f && c.units.any (fun v => v.tag == u.tag && v.kind == 2)))
      match ((s.keelSurfaces s.lanesIn).filter (fun f => !(has f))).head?.bind (s.keelCmd k u.hseq) with
      | some c => s.addWork (Fin.ofNat 4 c.1) c.2
      | none => s
    | none => s
  else s

/-- A write command returned from its lane: its blocks wait to be placed again, what it returned home stays in the saltern, and its
system units go to the lanes in service. -/
def State.unqueue (c : MediaCmd) (s : State) : State :=
  let s := s.onBuf (fun b => { b with blks := b.blks.map (fun x =>
    if c.units.any (fun u => u.kind + 1 == x.ns && decide (u.tag ≤ x.lba ∧ x.lba < u.tag + (if x.ns = 1 then 4 else 1))) then
      { x with queued := false, written := false }
    else x) })
  let s := s.onMap (fun m => { m with ret := m.ret.filter (fun r => !(c.units.any r.owns)) })
  doAll (c.units.filter (fun u => u.kind == 2)) State.unqueueSystem s

/-- The command reads. -/
def MediaCmd.reads (c : MediaCmd) : Bool := c.op == 0 || c.op == 3

/-! ## Reads -/

/-- A read tile is final: complete or failed. -/
def RTile.final (t : RTile) : Bool := t.st == 2 || t.st == 3

/-- The loss log lists a block (R94), which nothing has written since. -/
def State.lostBlock (s : State) (ns lba : Nat) : Bool :=
  s.map.loss.any (fun l => l.ns == ns && decide (l.lba ≤ lba ∧ lba < l.lba + l.blocks)) &&
    !(ns == 2 && s.map.lossGone.contains lba)

/-- The media command that brings one source of a tile. -/
def State.readCmd (s : State) (id ns t : Nat) (dl : Option Nat) (x : RSrc) : MediaCmd :=
  let rate := (s.zone (t / 65536)).rate
  let op := if x.coast || ns == 1 then 0 else 3
  let m := if x.coast then coastModsel else if ns = 1 then tileModsel rate else sectorModsel
  let blk := ((List.range 4).find? x.mask.testBit).getD 0
  let n := if x.coast then s.slotsAt x.track 0 else if ns = 1 then s.slotsAt x.track rate else s.slotsAt x.track 3
  { op := op, surface := x.surface, track := x.track, start := x.pos, qtr := x.qtr, count := 1, modsel := m
    mask := s.goodMask x.surface x.track n, tag := id, deadline := dl, cancelled := false
    units := [{ kind := ns - 1, tag := if x.coast || ns == 2 then t + blk else t, gen := x.gen, hseq := x.hseq
                shuffled := false, ctx := id, data := [] }] }

/-- A lookup of an extent finds a bad entry (R66) of its zone's generation (R68). -/
def State.lookupBad (s : State) (x : Nat) : Bool := entGen (s.entry x) == (s.zone (x / 128)).gen && s.entryBad (s.entry x)

/-- What a read of the blocks `want` of the tile at `t` finds (R37, R66 to R68, R384, R466): the pool's blocks, a tile read
ahead, and the media for the rest. -/
def State.readTile (s : State) (ns t want : Nat) : RTile × Bool :=
  let mine := (List.range 4).filter want.testBit
  let pool := mine.filter (fun k => (s.poolBlk ns (t + k)).isSome)
  let rest := mine.filter (fun k => !(pool.contains k))
  let early := s.buf.ahead.find? (fun a => ns == 1 && a.have_ && a.lba == t)
  let data := (List.range 4).flatMap (fun k => match s.poolBlk ns (t + k), early with
    | some b, _ => bytesAt b.data 0 4096
    | none, some a => bytesAt a.data (4096 * k) 4096
    | none, none => List.replicate 4096 0)
  let base : RTile := { lba := t, st := 2, code := 0, at_ := s.us, srcs := [], data := data }
  let lost (k : Nat) : Bool := s.lostBlock ns (t + k) &&
    (ns == 2 || entGen (s.entry (t / 512)) == (s.zone (t / 65536)).gen)
  if rest.isEmpty || early.isSome then (base, false)
  else if rest.any lost then ({ base with st := 3, code := 0xF1 }, false)
  else
    let m := rest.foldl (fun m k => m + 2 ^ k) 0
    let r := if ns = 1 then s.resolve1 (t / 4) m else s.resolve2 t m
    let bad := ns == 1 && s.lookupBad (t / 512)
    match r with
    | none => ({ base with st := 3, code := 0xF0 }, bad)
    | some [] => (base, false)
    | some srcs =>
      if srcs.any (fun x => !(s.lanesIn.contains x.lane)) then ({ base with st := 3, code := 0xF2 }, false)
      else ({ base with st := 0, srcs := srcs }, false)

/-- The data that a read returns: its blocks, or the planes selected (R441, R438). -/
def State.readData (s : State) (c : Ctx) : List Byte :=
  let all := c.tiles.flatMap (fun t => t.data)
  let d := ((s.zone c.sqe.zone).desc.getD [])
  let b := (byteAt d 1).toNat
  let high := (byteAt d 2).getLsbD 0
  if c.sqe.op = 0x85 then
    match (s.zone c.sqe.zone).container with
    | none => []
    | some w => c.tiles.flatMap (fun t => (planesOf (c.sqe.dw13.toNat % 65536)).flatMap (fun p => planeOf w b high p t.data))
  else bytesAt all ((c.sqe.slba % 4) * 4096) (c.sqe.nlb * 4096)

/-- The status of a failed tile's code (R470); the error code of a lane (R195) stands from 100h up. -/
def codeStatus (code : Nat) : CplRec := if code = 0xFF then CplRec.bad 7 0xC1 else CplRec.bad 2 0x81

/-- Seals a read whose tiles are all final (R413, R181, R470): the status is that of the tile that failed first, of several at one
time the lowest (DESIGN CHOICE), and the Error Information entry is of the lowest failing block. A lane's error code of R195 stands in
its byte 29 as it is (DESIGN CHOICE: R470 names none for it). -/
def State.sealRead (c : Ctx) (s : State) : State :=
  if c.stage = 1 ∧ c.sqe.isRead ∧ c.tiles.all RTile.final then
    let s := s.inc F.BUF_SEALCNT_count
    match c.tiles.filter (fun t => t.st == 3) with
    | [] => s.stageRecord c.id (CplRec.good 0 (s.readData c))
    | t :: ts =>
      let first := ts.foldl (fun m x => if x.at_ < m.at_ then x else m) t
      let r := codeStatus first.code
      (s.logError c.sq c.sqe.cid.toNat r (max t.lba c.sqe.slba) c.sqe.nsid.toNat (t.code % 256)).stageRecord c.id
        { r with data := s.readData c }
  else s

/-- Seals every read that can be sealed. -/
def State.sealReads (s : State) : State := doAll s.buf.ctxs State.sealRead s

/-- Queues the sources of a tile that have not come. -/
def State.queueTile (c : Ctx) (t : RTile) (s : State) : State :=
  doAll (t.srcs.filter (fun x => !x.done)) (fun x s =>
    s.addWork (Fin.ofNat 4 x.lane) (s.readCmd c.id c.sqe.nsid.toNat t.lba c.deadline x)) s

/-! ## Grant -/

/-- A Zone Reset of zone `z` is granted and not sealed (R474). -/
def Ctx.resets (c : Ctx) (z : Nat) : Bool :=
  c.sqe.op == 0x79 && c.sqe.dw13.toNat % 256 == 4 && (c.sqe.dw13.getLsbD 8 || c.sqe.zone == z)

/-- The read is held by a reset of one of its zones (R474). -/
def State.heldByReset (s : State) (c : Ctx) : Bool :=
  c.sqe.isRead && c.sqe.nsid == 1 &&
    c.sqe.zones.any (fun z => s.buf.ctxs.any (fun r => r.stage == 1 && r.resets z))

/-- The credits of a command are free (R410). -/
def State.canGrant (s : State) (c : Ctx) : Bool :=
  decide (s.slotsUsed < 2048) &&
    (match c.sqe.kind with
     | 0 => decide (c.sqe.nlb ≤ s.freeBlocks)
     | 1 => decide (s.unitsHeld + s.buf.ahead.length + c.sqe.tiles.length ≤ s.poolUnits)
     | _ => true)

/-- Grants a command its slot and credits (R410, R411). -/
def State.grantCtx (c : Ctx) (s : State) : State :=
  let ns := c.sqe.nsid.toNat
  match c.sqe.kind with
  | 0 =>
    let blks := (List.range c.sqe.nlb).map (fun i =>
      ({ ns := ns, lba := c.sqe.slba + i, st := .landing, ctx := c.id, ord := 0, born := s.us, written := false
         queued := false, data := bytesAt c.sqe.data (4096 * i) 4096 } : WBlk))
    (s.onBuf (fun b => { b with blks := b.blks ++ blks })).onCtx c.id (fun c => { c with stage := 1 })
  | 1 =>
    let found := c.sqe.tiles.map (fun t => s.readTile ns t.1 t.2)
    let off := ns == 1 && c.sqe.zones.any (fun z => (s.zone z).st == 0xF)
    if off then s.stageRecord c.id (CplRec.bad 1 0xBB)
    else
      let s := doIf (found.any (·.2)) (State.raise F.MAP_ERR_entry) s
      let s := if ns = 1 then doAll c.sqe.tiles (fun t s => s.lookup (t.1 / 512)) s else s
      let c := { c with stage := 1, tiles := found.map (·.1) }
      let s := s.onCtx c.id (fun _ => c)
      let s := s.onBuf (fun b => { b with ahead := b.ahead.filter (fun a =>
        !(ns == 1 && a.have_ && c.tiles.any (fun t => t.lba == a.lba))) })
      let s := match c.slot with
        | some i => s.onContract i (fun k => { k with lastBlock := c.sqe.slba + c.sqe.nlb - 1 })
        | none => s
      doAll (c.tiles.filter (fun t => t.st == 0)) (fun t s => s.queueTile c t) s
  | _ => s.onCtx c.id (fun c => { c with stage := 1 })

/-- Grants every command that can be granted, in fetch order within its kind (R410, R474, R525). -/
def State.grantAll (s : State) : State :=
  if !s.fetchOpen || s.powerHolds then s
  else ((s.buf.ctxs.filter (fun c => c.stage == 0)).foldl (fun (x : List Nat × State) c =>
    if x.1.contains c.sqe.kind || x.2.heldByReset c then x
    else if x.2.canGrant c then (x.1, x.2.grantCtx c)
    else (c.sqe.kind :: x.1, x.2)) ([], s)).2.syncBuf

/-! ## Sealing -/

/-- How a write is admitted: covered, write-through, or not yet (R36, R339, R340, R341, R371, R381). From a stop command
on, admission is write-through (R309). While the dirty count exceeds the budget nothing is covered (R341), and with a lane out of
service no write is admitted at all (R43). -/
def State.admission (s : State) (c : Ctx) : Option BlkSt :=
  let kib := 4 * c.sqe.nlb
  let full := s.get F.HRV_BUDGET_kib
  let lim := if s.stopping then 0 else if c.slot.isSome then full else full - s.get F.CTR_WRES_kib
  let room := s.lanesIn.any (fun n => decide ((s.lane (Fin.ofNat 4 n)).queue.length + s.buf.work[Fin.ofNat 4 n].length < 16))
  let left := match c.deadline with
    | some d => (d + 2 ^ 32 - 100 - s.ctrTime) % 2 ^ 32
    | none => 0
  let intime := c.deadline.isNone || Config.reachable left (c.sqe.nlb * 4096)
  let late := c.deadline.any (fun d => s.past ((d + 2 ^ 32 - 100) % 2 ^ 32))
  if late || (s.overBudget && decide (s.lanesIn.length < s.variant.lanes)) then none
  else if s.get F.HRV_DIRTY_kib + kib ≤ lim then some .dirty
  else if lim < kib ∧ room ∧ intime then some .wt
  else none

/-- Places the extents that a write of NSID 1 is first to touch (R56 to R59); none where one cannot be placed. A bad entry that the
lookup finds sets MAP_ERR.entry (R66), and the extent is placed anew (DESIGN CHOICE: the spec says only that its reads fail). -/
def State.placeFor (s : State) (lba n : Nat) : Option State :=
  ((List.range ((lba + n - 1) / 512 + 1 - lba / 512)).map (lba / 512 + ·)).foldl (fun o x =>
    o.bind (fun s =>
      let s := doIf (s.lookupBad x) (State.raise F.MAP_ERR_entry) s
      if (s.located x).isSome && !(s.lookupBad x) then some s else s.place x)) (some s)

/-- The write ends without being admitted: its landing blocks are freed (R412). -/
def State.failWrite (c : Ctx) (r : CplRec) (s : State) : State :=
  (s.onBuf (fun b => { b with blks := b.blks.filter (fun x => !(x.ctx == c.id && x.st == .landing)) })).stageRecord c.id r

/-- The landing blocks of a write become admitted from block `lba` on, and its record is staged or, write-through, kept
until its blocks have reached media (R412). -/
def State.admitWrite (c : Ctx) (st : BlkSt) (lba : Nat) (r : CplRec) (s : State) : State :=
  let ord := s.buf.seals + 1
  let s := s.onBuf (fun b => { b with
    seals := ord
    blks := (b.blks.foldl (fun (x : Nat × List WBlk) w =>
      if w.ctx = c.id ∧ w.st = .landing then
        (x.1 + 1, x.2 ++ [{ w with st := st, lba := lba + x.1, ord := ord, born := s.us }])
      else (x.1, x.2 ++ [w])) (0, [])).2 })
  let s := if c.sqe.nsid = 2 then
      s.onMap (fun m => { m with lossGone := m.lossGone ++ (List.range c.sqe.nlb).map (lba + ·) })
    else s
  let s := (s.inc F.BUF_SEALCNT_count).syncDirty
  if st = .wt then s.onCtx c.id (fun c => { c with stage := 2, record := some r, ord := ord })
  else s.stageRecord c.id r

/-- The zone check and the seal of a write of NSID 1 (R412, R471, R472, R476). -/
def State.sealZone (c : Ctx) (st : BlkSt) (s : State) : State :=
  let z := c.sqe.zone
  let d := s.zone z
  let n := c.sqe.nlb
  let at_ := z * 65536 + d.wp
  match d.writeBad with
  | some r => s.failWrite c r
  | none =>
    if c.sqe.op = 1 ∧ c.sqe.slba ≠ at_ then s.failWrite c (CplRec.bad 1 0xBC)
    else if 65536 < d.wp + n then s.failWrite c (CplRec.bad 1 0xB8)
    else match s.openZone z 2 with
      | .error r => s.failWrite c r
      | .ok s2 =>
        match s2.placeFor at_ n with
        | none => (s.journalZone z (fun d => { d with st := 0xD })).failWrite c (CplRec.bad 1 0xBA)
        | some s =>
          let s := s.journalZone z (fun d => { d with
            wp := d.wp + n, st := if d.wp + n = 65536 then 0xE else d.st, last := s.buf.seals + 1 })
          s.admitWrite c st at_ (if c.sqe.op = 0x7D then { CplRec.ok with dw0 := at_ } else CplRec.ok)

/-- A block of NSID 2 with a defect that was not reassigned, all entries of the slip table being in use (R63). -/
def State.noSpare (s : State) (lba : Nat) : Bool :=
  decide (65536 ≤ s.slipUsed.length) &&
    (match s.sectorOf lba with
     | none => true
     | some p => s.map.defects.contains (physKey p.2.1 p.2.2.1 p.2.2.2 0))

/-- Seals a write if it may be (R412); a write of a zone waits behind an earlier one of the zone and behind a Reset
fetched before it (R474). -/
def State.sealWrite (c : Ctx) (s : State) : State :=
  let z := c.sqe.zone
  let blocked := c.sqe.nsid == 1 && s.buf.ctxs.any (fun o => (decide (o.id < c.id) && decide (o.stage ≤ 1) && o.resets z) ||
    (o.landedAll && o.sqe.nsid == 1 && o.sqe.zone == z && decide (o.ord < c.ord)))
  if blocked then s
  else match s.admission c with
    | none => s
    | some st =>
      if c.sqe.nsid = 1 then s.sealZone c st
      else if (List.range c.sqe.nlb).any (fun i => s.noSpare (c.sqe.slba + i)) then
        (s.failWrite c (CplRec.bad 2 0x80)).raise F.MAP_ERR_slipfull
      else s.admitWrite c st c.sqe.slba CplRec.ok

/-- Drops the blocks of a zone from the pool: all of them, or the held ones. -/
def State.dropBlks (z : Nat) (all : Bool) (s : State) : State :=
  let gone (x : WBlk) : Bool := x.ns == 1 && x.lba / 65536 == z && (if all then x.st != .landing else x.st == .held)
  let late (a : RaTile) : Bool := all && a.lba / 65536 == z
  (s.onBuf (fun b => { b with blks := b.blks.filter (fun x => !(gone x)), ahead := b.ahead.filter (fun a => !(late a)) })).syncDirty

/-- Held blocks go once the last tile of a zone that takes no more data is on media (R416). -/
def State.freeHeld (z : Nat) (s : State) : State :=
  let st := (s.zone z).st
  if (st == 1 || st == 4 || st == 0xE) &&
      !(s.buf.blks.any (fun b => b.ns == 1 && b.lba / 65536 == z && (b.st == .dirty || b.st == .wt))) then s.dropBlks z false
  else s

/-- Unmaps the extents of zone `z` from extent `e` on, under the zone's generation, and forgets their placement. -/
def State.unmapFrom (z e : Nat) (s : State) : State :=
  let xs := (List.range (128 - e)).map (z * 128 + e + ·)
  let s := doAll xs (fun x s => s.setEntry x (mkEntry 0 0 0 0 0 false (s.zone z).gen)) s
  s.onMap (fun m => { m with placed := m.placed.filter (fun p => !(xs.contains p.1)) })

/-- A Zone Reset of zone `z` (R69, R79, R99, R436, R474): the code rate stays; the slots of its overlay entries are released after the
zone's record. -/
def State.resetZone (z : Nat) (s : State) : State :=
  let s := s.journalZone z (fun d => { Zone.fresh with gen := (d.gen + 1) % 256, rate := d.rate })
  ((s.unmapFrom z 0).dropOverlay z).dropBlks z true

/-- What a Zone Management Send action does to one zone from which it is accepted (R436, R471 to R473). -/
def State.zoneAct (act z : Nat) (desc : List Byte) (s : State) : State :=
  match act with
  | 1 => (s.journalZone z (fun d => { d with st := 4 })).freeHeld z
  | 2 =>
    let d := s.zone z
    let s := s.journalZone z (fun d => { d with st := 0xE })
    (s.unmapFrom z (ceilDiv d.wp 512)).freeHeld z
  | 3 => s.journalZone z (fun d => { d with st := 3 })
  | 4 => s.resetZone z
  | 5 =>
    let s := s.journalZone z (fun d => { d with st := 0xF })
    ((s.unmapFrom z 0).dropOverlay z).dropBlks z true
  | _ => s.journalZone z (fun d => { d with
      st := 4, desc := some (bytesAt desc 0 8) })

/-- Seals a Zone Management Send (R414, R471 to R474): all its zones in one step. -/
def State.sealSend (c : Ctx) (s : State) : State :=
  let act := c.sqe.dw13.toNat % 256
  let all := c.sqe.dw13.getLsbD 8
  let z := c.sqe.zone
  let done (s : State) : State := (s.inc F.BUF_SEALCNT_count).stageRecord c.id CplRec.ok
  if all then done (doAll (s.zonesWhere (fun d => (selectAll act).contains d.st)) (fun z s =>
    if act = 3 then (match s.openZone z 3 with
      | .ok t => t
      | .error _ => s) else s.zoneAct act z c.sqe.data) s)
  else if !((actionFrom act).contains (s.zone z).st) then s.stageRecord c.id (CplRec.bad 1 0xBF)
  else if act = 3 then
    match s.openZone z 3 with
    | .error r => s.stageRecord c.id r
    | .ok t => done t
  else if act = 0x10 ∧ 128 ≤ (s.zonesWhere Zone.isActive).length then s.stageRecord c.id (CplRec.bad 1 0xBD)
  else done (s.zoneAct act z c.sqe.data)

/-- Seals a Zone Code Rate (R477, R387). -/
def State.sealRate (c : Ctx) (s : State) : State :=
  let z := c.sqe.zone
  let d := s.zone z
  if c.sqe.dw12.getLsbD 31 then (s.inc F.BUF_SEALCNT_count).stageRecord c.id (CplRec.good d.rate [])
  else if d.st ≠ 1 then s.stageRecord c.id (CplRec.bad 1 0xBF)
  else if (s.slotsIn [1, 2]).any (fun i => s.inZoneSet i z) then s.stageRecord c.id (CplRec.bad 7 0xC3)
  else ((s.journalZone z (fun d => { d with rate := c.sqe.dw12.toNat % 4 })).inc F.BUF_SEALCNT_count).stageRecord c.id CplRec.ok

/-- A zone descriptor as Report Zones returns it (R475), in the layout of the Zoned Namespace Command Set. -/
def Zone.report (d : Zone) (z : Nat) (ext : Bool) : List Byte :=
  [2, BitVec.ofNat 8 (d.st * 16), if d.desc.isSome then 0x80 else 0, 0, 0, 0, 0, 0] ++ leBytes 8 65536 ++
    leBytes 8 (z * 65536) ++ leBytes 8 (z * 65536 + d.wp) ++ List.replicate 32 0 ++
    (if ext then bytesAt (d.desc.getD []) 0 64 else [])

/-- The states that a reporting option selects. -/
def reportStates (ro : Nat) : List Nat :=
  match ro with
  | 1 => [1]
  | 2 => [2]
  | 3 => [3]
  | 4 => [4]
  | 5 => [0xE]
  | 6 => [0xD]
  | 7 => [0xF]
  | _ => [1, 2, 3, 4, 0xD, 0xE, 0xF]

/-- What a Zone Management Receive returns (R475): the zones from the one named whose state the option selects, as many
as fit the transfer, and their number: all that match, or with Partial Report those transferred. -/
def State.reportZones (s : State) (e : Sqe) : List Byte :=
  let ext := e.dw13.toNat % 256 == 1
  let len := (e.dw12.toNat + 1) * 4
  let per := if ext then 128 else 64
  let want := reportStates (e.dw13.toNat / 256 % 256)
  let hit := ((List.range zoneCount).drop e.zone).filter (fun z => want.contains (s.zone z).st)
  let shown := hit.take ((len - 64) / per)
  let n := if e.dw13.getLsbD 16 then shown.length else hit.length
  bytesAt (leBytes 8 n ++ List.replicate 56 0 ++ shown.flatMap (fun z => (s.zone z).report z ext)) 0 len

/-- Seals a command that carries no blocks, at or after its grant (R413, R414, R474). -/
def State.sealOther (c : Ctx) (s : State) : State :=
  if c.stage ≠ 1 then s
  else if c.sqe.op = 0 then (s.inc F.BUF_SEALCNT_count).stageRecord c.id CplRec.ok
  else if c.sqe.op = 0x79 then
    let busy := c.sqe.dw13.toNat % 256 == 4 && s.buf.ctxs.any (fun r =>
      r.sqe.isRead && r.sqe.nsid == 1 && decide (1 ≤ r.stage) && r.sqe.zones.any c.resets)
    if busy then s else s.sealSend c
  else if c.sqe.op = 0x86 then s.sealRate c
  else if c.sqe.op = 0x7A then
    if c.sqe.dw13.toNat % 256 ≤ 1 ∧ c.sqe.dw13.toNat / 256 % 256 ≤ 7 then
      (s.inc F.BUF_SEALCNT_count).stageRecord c.id (CplRec.good 0 (s.reportZones c.sqe))
    else s.stageRecord c.id CplRec.field
  else s

/-- Seals every write that can be sealed, in the order in which the last data was stored, and every command that carries
no blocks. -/
def State.sealAll (s : State) : State :=
  if s.buf.closed || s.draining then s else
  let ws := (s.buf.ctxs.filter Ctx.landedAll).mergeSort (fun a b => decide (a.ord ≤ b.ord))
  let s := doAll ws State.sealWrite s
  doAll (s.buf.ctxs.filter (fun c => c.sqe.kind == 2)) State.sealOther s

/-- Data of a write is stored in its landing blocks (R411); the last of it gives the write its place in the order of
sealing. -/
def State.land (id n : Nat) (s : State) : State :=
  match s.ctx? id with
  | none => s
  | some c =>
    if c.stage = 1 ∧ c.sqe.isWrite ∧ !c.landedAll then
      let s := s.onBuf (fun b => { b with seals := b.seals + 1 })
      s.onCtx id (fun c => { c with landed := min (c.sqe.nlb * 4096) (c.landed + n), ord := s.buf.seals })
    else s

/-! ## Writing the pool to media -/

/-- The live overlay entries of the tiles of a stripe (R96), with the tile of each. -/
def State.stripeEntries (s : State) (z lane : Nat) : List (Nat × (BitVec 64 × BitVec 64)) :=
  s.map.ovl.filter (fun e => ovlUse e.2 == 1 && ovlNs e.2 == 1 && ovlKey e.2 / 16384 == z && ovlGen e.2 == (s.zone z).gen &&
    entLane (s.entry (ovlKey e.2 / 128)) == lane)

/-- The stripe still has tiles in the saltern (R96). -/
def State.mustReturn (s : State) (z lane : Nat) : Bool := !(s.stripeEntries z lane).isEmpty

/-- Queues the write of the tile at `t` (R51, R58, R439). The lane writes a stripe in tile order: new data waits for the overlaid tiles
of its stripe to be home (R96). -/
def State.queueWrite (t : Nat) (s : State) : State :=
  let x := t / 512
  let z := t / 65536
  let d := s.zone z
  match s.located x with
  | none => s
  | some v =>
    let n := Fin.ofNat 4 (entLane v)
    if !(s.inService n) || s.mustReturn z (entLane v) then s
    else match s.tileSlot v d.rate (t / 4 % 128) with
      | none => s
      | some (tr, sl) =>
        let c : MediaCmd :=
          { op := 1, surface := entSurface v, track := tr, start := sl, qtr := 0, count := 1, modsel := tileModsel d.rate
            mask := s.goodMask (entSurface v) tr (s.slotsAt tr d.rate), tag := 0, deadline := none, cancelled := false
            units := [{ kind := 0, tag := t, gen := d.gen, hseq := 0, shuffled := d.shuf, ctx := 0, data := s.homeOrder t false (s.tileData t) }] }
        (s.addWork n c).onBuf (fun b => { b with blks := b.blks.map (fun w =>
          if w.st != .landing && w.ns == 1 && w.lba / 4 * 4 == t then { w with queued := true } else w) })

/-- Queues the write of a block of NSID 2, unless its group is on its way home. -/
def State.queueSector (w : WBlk) (s : State) : State :=
  match s.sectorOf w.lba with
  | none => s
  | some (lane, sf, tr, sec) =>
    if !(s.inService (Fin.ofNat 4 lane)) || s.map.ret.any (fun r => r.ns == 2 && r.key == w.lba / 4 * 4) then s
    else
      let c : MediaCmd :=
        { op := 4, surface := sf, track := tr, start := sec, qtr := 0, count := 1, modsel := sectorModsel
          mask := s.goodMask sf tr (s.slotsAt tr 3), tag := w.ord, deadline := none, cancelled := false
          units := [{ kind := 1, tag := w.lba, gen := 0, hseq := 0, shuffled := false, ctx := w.ord, data := w.data }] }
      (s.addWork (Fin.ofNat 4 lane) c).onBuf (fun b => { b with blks := b.blks.map (fun x =>
        if x.ns = 2 ∧ x.lba = w.lba ∧ x.ord = w.ord then { x with queued := true } else x) })

/-- A block of the pool still to be written. -/
def WBlk.waits (w : WBlk) : Bool := (w.st == .dirty || w.st == .wt) && !w.queued

/-- The tiles of NSID 1 with a block to be written, in order. -/
def State.tilesWaiting (s : State) : List Nat :=
  (((s.buf.blks.filter (fun w => w.ns == 1 && w.waits)).map (fun w => w.lba / 4 * 4)).eraseDups).mergeSort
    (fun a b => decide (a ≤ b))

/-- The tile may be passed to its lane whole (R416). -/
def State.tileWhole (s : State) (t : Nat) : Bool := (List.range 4).all (fun k => (s.poolBlk 1 (t + k)).isSome)

/-- Writes the partial tile at `t` home, zero-filled (R416). -/
def State.writePartial (t : Nat) (s : State) : State := (s.queueWrite t).inc F.BUF_PTCNT_count

/-- The partial tiles of a zone are written (R473). -/
def State.writeZonePartials (z : Nat) (s : State) : State :=
  doAll (s.tilesWaiting.filter (fun t => t / 65536 == z && !(s.tileWhole t))) State.writePartial s

/-- Partial tiles are written at once while SPN waits for a lower target, or a power-state entry for the dirty count (R44,
R416). -/
def State.partialsNow (s : State) : Bool :=
  s.spn.wait.isSome || (s.pwr.to_.map (fun k => decide (2 ≤ k))).getD false

/-! ## Returning tiles home -/

/-- The tile of an overlay key starts its way home (R95 step 1): the places that a read of it resolves to are queued to their lanes. With a
lane out of service, or data of NSID 2 in the pool that will supersede it, it stays where it is; so it does in the background where its
lanes are cocooned (R523). -/
def State.returnStart (ns key : Nat) (urgent : Bool) (s : State) : State :=
  let gen := if ns = 2 then 0 else (s.zone (key / 16384)).gen
  let es := s.overlay ns key gen
  let home := if ns = 2 then ((s.sectorOf key).map (·.1)).getD 0 else entLane (s.entry (key / 128))
  let lba := if ns = 2 then key else 4 * key
  let found := if ns = 1 then s.resolve1 key 15 else (s.resolve2 key 15).map (fun l => l.filter (·.coast))
  match found with
  | none => s
  | some srcs =>
    if es.isEmpty || srcs.isEmpty || srcs.any (fun x => !(s.lanesIn.contains x.lane)) || !(s.lanesIn.contains home) ||
        (ns == 2 && (List.range 4).any (fun k => (s.poolBlk 2 (key + k)).isSome)) ||
        (!urgent && (home :: srcs.map (·.lane)).any (fun d => !(s.runs d))) then s
    else
      let tile : RTile := { lba := lba, st := 0, code := 0, at_ := s.us, srcs := srcs, data := List.replicate 16384 0 }
      let lane := (srcs.head?.map (·.lane)).getD home
      let s := s.onMap (fun m => { m with ret := m.ret ++ [
        { ns := ns, key := key, gen := gen, tile := tile, left := 0, ents := es.map (·.1), urgent := urgent
          lane := if ns = 1 then home else lane, since := s.us }] })
      doAll srcs (fun x s => s.addWork (Fin.ofNat 4 x.lane) (s.readCmd 0 ns lba none x)) s

/-- A stripe, or the whole of NSID 2, has a tile on its way home. -/
def State.returnBusy (s : State) (ns z lane : Nat) : Bool :=
  s.map.ret.any (fun r => r.ns == ns && (ns == 2 || (r.key / 16384 == z && r.lane == lane)))

/-- The tile of a stripe that goes home next: the first in tile order (R96). -/
def State.returnNext (s : State) (z lane : Nat) : Option Nat :=
  ((s.stripeEntries z lane).map (fun e => ovlKey e.2)).min?

/-- The stripes with overlaid tiles: zone and lane. -/
def State.overlaid (s : State) : List (Nat × Nat) :=
  ((s.map.ovl.filter (fun e => ovlUse e.2 == 1 && ovlNs e.2 == 1 && ovlGen e.2 == (s.zone (ovlKey e.2 / 16384)).gen)).map (fun e =>
    (ovlKey e.2 / 16384, entLane (s.entry (ovlKey e.2 / 128))))).eraseDups

/-- The tiles of a stripe go home at media priority (R96): new data has been admitted for it, or its zone is in the zone set of an active
contract, or in that of a write contract that waits in step 4 of R388. -/
def State.returnUrgent (s : State) (z lane : Nat) : Bool :=
  s.buf.blks.any (fun w => w.ns == 1 && w.waits && w.lba / 65536 == z && ((s.located (w.lba / 512)).map entLane) == some lane) ||
    (s.slotsIn [2]).any (fun i => s.inZoneSet i z) || (s.slotsIn [1]).any (fun i => s.inZoneSet i z && s.getA (F.CTR_C_CFG_dir i) == 0)

/-- Starts the returns that go at media priority, one tile of a stripe at a time, once the namespaces are ready (R93). -/
def State.returnAllUrgent (s : State) : State :=
  if s.draining || decide (s.boot.ready < 4) then s
  else doAll (s.overlaid.filter (fun p => s.returnUrgent p.1 p.2 && !(s.returnBusy 1 p.1 p.2))) (fun p s =>
    match s.returnNext p.1 p.2 with
    | some key => s.returnStart 1 key true
    | none => s) s

/-- Every place of a tile on its way home has been read and merged (R95 steps 2 and 3): it is queued to its home slot, and a group of
NSID 2 to the sectors of the blocks that its entries hold. -/
def State.returnWrite (r : RetJob) (s : State) : State :=
  let drop (s : State) : State := s.onMap (fun m => { m with ret := m.ret.filter (fun x => x != r) })
  let wait (n : Nat) (s : State) : State :=
    s.onMap (fun m => { m with ret := m.ret.map (fun x => if x = r then { x with left := n } else x) })
  if r.ns = 1 then
    let v := s.entry (r.key / 128)
    let d := s.zone (r.key / 16384)
    match s.tileSlot v d.rate (r.key % 128) with
    | none => drop s
    | some (tr, sl) =>
      (wait 1 s).addWork (Fin.ofNat 4 (entLane v))
        { op := 1, surface := entSurface v, track := tr, start := sl, qtr := 0, count := 1, modsel := tileModsel d.rate
          mask := s.goodMask (entSurface v) tr (s.slotsAt tr d.rate), tag := 0, deadline := none, cancelled := false
          units := [{ kind := 0, tag := 4 * r.key, gen := d.gen, hseq := 0, shuffled := d.shuf, ctx := 0, data := s.homeOrder (4 * r.key) false r.tile.data }] }
  else
    let ks := (List.range 4).filter (fun k => r.tile.srcs.any (fun x => x.mask.testBit k))
    let at_ := ks.filterMap (fun k => (s.sectorOf (r.key + k)).map (fun p => (k, p)))
    if at_.isEmpty then drop s
    else doAll at_ (fun p s =>
      s.addWork (Fin.ofNat 4 p.2.1)
        { op := 4, surface := p.2.2.1, track := p.2.2.2.1, start := p.2.2.2.2, qtr := 0, count := 1, modsel := sectorModsel
          mask := s.goodMask p.2.2.1 p.2.2.2.1 (s.slotsAt p.2.2.2.1 3), tag := 0, deadline := none, cancelled := false
          units := [{ kind := 1, tag := r.key + p.1, gen := 0, hseq := 0, shuffled := false, ctx := 0
                      data := bytesAt r.tile.data (4096 * p.1) 4096 }] }) (wait at_.length s)

/-- A tile is home (R95 steps 4 to 6): its extent is journalled as home with its last overlaid tile, then its slots are released, and its
entries deleted. -/
def State.returnDone (r : RetJob) (s : State) : State :=
  let s := s.onMap (fun m => { m with ret := m.ret.filter (fun x => x != r) })
  let es := (r.ents.map (fun i => (i, s.ovlAt i))).filter (fun e => ovlUse e.2 == 1)
  let x := r.key / 128
  let more := s.map.ovl.any (fun e => ovlUse e.2 == 1 && ovlNs e.2 == 1 && ovlKey e.2 / 128 == x && ovlGen e.2 == r.gen &&
    !(r.ents.contains e.1))
  let s := if r.ns = 1 ∧ !more then s.journalEntry x (withState (s.entry x) 1) else s
  let s := s.deleteEntries es
  if r.urgent then s else s.onCtr (fun c => { c with bg := c.bg.set r.lane (c.bg.getD r.lane 0 + (s.us - r.since)) })

/-- A unit of a tile on its way home has passed its end mark. -/
def State.returnMark (u : MUnit) (s : State) : State :=
  match s.map.ret.find? (fun r => r.owns u) with
  | none => s
  | some r =>
    if r.left ≤ 1 then s.returnDone r
    else s.onMap (fun m => { m with ret := m.ret.map (fun x => if x = r then { x with left := x.left - 1 } else x) })

/-- Passes the tiles and sectors of the pool that may go to their lanes, and feeds the lanes (R411, R416, R473). -/
def State.dispatch (s : State) : State :=
  if s.draining then s
  else
    let s := s.returnAllUrgent
    let s := doAll s.tilesWaiting (fun t s =>
      if s.tileWhole t then s.queueWrite t
      else
        let st := (s.zone (t / 65536)).st
        if s.partialsNow || st == 4 || st == 0xE then s.writePartial t else s) s
    let s := doAll (s.buf.blks.filter (fun w => w.ns == 2 && w.waits)) State.queueSector s
    doAll allLanes State.feed s

/-- The tile at `t` is on media: once no tile of its extent waits for its end mark, the extent's record is created,
and its blocks are at write path step 7 (R79, R35): they leave the pool, or are held for a partial tile (R416). -/
def State.extentDone (x : Nat) (s : State) : State :=
  let mine (w : WBlk) : Bool := w.ns == 1 && w.lba / 512 == x && (w.st == .dirty || w.st == .wt)
  if s.buf.blks.any (fun w => mine w && !w.written) || !(s.buf.blks.any mine) then s
  else match s.located x with
    | none => s
    | some v =>
      let s := (s.journalEntry x v).onMap (fun m => { m with placed := m.placed.filter (fun p => p.1 != x) })
      let tiles := ((s.buf.blks.filter mine).map (fun w => w.lba / 4 * 4)).eraseDups
      let s := doAll tiles (fun t s =>
        let whole := decide ((s.tileBlks t).length = 4)
        let hold (w : WBlk) : WBlk :=
          if mine w && w.lba / 4 * 4 == t then { w with st := .held, written := false, queued := false } else w
        let gone (w : WBlk) : Bool := w.st != .landing && w.ns == 1 && w.lba / 4 * 4 == t
        if whole then s.onBuf (fun b => { b with blks := b.blks.filter (fun w => !(gone w)) })
        else s.onBuf (fun b => { b with blks := b.blks.map hold })) s
      (s.syncDirty).freeHeld (x / 128)

/-- A write unit has passed its end mark and is verified (R79, R212, R666): its tile `t` is on media at key `key`, and what it carries
goes on. -/
def State.unitWritten (c : MediaCmd) (u : MUnit) (t : Tile) (key : Nat) (s : State) : State :=
  let s := s.onMedia (fun d => { d with tiles := cput key t (d.tiles.filter (fun x => x.1 != key)) })
  if u.kind = 2 then
    if c.op = 1 ∧ sysType u.tag = sysJournal then s.journalMark (sysIndex u.tag)
    else if sysType u.tag = sysKeel then s.keelMark (sysIndex u.tag)
    else s
  else if s.map.ret.any (fun r => r.owns u) then s.returnMark u
  else if c.op = 1 then
    let s := s.onBuf (fun b => { b with blks := b.blks.map (fun w =>
      if w.ns == 1 && w.lba / 4 * 4 == u.tag && w.queued && (w.st == .dirty || w.st == .wt) then { w with written := true } else w) })
    (s.extentDone (u.tag / 512)).postAll
  else if c.op = 4 then
    let s := s.clearMask 2 u.tag 0
    let s := s.onBuf (fun b => { b with blks := b.blks.filter (fun w => !(w.ns == 2 && w.lba == u.tag && w.ord == u.ctx && w.queued)) })
    s.syncDirty.postAll
  else s

/-! ## What comes back from reads -/

/-- The metadata of a tile is what a unit's map or overlay entry expects (R70): kind, logical tag, generation, and of a coast tile its
harvest. -/
def Tile.wanted (t : Tile) (mu : MUnit) : Bool :=
  t.kind == mu.kind && t.tag == mu.tag && t.gen == mu.gen && (!t.coast || t.hseq == mu.hseq)

/-- A source of a tile is the unit that lies at a physical place. -/
def RSrc.at_ (x : RSrc) (surface track pos qtr : Nat) : Bool :=
  x.surface == surface && x.track == track && x.pos == pos && x.qtr == qtr && !x.done

/-- Changes every read tile that waits for a unit. -/
def State.onWaiting (surface track pos qtr : Nat) (f : RTile → RTile) (s : State) : State :=
  s.onBuf (fun b => { b with ctxs := b.ctxs.map (fun c => { c with tiles := c.tiles.map (fun t =>
    if !t.final && t.srcs.any (fun x => x.at_ surface track pos qtr) then f t else t) }) })

/-- The data of a unit has come: its blocks are taken, and the tile is complete with its last source. -/
def RTile.got (t : RTile) (ns surface track pos qtr : Nat) (data : List Byte) : RTile :=
  let mine := t.srcs.filter (fun x => x.at_ surface track pos qtr)
  let d := mine.foldl (fun d x =>
    if x.coast || ns == 2 then (List.range 4).foldl (fun d k =>
      if x.mask.testBit k then patch d (4096 * k) (bytesAt data 0 4096) else d) d
    else (List.range 4).foldl (fun d k => if x.mask.testBit k then patch d (4096 * k) (bytesAt data (4096 * k) 4096) else d) d)
    t.data
  let srcs := t.srcs.map (fun x => if x.at_ surface track pos qtr then { x with done := true } else x)
  { t with data := d, srcs := srcs, st := if srcs.all (·.done) then 2 else t.st }

/-- Changes the tiles on their way home that wait for a unit. -/
def State.onReturning (surface track pos qtr : Nat) (f : RTile → RTile) (s : State) : State :=
  s.onMap (fun m => { m with ret := m.ret.map (fun r =>
    if r.left == 0 && !r.tile.final && r.tile.srcs.any (fun x => x.at_ surface track pos qtr) then { r with tile := f r.tile } else r) })

/-- A tile on its way home waits for a unit (R166). -/
def State.returning (s : State) (surface track pos qtr : Nat) : Bool :=
  s.map.ret.any (fun r => r.left == 0 && !r.tile.final && r.tile.srcs.any (fun x => x.at_ surface track pos qtr))

/-- The address of a unit. -/
def PUnit.key (p : PUnit) : Nat := physKey p.surface p.track p.pos (if natBits p.modsel 6 2 = 1 then p.qtr else 0)

/-- A unit has its final outcome: its rereads are forgotten. -/
def State.settle (p : PUnit) (s : State) : State :=
  s.onBuf (fun b => { b with rereads := b.rereads.filter (fun x => x.1 != p.key) })

/-- The data of a unit as the read pool takes it: that of a home tile unshuffled (R439). -/
def State.unshuffled (s : State) (p : PUnit) (data : List Byte) : List Byte :=
  if p.mu.kind = 0 ∧ natBits p.modsel 6 2 = 0 then s.homeOrder p.mu.tag true data else data

/-- A unit was read well: its data reaches the commands that wait for it and the tiles on their way home, and read-ahead keeps it
(R384). -/
def State.unitRead (p : PUnit) (data : List Byte) (s : State) : State :=
  let ns := if p.mu.kind = 1 then 2 else 1
  let data := s.unshuffled p data
  let take (t : RTile) : RTile := t.got ns p.surface p.track p.pos p.qtr data
  let s := ((s.settle p).onWaiting p.surface p.track p.pos p.qtr take).onReturning p.surface p.track p.pos p.qtr take
  let s := s.onBuf (fun b => { b with ahead := b.ahead.map (fun a =>
    if !a.have_ && a.lba == p.mu.tag && p.mu.kind == 0 then { a with have_ := true, data := data } else a) })
  let s := doAll (s.map.ret.filter (fun r => r.left == 0 && r.tile.st == 2)) State.returnWrite s
  s.sealReads.postAll

/-- A unit can give no data: the tiles that wait for it fail with a code of R470, and one on its way home stays in the saltern. -/
def State.unitFailed (p : PUnit) (code : Nat) (s : State) : State :=
  let s := (s.settle p).onWaiting p.surface p.track p.pos p.qtr (fun t => { t with st := 3, code := code, at_ := s.us })
  let s := s.onReturning p.surface p.track p.pos p.qtr (fun t => { t with st := 3 })
  let s := s.onMap (fun m => { m with ret := m.ret.filter (fun r => r.tile.st != 3) })
  let s := s.onBuf (fun b => { b with ahead := b.ahead.filter (fun a => a.have_ || a.lba != p.mu.tag) })
  s.sealReads.postAll

/-- A read-ahead waits for a unit. -/
def State.aheadWaits (s : State) (p : PUnit) : Bool := p.mu.kind == 0 && s.buf.ahead.any (fun a => !a.have_ && a.lba == p.mu.tag)

/-- A unit is to be read again (R179, R469): once its rereads are used up everything that waits for it fails, and a command with Limited
Retry fails at once; otherwise the lane gets the unit again, whoever waits for it. -/
def State.reread (n : Fin 4) (p : PUnit) (code : Nat) (s : State) : State :=
  let done := ((s.buf.rereads.find? (fun x => x.1 == p.key)).map (·.2)).getD 0
  if s.get F.CRYS_CTL_rereads ≤ done then s.unitFailed p code
  else
    let waits (t : RTile) : Bool := !t.final && t.srcs.any (fun x => x.at_ p.surface p.track p.pos p.qtr)
    let s := s.onBuf (fun b => { b with ctxs := b.ctxs.map (fun c => { c with tiles := c.tiles.map (fun t =>
      if !(waits t) then t else if c.sqe.limited then { t with st := 3, code := code, at_ := s.us } else { t with st := 1 }) }) })
    let still := s.buf.ctxs.filter (fun c => c.tiles.any waits)
    if still.isEmpty && !(s.returning p.surface p.track p.pos p.qtr) && !(s.aheadWaits p) then (s.settle p).sealReads.postAll
    else
      let cmd : MediaCmd :=
        { op := if p.mu.kind = 1 ∧ natBits p.modsel 6 2 = 2 then 3 else 0, surface := p.surface, track := p.track, start := p.pos, qtr := p.qtr
          count := 1, modsel := p.modsel, mask := 2 ^ p.pos, tag := (still.head?.map (·.id)).getD 0
          deadline := (still.filterMap (·.deadline)).head?, cancelled := false, units := [p.mu] }
      let s := s.onBuf (fun b => { b with rereads := (p.key, done + 1) :: b.rereads.filter (fun x => x.1 != p.key) })
      ((((s.inc F.CRYS_REREADCNT_count).addWork n cmd).feed n).sealReads).postAll

/-- The lane has read a tile once without a final outcome (R372). -/
def State.markRead (p : PUnit) (s : State) : State := s.onWaiting p.surface p.track p.pos p.qtr (fun t => { t with st := max 1 t.st })

/-- The units of a command that are not yet read, as they would be posted. -/
def MediaCmd.punits (c : MediaCmd) : List PUnit :=
  let good := (List.range 2048).filter (fun p => decide (c.start ≤ p) && c.mask.testBit p)
  c.units.zipIdx.map (fun u =>
    { surface := c.surface, track := c.track, pos := good.getD u.2 c.start, qtr := if c.qtr = 0 then 0 else c.qtr, under := (c.surface, c.track)
      modsel := c.modsel, captured := false, bad := false, loop := false, mu := u.1, heard := Heard.none })

/-- A lane ends command `c` with lane error code `code` (R195): a read's incomplete units fail. -/
def State.laneError (c : MediaCmd) (code : Nat) (s : State) : State :=
  doAll c.punits (fun p s => s.unitFailed p (0x100 + code % 256)) s

/-- Extents not yet recorded get their places anew, in their order. -/
def State.placeAnew (xs : List Nat) (s : State) : State :=
  let xs := xs.mergeSort (fun a b => decide (a ≤ b))
  doAll xs (fun x s => (s.place x).getD s) (s.onMap (fun m => { m with placed := m.placed.filter (fun p => !(xs.contains p.1)) }))

/-- A lane reports position `pos` of a track as damaged (R55): it is journalled as a grown defect. A sector of NSID 2 is reassigned
(R62); on a zoned band the extents of the band not yet recorded are placed anew and the writes that wait for the lane are built again, so
that what follows shifts by one slot. -/
def State.grownDefect (n : Fin 4) (op surface track pos : Nat) (s : State) : State :=
  let key := physKey surface track pos 0
  if s.map.defects.contains key then s
  else
    let s := (s.onMap (fun m => { m with defects := m.defects ++ [key] })).journal 4 key 1
    let band := s.bandOf surface track
    let stale (c : MediaCmd) : Bool := op != 2 && c.op == op && c.surface == surface && (op == 4 || s.bandOf surface c.track == band)
    let old := (s.lane n).queue.filter stale ++ s.buf.work[n].filter stale
    let s := s.setQueue n ((s.lane n).queue.filter (fun c => !(stale c)))
    let s := s.onBuf (fun b => { b with work := b.work.set n (b.work[n].filter (fun c => !(stale c))) })
    let s := doAll old State.unqueue s
    if op = 4 then
      let hit := (((s.lane n).cur.toList ++ old).flatMap (·.units)).filter (fun u => u.kind == 1 &&
        ((s.sectorOf u.tag).map (fun p => physKey p.2.1 p.2.2.1 p.2.2.2 0)) == some key)
      doAll (hit.map (·.tag)).eraseDups State.reassign s
    else if band.isNone then s
    else s.placeAnew ((s.map.placed.filter (fun p => entSurface p.2 == surface && s.bandOf surface (entTrack p.2) == band)).map (·.1))

/-- Commands that wait for a lane out of service: writes are placed again, reads fail (R59, R229). -/
def State.purge (n : Fin 4) (s : State) : State :=
  if s.inService n || s.draining || s.buf.work[n].isEmpty then s
  else
    let w := s.buf.work[n]
    let s := s.onBuf (fun b => { b with work := b.work.set n [] })
    doAll w (fun c s => if c.reads then doAll c.punits (fun p s => s.unitFailed p 0xF2) s else s.unqueue c) s

/-- Extents placed on a lane out of service and not yet written are placed again on the lanes in service (R59). -/
def State.replace (s : State) : State :=
  let gone := (s.map.placed.filter (fun p => !(s.lanesIn.contains (entLane p.2)))).map (·.1)
  doAll gone (fun x s => (s.place x).getD s) s

/-- Everything that BUF can do at once: what lanes gave back, grants, seals, posts and media work. -/
def State.pump (s : State) : State :=
  let s := (doAll allLanes State.purge s).replace
  ((s.grantAll.sealAll.sealReads.postAll).dispatch).syncBuf

/-! ## Withdrawal -/

/-- Withdraws the media commands that only dead contexts wait for: the current one is cancelled (R182). -/
def State.withdraw (s : State) : State :=
  let live (u : MUnit) : Bool := s.buf.ctxs.any (fun c => c.id == u.ctx && c.stage == 1)
  let dead (c : MediaCmd) : Bool := c.reads && !c.units.isEmpty && c.units.all (fun u => u.ctx != 0 && !(live u))
  doAll allLanes (fun n s =>
    let s := s.onBuf (fun b => { b with work := b.work.set n (b.work[n].filter (fun c => !(dead c))) })
    let q := (s.lane n).queue
    let s := if q.any dead then s.setQueue n (q.filter (fun c => !(dead c))) else s
    match (s.lane n).cur with
    | some c =>
      if dead c && !c.cancelled then
        (s.onLane n (fun l => { l with cur := l.cur.map (fun c => { c with cancelled := true }) })).latchTrap n 6 none
      else s
    | none => s) s

/-- Discards every unsealed command and drops every record not yet posted, as a reset does (R415). -/
def State.discardAll (s : State) : State :=
  let s := s.onBuf (fun b => { b with
    ctxs := [], blks := b.blks.filter (fun w => w.st != .landing), ahead := [] })
  s.withdraw.syncBuf

/-- Opened zones become Closed or Empty, as at a controller level reset (R668). -/
def State.closeZones (s : State) : State :=
  doAll (s.zonesWhere Zone.isOpen) (fun z s =>
    s.journalZone z (fun d => { d with st := if d.wp = 0 ∧ d.desc.isNone then 1 else 4 })) s

end Sys2Proof.Machine
end

