-- ==== Sys2Proof/Machine/Events.lean ====
section
/-! DEFINITION. The event recorder and the measurements (15_alerts_and_events.md R607 to R622): firmware posts, the
time lock, flushing to the ring, and the end of a measurement interval. The end of a flush is in Harvest.lean, since a
harvest and a diapause go on from it. -/

namespace Sys2Proof.Machine
open Sys2Proof

/-- Power-on time in ms: counted from `PWRON_N`, plus EVT_POT once tlock is set (R608). -/
def State.potMs (s : State) : Nat :=
  (if s.flag F.EVT_CTL_tlock then s.get F.EVT_POTHI_ms * 2 ^ 32 + s.get F.EVT_POTLO_ms else 0) + s.nowMs

/-- A write of EVT_SWc_HDR (R612): the record is posted when post is written; core 3 always posts with source 21h, and
cores 0 to 2 only with source 20h. -/
def State.writeSwHdr (p : Path) (c : Fin 4) (v : Word) (s : State) : State :=
  let f : Nat := c
  let src := (F.EVT_SW_HDR_src f).of v
  s.gated p (R.EVT_SW_HDR f) v (v.getLsbD 31 && f != 3 && src != 0x20) (fun s =>
    let s := s.take (R.EVT_SW_HDR f) v
    if v.getLsbD 31 then
      s.post (if f = 3 then 0x21 else src) ((F.EVT_SW_HDR_code f).of v)
        ((List.range 8).flatMap (fun w => leBytes 4 (s.reg (R.EVT_SW_P f w)).toNat))
    else s)

/-- EVT_SW_POST (R612). -/
def execEvtSwPost (p : Path) (c : Fin 4) (v : Word) (s : State) : Host.Outcome State Fault Refusal :=
  .next (s.writeSwHdr p c v)

/-- Early records are rewritten when tlock sets, and EVT_SEQ advances by the early count (R608). -/
def State.lockTime (s : State) : State :=
  let pot := s.get F.EVT_POTHI_ms * 2 ^ 32 + s.get F.EVT_POTLO_ms
  let fix (r : EvtRec) : EvtRec :=
    if r.early then
      { r with
        time := (r.time + pot) % 2 ^ 64
        pcyc := s.get F.EVT_PCYC_count
        seq := (r.seq + s.get F.EVT_SEQ_seq) % 2 ^ 32
        early := false }
    else r
  let n := s.evt.early
  let s := { s with evt := { s.evt with sram := s.evt.sram.map (fun (x : EvtRec × Bool) => (fix x.1, x.2)), early := 0 } }
  let s := (s.add F.EVT_SEQ_seq n).put F.EVT_CTL_tlock 1
  if s.evt.waiting then { s with evt := { s.evt with waiting := false } }.askFlush else s

/-- A write of EVT_CTL (R608, R613): the fold window, and tlock, which only sets. -/
def State.writeEvtCtl (p : Path) (v : Word) (s : State) : State :=
  s.gated p R.EVT_CTL v false (fun s =>
    let s := s.put F.EVT_CTL_fold (F.EVT_CTL_fold.of v)
    if v.getLsbD 31 && !(s.flag F.EVT_CTL_tlock) then s.lockTime else s)

/-- EVT_TLOCK (R608). -/
def execEvtTlock (p : Path) (v : Word) (s : State) : Host.Outcome State Fault Refusal := .next (s.writeEvtCtl p v)

/-- A write of EVT_CMD (R616). -/
def State.writeEvtCmd (p : Path) (v : Word) (s : State) : State :=
  s.gated p R.EVT_CMD v false (fun s => if v.getLsbD 31 then s.askFlush else s)

/-- EVT_CMD_FLUSH (R616). -/
def execEvtCmdFlush (p : Path) (v : Word) (s : State) : Host.Outcome State Fault Refusal := .next (s.writeEvtCmd p v)

/-- The flush has reached a sector that is still being erased (R618). -/
def State.flushBlocked (s : State) : Bool := s.evt.erase == some (s.get F.EVT_RINGHD_slot / 1024)

/-- The records of the flush not yet written, oldest first. -/
def State.flushLeft (s : State) : List EvtRec :=
  ((s.evt.sram.filter (fun x => !x.2)).take s.evt.left).map (·.1)

/-- Marks the first `n` unflushed records as flushed. -/
def markFlushed : Nat → List (EvtRec × Bool) → List (EvtRec × Bool)
  | 0, l => l
  | _, [] => []
  | n + 1, (r, true) :: l => (r, true) :: markFlushed (n + 1) l
  | n + 1, (r, false) :: l => (r, true) :: markFlushed n l

/-- A page program ends well: its records, up to four and to the end of the page, are in the ring, and entering a
sector starts the erase of the next one (R617). -/
def State.flushPage (s : State) : State :=
  let hd := s.get F.EVT_RINGHD_slot
  let batch := s.flushLeft.take (4 - hd % 4)
  let n := batch.length
  let ring := (List.range n).foldl
    (fun m i => (m.filter (fun x => x.1 != hd + i)) ++ (batch[i]?.toList.map (fun r => (hd + i, r)))) s.evt.ring
  let s := { s with evt := { s.evt with ring := ring, sram := markFlushed n s.evt.sram, left := s.evt.left - n } }
  let s := (s.put F.EVT_RINGHD_slot (hd + n)).put F.EVT_FLSEQ_seq ((batch.getLast?.map (·.seq)).getD (s.get F.EVT_FLSEQ_seq))
  let s := s.put F.EVT_STAT_unfl s.evt.unflushed
  if hd % 1024 = 0 ∧ 0 < n then
    { s.put F.EVT_STAT_erase 1 with evt := { s.evt with erase := some ((hd / 1024 + 1) % 64) } }
  else s

/-- EVT_FLUSH_PAGE_DONE (R617 to R619): a page of a flush in progress is programmed, or fails and is abandoned, which
ends the flush. While the flush waits for an erase, no page ends. -/
def execEvtFlushPageDone (ok : Bool) (s : State) : Host.Outcome State Fault Refusal :=
  .next (if !(s.flag F.EVT_STAT_flush) || s.flushBlocked || s.flushLeft.isEmpty then s
    else if ok then s.flushPage
    else
      let hd := s.get F.EVT_RINGHD_slot
      let s := (s.raiseAt F.EVT_ERR_e 2).put F.EVT_RINGHD_slot (hd + (4 - hd % 4))
      { s with evt := { s.evt with left := 0 } })

/-- EVT_SECTOR_ERASE_DONE (R617). -/
def execEvtSectorEraseDone (s : State) : Host.Outcome State Fault Refusal :=
  .next (match s.evt.erase with
    | none => s
    | some k =>
      { s.put F.EVT_STAT_erase 0 with
        evt := { s.evt with erase := none, ring := s.evt.ring.filter (fun x => x.1 / 1024 != k) } })

/-- One entry of the measurement log (R622). -/
def State.measEntry (s : State) : List Byte :=
  let at16 (x : Nat) : List Byte := leBytes 2 x
  leBytes 8 s.potMs ++ leBytes 1 (s.get F.EVT_MTEMP_tj) ++ leBytes 1 (s.get F.EVT_MTEMP_td) ++
    at16 (meanOf s.meas.rpmSum s.meas.rpmN) ++ leBytes 4 (s.get F.HRV_BUDGET_kib) ++
    leBytes 4 (s.get F.EVT_MDIRTY_kib) ++ at16 (s.get F.EVT_MVOLT0_vin) ++ at16 (s.get F.EVT_MVOLT0_hold) ++
    at16 (s.get F.EVT_MVOLT1_mbus) ++ at16 (s.get F.EVT_MVIB_peak) ++ at16 (s.get F.EVT_MVIB_rms) ++
    at16 (s.get F.EVT_MSHOCK_count) ++ (List.range 4).flatMap (fun a => at16 (s.get (F.EVT_MPES_rms a))) ++
    (List.range 4).flatMap (fun a => at16 (min 0xFFFF (s.get (F.SRV_MISSCNT_count a)))) ++
    leBytes 4 (sumOf (List.range 12) (fun m => s.get (F.ECC_CE_count m))) ++ leBytes 4 (s.get F.CRYS_QCNT_count) ++
    leBytes 1 s.nvme.feats.ps ++ leBytes 1 (s.get F.SPN_TGT_point) ++ List.replicate 6 0

/-- MEASUREMENT_INTERVAL_END (R621, R622): the gathered values are latched, the gathering restarts, and core 0 adds an
entry to its log unless the cores are halted. While MOTION is cocooned the vibration and PES values read zero. The operands are the
lowest `VIN_SENSE` and `HOLD_SENSE` and the highest `MBUS_SENSE` of the interval, in units of 10 mV. -/
def execMeasurementIntervalEnd (vin hold mbus : BitVec 16) (s : State) : Host.Outcome State Fault Refusal :=
  .next (if s.get F.EVT_MEASCFG_period = 0 then s else
    let m := s.meas
    let still := !(s.runs 5)
    let z (x : Nat) : Nat := if still then 0 else x
    let s := (s.put F.EVT_MTEMP_tj ((m.tj.map (·.toNat)).getD 0)).put F.EVT_MTEMP_td ((m.td.map (·.toNat)).getD 0)
    let s := ((s.put F.EVT_MVOLT0_vin vin.toNat).put F.EVT_MVOLT0_hold hold.toNat).put F.EVT_MVOLT1_mbus mbus.toNat
    let s := ((s.put F.EVT_MDIRTY_kib m.dirty).put F.EVT_MVIB_peak (z m.vibPeak)).put F.EVT_MVIB_rms
      (z (rmsOf m.vibSq m.vibN))
    let s := s.put F.EVT_MSHOCK_count m.shocks
    let s := doAll (List.range 4)
      (fun a => State.put (F.EVT_MPES_rms a) (z (rmsOf (m.pesSq.toList.getD a 0) (m.pesN.toList.getD a 0)))) s
    let s := s.inc F.EVT_MSTAT_seq
    let log := if s.hrv.coresHalted then m.log else (s.measEntry :: m.log).take 256
    { s with meas := { MeasState.empty with log := log } })

end Sys2Proof.Machine
end

