-- ==== Sys2Proof/Machine/FlashOps.lean ====
section
/-! DEFINITION. The configuration flash (13_startup_and_image.md R537 to R543): its bytes, the boot records and the counters
records. An erased byte reads FFh. The event ring's bytes are those of the records it holds. -/

namespace Sys2Proof.Machine
open Sys2Proof

/-- An erased byte. -/
def flashDefault (_ : Nat) : Byte := 0xFF

/-- The bytes of the event ring's slot that holds an address of the ring. -/
def State.ringByte (s : State) (a : Nat) : Byte :=
  match s.evt.ring.find? (fun x => x.1 == (a - 0x3800000) / 64) with
  | some x => byteAt x.2.bytes ((a - 0x3800000) % 64)
  | none => 0xFF

/-- A byte of the flash. -/
def State.flashByte (s : State) (a : Nat) : Byte :=
  if 0x3800000 ≤ a ∧ a < 0x3C00000 then s.ringByte a else cget flashDefault s.flash a

/-- `n` bytes of the flash. -/
def State.flashBytes (s : State) (a n : Nat) : List Byte := (List.range n).map (fun i => s.flashByte (a + i))

/-- Programs bytes: a program can only clear bits. -/
def State.program (a : Nat) (bs : List Byte) (s : State) : State :=
  { s with flash := (bs.zipIdx).foldl (fun m x =>
      cset flashDefault (a + x.2) (cget flashDefault m (a + x.2) &&& x.1) m) s.flash }

/-- Erases the bytes from `a` on. -/
def State.eraseFlash (a n : Nat) (s : State) : State :=
  { s with flash := s.flash.filter (fun x => !(decide (a ≤ x.1 ∧ x.1 < a + n))) }

/-! ## CRC-64 -/

/-! ## Boot records -/

/-- Boot record `i` (R538): its sequence, active slot and image version, where its CRC-64 is right. -/
def State.bootRec (s : State) (i : Nat) : Option (Nat × Nat × Nat) :=
  let b := s.flashBytes (0x3C20000 + i * 0x10000) 64
  if ofLe (b.drop 56) = (crc64 (b.take 56)).toNat then some (ofLe (b.take 4), (byteAt b 4).toNat, ofLe (bytesAt b 8 4)) else none

/-- The record in use (R539): the valid one with the higher sequence. -/
def State.bootNow (s : State) : Option (Nat × Nat × Nat) :=
  match s.bootRec 0, s.bootRec 1 with
  | some a, some b => if a.1 < b.1 then some b else some a
  | some a, none => some a
  | none, o => o

/-- An update of the boot record (R539): the sector with the lower sequence, or an invalid one, is rewritten. -/
def State.setBoot (slot ver : Nat) (s : State) : State :=
  let i := match s.bootRec 0, s.bootRec 1 with
    | none, _ => 0
    | _, none => 1
    | some a, some b => if a.1 < b.1 then 0 else 1
  let seq := ((s.bootRec (1 - i)).map (fun r => r.1 + 1)).getD 1
  let body := leBytes 4 seq ++ [BitVec.ofNat 8 slot, 0, 0, 0] ++ leBytes 4 ver ++ List.replicate 44 0
  (s.eraseFlash (0x3C20000 + i * 0x10000) 0x10000).program (0x3C20000 + i * 0x10000) (body ++ leBytes 8 (crc64 body).toNat)

/-! ## Counters -/

/-- Counters record `i` of the 8,192 of both sectors (R540): power-on time and cycle count, where it is valid. -/
def State.counterRec (s : State) (i : Nat) : Option (Nat × Nat) :=
  let b := s.flashBytes (0x3C00000 + 16 * i) 16
  if ofLe (b.drop 12) = (Config.crc32c (b.take 12)).toNat then some (ofLe (b.take 8), ofLe (bytesAt b 8 4)) else none

/-- The record with the higher power-on time of the best so far and the one at `i`. -/
def State.laterCounter (s : State) (best : Option (Nat × Nat × Nat)) (i : Nat) : Option (Nat × Nat × Nat) :=
  match s.counterRec i, best with
  | some r, some b => if b.2.1 ≤ r.1 then some (i, r) else some b
  | some r, none => some (i, r)
  | none, b => b

/-- Records of both counter sectors. -/
def counterRecs : Nat := 8192

/-- The valid record with the highest power-on time: its index and contents. -/
def State.lastCounter (s : State) : Option (Nat × Nat × Nat) := (List.range counterRecs).foldl s.laterCounter none

/-- Appends a counters record (R540). -/
def State.addCounter (pot pcyc : Nat) (s : State) : State :=
  let i := ((s.lastCounter).map (fun r => (r.1 + 1) % counterRecs)).getD 0
  let s := if i % 4096 = 0 then s.eraseFlash (0x3C00000 + 16 * i) 0x10000 else s
  let body := leBytes 8 pot ++ leBytes 4 pcyc
  s.program (0x3C00000 + 16 * i) (body ++ leBytes 4 (Config.crc32c body).toNat)

/-- The firmware's counters record (R540): the power-on time now and the power-cycle count, once it runs. -/
def State.countersRecord (s : State) : State :=
  if s.boot.phase = 4 ∧ s.flag F.EVT_CTL_tlock then s.addCounter s.potMs (s.get F.EVT_PCYC_count) else s

end Sys2Proof.Machine
end

