-- ==== Sys2Proof/Machine/CrysQueue.lean ====
section
/-! DEFINITION. The crystallizer's queue (04_crystallizer.md R159 to R167): directories, pins, and the classes of
entries. -/

namespace Sys2Proof.Machine
open Sys2Proof

/-- Changes the crystallizer. -/
def State.onCrys (f : CrysSt → CrysSt) (s : State) : State := { s with crys := f s.crys }

/-- Engine `e`. -/
def State.engine (s : State) (e : Nat) : Engine := s.crys.eng.getD e Engine.idle

/-- Changes engine `e`. -/
def State.onEngine (e : Nat) (f : Engine → Engine) (s : State) : State :=
  s.onCrys (fun c => { c with eng := c.eng.set e (f (c.eng.getD e Engine.idle)) })

/-- The directory of a lane ring (R159). -/
def State.dir (s : State) (n : Nat) : List BrRec := s.crys.dir.getD n []

/-- Changes the directory of a lane ring; CRYS_BRPINn shows its oldest pinned record (R163). -/
def State.onDir (n : Nat) (f : List BrRec → List BrRec) (s : State) : State :=
  let s := s.onCrys (fun c => { c with dir := c.dir.set n (f (c.dir.getD n [])) })
  match (s.dir n).find? (fun r => decide (0 < r.pins)) with
  | some r => (s.put (F.CRYS_BRPIN_valid n) 1).put (F.CRYS_BRPIN_ptr n) r.first
  | none => (s.put (F.CRYS_BRPIN_valid n) 0).put (F.CRYS_BRPIN_ptr n) 0

/-- The slot of a unit. -/
def PUnit.slot (n : Nat) (u : PUnit) : Place :=
  { lane := n, surface := u.surface, track := u.track, slot := u.pos, qtr := if natBits u.modsel 6 2 = 1 then u.qtr else 0 }

/-- The newest record of a slot, as the directory locates it (R159). -/
def State.record? (s : State) (p : Place) : Option BrRec := (s.dir p.lane).find? (fun r => r.newest && r.place == p)

/-- A lane ring in 64-byte units (R154). -/
def State.ringUnits (s : State) : Nat := 0x800000 * 2 ^ s.get F.CRYS_BRCFG_size / s.variant.lanes

/-- The HBM address of the 64-byte unit `i` of the ring of lane `n` (R154): the rings lie in lane order from the region's base. -/
def State.ringAddr (s : State) (n i : Nat) : Nat :=
  s.get F.CRYS_BRCFG_base * 0x4000000 + 64 * (n * s.ringUnits + i % s.ringUnits)

/-- CRYS makes records: it runs, whether or not a cocoon is requested, and an engine is in service (R160). -/
def State.crysOn (s : State) : Bool := decide (s.dom 4 ≤ 1) && s.enginesIn != 0

/-- Shows the queue and the engines. -/
def State.syncCrys (s : State) : State :=
  let s := s.put F.CRYS_STAT_qdepth s.crys.queue.length
  doAll (List.range s.variant.lanes) (fun e s =>
    let g := s.engine e
    let s := s.putBit F.CRYS_STAT_busy e g.ent.isSome
    match g.ent with
    | some x => (((s.put (F.CRYS_ENG_state e) 1).put (F.CRYS_ENG_lane e) x.lane).put (F.CRYS_ENG_cls e) x.cls).put (F.CRYS_ENG_us e)
        (min 65535 (s.us - g.at_))
    | none =>
      let s := s.put (F.CRYS_ENG_state e) (if s.bit F.CRYS_STAT_offline e then 2 else 0)
      ((((s.put (F.CRYS_ENG_us e) 0).put (F.CRYS_ENG_lane e) 0).put (F.CRYS_ENG_cls e) 0).put (F.CRYS_ENG_phase e) 0).put (F.CRYS_ENG_iter e) 0) s

/-- The records that an entry pins. -/
def CrysEnt.pinned (x : CrysEnt) : List Nat := x.own.toList ++ x.neigh

/-- Releases the pins of an entry (R162). -/
def State.unpin (x : CrysEnt) (s : State) : State :=
  s.onDir x.lane (fun d => d.map (fun r => if x.pinned.contains r.first then { r with pins := r.pins - 1 } else r))

/-- Two tracks of a surface lie in one band (R161). -/
def State.sameBand (s : State) (surface a b : Nat) : Bool :=
  (s.bandsOf surface).any (fun x => decide (x.1 ≤ a ∧ a ≤ x.2) && decide (x.1 ≤ b ∧ b ≤ x.2))

/-- Pins an entry's own record and the neighbour records that the directory holds (R161): those of the same slot on the tracks on
either side, in the same band. An own record that has been overwritten is not pinned again. -/
def State.pin (x : CrysEnt) (s : State) : State × CrysEnt :=
  let p := x.unit.slot x.lane
  let rec_ (t : Nat) : Option Nat :=
    ((s.record? { p with track := t }).filter (fun r => r.whole && s.sameBand p.surface p.track t)).map (·.first)
  let near := (if p.track = 0 then none else rec_ (p.track - 1)).toList ++ (rec_ (p.track + 1)).toList
  let x := { x with own := ((s.record? p).filter (·.whole)).map (·.first), neigh := near }
  (s.onDir x.lane (fun d => d.map (fun r => if x.pinned.contains r.first then { r with pins := r.pins + 1 } else r)), x)

/-- The commands that wait for a unit. -/
def State.waiters (s : State) (u : PUnit) : List Ctx :=
  s.buf.ctxs.filter (fun c => c.tiles.any (fun t => !t.final && t.srcs.any (fun x => x.at_ u.surface u.track u.pos u.qtr)))

/-- Something else still needs a unit: a system read, return home, or a read-ahead. -/
def State.needed (s : State) (u : PUnit) : Bool :=
  u.mu.kind == 2 || s.returning u.surface u.track u.pos u.qtr || s.buf.ahead.any (fun a => !a.have_ && a.lba == u.mu.tag)

/-- The class and deadline of an entry (R166, R167); none where it is cancelled. -/
def State.classOf (s : State) (x : CrysEnt) : Option CrysEnt :=
  let ws := s.waiters x.unit
  let left (d : Nat) : Nat := (d + 2 ^ 32 - s.ctrTime + 2 ^ 31) % 2 ^ 32
  match ws.filterMap (·.deadline) with
  | d :: ds => some { x with cls := 0, aged := false, deadline := some (ds.foldl (fun m y => if left y < left m then y else m) d) }
  | [] =>
    if !ws.isEmpty || x.unit.mu.kind == 2 then some { x with cls := 1, deadline := none, aged := false }
    else if s.needed x.unit then
      if x.aged then some x
      else some { x with cls := 2, deadline := none, since := if x.cls = 2 then x.since else s.us }
    else none

/-- Entries follow their waiting commands (R167, R182): one that nothing needs leaves the queue, and an engine that holds
it stops at its next check. -/
def State.reclass (s : State) : State :=
  let gone := s.crys.queue.filter (fun x => (s.classOf x).isNone)
  let s := doAll gone State.unpin s
  let cut (g : Engine) : Engine := match g.ent with
    | some x => match s.classOf x with
      | some y => { g with ent := some y }
      | none => { g with cancel := true }
    | none => g
  (s.onCrys (fun c => { c with queue := c.queue.filterMap s.classOf, eng := c.eng.map cut })).syncCrys

end Sys2Proof.Machine
end

