-- ==== Sys2Proof/Machine/Buffer.lean ====
section
/-! DEFINITION. The commit and buffer manager's commands and events, and the I/O commands (10_buffer_and_dma.md R402 to
R419, 11_host_interface.md R462 to R481). An I/O command's row fetches the command and carries it as far as it goes
without waiting; COMMAND_FETCH only fetches it, and the rows of the stages move one that waits. -/

namespace Sys2Proof.Machine
open Sys2Proof

/-- An entry of crystallizer queue or engines is for a unit. -/
def State.inCrys (s : State) (surface track pos qtr : Nat) : Bool :=
  (s.crys.queue ++ s.crys.eng.filterMap (·.ent)).any (fun e =>
    e.unit.surface == surface && e.unit.track == track && e.unit.pos == pos && e.unit.qtr == qtr)

/-- COMMAND_FETCH (R409, R367 to R370, R457, R462): the entry waits for its grant, or has its error status. -/
def execCommandFetch (q : Fin 65) (e : Sqe) (s : State) : Host.Outcome State Fault Refusal :=
  .next (if q.val = 0 then s else s.fetch1 q e)

/-- GRANT (R410). -/
def execGrant (s : State) : Host.Outcome State Fault Refusal := .next s.grantAll.reclass

/-- HOST_DATA_TLP (R28, R411): `n` bytes, at most what the FIFO to the landing area holds, of the data of the write with context `id`. -/
def execHostDataTlp (id n : Nat) (s : State) : Host.Outcome State Fault Refusal := .next (s.land id (min n 65536)).syncBuf

/-- SEAL (R412, R414, R474). -/
def execSealWrites (s : State) : Host.Outcome State Fault Refusal := .next s.sealAll.postAll.dispatch.syncBuf

/-- READ_SEAL (R413). -/
def execReadSeal (s : State) : Host.Outcome State Fault Refusal := .next s.sealReads.syncBuf

/-- COMPLETION_STAGE (R419): the host has consumed `n` entries of a completion queue; records are posted into the
space. -/
def execCompletionStage (cq : Fin 65) (n : Nat) (s : State) : Host.Outcome State Fault Refusal :=
  .next ((s.consume cq n).postAll.pump)

/-- CQ_WAIT_LONG (R419): a record has waited over 1 ms for space in its queue. -/
def execCqWaitLong (s : State) : Host.Outcome State Fault Refusal :=
  .next (if s.buf.ctxs.any (fun c => c.stage == 3 && decide (1000 < s.us - c.since)) then s.raise F.BUF_ERR_cqlong else s)

/-- PARTIAL_TILE_TIMEOUT (R416): the dirty blocks of the tile at block `t` of NSID 1 have not changed for
BUF_PTILE.ms. -/
def execPartialTileTimeout (t : Nat) (s : State) : Host.Outcome State Fault Refusal :=
  let ms := s.get F.BUF_PTILE_ms
  let b := t / 4 * 4
  let mine := s.buf.blks.filter (fun w => w.ns == 1 && w.lba / 4 * 4 == b && w.waits)
  .next (if ms = 0 ∨ mine.isEmpty ∨ mine.any (fun w => decide (s.us - w.born < ms * 1000)) ∨ s.harvesting then s
    else doAll allLanes State.feed (s.writePartial b))

/-- The time has come to `t` of CTR_TIME, compared modulo 2³². -/
def State.reached (s : State) (t : Nat) : Bool := decide ((s.ctrTime + 2 ^ 32 - t) % 2 ^ 32 < 2 ^ 31)

/-- WRITE_DEADLINE_MISS (R371): the conforming write `id` has not been admitted by its deadline less 100 µs. -/
def execWriteDeadlineMiss (id : Nat) (s : State) : Host.Outcome State Fault Refusal :=
  .next (match s.ctx? id with
    | some c =>
      match c.deadline with
      | some d =>
        if c.sqe.isWrite && decide (c.stage ≤ 1) && s.reached ((d + 2 ^ 32 - 100) % 2 ^ 32) then
          ((s.failWrite c (CplRec.bad 7 0xC1)).postAll).pump.reclass
        else s
      | none => s
    | none => s)

/-- CONTRACT_STOP_TIME (R180, R372): the conforming read `id` has reached its stop time: a tile never read misses the
deadline, one that waits for a reread fails; a tile in the crystallizer ends there. -/
def execContractStopTime (id : Nat) (s : State) : Host.Outcome State Fault Refusal :=
  .next (match s.ctx? id with
    | some c =>
      match c.deadline with
      | some d =>
        if c.sqe.isRead && c.stage == 1 && s.reached ((d + 2 ^ 32 - 10 * s.get F.CRYS_SCHED_guard) % 2 ^ 32) then
          let stop (t : RTile) : RTile :=
            if t.final || t.srcs.any (fun x => !x.done && s.inCrys x.surface x.track x.pos x.qtr) then t
            else { t with st := 3, code := if t.st = 0 then 0xFF else 0xF3, at_ := s.us }
          (((s.onCtx id (fun c => { c with tiles := c.tiles.map stop })).sealReads.withdraw).postAll).pump.reclass
        else s
      | none => s
    | none => s)

/-- The named slots' shadow values, with CTR_FRAME and CTR_RSV, become active. -/
def State.ctrApply (s : State) : State :=
  let named := (List.range 16).filter s.ctr.takeMask.testBit
  let s := doAll (named.flatMap slotRegs ++ [R.CTR_FRAME, R.CTR_RSV]) State.activate s
  (s.put F.CTR_GO_pending 0).ctrTotals

/-- The lane has taken the values; the last one makes them active and clears pending (R400). -/
def State.ctrTake (n : Fin 4) (s : State) : State :=
  let rest := s.ctr.take.filter (fun x => x != n.val)
  let s := s.onCtr (fun c => { c with take := rest })
  if rest.isEmpty then s.ctrApply else s

/-- Tiles after the last block read of contract `i` that lie on lane `n`. -/
def State.readAhead (n : Fin 4) (i : Nat) (s : State) : State :=
  let free := s.poolUnits - s.unitsHeld - s.buf.ahead.length - s.get F.BUF_RPRSV_mib * 64
  let depth := s.getA (F.CTR_C_RA_mib i) * 64 / s.lanesIn.length
  let mine (t : Nat) : Bool := decide ((s.entry (t / 128)).toNat / 2 ^ 62 = n.val)
  let have_ := (s.buf.ahead.filter (fun a => a.slot == i && mine (a.lba / 4))).length
  let from_ := (s.contract i).lastBlock / 4 + 1
  let next := ((List.range (16384 * 4)).map (from_ + ·)).filter (fun t => mine t && s.inZoneSet i (t / 16384) &&
    (entState (s.entry (t / 128)) == 1 || s.lookupBad (t / 128)) && !(s.buf.ahead.any (fun a => a.lba == 4 * t)))
  doAll (next.take (min free (depth - have_))) (fun t s =>
    let s := doIf (s.lookupBad (t / 128)) (State.raise F.MAP_ERR_entry) (s.lookup (t / 128))
    let r := (s.readTile 1 (4 * t) 15).1
    match r.srcs with
    | [x] =>
      let c := s.readCmd 0 1 (4 * t) none x
      (s.addWork n c).onBuf (fun b => { b with ahead := b.ahead ++ [{ slot := i, lba := 4 * t, have_ := false, data := [] }] })
    | _ => s) s

/-- The frame time has not passed since the start of the lane's frame (R383). -/
def State.inFrame (s : State) (n : Fin 4) : Bool := decide (s.us < s.ctr.frame.getD n.val 0 + s.getA F.CTR_FRAME_us)

/-- FRAME_START (R382 to R384, R400): lane `n` takes the shadow values, begins a frame with its first visit, and reads ahead for the active
read contracts within their depth and the pool beyond the staging reserve (R404). -/
def execFrameStart (n : Fin 4) (s : State) : Host.Outcome State Fault Refusal :=
  .next (if s.get F.CTR_CTL_en = 0 ∨ !(s.inService n) ∨ s.inFrame n then s else
    let s := if s.flag F.CTR_GO_pending && s.ctr.take.contains n.val then s.ctrTake n else s
    let s := s.onCtr (fun c => { c with frame := c.frame.set n s.us, bg := c.bg.set n 0, visit := c.visit.set n (0, 0) })
    let slots := (s.slotsIn [2]).filter (fun i => s.getA (F.CTR_C_CFG_dir i) == 1 && s.getA (F.CTR_C_RA_mib i) != 0)
    doAll slots (State.readAhead n) s |>.feed n)
/-- A write of CTR_GO (R400): bad if a named slot that is pending or active in its shadow has rate zero, or while a GO
is pending (R17). The lanes in service take the values at their frame starts; where no frames run, they act at once. -/
def State.writeCtrGo (p : Path) (v : Word) (s : State) : State :=
  let mask := v.toNat % 65536
  let named := (List.range 16).filter mask.testBit
  let bad := named.any (fun i =>
    (s.get (F.CTR_C_CFG_state i) == 1 || s.get (F.CTR_C_CFG_state i) == 2) && s.get (F.CTR_C_RATE_mbps i) == 0)
  s.gated p R.CTR_GO v (bad || (mask != 0 && s.flag F.CTR_GO_pending)) (fun s =>
    if mask = 0 then s
    else
      let s := (s.onCtr (fun c => { c with take := s.lanesIn, takeMask := mask })).put F.CTR_GO_pending 1
      if s.lanesIn.isEmpty ∨ s.get F.CTR_CTL_en = 0 then State.ctrApply (s.onCtr (fun c => { c with take := [] })) else s)

/-- CTR_GO (R400). -/
def execCtrGo (p : Path) (v : Word) (s : State) : Host.Outcome State Fault Refusal := .next (s.writeCtrGo p v)

/-! ## BUF registers -/

/-- The bytes of HBM fitted (R1). -/
def Variant.hbmBytes : Variant → Nat
  | .h16 => 0x400000000
  | .h08 => 0x200000000
  | .d02 => 0x200000000

/-- A lock of the pools breaks R402: two regions overlap, or one lies beyond the fitted HBM. -/
def State.poolsBad (s : State) : Bool :=
  let mib64 := 0x4000000
  let rs := [(s.get F.BUF_WPOOL_base * mib64, s.get F.BUF_WPOOL_size * mib64),
    (s.get F.BUF_RPOOL_base * mib64, s.get F.BUF_RPOOL_size * mib64),
    (s.get F.CRYS_BRCFG_base * mib64, 0x20000000 * 2 ^ s.get F.CRYS_BRCFG_size),
    (s.get F.DMA_BUFPROG_base * 0x10000, 0x100000)]
  let meets (a b : Nat × Nat) : Bool := decide (a.1 < b.1 + b.2 ∧ b.1 < a.1 + a.2)
  rs.any (fun r => decide (s.variant.hbmBytes < r.1 + r.2)) ||
    (List.range 4).any (fun i => (List.range i).any (fun j => meets (rs.getD i (0, 0)) (rs.getD j (0, 0))))

/-- A write of BUF_CTL (R402). -/
def State.writeBufCtl (p : Path) (v : Word) (s : State) : State :=
  s.gated p R.BUF_CTL v (v.getLsbD 31 && s.poolsBad) (fun s =>
    let s := s.take R.BUF_CTL v
    (if s.flag F.BUF_CTL_lock then s.put F.TMR_LSCTL_test 0 else s).syncBuf)

/-- BUF_CTL_LOCK (R402). -/
def execBufCtlLock (p : Path) (v : Word) (s : State) : Host.Outcome State Fault Refusal := .next (s.writeBufCtl p v)

/-- An abort reaches the commit engine (R414, R478, R479): 1 aborted, 2 not aborted, 3 not found. -/
def State.abortIo (sq cid : Nat) (s : State) : Nat × State :=
  match s.buf.ctxs.find? (fun c => c.sq == sq && c.sqe.cid.toNat == cid) with
  | none => (3, s)
  | some c =>
    if 2 ≤ c.stage ∨ c.sqe.op = 0 then (2, s)
    else
      let s := (s.failWrite c (CplRec.bad 0 7)).inc F.BUF_ABORTCNT_count
      (1, ((s.withdraw).postAll).pump.reclass)

/-- A write of BUF_ABORT (R414). The result is valid at once, so busy never reads 1. -/
def State.writeBufAbort (p : Path) (v : Word) (s : State) : State :=
  s.gated p R.BUF_ABORT v false (fun s =>
    let s := s.take R.BUF_ABORT v
    if v.getLsbD 31 then
      let r := s.abortIo (s.get F.BUF_ABORT_sqid) (s.get F.BUF_ABORT_cid)
      r.2.put F.BUF_ABORT_result r.1
    else s)

/-- BUF_ABORT_WRITE (R414). -/
def execBufAbortWrite (p : Path) (v : Word) (s : State) : Host.Outcome State Fault Refusal := .next (s.writeBufAbort p v)

/-! ## I/O commands -/

/-- An I/O command is fetched from queue `q` and goes as far as it can at once: grant, the landing of all its data, its
seal, its completion. -/
def State.ioCommand (q : Nat) (e : Sqe) (s : State) : State :=
  let id := s.buf.nextId
  let s := if q = 0 then s else s.fetch1 q e
  let s := s.grantAll
  ((s.land id (e.nlb * 4096)).pump.reclass)

/-- The command with the Zone Management Send action `act`. -/
def withAction (e : Sqe) (act : BitVec 8) : Sqe :=
  { e with op := 0x79, dw13 := (e.dw13 &&& ~~~0xFF#32) ||| act.setWidth 32 }

/-- FLUSH (R413, R481). -/
def execFlush (q : Fin 65) (e : Sqe) (s : State) : Host.Outcome State Fault Refusal := .next (s.ioCommand q { e with op := 0 })

/-- WRITE (R412, R463 to R468, R476). -/
def execWrite (q : Fin 65) (e : Sqe) (s : State) : Host.Outcome State Fault Refusal := .next (s.ioCommand q { e with op := 1 })

/-- READ (R37, R66 to R68, R466, R470): blocks that a contract's read-ahead holds come from there (R384). -/
def execRead (q : Fin 65) (e : Sqe) (s : State) : Host.Outcome State Fault Refusal := .next (s.ioCommand q { e with op := 2 })

/-- ZONE_APPEND (R412, R476). -/
def execZoneAppend (q : Fin 65) (e : Sqe) (s : State) : Host.Outcome State Fault Refusal := .next (s.ioCommand q { e with op := 0x7D })

/-- PLANE_READ (R440, R441). -/
def execPlaneRead (q : Fin 65) (e : Sqe) (s : State) : Host.Outcome State Fault Refusal := .next (s.ioCommand q { e with op := 0x85 })

/-- ZONE_CODE_RATE (R477). -/
def execZoneCodeRate (q : Fin 65) (e : Sqe) (s : State) : Host.Outcome State Fault Refusal := .next (s.ioCommand q { e with op := 0x86 })

/-- ZONE_CLOSE (R473). -/
def execZoneClose (q : Fin 65) (e : Sqe) (s : State) : Host.Outcome State Fault Refusal := .next (s.ioCommand q (withAction e 1))

/-- ZONE_FINISH (R473). -/
def execZoneFinish (q : Fin 65) (e : Sqe) (s : State) : Host.Outcome State Fault Refusal := .next (s.ioCommand q (withAction e 2))

/-- ZONE_OPEN (R472). -/
def execZoneOpen (q : Fin 65) (e : Sqe) (s : State) : Host.Outcome State Fault Refusal := .next (s.ioCommand q (withAction e 3))

/-- ZONE_RESET (R69, R99, R474): it is sealed as soon as no earlier read of the zone is outstanding. -/
def execZoneReset (q : Fin 65) (e : Sqe) (s : State) : Host.Outcome State Fault Refusal := .next (s.ioCommand q (withAction e 4))

/-- ZONE_RESET_SEAL (R474): the reads before the Resets have completed. -/
def execZoneResetSeal (s : State) : Host.Outcome State Fault Refusal := .next s.pump

/-- OFFLINE_ZONE (R471). -/
def execOfflineZone (q : Fin 65) (e : Sqe) (s : State) : Host.Outcome State Fault Refusal := .next (s.ioCommand q (withAction e 5))

/-- SET_ZONE_DESCRIPTOR_EXTENSION (R436). -/
def execSetZoneDescriptorExtension (q : Fin 65) (e : Sqe) (s : State) : Host.Outcome State Fault Refusal :=
  .next (s.ioCommand q (withAction e 0x10))

/-- The command with the Zone Management Receive action `act`. -/
def withReport (e : Sqe) (act : BitVec 8) : Sqe :=
  { e with op := 0x7A, dw13 := (e.dw13 &&& ~~~0xFF#32) ||| act.setWidth 32 }

/-- REPORT_ZONES (R475). -/
def execReportZones (q : Fin 65) (e : Sqe) (s : State) : Host.Outcome State Fault Refusal := .next (s.ioCommand q (withReport e 0))

/-- EXTENDED_REPORT_ZONES (R475). -/
def execExtendedReportZones (q : Fin 65) (e : Sqe) (s : State) : Host.Outcome State Fault Refusal := .next (s.ioCommand q (withReport e 1))

/-- UNSUPPORTED_OPCODE (R462): a command of the admin queue (0) or of an I/O queue whose opcode the part does not
support. -/
def execUnsupportedOpcode (q : Fin 65) (e : Sqe) (s : State) : Host.Outcome State Fault Refusal :=
  let admin := [0x00#8, 0x01#8, 0x02#8, 0x04#8, 0x05#8, 0x06#8, 0x08#8, 0x09#8, 0x0A#8, 0x0C#8, 0x10#8, 0x11#8, 0x19#8, 0x1A#8,
    0xC1#8, 0xC2#8, 0xC3#8]
  .next (if q.val = 0 then (if admin.contains e.op then s else s.admin false (fun s => s.adminDone e.cid (CplRec.bad 0 1)) e)
    else if s.ioOpcode e.op then s else s.ioCommand q e)

end Sys2Proof.Machine
end

