-- ==== Sys2Proof/Machine/HbmOps.lean ====
section
/-! DEFINITION. The bytes of the HBM stack (R401): a table by address; a byte that nothing has written reads as zero. -/

namespace Sys2Proof.Machine
open Sys2Proof

/-- What a byte of the HBM that nothing has written reads as. -/
def hbmDefault (_ : Nat) : Byte := 0

/-- The size of the stack's address space, 32 GiB. -/
def hbmSize : Nat := 0x800000000

/-- A byte of the HBM. -/
def State.hbmByte (s : State) (a : Nat) : Byte := cget hbmDefault s.hbm a

/-- `n` bytes of the HBM from address `a`. -/
def State.hbmBytes (s : State) (a n : Nat) : List Byte := (List.range n).map (fun i => s.hbmByte (a + i))

/-- Writes a byte of the HBM. -/
def State.setHbm (a : Nat) (b : Byte) (s : State) : State := { s with hbm := cset hbmDefault a b s.hbm }

/-- Writes bytes of the HBM from address `a`. -/
def State.setHbmBytes (a : Nat) (bs : List Byte) (s : State) : State :=
  (doAll bs.zipIdx (fun b s => s.setHbm (a + b.2) b.1) s).wroteWords 0 0 (a / 8) (ceilDiv (a % 8 + bs.length) 8) none

end Sys2Proof.Machine
end

