-- ==== Sys2Proof/Machine/CrysOps.lean ====
section
/-! DEFINITION. Brine and the crystallizer (04_crystallizer.md): capture records, and the ends of entries. -/

namespace Sys2Proof.Machine
open Sys2Proof

/-- What lies where a unit was read, in the format it was read in (R150): of a unit in LOOPBACK, the tile that is its command's. -/
def State.thereAt (s : State) (n : Nat) (p : PUnit) : Option Tile :=
  if p.loop then
    some { kind := p.mu.kind, tag := p.mu.tag, gen := p.mu.gen, shuffled := p.mu.shuffled, coast := false, hseq := p.mu.hseq
           modsel := p.modsel / 16, place := p.slot n, data := p.mu.data }
  else
    ((s.media.tiles.find? (fun t => t.1 == physKey p.under.1 p.under.2 p.pos (p.slot n).qtr)).map (·.2)).filter
      (fun t => t.modsel == p.modsel / 16)

/-- An entry ends with a final outcome (R178): it is counted, and its commands hear of it; `data` is what an OK entry delivers. -/
def State.crysEnd (x : CrysEnt) (outcome : Nat) (iti : Bool) (data : List Byte) (s : State) : State :=
  let n : Fin 4 := Fin.ofNat 4 x.lane
  let s := match outcome with
    | 0 => doIf iti (State.inc F.CRYS_ITICNT_count) (s.inc F.CRYS_OKCNT_count)
    | 1 => s.inc F.CRYS_MISCCNT_count
    | 2 | 3 => s.inc F.CRYS_FAILCNT_count
    | 4 => s.inc F.CRYS_EXPCNT_count
    | 5 => s.inc F.CRYS_OVRCNT_count
    | 6 => s.inc F.CRYS_QFULLCNT_count
    | _ => s
  let s := match outcome with
    | 0 => s.unitRead x.unit data
    | 1 | 2 | 3 | 4 => s.unitFailed x.unit outcome
    | 5 | 6 | 7 => s.reread n x.unit outcome
    | _ => s
  s.syncCrys

/-- A queue entry for a unit, or one shared with it, which then pins the newest record (R161), or QFULL (R164, R165). -/
def State.crysQueue (n : Fin 4) (u : PUnit) (s : State) : State :=
  let mine (x : CrysEnt) : Bool := x.lane == n.val && x.unit.slot n == u.slot n
  match s.crys.queue.find? mine with
  | some x =>
    let r := (s.unpin x).pin x
    (r.1.onCrys (fun c => { c with queue := c.queue.map (fun y => if y.ord = x.ord then r.2 else y) })).reclass
  | none =>
    if s.inCrys u.surface u.track u.pos u.qtr then s.reclass
    else
      let x : CrysEnt := { unit := u, lane := n, cls := 2, deadline := none, ord := s.crys.ord, since := s.us, fails := 0
                           aged := false, nosync := u.heard.sync.isNone, own := none, neigh := [] }
      if 256 ≤ s.crys.queue.length then (s.raise F.CRYS_ERR_qfull).crysEnd x 6 false []
      else
        let r := s.pin x
        let s := (r.1.onCrys (fun c => { c with queue := c.queue ++ [r.2], ord := c.ord + 1 })).inc F.CRYS_QCNT_count
        s.reclass

/-- The records whose first bytes lie among `gone` in the ring of lane `n` are lost to an entry: its neighbours among them (R163). -/
def CrysEnt.lose (x : CrysEnt) (n : Nat) (gone : List Nat) : CrysEnt :=
  if x.lane = n then { x with neigh := x.neigh.filter (fun f => !(gone.contains f)) } else x

/-- Records whose first byte lies in the `len` units from `at_` of a lane ring are overwritten (R159, R163): their pins are lost. An
entry whose own record is among them ends OVERRUN, also in the load phase of an engine, and its other pins are released; without a
neighbour record the engine decodes without it. -/
def State.overwrite (n at_ len : Nat) (s : State) : State :=
  let size := s.ringUnits
  let hit (r : BrRec) : Bool := decide ((r.first + size - at_) % size < len)
  let lost := (s.dir n).filter (fun r => hit r && decide (0 < r.pins))
  let gone := lost.map (·.first)
  let s := s.onDir n (fun d => d.filter (fun r => !(hit r)))
  let mine (x : CrysEnt) : Bool := x.lane == n && (x.own.map gone.contains).getD false
  let loads (e : Nat) : Bool := s.get (F.CRYS_ENG_phase e) == 1
  let busy := (List.range 4).filter (fun e => (s.engine e).ent.any mine && loads e)
  let dead := s.crys.queue.filter mine ++ busy.filterMap (fun e => (s.engine e).ent)
  let s := s.onCrys (fun c => { c with
    queue := (c.queue.filter (fun x => !(mine x))).map (fun x => x.lose n gone)
    eng := c.eng.zipIdx.map (fun g => if loads g.2 then
      { g.1 with ent := g.1.ent.map (fun x => x.lose n gone), iti := g.1.iti && g.1.ent.any (fun x => !(x.lose n gone).neigh.isEmpty) }
      else g.1) })
  let s := doAll busy (fun e s => s.onEngine e (fun _ => Engine.idle)) s
  let s := doIf (!lost.isEmpty) (State.raise F.CRYS_ERR_overrun) s
  doAll dead (fun x s => (s.unpin x).crysEnd x 5 false []) s

/-- The units of a record of samples (R157): the header's space, then 64-byte chunks of reader A and B in turn, zero padded. -/
def recordChunks (a b : List Int) : List (List Byte) :=
  let chunk (x : List Int) (k : Nat) : List Byte := (List.range 64).map (fun i => BitVec.ofInt 8 (x.getD (64 * k + i) 0))
  List.replicate 64 0 :: (List.range (ceilDiv (max a.length b.length) 64)).flatMap (fun k => [chunk a k, chunk b k])

/-- A capture record begins in a lane ring (R156 to R159): its samples are written from the capture pointer on, and its header's
valid bit reads 0 until its header is written. The directory locates the newest record of each slot. -/
def State.capture (n : Fin 4) (p : Place) (a b : List Int) (s : State) : State :=
  let size := s.ringUnits
  let at_ := s.get (F.CRYS_BRWP_ptr n)
  let chunks := recordChunks a b
  let s := s.overwrite n at_ chunks.length
  let s := doAll chunks.zipIdx (fun c s => s.setHbmBytes (s.ringAddr n (at_ + c.2)) c.1) s
  let s := s.onDir n (fun d => (d.map (fun r => if r.place = p then { r with newest := false } else r)).filter
      (fun r => r.newest || decide (0 < r.pins)) ++
    [{ place := p, first := at_, len := chunks.length, count := max a.length b.length, newest := true, whole := false, set_ := 0
       modsel := 0, ta := [], marks := [], pins := 0 }])
  s.put (F.CRYS_BRWP_ptr n) (if size = 0 then 0 else (at_ + chunks.length) % size)

/-- The 64 bytes of a capture header (R158). -/
def BrRec.header (r : BrRec) (outcome : Nat) : List Byte :=
  let mark (k : Nat) : List Byte := match r.marks[k]? with
    | some m => leBytes 4 m.1 ++ [BitVec.ofInt 8 (m.2.1 % 64), 0, BitVec.ofNat 8 m.2.2.1, BitVec.ofNat 8 m.2.2.2]
    | none => List.replicate 8 0
  leBytes 8 (r.place.addr / 2 ^ 24 * 2 ^ 24) ++ leBytes 4 r.count ++
    [BitVec.ofNat 8 (outcome + (if r.ta.isEmpty then 0 else 16) + (if r.whole then 0 else 32) + 128), BitVec.ofNat 8 r.set_,
     BitVec.ofNat 8 r.modsel, BitVec.ofNat 8 (min 5 r.marks.length)] ++
    (List.range 5).flatMap mark ++ leBytes 2 (min 0xFFFF r.ta.length) ++ [0, 0] ++
    leBytes 4 ((r.ta.head?.map (·.1)).getD 0xFFFFFFFF)

/-- The header of the newest record of a unit is written with its outcome (R139, R158). -/
def State.headRecord (n : Fin 4) (u : PUnit) (outcome : Nat) (s : State) : State :=
  match s.record? (u.slot n) with
  | none => s
  | some r =>
    let r := { r with whole := u.captured, set_ := (s.lane n).setIdx, modsel := u.modsel, ta := u.heard.ta, marks := u.heard.marks }
    let s := s.onDir n (fun d => d.map (fun x => if x.newest && x.place == r.place then { r with pins := x.pins } else x))
    s.setHbmBytes (s.ringAddr n r.first) (r.header outcome)

/-- The unit has a record, not yet judged by its header, that is still in the ring. -/
def State.recorded (s : State) (n : Fin 4) (u : PUnit) : Bool := (s.record? (u.slot n)).isSome

/-- CRYS is cocooned by a harvest (R182, R183): every entry ends CANCELLED, every pin is lost. -/
def State.crysDrop (s : State) : State :=
  ((s.onCrys (fun c => { c with queue := [], eng := c.eng.map (fun g => { Engine.idle with test := g.test })
                                dir := List.replicate 4 [] }))).syncCrys

end Sys2Proof.Machine
end

