-- ==== Sys2Proof/Machine/MicroOps.lean ====
section
/-! DEFINITION. The track sequencer (05_track_sequencer.md R185 to R229): its conditions, operations, faults and traps,
and the execution of a microword. -/

namespace Sys2Proof.Machine
open Sys2Proof

/-- Bit `i` of a microword. -/
def mbit (m : BitVec 160) (i : Nat) : Bool := m.getLsbD i

/-- The position error of actuator `n` is within a limit. -/
def State.within (s : State) (n : Fin 4) (lim : Nat) : Bool := decide ((s.act n).pes.natAbs ≤ lim)

/-! ## Conditions -/

/-- The condition that COND code `c` selects (R193), before CPOL. -/
def State.cond (s : State) (n : Fin 4) (e : WordEnv) (c : Nat) : Bool :=
  let l := s.lane n
  let op := s.get (F.MCS_CC0_op n)
  let held := l.cur.isSome
  let code := natBits (s.get (F.MCS_CC2_modsel n)) 4 4
  match c with
  | 0x00 => true
  | 0x01 => held
  | 0x02 => !l.queue.isEmpty
  | 0x03 => held && (op == 0 || op == 3)
  | 0x04 => held && (op == 1 || op == 4)
  | 0x05 => held && op == 2
  | 0x06 => held && op == 5
  | 0x07 => held && (op == 3 || op == 4)
  | 0x08 => held && code == 0
  | 0x09 => held && code == 1
  | 0x0A => held && code == 2
  | 0x0B => l.setok
  | 0x0C => s.flag (F.SCA_SKSTAT_done n) && (s.act n).skdone
  | 0x0D => !(s.bit F.SRV_STAT_force n) && s.within n (s.get (F.SRV_WLIM_lim n))
  | 0x0E => s.slotAt n (s.get (F.MCS_TPOS_pos n)) (s.get (F.MCS_TPOS_qtr n)) ((l.cur.map (·.modsel)).getD 0)
  | 0x0F => (l.unit.map (·.begun)).getD false
  | 0x10 => l.tdone
  | 0x11 => (l.wfifo != 0 && !e.starved) || l.portUnit ((l.cur.map (·.modsel)).getD 0)
  | 0x12 => l.readRoom ((l.cur.map (·.modsel)).getD 0)
  | 0x13 => s.get (F.MCS_CC0_count n) == 0
  | 0x14 => l.trkend || (nextGood ((l.cur.map (·.mask)).getD 0) 2049 (s.get (F.MCS_TPOS_pos n))).isNone
  | 0x15 => l.wunsafe
  | 0x16 => l.wmiss
  | 0x17 => l.wverify
  | 0x18 => s.get (F.MCS_LC_lc0 n) == 0
  | 0x19 => s.get (F.MCS_LC_lc1 n) == 0
  | 0x1A => l.tm0.running && l.tm0.expired
  | 0x1B => l.tm1.running && l.tm1.expired
  | 0x1C => l.index
  | 0x1D => s.harvesting || s.hrv.commit != 0
  | 0x1E => s.flag (F.MCS_STAT_stopreq n)
  | 0x1F => s.mcs n == 4
  | 0x20 => l.paflt
  | 0x21 => l.outok
  | 0x22 => s.flag (F.LANE_STAT_half n)
  | 0x23 => s.flag (F.LANE_STAT_lock n)
  | _ => false

/-- The condition of a word with its polarity (R192). -/
def State.condOf (s : State) (n : Fin 4) (e : WordEnv) (m : BitVec 160) : Bool :=
  s.cond n e (wordBits m 139 6) != mbit m 138

/-- INDEX holds what has passed since the last word that selected it. -/
def State.condRead (n : Fin 4) (m : BitVec 160) (s : State) : State :=
  let q := wordBits m 145 3
  if (q = 2 ∨ q = 6) ∧ wordBits m 139 6 = 0x1C then s.onLane n (fun l => { l with index := false }) else s

/-! ## Gates -/

/-- A source of R135 or R215 stands that forces `WGn` low: `PAFLTn`, the synthesizer out of lock, or MOTION's force; and the bit of
WFMASK that masks it. -/
def State.unsafeNow (s : State) (n : Fin 4) : Option (Option Nat) :=
  if (s.lane n).paflt then some (some 2)
  else if !(s.flag (F.LANE_STAT_lock n)) then some (some 3)
  else if s.bit F.SRV_STAT_force n then some (((s.forceSources n).find? (·.1)).map (·.2))
  else none

/-- ERASE or PATTERN writes `k` symbols from where the head is (R194): the units that they meet are lost. -/
def State.writeRaw (n : Fin 4) (k : Nat) (s : State) : State :=
  let l := s.lane n
  let r := s.ringUnder n
  let at_ := s.under n
  let mode := wordBits l.word 124 4
  if !(s.flag (F.LANE_STAT_wg n)) || !(mode == 3 || mode == 4) || l.align || r.total = 0 then s
  else
    let a := r.usable l.sym
    let b := r.usable (l.sym + k)
    let hit (x : Nat × Tile) : Bool :=
      let p := x.1 / 4 % 2048
      let st := unitStart (x.2.modsel * 16) p (x.1 % 4)
      x.1 / 8192 == at_.1 * 4194304 + at_.2 && decide (a < st + unitLen (x.2.modsel * 16) ∧ st < b)
    { s with media := { s.media with
      tiles := s.media.tiles.filter (fun x => !(hit x))
      raw := s.media.raw ++ [{ surface := at_.1, track := at_.2, first := a, len := b - a
                               pattern := if mode = 4 then some (wordBits l.word 48 16) else none }] } }

/-- The gates that the word, the datapath and the place of the head ask for (R186, R215): the write window is open for the fields of
a WRITE unit, which no wedge interrupts, or for all of a word in ERASE or PATTERN. -/
def State.gatesAsked (s : State) (n : Fin 4) : Bool × Bool :=
  let l := s.lane n
  let run := s.executing n
  let m := l.word
  let mode := wordBits m 124 4
  let unit := (l.unit.map (fun u => u.write && u.begun && decide (0 < u.left))).getD false
  let window := unit && !(s.inWedge n) && mode == 2 || mode == 3 || mode == 4
  (run && mbit m 131 && window && !l.wunsafe, run && mbit m 130)

/-- The lane's gates follow the word, the datapath and the head (R186, R202, R215). A write unit during whose fields `WGn` is low never
passes its end mark (R212), and a read unit's samples are incomplete where the read gate is low (R138). `WGn` does not rise, and the
latch sets, while a source of a write-unsafe event stands (R135). A retune that waits begins once both gates are low (R32). -/
def State.setGates (n : Fin 4) (s : State) : State :=
  let asked := s.gatesAsked n
  let s := match asked.1, s.unsafeNow n with
    | true, some m => (s.put (F.LANE_STAT_wg n) 1).writeUnsafe n m
    | _, _ => s
  let wg := (s.gatesAsked n).1
  let rg := asked.2
  let field := !(s.inWedge n)
  let s := s.onLane n (fun l => { l with unit := l.unit.map (fun u =>
    if u.begun && field && decide (0 < u.left) && (if u.write then !wg else !rg && !u.loop) then { u with short := true } else u) })
  let s := (s.put (F.LANE_STAT_wg n) (if wg then 1 else 0)).put (F.LANE_STAT_rg n) (if rg then 1 else 0)
  let s := if s.executing n then s.put (F.LANE_STAT_sg n) (if mbit (s.lane n).word 129 && s.inWedge n then 1 else 0) else s
  if (s.lane n).tune && !wg && !rg then s.retuneNow n else s

/-- The sequencer leaves execution: gates low, datapath idle (R186). -/
def State.haltTo (n : Fin 4) (st : Nat) (s : State) : State :=
  let s := (s.put (F.MCS_STAT_state n) st).put (F.MCS_STAT_pc n) (s.lane n).last
  (s.onLane n (fun l => { l with word := 0, waiting := false })).setGates n

/-! ## Faults -/

/-- A microcode fault (R229). -/
def State.microFault (n : Fin 4) (code : Nat) (s : State) : State :=
  let pc := s.get (F.MCS_STAT_pc n)
  let s := (s.endUnit n).returnAll n
  let s := ((s.put (F.MCS_FLT_valid n) 1).put (F.MCS_FLT_code n) code).put (F.MCS_FLT_pc n) pc
  let s := doIf (code == 6) (State.raise (F.LANE_ERR_modsel n)) s
  ((s.haltTo n 5).raise (F.MCS_ERR_fault n)).laneLeft

/-- The command that is current once BUFOP `b` has acted. -/
def State.cmdAfter (s : State) (n : Fin 4) (b : Nat) : Option MediaCmd :=
  match b with
  | 0 => (s.lane n).cur
  | 1 => (s.lane n).queue.find? (fun c => c.count != 0)
  | 5 => (s.lane n).cur
  | _ => none

/-- MODSEL differs in bits 7 to 4 from that of the command on which a START of the word acts, or is reserved (R151, R194). -/
def State.modselWrong (s : State) (n : Fin 4) (b m : Nat) : Bool :=
  modselBad m || ((s.cmdAfter n b).map (fun c => natBits c.modsel 4 4 != natBits m 4 4)).getD false

/-- The current command was withdrawn by BUF (R182). -/
def Lane.cancelled (l : Lane) : Bool := (l.cur.map (·.cancelled)).getD false

/-- BUFOP `b` is a fault of code 8h (R228). -/
def State.bufopBad (s : State) (n : Fin 4) (b : Nat) : Bool :=
  let l := s.lane n
  match b with
  | 0 => false
  | 1 => l.cur.isSome
  | 2 => l.cur.isNone || (s.get (F.MCS_CC0_count n) != 0 && !l.cancelled)
  | _ => l.cur.isNone

/-- TILEOP `t` with datapath mode `d` is a fault of code 8h (R228), `held` saying whether a command is held. -/
def State.tileopBad (s : State) (n : Fin 4) (held : Bool) (t d : Nat) : Bool :=
  t != 0 && (!held || (t == 1 && (d == 0 || ((s.lane n).unit.map (·.begun)).getD false)))

/-- The fault of a word about to execute (R191, R228), the lowest code first. -/
def State.wordFault (s : State) (n : Fin 4) (m : BitVec 160) : Option Nat :=
  let q := wordBits m 145 3
  let c := wordBits m 139 6
  let wg := mbit m 131
  let rg := mbit m 130
  let d := wordBits m 124 4
  let b := wordBits m 118 6
  let t := wordBits m 112 6
  let sv := wordBits m 96 8
  let ms := wordBits m 16 8
  let sp := s.get (F.MCS_STAT_sp n)
  if q = 3 ∧ sp = 4 then some 1
  else if q = 4 ∧ sp = 0 then some 2
  else if (q = 5 ∧ 2 ≤ c) ∨ ((q = 2 ∨ q = 6) ∧ 0x24 ≤ c) ∨ 6 ≤ d ∨ 6 ≤ b ∨ 8 ≤ t ∨ 0xA ≤ wordBits m 84 4 ∨
      wordBits m 64 2 ≠ 0 ∨ 7 ≤ sv ∨ 3 ≤ wordBits m 24 8 ∨ mbit m 47 then some 3
  else if wordBits m 0 16 ≠ 0 then some 4
  else if (wg && rg) || (wg && d != 2 && d != 3 && d != 4) || (rg && d != 1) ||
      (wg && (mbit m 111 || sv == 1 || sv == 2 || sv == 5 || t == 7)) then some 5
  else if modselBad ms || (t == 1 && s.modselWrong n b ms) then some 6
  else if q = 7 ∧ s.mcs n ≠ 4 then some 7
  else if s.bufopBad n b || s.tileopBad n (s.cmdAfter n b).isSome t d then some 8
  else if wg && (d == 3 || d == 4) && !s.factory then some 9
  else none

/-! ## Buffer and tile operations -/

/-- CMDPOP (R189, R195): zero-count commands complete, and the next becomes current. -/
def State.opCmdpop (n : Fin 4) (s : State) : State :=
  match (s.lane n).queue.dropWhile (fun c => c.count == 0) with
  | [] => s.setQueue n []
  | c :: rest =>
    let s := ((s.setQueue n rest).setCur n (some c)).setPos n c.start c.qtr 0
    (s.onLane n (fun l => { l with boff := 0, trkend := false, posDone := false })).feed n

/-- CMDDONE: no current command remains. -/
def State.opCmddone (n : Fin 4) (s : State) : State := s.setCur n none

/-- CMDERR (R195): a read fails, and a write returns its incomplete units; a cancelled command is only retired. -/
def State.opCmderr (n : Fin 4) (code : Nat) (s : State) : State :=
  match s.curLeft n with
  | none => s
  | some c =>
    let s := s.setCur n none
    if c.cancelled then s
    else if c.op = 0 ∨ c.op = 3 then s.laneError c code
    else (s.unqueue c).pump

/-- REQUEUE: the incomplete units return to BUF. -/
def State.opRequeue (n : Fin 4) (s : State) : State :=
  let c := s.curLeft n
  (s.setCur n none).returnCmds n (c.toList.filter (fun c => !c.cancelled))

/-- FLUSHQ: the queued commands return to BUF. -/
def State.opFlushq (n : Fin 4) (s : State) : State :=
  let q := (s.lane n).queue
  (s.setQueue n []).returnCmds n q

/-- BUFOP (R195). -/
def State.opBuf (n : Fin 4) (b imm : Nat) (s : State) : State :=
  match b with
  | 1 => s.opCmdpop n
  | 2 => s.opCmddone n
  | 3 => s.opCmderr n (imm % 256)
  | 4 => s.opRequeue n
  | 5 => s.opFlushq n
  | _ => s

/-- START (R196, R216): arms one unit at POS; a write start with the write-unsafe latch set only latches its trap
cause. -/
def State.opStart (n : Fin 4) (d modsel : Nat) (widen agc : Bool) (s : State) : State :=
  let s := s.onLane n (fun l => { l with tdone := false })
  if d = 2 ∧ (s.lane n).wunsafe then s.latchTrap n 2 none
  else if d = 1 ∨ d = 2 ∨ d = 5 then
    let u : LUnit :=
      { write := d == 2, loop := d == 5, modsel := modsel, pos := s.get (F.MCS_TPOS_pos n), qtr := s.get (F.MCS_TPOS_qtr n)
        widen := widen, agchold := agc, due := false, left := 0, begun := false, short := false, nocap := false, bad := false
        heard := Heard.none, fw := false }
    s.onLane n (fun l => { l with unit := some u })
  else s

/-- The staged values of LANEn become active (R152). -/
def State.laneActivate (n : Fin 4) (s : State) : State :=
  if s.flag (F.LANE_GO_pending n) then
    ((((s.activate (R.LANE_CALSEL n)).activate (R.LANE_TR n)).activate (R.LANE_AGC n)).put (F.LANE_GO_pending n) 0).onLane n
      (fun l => { l with goHeld := false })
  else s

/-- The set that a set load loads (R144, R146, R147). -/
def State.setIndex (s : State) (n : Fin 4) (c : MediaCmd) : Nat × Nat :=
  if s.getA (F.LANE_CALSEL_ovr n) = 1 then (s.getA (F.LANE_CALSEL_head n), s.getA (F.LANE_CALSEL_ring n))
  else (s.headOf c.surface, s.ringOf c.track)

/-- SETLOAD (R196): the load starts, and the staged lane values become active. -/
def State.opSetload (n : Fin 4) (s : State) : State :=
  match (s.lane n).cur with
  | none => s
  | some c =>
    let s := s.laneActivate n
    let hr := s.setIndex n c
    let idx := hr.1 * s.geo.rings.length + hr.2
    s.onLane n (fun l => { l with setok := false, loading := some idx, setBad := false, pset := l.setFrames idx })

/-- NEXT (R196): the next usable position, or quarter of a coast slot. -/
def State.opNext (n : Fin 4) (s : State) : State :=
  match (s.lane n).cur with
  | none => s
  | some c =>
    let pos := s.get (F.MCS_TPOS_pos n)
    let qtr := s.get (F.MCS_TPOS_qtr n)
    let s := s.onLane n (fun l => { l with posDone := false })
    if c.op = 2 ∧ qtr < 3 then s.put (F.MCS_TPOS_qtr n) (qtr + 1)
    else match nextGood c.mask 2048 (pos + 1) with
      | some p => (s.put (F.MCS_TPOS_pos n) p).put (F.MCS_TPOS_qtr n) 0
      | none => s.onLane n (fun l => { l with trkend := true })

/-- REWIND (R196): back to the values of the trap frame; the units completed since are to be done again. -/
def State.opRewind (n : Fin 4) (s : State) : State :=
  match (s.lane n).cur with
  | none => s
  | some c =>
    let back := s.get (F.MCS_TPOS_tidx n) - s.get (F.MCS_TF2_tidx n)
    let s := s.setCur n (some { c with count := c.count + back })
    let s := s.setPos n (s.get (F.MCS_TF2_pos n)) (s.get (F.MCS_TF2_qtr n)) (s.get (F.MCS_TF2_tidx n))
    s.onLane n (fun l => { l with boff := s.get (F.MCS_TF3_boff n), trkend := false, posDone := false })

/-- DEFECT (R196, R55): POS leaves the mask, and MAP journals a grown defect. -/
def State.opDefect (n : Fin 4) (s : State) : State :=
  match (s.lane n).cur with
  | none => s
  | some c =>
    let pos := s.get (F.MCS_TPOS_pos n)
    let s := s.onLane n (fun l => { l with cur := some { c with mask := withBit c.mask pos false } })
    s.grownDefect n c.op c.surface c.track pos

/-- CLRST (R196). -/
def State.opClrst (n : Fin 4) (s : State) : State :=
  s.onLane n (fun l => { l with wunsafe := false, wmiss := false, wverify := false })

/-- ABANDON (R196, R213): ends the unit in progress. -/
def State.opAbandon (n : Fin 4) (s : State) : State :=
  if ((s.lane n).unit.map (·.begun)).getD false then s.endUnit n else s

/-- TILEOP (R196). -/
def State.opTile (n : Fin 4) (t d modsel sync : Nat) (s : State) : State :=
  match t with
  | 1 => s.opStart n d modsel (sync == 1) (sync == 2)
  | 2 => s.opSetload n
  | 3 => s.opNext n
  | 4 => s.opRewind n
  | 5 => s.opDefect n
  | 6 => s.opAbandon n
  | 7 => s.opClrst n
  | _ => s

/-! ## Strobes, servo, timers, events -/

/-- The head-select frame (R199); with no current command there is no head, and no frame is sent (DESIGN CHOICE). -/
def State.hselFrame (s : State) (n : Fin 4) : List PaFrame :=
  match (s.lane n).cur with
  | some c =>
    if s.flag (F.MCS_PHSEL_en n) then
      [{ rd := false, addr := s.get (F.MCS_PHSEL_addr n), cmd := false
         data := (s.get (F.MCS_PHSEL_base n) ||| (s.headOf c.surface * 2 ^ s.get (F.MCS_PHSEL_shift n))) % 256 }]
    else []
  | none => []

/-- The frames of PREAMP strobes, HSEL first (R199). -/
def State.strobeFrames (s : State) (n : Fin 4) (k : Nat) : List PaFrame :=
  (if k.testBit 7 then s.hselFrame n else []) ++
    ((List.range 7).filter (fun i => k.testBit i && s.flag (F.MCS_PSTRB_en n i))).map (fun i =>
      { rd := false, addr := s.get (F.MCS_PSTRB_addr n i), data := s.get (F.MCS_PSTRB_data n i), cmd := false })

/-- The frames fit in the 8-frame queue (R200). -/
def State.framesFit (s : State) (n : Fin 4) (k : Nat) : Bool :=
  decide ((s.lane n).pq.length + (s.strobeFrames n k).length ≤ 8)

/-- Puts the frames of PREAMP strobes in the queue. -/
def State.opPreamp (n : Fin 4) (k : Nat) (s : State) : State :=
  doAll (s.strobeFrames n k) (State.queueFrame n) s

/-- The symbols per revolution of a track's ring. -/
def State.trackRate (s : State) (track : Nat) : Nat := ((s.geo.rings[s.ringOf track]?).map (·.symbols)).getD 0

/-- A seek into a zone of another symbol rate retunes the synthesizer, once `WGn` and the read gate are low (R32). -/
def State.retuneFor (n : Fin 4) (track : Nat) (s : State) : State :=
  if s.trackRate track = s.trackRate (s.act n).target then s
  else if s.flag (F.LANE_STAT_wg n) || s.flag (F.LANE_STAT_rg n) then s.onLane n (fun l => { l with tune := true })
  else s.retuneNow n

/-- The saltern band that HRV names for lane `n` (R276): the one with room that lies nearest to where the actuator
stands, or to the end of the running profile: surface and first track. -/
def State.saltBand (s : State) (n : Fin 4) : Option (Nat × Nat) :=
  let a := s.act n
  let at_ := match a.seek with
    | some q => ((q.p0 + q.d) / 4096).toNat
    | none => a.target
  (s.saltNear n at_).map (fun b => (b.1, b.2.2.1))

/-- SRVOP (R201). SEEK with no current command, and SEEKSALT where the lane has no saltern band, ask nothing of MOTION (DESIGN
CHOICE: the spec names no target for them). -/
def State.opServo (n : Fin 4) (k imm : Nat) (s : State) : State :=
  match k with
  | 1 => match (s.lane n).cur with
    | some c => (((s.onAct n (fun a => { a with skReq := true, skdone := false })).retuneFor n c.track).selectHead n (s.headOf c.surface)).seek n c.track
    | none => s
  | 2 => match s.saltBand n with
    | some (sf, tr) => (((s.onAct n (fun a => { a with skReq := true, skdone := false })).retuneFor n tr).selectHead n (s.headOf sf)).seekSalt n tr
    | none => s
  | 3 => s.onAct n (fun a => { a with offset := 16 * sInt 16 imm })
  | 4 => s.onAct n (fun a => { a with offset := 0 })
  | 5 => s.rampMove n true
  | 6 => s.rampMove n false
  | _ => s

/-- The count register of a timer. -/
def tmField (n : Fin 4) (t : Nat) : Field := if t = 0 then F.MCS_TM_tm0 n else F.MCS_TM_tm1 n

/-- A timer of a lane. -/
def Lane.timer (l : Lane) (t : Nat) : Timer := if t = 0 then l.tm0 else l.tm1

/-- Changes a timer of a lane. -/
def State.onTimer (n : Fin 4) (t : Nat) (f : Timer → Timer) (s : State) : State :=
  s.onLane n (fun l => if t = 0 then { l with tm0 := f l.tm0 } else { l with tm1 := f l.tm1 })

/-- TIMOP on one timer (R198). -/
def State.opTimer (n : Fin 4) (t op unit imm : Nat) (s : State) : State :=
  match op with
  | 1 => (s.onTimer n t (fun _ => { unit := unit, loaded := imm, running := true, expired := false, pre := 0 })).put
      (tmField n t) imm
  | 2 => s.onTimer n t (fun x => { x with running := false, expired := false })
  | 3 => (s.onTimer n t (fun x => { x with running := true, expired := false, pre := 0 })).put (tmField n t)
      ((s.lane n).timer t).loaded
  | _ => s

/-- The timers that the select bits name (R198). -/
def timersOf (sel : Nat) : List Nat := (if sel.testBit 0 then [0] else []) ++ (if sel.testBit 1 then [1] else [])

/-- `k` ticks of the unit of timer `t` pass: a count that reaches zero expires. -/
def State.tickTimer (n : Fin 4) (t k : Nat) (s : State) : State :=
  let x := (s.lane n).timer t
  let c := s.get (tmField n t)
  if !x.running || x.expired || k == 0 then s
  else (s.onTimer n t (fun x => { x with expired := decide (c ≤ k) })).put (tmField n t) (c - k)

/-- `k` word clocks pass for timer `t`: one loaded with zero expires at the next, whatever its unit (R198). -/
def State.clockTimer (n : Fin 4) (t k : Nat) (s : State) : State :=
  let x := (s.lane n).timer t
  if s.get (tmField n t) = 0 then s.tickTimer n t k
  else match x.unit with
  | 0 => s.tickTimer n t k
  | 1 =>
    let p := x.pre + k
    (s.onTimer n t (fun x => { x with pre := p % 256 })).tickTimer n t (p / 256)
  | _ => s

/-- One tick of unit `u` (2 a wedge, 3 a revolution) for both timers of a lane. -/
def State.tickUnit (n : Fin 4) (u : Nat) (s : State) : State :=
  doAll [0, 1] (fun t s => if ((s.lane n).timer t).unit = u then s.tickTimer n t 1 else s) s

/-- EVT (R204): a microcode event record, and from 80h the microcode cause. -/
def State.opEvt (n : Fin 4) (code imm : Nat) (s : State) : State :=
  if code = 0 then s
  else
    let s := s.post (0x14 + n.val) 2
      (leBytes 1 code ++ [0] ++ leBytes 2 (s.get (F.MCS_STAT_pc n)) ++ leBytes 2 imm)
    if 0x80 ≤ code then (s.putBit F.ALR_UCODE_lane n true).latchCause (20 + n.val) else s

/-- STAT (R205). -/
def State.opStat (n : Fin 4) (k : Nat) (s : State) : State :=
  doAll ((List.range 8).filter (fun i => k.testBit i)) (fun i => State.inc (F.MCS_STATCNT_count n i)) s

/-- The once-only operations of a word, in the order of R207. -/
def State.onceOps (n : Fin 4) (m : BitVec 160) (s : State) : State :=
  let imm := wordBits m 48 16
  let s := s.opBuf n (wordBits m 118 6) imm
  let s := s.opTile n (wordBits m 112 6) (wordBits m 124 4) (wordBits m 16 8) (wordBits m 24 8)
  let s := s.opPreamp n (wordBits m 104 8)
  let s := s.opServo n (wordBits m 96 8) imm
  let s := doAll (timersOf (wordBits m 70 2)) (fun t => State.opTimer n t (wordBits m 68 2) (wordBits m 66 2) imm) s
  (s.opEvt n (wordBits m 88 8) imm).opStat n (wordBits m 32 8)

/-! ## Loop counters and sequencing -/

/-- LCOP (R197). -/
def State.opLc (n : Fin 4) (k imm : Nat) (s : State) : State :=
  let a := F.MCS_LC_lc0 n
  let b := F.MCS_LC_lc1 n
  let cnt := s.get (F.MCS_CC0_count n)
  match k with
  | 1 => s.put a imm
  | 2 => s.put b imm
  | 3 => (s.put a imm).put b imm
  | 4 => s.put a cnt
  | 5 => s.put b cnt
  | 6 => s.put a (s.get a - 1)
  | 7 => s.put b (s.get b - 1)
  | 8 => s.incStop a
  | 9 => s.incStop b
  | _ => s

/-- Entry `k` of the micro-stack. -/
def stackField (n : Fin 4) (k : Nat) : Field :=
  match k with
  | 0 => F.MCS_STK0_e0 n
  | 1 => F.MCS_STK0_e1 n
  | 2 => F.MCS_STK1_e2 n
  | _ => F.MCS_STK1_e3 n

/-- SEQ (R192, R224): the next address and the state after it. RET leaves zero in the register of the entry that it pops (DESIGN
CHOICE: the spec says only that the stack loses it). -/
def State.seq (n : Fin 4) (e : WordEnv) (m : BitVec 160) (pc : Nat) (s : State) : Nat × State :=
  let nadr := wordBits m 148 12
  let up := (pc + 1) % 4096
  let sp := s.get (F.MCS_STAT_sp n)
  match wordBits m 145 3 with
  | 1 => (nadr, s)
  | 2 => (if s.condOf n e m then nadr else up, s)
  | 3 => (nadr, (s.put (stackField n sp) up).put (F.MCS_STAT_sp n) (sp + 1))
  | 4 => (s.get (stackField n (sp - 1)), (s.put (stackField n (sp - 1)) 0).put (F.MCS_STAT_sp n) (sp - 1))
  | 5 =>
    let f := if mbit m 139 then F.MCS_LC_lc1 n else F.MCS_LC_lc0 n
    let c := s.get f
    if c = 0 then (up, s) else (if c = 1 then up else nadr, s.put f (c - 1))
  | 7 =>
    let s := s.put (F.MCS_STAT_state n) 3
    if mbit m 138 then
      (nadr, (((s.put (F.MCS_STAT_sp n) 0).setReg (R.MCS_STK0 n) 0).setReg (R.MCS_STK1 n) 0))
    else
      (s.get (F.MCS_TF0_next n),
        (s.put (F.MCS_LC_lc0 n) (s.get (F.MCS_TF1_lc0 n))).put (F.MCS_LC_lc1 n) (s.get (F.MCS_TF1_lc1 n)))
  | _ => (up, s)

/-! ## Traps and stops -/

/-- Writes the trap frame (R221). -/
def State.frame (n : Fin 4) (cause : Nat) (forced : Bool) (at_ next : Nat) (s : State) : State :=
  let p := s.firstOpen n
  let s := (((s.put (F.MCS_TF0_cause n) cause).put (F.MCS_TF0_forced n) (if forced then 1 else 0)).put
    (F.MCS_TF0_valid n) 1 |>.put (F.MCS_TF0_taddr n) at_).put (F.MCS_TF0_next n) next
  let s := (s.put (F.MCS_TF1_lc0 n) (s.get (F.MCS_LC_lc0 n))).put (F.MCS_TF1_lc1 n) (s.get (F.MCS_LC_lc1 n))
  let s := ((s.put (F.MCS_TF2_tidx n) (s.get (F.MCS_TPOS_tidx n))).put (F.MCS_TF2_qtr n) p.2).put (F.MCS_TF2_pos n) p.1
  s.put (F.MCS_TF3_boff n) (s.lane n).boff

/-- Takes the trap of cause `c` (R219, R220): a write or read unit in progress is ended, as R213 and R214 lay down. -/
def State.takeTrap (n : Fin 4) (c : Nat) (forced : Bool) (at_ next : Nat) (s : State) : State :=
  let s := (s.frame n c forced at_ next).endUnit n
  let s := (s.putBit (F.MCS_STAT_pend n) (c - 1) false).inc (F.MCS_TRAPCNT_count n)
  let s := s.onLane n (fun l => { l with waiting := false, harvWait := if c = 1 then 0 else l.harvWait })
  let s := (s.put (F.MCS_STAT_state n) 4).put (F.MCS_STAT_pc n) c
  doIf forced (State.raise (F.MCS_ERR_forced n)) s

/-- The pending cause that a word end with TRAPEN takes (R219, R222). -/
def State.trapDue (s : State) (n : Fin 4) : Option Nat :=
  let p := s.get (F.MCS_STAT_pend n)
  if s.mcs n = 4 then (if p.testBit 0 then some 1 else none)
  else ((List.range 6).find? (fun i => p.testBit i)).map (· + 1)

/-- The end of a word at `at_` (R219, R223, R226): a trap, a forced harvest trap, a stop, or the next address. -/
def State.wordEnd (n : Fin 4) (m : BitVec 160) (at_ next : Nat) (s : State) : State :=
  let en := mbit m 128
  let s := s.put (F.MCS_STAT_pc n) next
  let s := s.onLane n (fun l => { l with last := at_ })
  match (if en then s.trapDue n else none) with
  | some c => s.takeTrap n c false at_ next
  | none =>
    if s.bit (F.MCS_STAT_pend n) 0 && decide (32768 ≤ (s.lane n).harvWait) then s.takeTrap n 1 true at_ next
    else if en && !(mbit m 131) && (s.lane n).unit.isNone && s.get (F.MCS_STAT_pend n) == 0 && s.mcs n == 3 &&
        s.flag (F.MCS_STAT_stopreq n) then
      (s.put (F.MCS_STAT_stopreq n) 0).haltTo n 2
    else s

/-- `k` word clocks pass on lane `n`: under the head, for the timers but those just written, and for a pending harvest cause. -/
def State.clocks (n : Fin 4) (m : BitVec 160) (k : Nat) (s : State) : State :=
  let per := s.perClock n
  let s := ((s.writeRaw n (per * k)).roll n (per * k)).setGates n
  let fresh := if wordBits m 68 2 = 1 ∨ wordBits m 68 2 = 3 then timersOf (wordBits m 70 2) else []
  let s := doAll [0, 1] (fun t s => s.clockTimer n t (if fresh.contains t then k - 1 else k)) s
  if s.bit (F.MCS_STAT_pend n) 0 then s.onLane n (fun l => { l with harvWait := l.harvWait + k }) else s

/-- The word at the address of lane `n`. -/
def State.fetch (s : State) (n : Fin 4) : BitVec 160 :=
  cget (fun _ => (0 : BitVec 160)) (s.lane n).cs (s.get (F.MCS_STAT_pc n))

/-- One test clock of a WAITC word that goes on waiting: a trap due, a forced harvest trap or a stop ends it here, its
LCOP done (R208, R219, R220). -/
def State.waitTest (n : Fin 4) (m : BitVec 160) (pc : Nat) (s : State) : State :=
  let stop := mbit m 128 && s.mcs n == 3 && s.flag (F.MCS_STAT_stopreq n) && !(mbit m 131) && (s.lane n).unit.isNone &&
    s.get (F.MCS_STAT_pend n) == 0
  let forced := s.bit (F.MCS_STAT_pend n) 0 && decide (32768 ≤ (s.lane n).harvWait)
  if stop || forced || (mbit m 128 && (s.trapDue n).isSome) then
    (s.opLc n (wordBits m 84 4) (wordBits m 72 12)).wordEnd n m pc pc
  else s

/-- Executes the word at the present address, if its SEQ is `q` (R191, R207): the fault, or the once-only operations,
the dwell, SEQ, LCOP and the word end. A word whose frames do not fit waits; a WAITC word waits after its dwell. -/
def State.runWord (n : Fin 4) (q : Nat) (e : WordEnv) (s : State) : State :=
  let m := s.fetch n
  let pc := s.get (F.MCS_STAT_pc n)
  if !(s.executing n) || !(s.laneUp n) || (s.lane n).waiting || wordBits m 145 3 != q then s
  else match s.wordFault n m with
    | some c => s.microFault n c
    | none =>
      if !(s.framesFit n (wordBits m 104 8)) then s
      else
        let s := s.onLane n (fun l => { l with word := m })
        let s := (s.onceOps n m).setGates n
        let s := s.clocks n m (wordBits m 132 6 + 1)
        if q = 6 then (s.onLane n (fun l => { l with waiting := true, last := pc })).waitTest n m pc
        else
          let r := s.seq n e m pc
          ((r.2.condRead n m).opLc n (wordBits m 84 4) (wordBits m 72 12)).wordEnd n m pc r.1

end Sys2Proof.Machine
end

