-- ==== Sys2Proof/Machine/Sample.lean ====
section
/-! DEFINITION. What MOTION computes at a position sample (06_servo_compute.md R241 to R256, R272 to R278, R283, R284). -/

namespace Sys2Proof.Machine
open Sys2Proof

/-- Actuator `a` is servo-lost (R247). -/
def State.servoLost (s : State) (a : Fin 4) : Bool := (s.lane a).lost

/-- Changes MOTION's array. -/
def State.onServo (f : Servo → Servo) (s : State) : State := { s with servo := f s.servo }

/-! ## Flutter -/

/-- Flutter ends as failed with a cause (R284). -/
def State.flutterFail (cause : Nat) (s : State) : State :=
  match s.servo.flutter with
  | none => s
  | some _ => ((s.put F.SCA_FLST_state 3).put F.SCA_FLST_cause cause).onServo (fun x => { x with flutter := none })

/-- A switch of the relay upward: the end of a relay cycle (R284). Two cycles pass unmeasured. -/
def State.flutterCycle (f : Flut) (s : State) : State :=
  let n := f.switches + 1
  let want := s.get F.SCA_FLCTL_cycles
  let done := n - 3
  let f := { f with switches := n }
  let f := if 4 ≤ n then { f with ampl := f.ampl + (f.hi - f.lo).natAbs } else f
  let out : Int := s.regInt (R.SCA_LOUT f.loop)
  let f := { f with hi := out, lo := out }
  let s := s.put F.SCA_FLST_cycles done
  if 3 + want ≤ n then
    let s := (s.put F.SCA_FLPER_p (quot (16 * f.samples) want)).put F.SCA_FLA_a (quot f.ampl (2 * want))
    (s.put F.SCA_FLST_state 2).onServo (fun x => { x with flutter := none })
  else s.onServo (fun x => { x with flutter := some f })

/-- The relay after a computation of its loop (R283). -/
def State.flutterStep (a : Fin 4) (s : State) : State :=
  match s.servo.flutter with
  | none => s
  | some f =>
    if s.getA (F.SCA_LCFG_act f.loop) ≠ a then s
    else
      let out : Int := s.regInt (R.SCA_LOUT f.loop)
      let eps : Int := s.get F.SCA_FLAMP_eps
      let up := if eps < out then true else if out < -eps then false else f.up
      let f' : Flut := { f with
        up := up, since := if up = f.up then f.since + 1 else 0
        samples := if 3 ≤ f.switches then f.samples + 1 else 0
        hi := max f.hi out, lo := min f.lo out }
      if s.get F.SCA_FLLIM_pes < (s.act a).pes.natAbs then s.flutterFail 1
      else if 1024 ≤ f'.since then s.flutterFail 2
      else if up && !f.up then s.flutterCycle f'
      else s.onServo (fun x => { x with flutter := some f' })

/-! ## The seek generator -/

/-- The reference position at this sample (R243). -/
def State.refNow (s : State) (a : Fin 4) : Int :=
  match (s.act a).seek with
  | some q => q.ref
  | none => 4096 * (s.act a).target + (s.act a).offset

/-- One sample of the generator: the profile advances, or is re-planned (R273, R276). -/
def State.advanceSeek (a : Fin 4) (s : State) : State :=
  match (s.act a).seek with
  | none => s
  | some q =>
    let q := { q with k := min (q.k + 1) (q.n + 1) }
    match (s.act a).replan with
    | none => s.onAct a (fun x => { x with seek := some q })
    | some track =>
      let above := decide (q.n ≤ q.k)
      let p := q.ref
      let v := if above then 0 else seekQuot (q.vnum q.k) (2 * q.n ^ 5)
      let ac := if above then 0 else seekQuot (q.anum q.k) (2 * q.n ^ 5)
      let n := replanLength p v ac (4096 * track) (24 * s.get (F.SRV_SKP_amax a))
      let q' : Seek := { p0 := p, v0 := v, a0 := ac, d := 4096 * track - p, n := n, k := 0 }
      (s.onAct a (fun x => { x with seek := some q', replan := none, target := track, settle := 0 })).put
        (F.SCA_SKSTAT_n a) n

/-- A wanted seek begins at a valid sample at position `pos` (R272, R273). -/
def State.beginSeek (a : Fin 4) (pos : Int) (s : State) : State :=
  match (s.act a).want with
  | none => s
  | some track =>
    let d := 4096 * (track : Int) - pos
    let n := seekLength d (s.get (F.SRV_SKP_amax a)) (s.get (F.SRV_SKP_nmin a))
    let q : Seek := { p0 := pos, v0 := 0, a0 := 0, d := d, n := n, k := 0 }
    (s.onAct a (fun x => { x with want := none, seek := some q, target := track, settle := 0 })).put (F.SCA_SKSTAT_n a) n

/-- The end of a seek (R274, R275): the error has settled over the samples after the end of the profile; a held seek then starts. -/
def State.settleSeek (a : Fin 4) (s : State) : State :=
  match (s.act a).seek with
  | none => s
  | some q =>
    if q.k < q.n then s
    else
      let n := if q.n < q.k ∧ s.within a (s.get (F.SRV_STL_lim a)) then (s.act a).settle + 1 else 0
      let s := s.onAct a (fun x => { x with settle := n })
      if s.get (F.SRV_STL_cnt a) ≤ n then
        let s := (s.onAct a (fun x => { x with seek := none, skReq := false, skdone := x.skReq })).endMove a true
        match (s.act a).next with
        | some t => (s.onAct a (fun x => { x with next := none })).wantSeek a t
        | none => s
      else s

/-! ## The sample -/

/-- The binary number that a Gray code of `n` bits stands for. -/
def grayTo : Nat → Nat → Nat
  | 0, _ => 0
  | n + 1, g => (g ^^^ (grayTo n (g / 2))) % 2 + 2 * grayTo n (g / 2)

/-- The position that a demodulated wedge shows, in 1/4,096 track (R241): the decoded track, corrected by one where the sign of Q
shows that it was read across a boundary, and N / (2 (|N| + |Q|)) of a track. -/
def samplePos (m : SampleIn) : Int :=
  let t : Int := grayTo 22 m.gray.toNat
  let fix : Int := if m.qb < 0 then (if Config.grayLow m.gray.toNat m.nb then 1 else -1) else 0
  let u := m.nb.natAbs + m.qb.natAbs
  4096 * (t + fix) + (if u = 0 then Config.noBurst else gain (2048 * m.nb) u)

/-- A sample was read (R242): its servo gate has opened (R202), and the address mark and the wedge number expected were found. -/
def State.sampleRead (s : State) (a : Fin 4) (m : SampleIn) (gate : Bool) : Bool :=
  gate && m.found && ((s.act a).free || decide (m.wnum.toNat = (s.act a).wnum))

/-- It lies within the prediction window (R242). -/
def State.inWindow (s : State) (a : Fin 4) (m : SampleIn) : Bool :=
  let x := s.act a
  x.free || decide ((samplePos m - (x.pos + (s.refNow a - x.refAt))).natAbs ≤ 64 * 4096)

/-- The loops and demands of actuator `a` (R247, R252, R253, R268, R283), with the reference acceleration of this sample; without
SCA_CTL.run nothing is computed. -/
def State.computeLoops (a : Fin 4) (s : State) : State :=
  let s := s.onAct a (fun x => { x with acc := (x.seek.map (fun q => q.acc 0)).getD 0 })
  if s.servoLost a || !(s.flag F.SCA_CTL_run) then s
  else
    let s := doAll (s.loopsOf a) (fun n s => (s.runLoop n).afterLoop n) s
    (s.flutterStep a).demands a

/-- A valid sample at position `pos` (R241 to R246). A sample taken without the prediction window makes the actuator
follow the track where the head lies (R518). -/
def State.validSample (a : Fin 4) (pos : Int) (s : State) : State :=
  let hold := (s.act a).free && (s.act a).want.isNone && (s.act a).seek.isNone
  let s := if hold then s.onAct a (fun x => { x with target := ((pos + 2048) / 4096).toNat }) else s
  let s := s.beginSeek a pos
  let ref := s.refNow a
  let pes := clampI (-0x8000) 0x7FFF (ref - pos)
  let s := s.onAct a (fun x => { x with pos := pos, refAt := ref, ref := ref, free := false, miss := 0, pes := pes })
  let s := ((s.put (F.SRV_POS_valid a) 1).put (F.SRV_POS_track a) ((pos + 2048) / 4096).toNat).put (F.SRV_PES_pes a)
    (ofInt 16 pes)
  let s := if s.get F.EVT_MEASCFG_period = 0 then s
    else { s with meas := { s.meas with
      pesSq := s.meas.pesSq.set a (s.meas.pesSq[a] + pes.natAbs * pes.natAbs), pesN := s.meas.pesN.set a (s.meas.pesN[a] + 1) } }
  let s := ((s.settleSeek a).computeLoops a).forceOn a
  let s := s.forceOff a
  if s.flag (F.LANE_STAT_rg a) && decide (s.get (F.SRV_RLIM_lim a) < pes.natAbs) then
    let s := if ((s.lane a).unit.map (fun u => u.begun && !u.write)).getD false then s.endUnit a else s
    s.latchTrap a 5 (some 6)
  else s

/-- Actuator `a` becomes servo-lost (R247): its loops stop, its demands go to zero, it unloads and its lane leaves. -/
def State.loseServo (a : Fin 4) (s : State) : State :=
  let s := s.onLane a (fun l => { l with lost := true })
  let s := (doAll (s.loopsOf a) State.stopLoop s).noDemand a
  ((s.rampMove a true).raiseAt F.SRV_ERR_lost a).laneLeft

/-- A missed sample (R242, R245, R247). -/
def State.missedSample (a : Fin 4) (s : State) : State :=
  let s := (s.onAct a (fun x => { x with miss := x.miss + 1, settle := 0, ref := s.refNow a })).put (F.SRV_POS_valid a) 0
  let s := ((s.inc (F.SRV_MISSCNT_count a)).computeLoops a).forceOn a
  let n := s.get (F.SRV_MISS_lost a)
  if n ≠ 0 ∧ n ≤ (s.act a).miss ∧ !(s.servoLost a) then s.loseServo a else s

/-- The measured speed after a sample of actuator `a` (R278). -/
def State.measureSpeed (a : Fin 4) (s : State) : State :=
  match s.refLane with
  | none => s.observerSpeed
  | some r =>
    let s := (s.put F.SRV_SPDM_src 0).put F.SRV_SPDM_lane r
    if r ≠ a then s
    else
      let w := (s.act a).wedges
      let sum := w.foldl (· + ·) 0
      if sum = 0 ∨ s.geo.wedges = 0 then s
      else s.put F.SRV_SPDM_rpm (min 0xFFFF (quot (60000000000 * w.length) (s.geo.wedges * sum)))

/-- The measured symbol rate in MBaud (R31): the ratio in force over the time between two wedges. -/
def State.symbolRate (s : State) (a : Fin 4) (ns : Nat) : Nat := quot (s.get (F.LANE_RATIO_ratio a) * 1000) (4096 * ns)

/-- The position counter at wedge `w` (R211): it is realigned at the index mark, which wedge 0 follows, and after a head switch; while
no microcode runs it follows the wedges. -/
def State.realign (a : Fin 4) (w : Nat) (s : State) : State :=
  let r := s.ringUnder a
  if (s.lane a).align || w = 0 || !(s.executing a) then s.onLane a (fun l => { l with align := false, sym := r.wedgeAt w + r.wedge })
  else s

/-- What the lane does at a wedge: its symbol rate, its wedge timer, its index mark and the timers that count wedges and revolutions
(R31, R198, R211, R242). The wedge timer takes the number read while samples need no prediction. -/
def State.wedge (a : Fin 4) (m : SampleIn) (gate : Bool) (s : State) : State :=
  let w := if gate && m.found && (s.act a).free then m.wnum.toNat else (s.act a).wnum
  let s := (s.put (F.LANE_SYMR_mbaud a) (s.symbolRate a m.interval)).put (F.LANE_STAT_sg a) (if gate then 1 else 0)
  let s := (s.tickUnit a 2).realign a w
  let s := if w = 0 then (s.onLane a (fun l => { l with index := true })).tickUnit a 3 else s
  s.onAct a (fun x => { x with
    wnum := (w + 1) % 512, wedges := (m.interval :: x.wedges).take 8, shock := if s.servo.shock then x.shock else x.shock - 1 })

/-- A position sample of actuator `a` (R242): nothing while MOTION or the lane does not run, or the heads are unloaded or
on the way. -/
def State.sample (a : Fin 4) (m : SampleIn) (s : State) : State :=
  if !(s.runs 5) || !(s.fitted a) then s
  else if !(s.laneUp a) then s.put (F.SRV_POS_valid a) 0
  else
    let gate := !(s.executing a) || mbit (s.lane a).word 129
    let x := s.sampleRead a m gate
    let s := s.wedge a m gate
    let s := s.put F.SCA_STAT_lat (max (s.get F.SCA_STAT_lat) m.lat.toNat)
    if !(s.loaded a) || (s.act a).ramp.isSome then s.measureSpeed a
    else
      let s := s.advanceSeek a
      let s := if x && s.inWindow a m then s.validSample a (samplePos m) else s.missedSample a
      (s.measureSpeed a).flyCheck

end Sys2Proof.Machine
end

