-- ==== Sys2Proof/Machine/Sequencer.lean ====
section
/-! DEFINITION. The sequencer's registers (05_track_sequencer.md R187, R226, R227, R230 to R238): start, stop, kill, the
load engine and the control-store window. -/

namespace Sys2Proof.Machine
open Sys2Proof

/-- A start (R187). -/
def State.mcsStart (n : Fin 4) (s : State) : State :=
  let s := (s.put (F.MCS_STAT_sp n) 0).put (F.MCS_STAT_pend n) 0
  let s := ((s.setReg (R.MCS_STK0 n) 0).setReg (R.MCS_STK1 n) 0).setReg (R.MCS_LC n) 0
  let s := ((s.setReg (R.MCS_TM n) 0).put (F.MCS_TF0_valid n) 0).put (F.MCS_FLT_valid n) 0
  let s := s.onLane n (fun l =>
    { l with tm0 := Timer.off, tm1 := Timer.off, wunsafe := false, wmiss := false, wverify := false, waiting := false
             harvWait := 0 })
  ((s.put (F.MCS_STAT_stopreq n) 0).put (F.MCS_STAT_state n) 3).put (F.MCS_STAT_pc n) (s.get (F.MCS_START_addr n))

/-- A kill (R227): the unit in progress ends, a frame of cause 0h is written, the commands return to BUF. -/
def State.mcsKill (n : Fin 4) (s : State) : State :=
  let pc := s.get (F.MCS_STAT_pc n)
  let s := ((s.frame n 0 false (s.lane n).last pc).endUnit n).returnAll n
  (s.put (F.MCS_STAT_stopreq n) 0).haltTo n 2

/-- A harvest trigger in STOPPED with match (R225): TRAP at vector 001h, with no current command; the lane takes
part. -/
def State.harvestStart (n : Fin 4) (s : State) : State :=
  let pc := s.get (F.MCS_STAT_pc n)
  let c := (s.curLeft n).toList
  let s := ((s.returnCmds n c).setCur n none).frame n 1 false pc pc
  let s := (s.put (F.MCS_STAT_state n) 4).put (F.MCS_STAT_pc n) 1
  let s := { s with hrv := { s.hrv with part := s.hrv.part.filter (fun x => x != n.val) ++ [n.val] } }
  s.inc (F.MCS_TRAPCNT_count n)

/-- A write of MCSn_CTL (R187, R226, R227, R238). -/
def State.writeMcsCtl (p : Path) (n : Fin 4) (v : Word) (s : State) : State :=
  let st := s.mcs n
  let start := v.getLsbD 0
  let bad := (v.getLsbD 3 && !s.factory) || ((v.getLsbD 1 || v.getLsbD 2) && !(s.executing n)) ||
    (start && (s.slice n || !(st == 2 || st == 5) || (!s.factory && !(s.flag (F.MCS_LDCTL_match n)))))
  s.gated p (R.MCS_CTL n) v bad (fun s =>
    let s := s.take (R.MCS_CTL n) v
    if start then s.mcsStart n
    else if v.getLsbD 2 then s.mcsKill n
    else if v.getLsbD 1 then s.put (F.MCS_STAT_stopreq n) 1
    else s)

/-- MCS_START (R187). -/
def execMcsStart (p : Path) (n : Fin 4) (v : Word) (s : State) : Host.Outcome State Fault Refusal :=
  .next (s.writeMcsCtl p n v)

/-- MCS_STOP (R226). -/
def execMcsStop (p : Path) (n : Fin 4) (v : Word) (s : State) : Host.Outcome State Fault Refusal :=
  .next (s.writeMcsCtl p n v)

/-- MCS_KILL (R227). -/
def execMcsKill (p : Path) (n : Fin 4) (v : Word) (s : State) : Host.Outcome State Fault Refusal :=
  .next (s.writeMcsCtl p n v)

/-- A load or a write of an expected digest is not permitted (R233). -/
def State.loadBarred (s : State) (n : Fin 4) : Bool := s.mcs n == 1 || s.executing n || s.flag (F.MCS_LDCTL_busy n) || s.slice n

/-- A write of MCSn_LDCTL (R230, R233): while the LANE domain is cocooned, the load begins at emergence. -/
def State.writeLdctl (p : Path) (n : Fin 4) (v : Word) (s : State) : State :=
  let go := v.getLsbD 31
  s.gated p (R.MCS_LDCTL n) v (go && s.loadBarred n) (fun s =>
    if go then
      let s := s.put (F.MCS_LDCTL_busy n) 1
      if s.laneUp n then s.put (F.MCS_STAT_state n) 1 else s
    else s)

/-- MCS_LOAD_GO (R230). -/
def execMcsLoadGo (p : Path) (n : Fin 4) (v : Word) (s : State) : Host.Outcome State Fault Refusal :=
  .next (s.writeLdctl p n v)

/-- The words of a control store from the bytes of a load source (R230). -/
def storeOf (bs : List Byte) : List (Nat × BitVec 160) :=
  ((chunks 20 4096 bs).zipIdx.map (fun x => (x.2, BitVec.ofNat 160 (ofLe x.1)))).filter (fun x => x.2 != 0)

/-- Word `i` of a digest: bytes 4i to 4i + 3, byte 4i lowest. -/
def digestWord (d : BitVec 384) (i : Nat) : Word := (d >>> (32 * i)).setWidth 32

/-- A load ends well (R230, R231, R234). -/
def State.loadStore (n : Fin 4) (s : State) : State :=
  let src := s.get (F.MCS_LDSRC_addr n) * 64
  let bs := s.hbmBytes (src + 64) 81920
  let d := Config.sha384 bs
  let hit := (List.range 12).all (fun i => s.reg (R.MCS_DIGEXP n i) == digestWord d i)
  let s := s.onLane n (fun l => { l with cs := storeOf bs })
  let s := doAll (List.range 12) (fun i => State.setReg (R.MCS_DIGREF n i) (digestWord d i)) s
  let s := (s.put (F.MCS_VERSION_ver n) (ofLe (s.hbmBytes src 2))).put (F.MCS_VERSION_dig n)
    (natBits d.toNat 368 8 * 256 + natBits d.toNat 376 8)
  let s := ((s.put (F.MCS_LDCTL_busy n) 0).put (F.MCS_LDCTL_match n) (if hit then 1 else 0)).put (F.MCS_STAT_state n) 2
  let s := doIf (!hit) (State.raise (F.MCS_ERR_nomatch n)) s
  let s := (s.put (F.RAKE_DIG_valid n) 0).put (F.RAKE_CUR_addr (8 + n)) 0
  if hit && (s.harvesting || s.hrv.commit != 0) && !(s.pwr.auto.contains n.val) then s.harvestStart n else s

/-- A write of a control-store window word (R238). -/
def State.writeWindow (p : Path) (a : Nat) (v : Word) (s : State) : State :=
  match csWord a with
  | none => s.ignore p (s.countBlock p a) a 7 false
  | some (n, w, k) =>
    let st := s.mcs n
    let bad := !s.factory || !(s.flag (F.MCS_CTL_wren n)) || !(st == 0 || st == 2 || st == 5) || !(s.laneUp n) || s.slice n
    s.gated p a v bad (fun s =>
      if k < 4 then s.onLane n (fun l => { l with csHold := l.csHold.set! k v })
      else
        let h (i : Nat) : Nat := ((s.lane n).csHold.toList.getD i 0).toNat
        let word := BitVec.ofNat 160 (h 0 + h 1 * 2 ^ 32 + h 2 * 2 ^ 64 + h 3 * 2 ^ 96 + v.toNat * 2 ^ 128)
        (s.onLane n (fun l => { l with cs := cset (fun _ => (0 : BitVec 160)) w word l.cs })).put (F.MCS_LDCTL_match n) 0 |>.put (F.RAKE_CUR_addr (8 + n)) 0)

/-- CS_WINDOW_WRITE (R238). -/
def execCsWindowWrite (p : Path) (a : Word) (v : Word) (s : State) : Host.Outcome State Fault Refusal :=
  .next (match csWord a.toNat with
    | none => s
    | some _ => s.writeWindow p a.toNat v)

end Sys2Proof.Machine
end

