-- ==== Sys2Proof/Machine/PowerOps.lean ====
section
/-! DEFINITION. Cocooning, emergence and pads (12_power_states.md R502 to R518). -/

namespace Sys2Proof.Machine
open Sys2Proof

/-- The order of an entry (R504) and of an emergence (R514). -/
def entryOrder : List Nat := [4, 3, 2, 1, 0, 5, 6]
def emergeOrder : List Nat := [6, 5, 0, 1, 2, 3, 4]

/-- The domain is that of a lane. -/
def isLane (d : Nat) : Bool := decide (d < 4)

/-- Some LANE domain runs, so `REGEN_A` stays asserted (R514). -/
def State.regenA (s : State) : Bool := (List.range 4).any (fun n => s.runs n)

/-! ## Pads -/

/-- The pads of a domain are latched (R511, R512); CRYS and HBM have none. -/
def State.holdPads (d : Nat) (s : State) : State :=
  if isLane d then s.putBit F.PWR_PADHOLD_lane d true else if d = 5 then s.put F.PWR_PADHOLD_motion 1 else s

/-- The pads of a domain are held. -/
def State.padsHeld (s : State) (d : Nat) : Bool :=
  if isLane d then s.bit F.PWR_PADHOLD_lane d else d == 5 && s.flag F.PWR_PADHOLD_motion

/-- Releases the held pads of a domain (R513): a lane first sends its wake frame; its actuator takes the next sample
without the prediction window (R518). -/
def State.releasePads (d : Nat) (s : State) : State :=
  if !(s.padsHeld d) then s
  else if isLane d then
    let n := Fin.ofNat 4 d
    let s := s.putBit F.PWR_PADHOLD_lane d false
    let s := if s.flag (F.PWR_PAWAK_en d) then
        s.queueFrame n { rd := false, addr := s.get (F.PWR_PAWAK_addr d), data := s.get (F.PWR_PAWAK_data d), cmd := false }
      else s
    s.onAct n (fun x => { x with free := true })
  else s.put F.PWR_PADHOLD_motion 0

/-! ## Entering -/

/-- A requested domain refuses, with its reason (R505). -/
def State.refusal (s : State) (d : Nat) : Option Nat :=
  if isLane d then (if s.slice d then some 2 else none)
  else if d = 4 then (if s.crys.eng.any (·.test) then some 3 else none)
  else if d = 5 then
    (if s.flag F.SCA_CTL_run || s.servo.flutter.isSome || !(s.spnState == 0 || s.spnState == 9) ||
      s.get F.SRV_STAT_loaded != 0 then some 4 else none)
  else if s.flag F.MAP_CKSTAT_busy then some 5 else none

/-- A requested domain agrees (R505, R511): a lane has sent its sleep frame. -/
def State.agrees (s : State) (d : Nat) : Bool :=
  (s.refusal d).isNone &&
    (if isLane d then
      let n := Fin.ofNat 4 d
      let l := s.lane n
      (s.mcs n == 0 || s.mcs n == 2 || s.mcs n == 5) && l.wfifo == 0 && l.port.isEmpty && l.queue.isEmpty && l.pq.isEmpty && l.pcur.isNone
     else if d = 4 then s.crys.queue.isEmpty && s.crys.eng.all (fun g => g.ent.isNone)
     else if d = 5 then s.servo.install.isNone
     else s.clean && s.map.fills.isEmpty && !(s.buf.ctxs.any (fun c => c.stage == 1)) &&
      (List.range 16).all (fun n => [0, 3, 4, 5].contains (s.get (F.DMA_CH_STAT_state n))))

/-- Requests the next domain of the entry (R504); a lane sends its sleep frame (R511). -/
def State.requestNext (s : State) : State :=
  match s.pwr.ask with
  | [] => s
  | d :: _ =>
    let s := (s.setDom d 1).onPwr (fun p => { p with since := s.us })
    if isLane d && s.flag (F.PWR_PASLP_en d) then
      s.queueFrame (Fin.ofNat 4 d) { rd := false, addr := s.get (F.PWR_PASLP_addr d), data := s.get (F.PWR_PASLP_data d), cmd := false }
    else s

/-- An attempt of the entry begins. -/
def State.startEntry (s : State) : State :=
  let todo := entryOrder.filter (fun d => s.pwr.set_.contains d && s.runs d)
  if todo.isEmpty then s.put F.PWR_PSTAT_phase 0
  else
    let s := s.onPwr (fun p => { p with ask := todo, gone := [], after := 0 })
    ((s.put F.PWR_PSTAT_phase 1).incStop F.PWR_PSTAT_tries).requestNext

/-- The working registers of the datapath as at emergence (R503, R590): no set is loaded. -/
def Lane.noSet (l : Lane) : Lane := { l with taps := [], front := Front.none, vga := (0, 0), dc := (0, 0), wd := [] }

/-- What a domain loses as it stops (R503); a lane's synthesizer is not locked. -/
def State.loseState (d : Nat) (s : State) : State :=
  if isLane d then
    let s := ((((s.put (F.LANE_STAT_lock d) 0).put (F.LANE_STAT_half d) 0).put (F.LANE_STAT_wg d) 0).put (F.LANE_STAT_rg d) 0).put
      (F.LANE_STAT_sg d) 0
    s.onLane (Fin.ofNat 4 d) (fun l => { l.noSet with cs := [], wfifo := 0, port := [], posted := [], unit := none })
  else if d = 4 then s.crysDrop
  else s

/-- Cocoons a domain (R504): its pads latch. -/
def State.cocoon (d : Nat) (s : State) : State := ((s.setDom d 2).holdPads d).loseState d

/-! ## Emerging -/

/-- The waits of a domain's emergence, by step of R514: the switch, `PGOOD_A` for the first lane, the clock, and the
retraining of the HBM. -/
def State.waits (s : State) (d : Nat) : List Nat :=
  [1] ++ (if isLane d && !((List.range 4).any (fun n => s.runs n)) then [2] else []) ++ (if d = 4 then [] else [3]) ++
    (if d = 6 then [5] else [])

/-- The first domain that is to emerge starts at step 1. -/
def State.emergeHead (s : State) : State :=
  match s.pwr.emerg with
  | [] => s
  | d :: _ => (s.setDom d 3).onPwr (fun p => { p with step := 1, again := false })

/-- Starts the emergence of a set of domains; what follows it is kept. -/
def State.startEmergence (ds : List Nat) (after : Nat) (s : State) : State :=
  ((s.onPwr (fun p => { p with emerg := emergeOrder.filter ds.contains, after := after })).put F.PWR_PSTAT_phase 4).emergeHead

/-- The emergence of a set has ended: the entry, the backoff or nothing follows. -/
def State.emergenceOver (s : State) : State :=
  match s.pwr.after with
  | 1 => s.startEntry
  | 2 => (s.put F.PWR_PSTAT_phase 3).onPwr (fun p => { p with since := s.us, after := 0 })
  | _ => s.put F.PWR_PSTAT_phase 0

/-- The first domain has done with its emergence; the next begins. -/
def State.emergeNext (s : State) : State :=
  match s.pwr.emerg with
  | [] => s
  | _ :: rest =>
    let s := s.onPwr (fun p => { p with emerg := rest })
    if rest.isEmpty then s.emergenceOver else s.emergeHead

/-- A lane's synthesizer has locked to the wedge rate of the measured speed, or of the lowest speed point (R515). -/
def State.synthLock (n : Fin 4) (s : State) : State :=
  let rpm := max s.rpm (s.pointRpm 0)
  let s := s.put (F.LANE_STAT_lock n) 1
  if rpm * s.geo.wedges = 0 then s
  else s.put (F.LANE_SYMR_mbaud n) (s.symbolRate n (60000000000 / (rpm * s.geo.wedges)))

/-- What a domain holds when it runs again (R235, R503, R518): a lane's sequencer is in RESET, its control store is empty,
a load asked for begins, and the writes held act; MOTION's and CRYS's registers read reset values. -/
def State.wakeState (d : Nat) (s : State) : State :=
  if isLane d then
    let n := Fin.ofNat 4 d
    let s := (s.put (F.MCS_LDCTL_match n) 0).put (F.MCS_STAT_state n) (if s.flag (F.MCS_LDCTL_busy n) then 1 else 0)
    let s := (s.put (F.LANE_STAT_setv n) 0).synthLock n
    let s := doAll (s.lane n).held (fun w s => s.take w.1 w.2) s
    (s.onLane n (fun l => { l with held := [] })).onAct n (fun x => { x with free := true })
  else if d = 5 then
    let s := s.resetBlocks [0xF, 0x10, 0x11, 0x12]
    { s with acts := Vector.replicate 4 Act.reset, servo := Servo.reset, spn := Spn.reset }
  else if d = 4 then
    let off := s.get F.CRYS_STAT_offline
    let rs := [R.CRYS_STAT] ++ (List.range 4).map R.CRYS_ENG ++ (List.range 4).map R.CRYS_BRWP ++ (List.range 4).map R.CRYS_BRPIN
    let s := doAll rs (fun a s => s.setReg a (resetVal s.variant a)) s
    (s.put F.CRYS_STAT_offline off).syncCrys
  else s

/-- A harvest is in progress and CRYS completes its emergence: it is cocooned again (R343). -/
def State.afterWake (d : Nat) (s : State) : State := if d = 4 ∧ s.harvesting then s.cocoon 4 else s

/-- A domain has emerged. -/
def State.emerged (d : Nat) (s : State) : State := (((s.setDom d 0).wakeState d).afterWake d).emergeNext

/-- A wake that waits is acted on at the end of an entry (R508). -/
def State.wakeNow (s : State) : State :=
  if s.flag F.PWR_PSTAT_wakepend then
    let ds := s.pwr.wake.filter (fun d => s.dom d == 2 && (!(isLane d) || s.fitted d))
    let s := (s.put F.PWR_PSTAT_wakepend 0).onPwr (fun p => { p with wake := [] })
    if ds.isEmpty then s.put F.PWR_PSTAT_phase 0 else s.startEmergence ds 0
  else s.put F.PWR_PSTAT_phase 0

/-- The requested domain has agreed: it is cocooned, and the next one is requested; with the last one the entry is
complete (R504, R506, R508). -/
def State.cocoonHead (s : State) : State :=
  match s.pwr.ask with
  | [] => s
  | d :: rest =>
    let s := (s.cocoon d).onPwr (fun p => { p with ask := rest, gone := d :: p.gone })
    if rest.isEmpty then (s.inc F.PWR_ROLLCNT_entries).wakeNow else s.requestNext

/-- The domains of the entry so far go back: the requested one runs on, the cocooned ones emerge (R507 steps 1, 2). -/
def State.undoEntry (after : Nat) (s : State) : State :=
  let back := s.pwr.gone
  let s := match s.pwr.ask with
    | d :: _ => if s.dom d = 1 then s.setDom d 0 else s
    | [] => s
  let s := s.onPwr (fun p => { p with ask := [], gone := [], after := after })
  if back.isEmpty then s.emergenceOver else s.startEmergence back after

/-- A refusal rolls the entry back (R507). -/
def State.rollback (d reason : Nat) (s : State) : State :=
  let s := ((s.put F.PWR_LAST_valid 1).put F.PWR_LAST_dom d).put F.PWR_LAST_reason reason
  let s := s.post 0 0x20 ([BitVec.ofNat 8 d, BitVec.ofNat 8 reason] ++ leBytes 2 (s.get F.PWR_PSTAT_tries))
  ((s.raise F.PWR_ERR_roll).inc F.PWR_ROLLCNT_count).undoEntry 2

/-- A command of PWR_CMD: emergence of `wake`, then entry of `stop` (R504, R514, R517). -/
def State.pwrGo (wake stop : List Nat) (s : State) : State :=
  let ds := emergeOrder.filter (fun d => wake.contains d && (s.dom d == 2 || s.dom d == 4) && (!(isLane d) || s.fitted d))
  let s := s.onPwr (fun p => { p with set_ := stop, ask := [], gone := [], after := 0 })
  let s := s.put F.PWR_PSTAT_tries 0
  if ds.isEmpty then s.startEntry else s.startEmergence ds (if stop.isEmpty then 0 else 1)

/-- A harvest trigger ends a handshake at once and lets only the domain that is emerging complete (R343). -/
def State.pwrHarvest (s : State) : State :=
  let s := match s.pwr.ask with
    | d :: _ => if s.dom d = 1 then s.setDom d 0 else s
    | [] => s
  let rest := s.pwr.emerg.take 1
  let s := s.onPwr (fun p => { p with ask := [], gone := [], after := 0, emerg := rest, wake := [], to_ := none })
  s.put F.PWR_PSTAT_phase (if rest.isEmpty then 0 else 4)

/-- Diapause abandons an entry in its backoff or before its commit point, and, with data to commit, wakes the lanes that
are not failed, which PWR then completes itself (R510). -/
def State.pwrDiapause (s : State) : State :=
  let ph := s.get F.PWR_PSTAT_phase
  let s := s.onPwr (fun p => { p with to_ := none, wake := [] })
  let s := if ph = 1 then s.undoEntry 0
    else if ph = 3 then s.put F.PWR_PSTAT_phase 0
    else s.onPwr (fun p => { p with after := 0 })
  if s.clean || s.dom 5 == 2 then s
  else
    let ls := (s.lanesFitted).filter (fun n => s.dom n == 2)
    let s := s.onPwr (fun p => { p with auto := ls })
    if ls.isEmpty then s
    else if s.get F.PWR_PSTAT_phase = 4 then
      s.onPwr (fun p => { p with emerg := p.emerg ++ ls.filter (fun d => !(p.emerg.contains d)) })
    else s.startEmergence ls 0

/-- What PWR does for a lane that it completes itself (R510): the load begins once the domain runs, and a load that ends
with match 1 releases the pads and lets the lane take the harvest trap (R225). -/
def State.autoLane (n : Fin 4) (s : State) : State :=
  if !(s.pwr.auto.contains n.val) || !(s.laneUp n) then s
  else if s.mcs n = 0 ∧ !(s.flag (F.MCS_LDCTL_busy n)) then
    (s.put (F.MCS_LDCTL_busy n) 1).put (F.MCS_STAT_state n) 1
  else if s.mcs n = 2 ∧ s.flag (F.MCS_LDCTL_match n) then
    let s := s.onPwr (fun p => { p with auto := p.auto.filter (fun d => d != n.val) })
    (s.releasePads n.val).harvestStart n
  else s

end Sys2Proof.Machine
end

