-- ==== Sys2Proof/Machine/HarvestOps.lean ====
section
/-! DEFINITION. The harvest path (08_harvest.md R329 to R364): triggers, the steps of a harvest, the commit with the
isolation switch closed, and diapause. -/

namespace Sys2Proof.Machine
open Sys2Proof

/-- Changes HRV. -/
def State.onHrv (f : HrvSt → HrvSt) (s : State) : State := { s with hrv := f s.hrv }

/-- `ISO_N` is asserted, or released. -/
def State.setIso (b : Bool) (s : State) : State := s.put F.HRV_STAT_iso (if b then 1 else 0)

/-- The step of the coast path, coded as HRV_STAT.state: that of the harvest, else that of the commit. -/
def State.hstep (s : State) : Nat := if s.harvesting then s.hrvState else s.hrv.phase

/-- Moves the coast path to a step. -/
def State.toStep (k : Nat) (s : State) : State :=
  if s.harvesting then s.put F.HRV_STAT_state k else s.onHrv (fun h => { h with phase := k })

/-- The coast path serves a harvest or a commit. -/
def State.coasting (s : State) : Bool := s.harvesting || s.hrv.commit != 0

/-- The harvest sequence number is one higher (R330). -/
def State.nextHseq (s : State) : State := s.setWord 0 (((s.word 0).toNat + 1) % 2 ^ 32)

/-- The lanes that take part and can still write (R346). -/
def State.coastLanes (s : State) : List Nat :=
  s.hrv.part.filter (fun n => s.inService (Fin.ofNat 4 n) && s.runs n && !(s.lane (Fin.ofNat 4 n)).left)

/-- The lane has settled in its band. -/
def State.settled (s : State) (n : Nat) : Bool := (s.lane (Fin.ofNat 4 n)).inBand

/-! ## Dealing -/

/-- The block is the newest admitted data of its address, and no slot carries it yet. -/
def State.undealt (s : State) (b : WBlk) : Bool :=
  (b.st == .dirty || b.st == .wt) && !(s.buf.spoilt.contains b.ord) && (s.poolBlk b.ns b.lba).any (fun x => x.ord == b.ord) &&
    !(s.hrv.dealt.any (fun d => d.blocks.any (fun x => x.2.1 == b.ns && x.2.2.1 == b.lba && x.2.2.2 == b.ord)))

/-- The next block to be dealt (R345): covered before write-through, the oldest admitted first. -/
def State.nextBlk (s : State) : Option WBlk :=
  let older (a b : WBlk) : WBlk :=
    if (a.st == .wt) != (b.st == .wt) then (if a.st == .wt then b else a) else if b.ord < a.ord then b else a
  (s.buf.blks.filter s.undealt).foldl (fun o b => match o with
    | none => some b
    | some a => some (older a b)) none

/-- Takes the slot at the fill pointer of the nearest saltern band of a lane with room (R71): its surface, band, slot, track and
position. A defective slot is passed over and released (R54); data may take no more than R72 leaves, while step 7's tiles take any slot
(DESIGN CHOICE: R72 does not speak of them). -/
def State.takeSlot (n : Nat) (data : Bool) (s : State) : Option ((Nat × Nat × Nat × Nat × Nat) × State) :=
  if data && s.saltRoom n == 0 then none
  else match s.saltNear (Fin.ofNat 4 n) (s.act (Fin.ofNat 4 n)).target with
    | none => none
    | some (sf, band, tr, size) =>
      let l := (s.saltLog n sf band).getD
        { lane := n, surface := sf, band := band, slots := size, fill := 0, tail := 0, occ := 0, rel := [] }
      let per := s.slotsAt tr 0
      let bad (k : Nat) : Bool := let x := (l.fill + k) % l.slots
        s.defective sf (tr + x / per) (x % per)
      if per = 0 then none
      else match (List.range (l.slots - l.occ - 1)).find? (fun k => !(bad k)) with
        | none => none
        | some k =>
          let x := (l.fill + k) % l.slots
          let l' := { l with
            fill := (x + 1) % l.slots, occ := l.occ + k + 1, rel := (List.range k).map (fun j => (l.fill + j) % l.slots) ++ l.rel }.advance
          let s := s.onMap (fun m => { m with
            salt := (m.salt.filter (fun b => !(b.lane == n && b.surface == sf && b.band == band))) ++ [l'] })
          some ((sf, band, x, tr + x / per, x % per), s.syncSalt)

/-- Groups of quarters that follow one another. -/
def quarterRuns : List (Nat × Nat × Nat × Nat) → List (List (Nat × Nat × Nat × Nat))
  | [] => []
  | x :: rest =>
    match quarterRuns rest with
    | (y :: ys) :: more => if y.1 = x.1 + 1 then (x :: y :: ys) :: more else [x] :: (y :: ys) :: more
    | l => [x] :: l

/-- Queues commands to a lane's sequencer. -/
def State.give (n : Nat) (cs : List MediaCmd) (s : State) : State :=
  let i := Fin.ofNat 4 n
  s.setQueue i ((s.lane i).queue ++ cs)

/-- Deals one saltern slot to lane `n` (R345): the blocks of a tile that wait, each in its quarter. -/
def State.dealSlot (n : Nat) (s : State) : State :=
  match s.nextBlk with
  | none => s
  | some b =>
    match s.takeSlot n true with
    | none => s
    | some ((sf, band, slot, tr, pos), s) =>
      let base := b.lba / 4 * 4
      let gen := if b.ns = 1 then (s.zone (b.lba / 65536)).gen else 0
      let blocks := (List.range 4).filterMap (fun q => ((s.buf.blks.filter s.undealt).find? (fun x =>
        x.ns == b.ns && x.lba == base + q)).map (fun x => (q, x.ns, x.lba, x.ord)))
      let unit (x : Nat × Nat × Nat × Nat) : MUnit :=
        { kind := b.ns - 1, tag := x.2.2.1, gen := gen, hseq := (s.word 0).toNat
          shuffled := false, ctx := 0
          data := ((s.poolBlk x.2.1 x.2.2.1).map (·.data)).getD [] }
      let d : Dealt := { lane := n, surface := sf, band := band, slot := slot, gen := gen, blocks := blocks, left := blocks.length }
      let s := s.onHrv (fun h => { h with dealt := h.dealt ++ [d] })
      s.give n ((quarterRuns blocks).map (fun r => s.coastCmd sf tr pos ((r.head?.map (·.1)).getD 0) (r.map unit)))

/-- Data may still be written (R347): the speed is above ω_stop and HOLD has not fallen. -/
def State.mayCoast (s : State) : Bool := s.usable s.rpm != 0 && !s.hrv.holdLow

/-- The slots dealt to a lane and not complete. -/
def State.inFlight (s : State) (n : Nat) : Nat := (s.hrv.dealt.filter (fun d => d.lane == n)).length

/-- Deals slots in rotation to the settled lanes, two ahead on each (R345). -/
def State.dealAll (s : State) : State :=
  if !s.mayCoast then s
  else
    let round (s : State) (k : Nat) : State :=
      doAll (s.coastLanes.filter s.settled) (fun n s => if s.inFlight n < k then s.dealSlot n else s) s
    round (round s 1) 2

/-! ## What lanes complete -/

/-- The manifest's word 0 and 1 for a slot or for blocks unwritten (R349). For blocks unwritten, whose place means nothing, the slot
field holds the loss cause of R358, which the layout gives no place (DESIGN CHOICE). -/
def manEnt (use ns lba gen mask lane surface band slot hseq : Nat) : ManEnt :=
  { w0 := ovlW0 use (tileKey ns lba) gen mask, w1 := ovlW1 lane surface band slot ns hseq }

/-- The loss cause of an entry for blocks unwritten. -/
def ManEnt.cause (e : ManEnt) : Nat := bits64 e.w1 37 16

/-- The mask of a slot's blocks. -/
def Dealt.mask (d : Dealt) : Nat := d.blocks.foldl (fun m x => m + 2 ^ x.1) 0

/-- A slot's last coast tile has passed its end mark: its manifest entry is made, and its blocks are safe. -/
def State.slotDone (d : Dealt) (s : State) : State :=
  match d.blocks with
  | [] => s
  | x :: _ =>
    let e := manEnt 1 x.2.1 x.2.2.1 d.gen d.mask d.lane d.surface d.band d.slot (s.word 0).toNat
    let gone (b : WBlk) : Bool := (b.st == .dirty || b.st == .wt) &&
      d.blocks.any (fun y => y.2.1 == b.ns && y.2.2.1 == b.lba && decide (b.ord ≤ y.2.2.2))
    let s := s.onHrv (fun h => { h with ents := h.ents ++ [e] })
    let s := if s.harvesting ∧ s.get F.HRV_HRES_slots = 0 then s.onMedia (fun d => { d with harvests := d.harvests + 1 }) else s
    let s := s.onBuf (fun b => { b with blks := b.blks.filter (fun w => !(gone w)) })
    (s.inc F.HRV_HRES_slots).syncDirty

/-- A coast tile of data has passed its end mark on lane `n`. -/
def State.coastWritten (n : Nat) (u : MUnit) (s : State) : State :=
  let hit (d : Dealt) : Bool := d.lane == n && d.blocks.any (fun x => x.2.1 == u.kind + 1 && x.2.2.1 == u.tag)
  match s.hrv.dealt.find? hit with
  | none => s
  | some d =>
    if d.left ≤ 1 then
      (s.onHrv (fun h => { h with dealt := h.dealt.filter (fun x => !(hit x)) })).slotDone d
    else s.onHrv (fun h => { h with dealt := h.dealt.map (fun x => if hit x then { x with left := x.left - 1 } else x) })

/-! ## Steps 7 and 8 -/

/-- The loss cause of a block that was not written (R358). -/
def State.lossCause (s : State) (b : WBlk) : Nat :=
  if s.buf.spoilt.contains b.ord then 5
  else if s.hrv.holdLow || s.get F.HRV_DIAP_cause == 6 && s.diapause then 6
  else if b.st = .wt then 2
  else if s.coastLanes.length < s.hrv.part.length then 3
  else if s.mayCoast then 4 else 1

/-- The blocks not written, tile by tile, as manifest entries (R347, R349). -/
def State.unwritten (s : State) : List ManEnt :=
  let left := s.buf.blks.filter (fun b => (b.st == .dirty || b.st == .wt) && (s.poolBlk b.ns b.lba).any (fun x => x.ord == b.ord))
  let tiles := (left.map (fun b => (b.ns, b.lba / 4 * 4))).eraseDups
  tiles.flatMap (fun t =>
    let mine := left.filter (fun b => b.ns == t.1 && b.lba / 4 * 4 == t.2)
    let gen := if t.1 = 1 then (s.zone (t.2 / 65536)).gen else 0
    ((mine.map s.lossCause).eraseDups).map (fun c =>
      let m := (mine.filter (fun b => s.lossCause b == c)).foldl (fun m b => m + 2 ^ (b.lba % 4)) 0
      manEnt 3 t.1 t.2 gen m 0 0 0 c (s.word 0).toNat))

/-- The blocks that a manifest lists as unwritten. -/
def lostBlocks (es : List ManEnt) : Nat :=
  sumOf (es.filter (fun e => ovlUse (e.w0, e.w1) == 3)) (fun e => ((List.range 4).filter (ovlMask (e.w0, e.w1)).testBit).length)

/-- HRV_HRES.result (R332): complete, with losses, or dry without losses. -/
def State.harvestResult (s : State) (lost : Nat) : Nat := if lost ≠ 0 then 2 else if s.hrv.dry then 3 else 1

/-- The manifest of this harvest or commit (R349, R496). -/
def State.manifestNow (s : State) : Manifest :=
  let es := s.hrv.ents ++ s.unwritten
  { hseq := (s.word 0).toNat, lanes := laneMask s.coastLanes, result := s.harvestResult (lostBlocks es)
    source := if s.harvesting then 1 else 2, time := s.hrv.trigMs, ents := es }

/-- The header coast tile of a manifest (R349): harvest sequence number, number of entries, lanes, and what the log page of R496 says of
the harvest; the CRC-64 covers these and the entries. Order and widths are not given (DESIGN CHOICE). -/
def Manifest.header (m : Manifest) : List Byte :=
  let b := leBytes 4 m.hseq ++ leBytes 4 m.ents.length ++ [BitVec.ofNat 8 m.lanes, BitVec.ofNat 8 m.result, BitVec.ofNat 8 m.source, 0] ++
    leBytes 8 m.time
  b ++ leBytes 8 (crc64 (b ++ m.ents.flatMap (fun e => leBytes 8 e.w0.toNat ++ leBytes 8 e.w1.toNat))).toNat

/-- The coast tiles of a manifest: its header, then 256 entries to a tile. -/
def Manifest.units (m : Manifest) : List MUnit :=
  sysUnit sysManifest 0 m.hseq m.header :: (chunks 256 m.ents.length m.ents).zipIdx.map (fun c =>
    sysUnit sysManifest (c.2 + 1) m.hseq (c.1.flatMap (fun e => leBytes 8 e.w0.toNat ++ leBytes 8 e.w1.toNat)))

/-- The system coast tiles of the journal records not yet on media (R348): 128 to a tile, under the number of the first. -/
def State.journalUnits (s : State) : List MUnit :=
  (chunks 128 s.map.jrnl.length s.map.jrnl).map (fun c =>
    sysUnit sysJournal ((c.head?.map (·.seq)).getD 0) (s.word 0).toNat (c.flatMap JRec.bytes))

/-- System coast tiles go to a lane, four to a saltern slot: the slots that they fill, and the state after it. -/
def State.giveSystem (n : Nat) : List (List MUnit) → State → List (Nat × Nat × Nat × Nat) × State
  | [], s => ([], s)
  | us :: rest, s =>
    match s.takeSlot n false with
    | none => ([], s)
    | some ((sf, band, slot, tr, pos), s) =>
      let r := State.giveSystem n rest (s.give n [s.coastCmd sf tr pos 0 us])
      ((n, sf, band, slot) :: r.1, r.2)

/-- One copy of the journal and of the manifest goes to a lane (R348). -/
def State.giveCopy (n : Nat) (s : State) : State :=
  let js := chunks 4 s.journalUnits.length s.journalUnits
  let ms := chunks 4 (s.manifestNow.units).length s.manifestNow.units
  let a := s.giveSystem n js
  let b := a.2.giveSystem n ms
  let left := sumOf (js.take a.1.length ++ ms.take b.1.length) List.length
  b.2.onHrv (fun h => { h with copies := h.copies ++ [{ lane := n, left := left, jrnl := a.1, man := b.1 }] })

/-- The journal and the manifest are on media: the keel copies go out (R348, R82). -/
def State.beginKeel (s : State) : State :=
  let m := s.manifestNow
  let last := (s.map.jrnl.getLast?.map (·.seq)).getD (s.word 4).toNat
  let js := s.hrv.copies.flatMap (fun c => c.jrnl.map (fun p => (last, p)))
  let refs := (s.hrv.copies.filter (fun c => !c.man.isEmpty)).map (fun c => ({ hseq := m.hseq, slots := c.man } : ManRef))
  let s := (s.onMap (fun x => { x with jout := [], mans := x.mans ++ refs, jslots := x.jslots ++ js })).landRecords last
  let k := s.newKeel ((s.word 2).toNat / 2 ^ 31) s.map.ckseq s.map.ckLanes
  let s := (s.onMap (fun x => { x with keelUp := some (k, 0) })).onHrv (fun h => { h with copies := [], keel := true })
  doAll ((s.keelSurfaces s.coastLanes).filterMap (s.keelCmd k m.hseq)) (fun c s => s.give c.1 [c.2]) s

/-- The number of blocks left unwritten. -/
def State.lostNow (s : State) : Nat := lostBlocks s.unwritten

/-- Step 8 ends (R350): SPN is in BRAKE, the harvest's record is posted, and the flush to the ring begins; where the ring
is not yet known, the harvest is done. -/
def State.endPark (late : Nat) (s : State) : State :=
  let s := if s.spnState = 0 ∨ s.spnState = 9 then s else s.spnTo 2
  let s := s.onHrv (fun h => { h with parked := true, notUp := late })
  let s := s.post 1 0x11 (leBytes 4 (s.word 0).toNat ++ [BitVec.ofNat 8 (s.get F.HRV_HRES_result),
    BitVec.ofNat 8 (s.coastLanes.foldl (fun m n => m + 2 ^ n) 0)] ++ leBytes 2 s.hrv.endRpm ++
    leBytes 4 (s.get F.HRV_HRES_slots) ++ leBytes 4 s.lostNow ++ [BitVec.ofNat 8 late])
  let s := s.countersRecord
  if s.flag F.EVT_CTL_tlock then s.askFlush else s.put F.HRV_STAT_state 7

/-- Step 8 begins (R350): unloads are requested. -/
def State.beginPark (s : State) : State :=
  let s := s.put F.HRV_STAT_state 6
  let s := if s.hrv.endRpm = 0 then s.onHrv (fun h => { h with endRpm := s.rpm }) else s
  let s := if s.get F.HRV_HRES_result = 0 then s.put F.HRV_HRES_result (s.harvestResult s.lostNow) else s
  let s := s.unloadAll
  if s.get F.SRV_STAT_loaded = 0 then s.endPark 0 else s

/-- Step 7 is over: the keel update is committed, or cannot be. -/
def State.endCommit (result : Nat) (s : State) : State :=
  let s := (s.onHrv (fun h => { h with copies := [], keel := false })).put F.HRV_HRES_result result
  if s.harvesting then s.beginPark else s.onHrv (fun h => { h with phase := 6 })

/-- Step 7 begins (R348): the journal and manifest tiles go to the two lowest-numbered lanes taking part, or both copies to the only one.
Before the namespaces are ready nothing is written (R93). -/
def State.beginCommit (s : State) : State :=
  let ls := match s.coastLanes with
    | a :: b :: _ => [a, b]
    | [a] => [a, a]
    | [] => []
  let s := (s.toStep 5).onHrv (fun h => { h with endRpm := s.rpm, dealt := [], copies := [], keel := false })
  if s.boot.ready < 4 ∨ ls.isEmpty then s.endCommit (s.harvestResult s.lostNow)
  else
    let s := doAll ls State.giveCopy s
    if s.hrv.copies.all (fun c => c.left == 0) then s.beginKeel else s

/-- A system tile has passed its end mark on lane `n` in step 7 (R348): with the last of both copies the keel goes out, and a committed
keel ends the step. -/
def State.systemWritten (n : Nat) (u : MUnit) (s : State) : State :=
  if s.hstep ≠ 5 then s
  else if s.hrv.keel then (if s.map.keelUp.isNone then s.endCommit (s.harvestResult s.lostNow) else s)
  else
    let hit (c : SysCopy) : Bool := c.lane == n && c.left != 0 && sysType u.tag != sysKeel
    let go := s.hrv.copies.foldl (fun (x : Bool × List SysCopy) c =>
      if !x.1 && hit c then (true, x.2 ++ [{ c with left := c.left - 1 }]) else (x.1, x.2 ++ [c])) (false, [])
    let s := s.onHrv (fun h => { h with copies := go.2 })
    if s.hrv.copies.all (fun c => c.left == 0) then s.beginKeel else s

/-- A lane that has left takes its copy of step 7 with it (R346, R348): the copy is written anew on the next lane that has none, or on the
lowest; and a keel copy on another surface. -/
def State.copyAnew (s : State) : State :=
  if s.hstep ≠ 5 then s
  else
    let live := s.coastLanes
    if live.isEmpty then s.endCommit (s.harvestResult s.lostNow)
    else
      let lost := s.hrv.copies.filter (fun c => !(live.contains c.lane))
      let s := s.onHrv (fun h => { h with copies := h.copies.filter (fun c => live.contains c.lane) })
      let next (s : State) : Nat := ((live.filter (fun l => !(s.hrv.copies.any (fun c => c.lane == l)))).head?).getD (live.headD 0)
      let s := doAll lost (fun _ s => s.giveCopy (next s)) s
      match s.map.keelUp with
      | some (k, _) =>
        if !s.hrv.keel then s
        else
          let tag := (sysUnit sysKeel k.seq 0 []).tag
          let has (f : Nat) : Bool := s.media.tiles.any (fun t => t.2.place.surface == f && t.2.kind == 2 && t.2.tag == tag) ||
            allLanes.any (fun m => live.contains m.val && ((s.lane m).queue ++ (s.lane m).cur.toList).any (fun c => c.surface == f &&
              c.units.any (fun v => v.kind == 2 && v.tag == tag)))
          doAll (((s.keelSurfaces live).filter (fun f => !(has f))).filterMap (s.keelCmd k (s.word 0).toNat)) (fun c s => s.give c.1 [c.2]) s
      | none => s

/-- The commands of lanes that have left the coast path are dropped (R129, R346). -/
def State.dropLeft (s : State) : State :=
  doAll (s.hrv.part.filter (fun n => !(s.coastLanes.contains n))) (fun n s =>
    if (s.lane (Fin.ofNat 4 n)).queue.isEmpty then s else s.setQueue (Fin.ofNat 4 n) []) s

/-- The coast path goes on as far as it can (R345 to R348): lanes that left give their slots back, settled lanes get
slots, and coast writing ends once nothing more can be written. -/
def State.coastGo (s : State) : State :=
  if !s.coasting || s.hrv.coreLow then s
  else if s.hstep == 5 then s.dropLeft.copyAnew
  else if !(s.hstep == 3 || s.hstep == 4) then s
  else
    let s := s.dropLeft
    let live := s.coastLanes
    let s := s.onHrv (fun h => { h with dealt := h.dealt.filter (fun d => live.contains d.lane) })
    if live.isEmpty then
      (if s.harvesting then s.beginPark else s.onHrv (fun h => { h with phase := 6 }))
    else if !(live.any s.settled) then s
    else
      let s := (s.toStep 4).dealAll
      let first := live.take 2
      if s.hrv.dealt.isEmpty && (s.nextBlk.isNone || !s.mayCoast || (live.filter s.settled).all (fun n => (s.takeSlot n true).isNone)) &&
          first.all s.settled then s.beginCommit
      else s

/-! ## Triggers -/

/-- The counted lanes take the harvest trap (R218, R225, R344). -/
def State.trapLanes (s : State) : State :=
  let ls := s.counted
  let s := s.onHrv (fun h => { h with part := ls, dealt := [], ents := [], copies := [], keel := false, holdLow := false
                                      parked := false, notUp := 0, endRpm := 0 })
  let s := doAll allLanes (fun n => State.onLane n (fun l => { l with inBand := false, left := false })) s
  doAll (ls.map (Fin.ofNat 4)) (fun n s =>
    if s.executing n then s.latchTrap n 1 none
    else if s.mcs n = 2 ∧ s.flag (F.MCS_LDCTL_match n) then s.harvestStart n else s) s

/-- A self-test slice ends (R587, R590): the lane's datapath is reset, and the writes held at the crossing act. -/
def State.endSlice (s : State) : State :=
  let n := Fin.ofNat 4 (s.get F.ISST_STAT_lane)
  let s := ((s.put F.ISST_STAT_state 0).put (F.LANE_STAT_setv n) 0).onLane n Lane.noSet
  let s := { s with integ := { s.integ with left := 0, done := 0, again := false } }
  if (s.lane n).retune || !(s.laneUp n) then s
  else (doAll (s.lane n).held (fun w s => s.take w.1 w.2) s).onLane n (fun l => { l with held := [] })

/-- A self-test slice is aborted (R591). -/
def State.isstAbort (s : State) : State :=
  if s.get F.ISST_STAT_state = 0 then s
  else
    let n := s.get F.ISST_STAT_lane
    let s := ((s.put F.ISST_RES_valid 1).put F.ISST_RES_pass 0).put F.ISST_RES_aborted 1
    let s := (s.put F.ISST_RES_lane n).put F.ISST_RES_part (s.get F.ISST_STAT_part)
    s.endSlice.raise F.ISST_ERR_abort

/-- A harvest is triggered (R329, R332, R343, R344): steps 1 to 5. A commit in progress turns into the harvest from the
step reached (R330, R558). -/
def State.harvest (s : State) : State :=
  let was := s.hrv.commit != 0
  let ph := s.hrv.phase
  let dry := s.get F.HRV_CTL_arm == 0 || s.counted.isEmpty
  let s := if was then s else s.nextHseq
  let s := s.post 1 0x10 (leBytes 4 (s.word 0).toNat ++ [BitVec.ofNat 8 (s.get F.HRV_STAT_trig), BitVec.ofNat 8 (s.get F.HRV_LANES_mask)] ++
    leBytes 2 s.rpm ++ leBytes 4 (s.get F.HRV_DIRTY_kib) ++ leBytes 4 (s.get F.HRV_WTDIRTY_kib) ++ leBytes 4 (s.get F.HRV_BUDGET_kib))
  let s := ((s.setIso false).put F.HRV_STAT_state 2).setBudget 0
  let s := s.discardAll.onBuf (fun b => { b with closed := true })
  let s := { s with hostDown := true }.isstAbort.pwrHarvest
  let s := if s.dom 4 = 0 ∨ s.dom 4 = 1 then s.cocoon 4 else s
  let s := s.put F.RAKE_STAT_harv 1
  let s := s.onHrv (fun h => { h with coresHalted := true, commit := 0, trigMs := if was then h.trigMs else s.get F.EVT_POTHI_ms * 2 ^ 32 + s.get F.EVT_POTLO_ms + s.nowMs })
  let s := (s.flutterFail 3).spnHarvest
  let s : State := { s with boot := { s.boot with warm := 0 }, meas := { s.meas with log := [] } }
  if was then
    let s := s.put F.HRV_STAT_state (max 3 (min 5 ph))
    if ph = 6 then s.beginPark else s.coastGo
  else
    let s := s.onHrv (fun h => { h with dry := dry })
    let s := s.put F.HRV_HRES_result 0 |>.put F.HRV_HRES_slots 0
    let s := doIf dry (State.raise F.HRV_ERR_dry) s
    if dry && !(decide (s.getA F.HRV_PAR0_wmin ≤ s.rpm) && s.get F.SRV_STAT_loaded != 0) then
      (s.onHrv (fun h => { h with part := [], dealt := [], ents := [], holdLow := false, parked := false, notUp := 0, endRpm := 0 })).beginPark
    else ((s.trapLanes).put F.HRV_STAT_state 3).coastGo

/-- A trigger cause occurs (R329, R330): bit `c` of HRV_STAT.trig. Before the first closing ramp has ended it triggers
nothing; one that breaks the supply starts its qualification again. -/
def State.trigger (c : Nat) (s : State) : State :=
  if !s.hrv.ramped then
    if s.boot.phase ≤ 1 ∧ c ≤ 2 then
      { (s.setIso false).put F.HRV_STAT_ramp 0 with boot := { s.boot with phase := 0 } }
    else s
  else
    let s := s.putBit F.HRV_STAT_trig c true
    if s.hrvState ≤ 1 then s.harvest else s

/-! ## The commit with the switch closed, and diapause -/

/-- The commit begins (R361 step 2, R558): the harvest sequence from step 5. -/
def State.beginSwitchCommit (k : Nat) (s : State) : State :=
  let s := s.nextHseq
  let s := s.put F.HRV_HRES_result 0 |>.put F.HRV_HRES_slots 0
  let s := s.onHrv (fun h => { h with
    commit := k, phase := 3, dry := false
    trigMs := s.get F.EVT_POTHI_ms * 2 ^ 32 + s.get F.EVT_POTLO_ms + s.nowMs })
  s.trapLanes.coastGo

/-- Diapause is entered (R360 to R362, R391, R449, R510): the first cause stays, and later ones are in event records
only. -/
def State.diapauseFor (cause : Nat) (s : State) : State :=
  let s := s.post 1 0x12 [BitVec.ofNat 8 cause]
  if s.diapause then s
  else
    let s := (s.put F.HRV_DIAP_active 1).put F.HRV_DIAP_cause cause
    let s := (s.latchCause 31).aen 1 0 2
    if s.harvesting || s.hrvState == 7 then s
    else
      let s := ((s.put F.HRV_CTL_arm 0).put F.HRV_STAT_state 0).setBudget 0
      let s := doAll (s.slotsIn [2]) (fun i s => s.breakSlot i 0x12) s
      let s := doAll (s.buf.ctxs.filter (fun c => decide (c.stage ≤ 1))) (fun c s => s.failWrite c (CplRec.bad 7 0xC0)) s
      let s := ({ s with nvme := { s.nvme with pewake := true } }.onBuf (fun b => { b with closed := true })).withdraw.postAll.reclass
      let s : State := { s.pwrDiapause with boot := { s.boot with warm := if s.boot.warm = 2 then 0 else s.boot.warm } }
      if cause = 4 then s.askFlush
      else if s.hrv.commit = 1 then { s.onHrv (fun h => { h with commit := 2 }) with boot := { s.boot with warm := 0 } }
      else if s.clean || cause == 3 then (if cause = 6 then s else s.stopSpin).askFlush
      else s.beginSwitchCommit 2

end Sys2Proof.Machine
end

