-- ==== Sys2Proof/Machine/PowerFw.lean ====
section
/-! DEFINITION. The resident firmware's part in the power states (12_power_states.md R503, R519 to R527): the steps before
and after a handshake, the copies of MOTION's registers, and the idle time. -/

namespace Sys2Proof.Machine
open Sys2Proof

/-- The domains that a power state needs and that are cocooned. -/
def State.psWakes (s : State) (k : Nat) : List Nat :=
  emergeOrder.filter (fun d => !((psCocoons k).contains d) && s.dom d == 2 && (!(isLane d) || s.fitted d))

/-- The domains that a power state cocoons and that run. -/
def State.psStops (s : State) (k : Nat) : List Nat := (psCocoons k).filter (fun d => s.runs d)

/-- The power-state cap (R519): none in PS0, the highest point at or below 5,400 rpm in PS1, and 000b above. -/
def State.psCap (s : State) (k : Nat) : Nat :=
  if k = 0 then 7
  else if k = 1 then
    (List.range (s.getA F.SPN_CRVHDR_npts)).foldl (fun m j => if s.pointRpm j ≤ 5400 then j else m) 0
  else 0

/-- A register of SPN, SCA or SRV. -/
def motionReg (a : Nat) : Bool := let b := a / 0x10000; b == 0xF || b == 0x10 || b == 0x11 || b == 0x12

/-- The bits of a register that software sets. -/
def ownBits (a : Nat) : Word :=
  match regDesc a with
  | some d => BitVec.ofNat 32 (d.rw ||| d.rwl)
  | none => 0

/-- The firmware's copy of MOTION's registers and of the set store (R503). -/
def State.saveMotion (s : State) : State :=
  if s.pwr.copy.isSome then s
  else s.onPwr (fun p => { p with
    copy := some (s.regs.filter (fun x => motionReg x.1), s.active.filter (fun x => motionReg x.1), s.servo.store) })

/-- The copy is written back before the pads are released (R503, R513), and the spindle is asked to turn again. -/
def State.restoreMotion (s : State) : State :=
  match s.pwr.copy with
  | none => s
  | some (rs, act, store) =>
    if !(s.runs 5) then s
    else
      let s := doAll rs (fun (x : Nat × Word) s => s.setReg x.1 ((s.reg x.1 &&& ~~~(ownBits x.1)) ||| (x.2 &&& ownBits x.1))) s
      let s := { s with
        active := act.foldl (fun m (x : Nat × Word) => cset (resetVal s.variant) x.1 x.2 m) (s.active.filter (fun (x : Nat × Word) => !(motionReg x.1)))
        servo := { s.servo with store := store } }
      let s := (s.releasePads 5).onPwr (fun p => { p with copy := none })
      if s.wantsSpin then s.startSpin else s

/-- A lane that has emerged: its control store is loaded, with match its pads are released, and it starts. -/
def State.wakeLane (n : Fin 4) (s : State) : State :=
  if !(s.laneUp n) || s.slice n.val then s
  else if s.mcs n = 0 ∧ !(s.flag (F.MCS_LDCTL_busy n)) then
    (s.put (F.MCS_LDCTL_busy n) 1).put (F.MCS_STAT_state n) 1
  else if s.mcs n = 2 ∧ s.flag (F.MCS_LDCTL_match n) then (s.releasePads n).mcsStart n
  else s

/-- The heads of every fitted actuator are on the ramp, and the spindle can carry them: they are loaded (R522 reversed). -/
def State.loadHeads (s : State) : State :=
  doAll (allLanes.filter (fun (a : Fin 4) => s.fitted a && !(s.loaded a) && !(s.moving a))) (fun (a : Fin 4) s => s.rampMove a false) s

/-- The upward part of a transition to power state `k` (R522): MOTION's registers, the lanes, the cap and the arbitration
rate, and the heads; whether it is over. -/
def State.goUp (k : Nat) (s : State) : Bool × State :=
  let s := if k ≤ 3 then s.restoreMotion else s
  let s := doAll (allLanes.filter (fun n => decide (k ≤ 1) || (k == 2 && s.runs n.val && s.padsHeld n.val))) State.wakeLane s
  let s := if s.runs 5 then s.put F.SPN_CEIL_pcap (s.psCap k) else s
  let s := s.put F.PWR_CFG_hbmhalf (if k = 0 then 0 else 1)
  let loading := allLanes.any (fun n => decide (k ≤ 1) && s.laneUp n && s.flag (F.MCS_LDCTL_busy n))
  if 3 ≤ k ∨ s.get F.SRV_STAT_loaded ≠ 0 then (!loading, s)
  else if s.spnState = 6 ∧ s.flag F.SPN_STAT_upok then (!loading, s.loadHeads)
  else (!loading && !s.wantsSpin, s)

/-- The downward part of a transition to power state `k` (R522): the dirty data drains, the lanes stop, the heads are
unloaded, and the spindle stops; whether the handshake may begin. -/
def State.goDown (k : Nat) (s : State) : Bool × State :=
  if !s.clean then (false, s.dispatch.syncBuf)
  else
    let s := doAll (allLanes.filter (fun n => s.executing n)) (fun n s => s.put (F.MCS_STAT_stopreq n) 1) s
    if allLanes.any (fun n => s.executing n) then (false, s)
    else if k = 2 ∨ !(s.runs 5) then (true, s)
    else
      let s := if s.get F.SRV_STAT_loaded ≠ 0 ∧ !(allLanes.any (fun a => (s.act a).ramp == some true)) then s.unloadAll else s
      if s.get F.SRV_STAT_loaded ≠ 0 then (false, s)
      else if k = 3 then (true, s)
      else
        let s := s.saveMotion
        if s.spnState = 0 ∨ s.spnState = 9 then (true, s.put F.SCA_CTL_run 0)
        else (false, (s.put F.SPN_CTL_run 0).stopSpin)

/-- The firmware goes on with a transition as far as it can (R522, R526): first the domains that the new state needs
emerge, and the handshake comes last. -/
def State.pmStep (s : State) : State :=
  match s.pwr.to_ with
  | none => s
  | some k =>
    if s.boot.phase ≠ 4 ∨ s.hostDown ∨ s.diapause ∨ s.harvesting ∨ s.boot.warm ≠ 0 then
      s.onPwr (fun p => { p with to_ := none })
    else
      let ph := s.get F.PWR_PSTAT_phase
      let wakes := s.psWakes k
      if ph = 3 ∧ !(s.pwr.set_.all (fun d => (psCocoons k).contains d)) then s.pwrGo wakes []
      else if ph ≠ 0 then s
      else if !wakes.isEmpty then s.pwrGo wakes []
      else
        let (up, s) := if k ≤ 3 then s.goUp k else (true, s.put F.PWR_CFG_hbmhalf 1)
        if !up then s
        else if k < 2 then s.onPwr (fun p => { p with to_ := none })
        else
          let stops := s.psStops k
          if stops.isEmpty then s.onPwr (fun p => { p with to_ := none })
          else
            let (ready, s) := s.goDown k
            if ready then (s.pwrGo [] stops).onPwr (fun p => { p with to_ := none }) else s

/-- The Gorlo is to enter power state `k` (R522): Get Features returns it at once. -/
def State.enterPs (k : Nat) (s : State) : State :=
  let s := { s with nvme := { s.nvme with feats := { s.nvme.feats with ps := k } } }
  (s.onPwr (fun p => { p with to_ := some k, lastOp := if k ≤ 2 then k else p.lastOp })).pmStep

/-- A lane whose media commands wait in PS2 (R523). -/
def State.laneAsked (s : State) (n : Fin 4) : Bool := s.dom n == 2 && s.fitted n && !(s.buf.work[n]).isEmpty

/-- PS2 brings out one lane at a time for the media commands that wait (R523), and starts it once its store is loaded. -/
def State.ps2Step (s : State) : State :=
  if s.nvme.feats.ps ≠ 2 ∨ s.pwr.to_.isSome ∨ s.get F.PWR_PSTAT_phase ≠ 0 ∨ s.boot.phase ≠ 4 ∨ s.hostDown ∨ s.draining then s
  else
    match allLanes.find? (fun n => s.runs n.val) with
    | some n => if s.mcs n = 3 ∨ s.mcs n = 4 then s else s.wakeLane n
    | none =>
      match allLanes.find? s.laneAsked with
      | some n => s.pwrGo [n.val] []
      | none => s

/-- A command is outstanding on a queue (R527). -/
def State.outstanding (s : State) : Bool :=
  !s.buf.ctxs.isEmpty || s.ctr.est.isSome || s.fw.commit.isSome || !s.nvme.deletes.isEmpty

/-- PWR_IDLE counts a millisecond (R527). -/
def State.idleMs (s : State) : State :=
  if s.outstanding then s.put F.PWR_IDLE_ms 0 else s.incStop F.PWR_IDLE_ms

end Sys2Proof.Machine
end

