-- ==== Sys2Proof/Machine/HostCtl.lean ====
section
/-! DEFINITION. The PCIe function and the controller (11_host_interface.md R444 to R458, R482 to R484): link, resets, enable
and shutdown. -/

namespace Sys2Proof.Machine
open Sys2Proof

/-! ## The acoustic ceiling's home -/

/-- Writes the acoustic ceiling: to SPN_CEIL.acou (R492), or to the firmware's copy while MOTION is cocooned (R503). -/
def State.setAcou (k : Nat) (s : State) : State :=
  match s.pwr.copy with
  | some (rs, act, store) =>
    if s.runs 5 then s.put F.SPN_CEIL_acou k
    else s.onPwr (fun p => { p with
      copy := some (cset (resetVal s.variant) R.SPN_CEIL (F.SPN_CEIL_acou.into k (cget (resetVal s.variant) rs R.SPN_CEIL)) rs,
        act, store) })
  | none => if s.runs 5 then s.put F.SPN_CEIL_acou k else s

/-- The acoustic ceiling in force. -/
def State.acou (s : State) : Nat :=
  match s.pwr.copy with
  | some (rs, _, _) => if s.runs 5 then s.get F.SPN_CEIL_acou else F.SPN_CEIL_acou.of (cget (resetVal s.variant) rs R.SPN_CEIL)
  | none => s.get F.SPN_CEIL_acou

/-! ## Resets of the controller and of the function -/

/-- The features return to their defaults (R484, R490): the ceiling, the thresholds and the power state act. -/
def State.featureDefaults (s : State) : State :=
  let ps := s.nvme.feats.ps
  let s := s.onNvme (fun v => { v with feats := { Feats.default with ps := ps } })
  let s := ((s.setAcou 7).put F.ALR_TTH_over 100).put F.ALR_TTH_underen 0
  if ps = 0 then s else s.enterPs 0

/-- A controller reset (R182, R415, R393, R484, R485, R668): unsealed commands and records not posted are dropped, contracts are
released, opened zones closed, features set to defaults; queues and requests are gone. An activation past step 3 of R488 runs to its end
without a completion (DESIGN CHOICE: the lanes are stopped by then, and the spec does not say what the reset does to it). -/
def State.controllerOff (s : State) : State :=
  let s := (s.discardAll.releaseByReset).onCtr (fun c => { c with est := none, slots := CtrSt.reset.slots })
  let s := { (s.closeZones).featureDefaults with meas := { s.meas with log := [] } }
  let s := { s with fw := { staged := [], commit := (s.fw.commit.filter (fun (c : FwCommit) => c.step == 3)).map (fun (c : FwCommit) => { c with cid := 65536 }) } }
  let s := s.onNvme (fun v => { v with
    en := false, rdy := false, cfs := false, crime := false, pp := false, shst := 0, sqs := [], cqs := [], adminUsed := 0
    adminSize := 0, agg := [], aers := [], events := [], masked := [], streams := false, openStreams := [], nsa := 0, deletes := [] })
  (s.resetRegs .controller).ctrTotals.pump.reclass

/-- A reset of the HOST domain (R448, R12): as a controller reset, and the registers that `PERST_N` resets. -/
def State.hostReset (s : State) : State :=
  let s := s.controllerOff.onNvme (fun v => { v with config := false })
  s.resetRegs .perst

/-- The link is down. -/
def State.linkDown (s : State) : State := (s.onNvme (fun v => { v with linkUp := false })).put F.HST_LINK_ltssm (Config.ltssm 0).toNat

/-- The function answers the host (R534): its link is up and the IDS section is applied. -/
def State.answers (s : State) : Bool := s.nvme.config && s.nvme.linkUp && !s.nvme.perst && !s.hostDown

/-- Configuration requests are answered once the link is up and the loader or the firmware has applied the IDs. -/
def State.configGo (s : State) : State :=
  s.onNvme (fun v => { v with config := v.linkUp && (s.boot.phase == 4 || s.boot.phase == 5) })

/-- PERST_N_ASSERT (R448, R449). -/
def execPerstNAssert (s : State) : Host.Outcome State Fault Refusal :=
  .next (let s := if s.hostDown ∨ s.nvme.perst then s else s.hostReset.linkDown
    s.onNvme (fun v => { v with perst := true, pewake := false, config := false, linkUp := false }))

/-- PERST_N_DEASSERT (R448, R534): the HOST domain is released from reset. -/
def execPerstNDeassert (s : State) : Host.Outcome State Fault Refusal := .next (s.onNvme (fun v => { v with perst := false }))

/-- FUNCTION_LEVEL_RESET (R448): the link stays up. -/
def execFunctionLevelReset (s : State) : Host.Outcome State Fault Refusal :=
  .next (if !s.answers then s
    else
      let link := s.reg R.HST_LINK
      ((s.hostReset.setReg R.HST_LINK link).configGo).raise F.HST_ERR_flr)

/-- HOT_RESET (R448): the link trains again. -/
def execHotReset (s : State) : Host.Outcome State Fault Refusal :=
  .next (if s.hostDown ∨ s.nvme.perst ∨ !s.nvme.linkUp then s else s.hostReset.linkDown)

/-- DL_DOWN (R448). -/
def execDlDown (s : State) : Host.Outcome State Fault Refusal :=
  .next (if s.hostDown ∨ s.nvme.perst ∨ !s.nvme.linkUp then s else (s.hostReset.linkDown).raise F.HST_ERR_down)

/-- LINK_UP (R534, R449): the link reaches L0 at a rate code and a width. It cannot train before `PGOOD_CORE` has risen. -/
def execLinkUp (rate : Fin 6) (width : Fin 5) (s : State) : Host.Outcome State Fault Refusal :=
  .next (if s.hostDown ∨ s.nvme.perst ∨ s.boot.phase < 3 ∨ rate.val = 0 ∨ !([1, 2, 4].contains width.val) then s
    else
      let s := ((s.put F.HST_LINK_up 1).put F.HST_LINK_rate rate).put F.HST_LINK_width width
      let s := s.put F.HST_LINK_ltssm (Config.ltssm 1).toNat
      (s.onNvme (fun v => { v with linkUp := true, pewake := false })).configGo)

/-- LINK_RETRAIN (R447): a lower width or rate is reported, and starts the recheck of R389; the guard follows the link (R667). -/
def execLinkRetrain (rate : Fin 6) (width : Fin 5) (s : State) : Host.Outcome State Fault Refusal :=
  .next (if s.hostDown ∨ s.nvme.perst ∨ !s.nvme.linkUp ∨ rate.val = 0 ∨ !([1, 2, 4].contains width.val) then s
    else
      let lower := decide (rate.val < s.get F.HST_LINK_rate ∨ width.val < s.get F.HST_LINK_width)
      let s := ((s.inc F.HST_RETRAIN_count).put F.HST_LINK_rate rate).put F.HST_LINK_width width
      (doIf lower (State.raise F.HST_ERR_lower) s).setGuard)

/-! ## The controller -/

/-- The controller may report ready (R457): with CC.CRIME from the end of the image load, otherwise with both namespaces
ready; the minimal loader has none to wait for. -/
def State.mayBeReady (s : State) : Bool :=
  s.boot.phase == 5 || (s.boot.phase == 4 && (s.nvme.crime || s.nvme.nsReady))

/-- CSTS.RDY sets as soon as it may. -/
def State.setReady (s : State) : State :=
  if s.nvme.en && !s.nvme.cfs && s.mayBeReady then s.onNvme (fun v => { v with rdy := true }) else s

/-- CONTROLLER_ENABLE (R454, R457, R483): CC as written with EN going to 1, and the 0's based size of the admin completion
queue; CC in the layout of NVMe 2.0. -/
def execControllerEnable (cc : Word) (acqs : BitVec 12) (s : State) : Host.Outcome State Fault Refusal :=
  .next (if !s.answers || s.nvme.en then s
    else
      let ok := natBits cc.toNat 4 3 == 6 && natBits cc.toNat 16 4 == 6 && natBits cc.toNat 20 4 == 4
      (s.onNvme (fun v => { v with
        en := true, cfs := !ok, rdy := false, crime := cc.getLsbD 24, adminSize := acqs.toNat + 1, adminUsed := 0, shst := 0 })).setReady)

/-- CONTROLLER_RESET (R484). -/
def execControllerReset (s : State) : Host.Outcome State Fault Refusal :=
  .next (if !s.answers || !s.nvme.en then s else s.controllerOff)

/-- SHUTDOWN_NOTIFICATION_NORMAL (R482, R616): the dirty data drains and the event recorder is flushed. -/
def execShutdownNotificationNormal (s : State) : Host.Outcome State Fault Refusal :=
  .next (if !s.answers || !s.nvme.en || s.nvme.shst != 0 then s
    else ((s.onNvme (fun v => { v with shst := 1 })).pump).askFlush)

/-- SHUTDOWN_NOTIFICATION_ABRUPT (R482). -/
def execShutdownNotificationAbrupt (s : State) : Host.Outcome State Fault Refusal :=
  .next (if !s.answers || !s.nvme.en then s else s.onNvme (fun v => { v with shst := 2 }))

/-- SHUTDOWN_COMPLETE (R482, R540): nothing is dirty and the flush has ended; a counters record is appended. -/
def execShutdownComplete (s : State) : Host.Outcome State Fault Refusal :=
  .next (if s.nvme.shst = 1 ∧ s.clean ∧ !(s.flag F.EVT_STAT_flush) ∧ !s.evt.waiting then
      (s.countersRecord).onNvme (fun v => { v with shst := 2 })
    else s)

end Sys2Proof.Machine
end

