-- ==== Sys2Proof/Machine/Image.lean ====
section
/-! DEFINITION. The Oluok image (13_startup_and_image.md R544 to R549, R552): its header, its checks, and what the loader
and the firmware read from it. An image is a function from its byte offsets. -/

namespace Sys2Proof.Machine
open Sys2Proof

/-- `n` bytes of an image from offset `o`. -/
def imgBytes (f : Nat → Byte) (o n : Nat) : List Byte := (List.range n).map (fun i => f (o + i))

/-- A number of `n` bytes of an image. -/
def imgNum (f : Nat → Byte) (o n : Nat) : Nat := ofLe (imgBytes f o n)

/-- `n` bytes from offset `o` are zero. -/
def imgZero (f : Nat → Byte) (o n : Nat) : Bool := (imgBytes f o n).all (fun b => b == 0)

/-- Header fields (R544). -/
def imgLength (f : Nat → Byte) : Nat := imgNum f 8 4
def imgVersion (f : Nat → Byte) : Nat := imgNum f 12 4
def imgKeySlot (f : Nat → Byte) : Nat := (f 18).toNat
def imgSerial (f : Nat → Byte) : Nat := if imgKeySlot f = 1 then (f 1092).toNat else 0

/-- The section table (R545): type, offset, length and digest of its nine entries. -/
def imgSections (f : Nat → Byte) : List (Nat × Nat × Nat × List Byte) :=
  (List.range 9).map (fun i =>
    let o := 64 + 64 * i
    ((f o).toNat, imgNum f (o + 4) 4, imgNum f (o + 8) 4, imgBytes f (o + 16) 48))

/-- A section of the image: its offset and length. -/
def imgSection (f : Nat → Byte) (t : Nat) : Nat × Nat :=
  (((imgSections f).find? (fun x => x.1 == t)).map (fun x => (x.2.1, x.2.2.1))).getD (0, 0)

/-- The bytes of a section. -/
def imgSectionBytes (f : Nat → Byte) (t : Nat) : List Byte := imgBytes f (imgSection f t).1 (imgSection f t).2

/-- The part-mask bit of a variant. -/
def Variant.partBit : Variant → Nat
  | .h16 => 0
  | .h08 => 1
  | .d02 => 2

/-- The header's fixed fields are as R544 lays down (check 3): an unknown key slot counts among them. -/
def headerOk (f : Nat → Byte) : Bool :=
  imgBytes f 0 4 == [0x4F, 0x4C, 0x55, 0x4B] && imgNum f 4 2 == 1 && decide (imgNum f 16 2 < 8) && imgNum f 6 2 == 9 && decide (4096 ≤ imgLength f) &&
    decide (imgLength f ≤ 25165824) && imgZero f 19 45 && imgZero f 640 448 && imgZero f 1696 2400 && decide (imgKeySlot f ≤ 1) &&
    (imgKeySlot f == 1 || imgZero f 1088 512)

/-- The section table is right (check 6): each type once, offsets aligned and within the length, no overlaps. -/
def tableOk (f : Nat → Byte) : Bool :=
  let ss := imgSections f
  (List.range 9).all (fun t => (ss.filter (fun x => x.1 == t + 1)).length == 1) &&
    ss.all (fun x => x.2.1 % 4096 == 0 && decide (4096 ≤ x.2.1) && decide (x.2.1 + x.2.2.1 ≤ imgLength f)) &&
    (List.range 9).all (fun i => (List.range i).all (fun j =>
      match ss[i]?, ss[j]? with
      | some a, some b => decide (a.2.1 + a.2.2.1 ≤ b.2.1 ∨ b.2.1 + b.2.2.1 ≤ a.2.1)
      | _, _ => true))

/-- Every section has its digest (check 9). -/
def digestsOk (f : Nat → Byte) : Bool :=
  (imgSections f).all (fun x => (Config.sha384 (imgBytes f x.2.1 x.2.2.1)).toNat == ofLe x.2.2.2)

/-- The public key that certifies the image, and whether the certificate is right (check 5). -/
def certOk (f : Nat → Byte) (bit : Nat) : Bool :=
  imgKeySlot f == 0 ||
    (imgBytes f 1088 4 == [0x43, 0x45, 0x52, 0x54] && (imgNum f 1094 2).testBit bit &&
      Config.ecdsa Config.rootKey (Config.sha384 (imgBytes f 1088 320)) (imgBytes f 1408 96))

/-- The image's signature is right (check 7). -/
def signatureOk (f : Nat → Byte) : Bool :=
  Config.ecdsa (if imgKeySlot f = 1 then imgBytes f 1128 97 else Config.rootKey) (Config.sha384 (imgBytes f 0 1600)) (imgBytes f 1600 96)

/-- The checks of R549 from 2 on, in their order: the reason of the first that fails, 0 where all pass. `read` says that the
flash was read (check 1). -/
def State.checkImage (s : State) (read : Bool) (f : Nat → Byte) : Nat :=
  let bit := s.variant.partBit
  if !read then 8
  else if imgBytes f 0 4 == [0xFF, 0xFF, 0xFF, 0xFF] then 9
  else if !(headerOk f) then 1
  else if !((imgNum f 16 2).testBit bit) then 2
  else if !(certOk f bit) then 3
  else if imgKeySlot f == 1 && s.fuses.testBit (imgSerial f) then 4
  else if !(signatureOk f) then 5
  else if !(tableOk f) then 6
  else if !(digestsOk f) then 7
  else 0

/-- Flash addresses of the image slots (R537). -/
def slotBase (slot : Nat) : Nat := if slot = 2 then 0x1800000 else 0

/-- The image in a slot. -/
def State.slotImage (s : State) (slot : Nat) : Nat → Byte := fun i => s.flashByte (slotBase slot + i)

/-- The address of the image's copy in the HBM (R401). -/
def imageAddr : Nat := Config.imageBase * 4096

/-- The copy of the running image in the HBM. -/
def State.hbmImage (s : State) : Nat → Byte := fun i => s.hbmByte (imageAddr + i)

/-- The image that the firmware download staged (R485): the bytes of its pieces. -/
def State.stagedImage (s : State) : Nat → Byte := fun i =>
  match s.fw.staged.find? (fun p => decide (p.1 ≤ i ∧ i < p.1 + p.2.length)) with
  | some p => byteAt p.2 (i - p.1)
  | none => 0

/-- The pieces staged leave no gap (R486): they cover all below their end, and the image's length. -/
def State.stagedWhole (s : State) : Bool :=
  let last := s.fw.staged.foldl (fun m p => max m (p.1 + p.2.length)) 0
  sumOf s.fw.staged (fun p => p.2.length) == last && decide (4096 ≤ last) && decide (imgLength s.stagedImage ≤ last)

/-- The checks of the staged image (R486, R549): 0 where they pass. -/
def State.checkStaged (s : State) : Nat := if s.stagedWhole then s.checkImage true s.stagedImage else 1

/-- Copies an image into the HBM firmware region (R532 step 7). -/
def State.copyImage (f : Nat → Byte) (s : State) : State :=
  let n := imgLength f
  { (s.setHbmBytes imageAddr (imgBytes f 0 n)) with boot := { s.boot with imgLen := n } }

/-- What the loader records of the running image (R554, R562): version, key, and the GEO digest. -/
def State.recordImage (f : Nat → Byte) (s : State) : State :=
  let dig := (((imgSections f).find? (fun x => x.1 == 6)).map (fun x => x.2.2.2)).getD []
  let be (o : Nat) : Nat := ofLe ((bytesAt dig o 4).reverse)
  let s := ((s.put F.CFG_IMGVER_ver (imgVersion f)).put F.CFG_KEY_slot (imgKeySlot f)).put F.CFG_KEY_serial (imgSerial f)
  (s.put F.CFG_GEODIG0_d (be 44)).put F.CFG_GEODIG1_d (be 40)

/-- Lane `n`'s part of the MCS section (R552): the load source in the HBM, and the expected digest. -/
def State.laneSource (f : Nat → Byte) (n : Fin 4) (s : State) : State :=
  let o := (imgSection f 2).1
  let d := imgNum f (o + 64 + 64 * n.val) 48
  let s := s.put (F.MCS_LDSRC_addr n) ((imageAddr + o + 320 + 81984 * n.val) / 64)
  doAll (List.range 12) (fun i s => s.setReg (R.MCS_DIGEXP n i) (BitVec.ofNat 32 (natBits d (32 * i) 32))) s

end Sys2Proof.Machine
end

