-- ==== Sys2Proof/Machine/Firmware.lean ====
section
/-! DEFINITION. Firmware download and activation (11_host_interface.md R485 to R488, 13_startup_and_image.md R551). -/

namespace Sys2Proof.Machine
open Sys2Proof

/-- FIRMWARE_IMAGE_DOWNLOAD (R485): pieces of whole 4 KiB units, none overlapping another, within 24 MiB. -/
def execFirmwareImageDownload (e : Sqe) (s : State) : Host.Outcome State Fault Refusal :=
  .next (s.admin false (fun s =>
    let dw := e.dw10.toNat + 1
    let off := 4 * e.dw11.toNat
    let len := 4 * dw
    if dw % 1024 ≠ 0 ∨ e.dw11.toNat % 1024 ≠ 0 ∨ 25165824 < off + len ∨ 2097152 < len then s.adminDone e.cid CplRec.field
    else if s.fw.staged.any (fun p => decide (p.1 < off + len ∧ off < p.1 + p.2.length)) then s.adminDone e.cid (CplRec.bad 1 0x14)
    else { s with fw := { s.fw with staged := s.fw.staged ++ [(off, bytesAt e.data 0 len)] } }.adminDone e.cid CplRec.ok) e)

/-- The slot that a Firmware Commit names (R486): 0 names the one that is not running. -/
def State.commitSlot (s : State) (e : Sqe) : Nat :=
  let k := e.dw10.toNat % 8
  if k = 0 then (if s.get F.CFG_BOOT_src = 1 then 2 else 1) else k

/-- A Firmware Commit of action `ca` (R462, R486): one at a time, and a slot number above 2 fails. -/
def State.fwCommitCmd (ca : Nat) (f : Nat → State → State) (e : Sqe) (s : State) : State :=
  if s.fw.commit.isSome then s
  else s.admin false (fun s =>
    if natBits e.dw10.toNat 3 3 ≠ ca then s.adminDone e.cid CplRec.field
    else if 2 < e.dw10.toNat % 8 then s.adminDone e.cid (CplRec.bad 1 6)
    else f (s.commitSlot e) s) e

/-- The staged image is checked (R486, R551): CFG_BOOT.rsnh records the reason, and a failure the configuration cause. -/
def State.vetStaged (s : State) : Bool × State :=
  let r := s.checkStaged
  let s := s.put F.CFG_BOOT_rsnh r
  (r == 0, if r = 0 then s else s.raiseAt F.ALR_CFGEV_e 3)

/-- The slot is erased and programmed with the staged image. -/
def State.programSlot (slot : Nat) (s : State) : State :=
  let f := s.stagedImage
  (s.eraseFlash (slotBase slot) 0x1800000).program (slotBase slot) (imgBytes f 0 (imgLength f))

/-- FIRMWARE_COMMIT_000 (R486, R487). -/
def execFirmwareCommit000 (e : Sqe) (s : State) : Host.Outcome State Fault Refusal :=
  .next (s.fwCommitCmd 0 (fun slot s =>
    let (ok, s) := s.vetStaged
    if ok then (s.programSlot slot).adminDone e.cid CplRec.ok else s.adminDone e.cid (CplRec.bad 1 7)) e)

/-- FIRMWARE_COMMIT_001 (R487): the slot is active at the next cold reset. -/
def execFirmwareCommit001 (e : Sqe) (s : State) : Host.Outcome State Fault Refusal :=
  .next (s.fwCommitCmd 1 (fun slot s =>
    let (ok, s) := s.vetStaged
    if ok then ((s.programSlot slot).setBoot slot (imgVersion s.stagedImage)).adminDone e.cid (CplRec.bad 1 0x0B)
    else s.adminDone e.cid (CplRec.bad 1 7)) e)

/-- FIRMWARE_COMMIT_010 (R487): the image that the slot holds is active at the next cold reset. -/
def execFirmwareCommit010 (e : Sqe) (s : State) : Host.Outcome State Fault Refusal :=
  .next (s.fwCommitCmd 2 (fun slot s =>
    if s.checkImage true (s.slotImage slot) = 0 then
      (s.setBoot slot (imgVersion (s.slotImage slot))).adminDone e.cid (CplRec.bad 1 0x0B)
    else s.adminDone e.cid (CplRec.bad 1 7)) e)

/-- FIRMWARE_COMMIT_011 (R487, R488 steps 1 and 2, R551): refused while a contract is bound. Under the minimal loader the
staged image is run from the HBM, which IMAGE_LOAD_DONE completes. -/
def execFirmwareCommit011 (e : Sqe) (s : State) : Host.Outcome State Fault Refusal :=
  .next (s.fwCommitCmd 3 (fun slot s =>
    if s.bound then s.adminDone e.cid (CplRec.bad 7 0xC3)
    else
      let (ok, s) := s.vetStaged
      if !ok then s.adminDone e.cid (CplRec.bad 1 7)
      else if s.boot.phase = 5 then
        { s with fw := { s.fw with commit := some { action := 3, slot := 0, cid := e.cid.toNat, step := 5 } } }
      else { s with fw := { s.fw with commit := some { action := 3, slot := slot, cid := e.cid.toNat, step := 2 } } }) e)

/-- The Firmware Commit in progress completes; one whose queue a reset took has no completion. -/
def State.commitDone (r : CplRec) (s : State) : State :=
  match s.fw.commit with
  | none => s
  | some c =>
    let s := { s with fw := { s.fw with commit := none } }
    if c.cid = 65536 then s else s.adminDone (BitVec.ofNat 16 c.cid) r

/-- FW_SLOT_PROGRAMMED (R488 steps 2 to 4, R498): the notice is posted, fetching stops, and the lanes are to stop. An image
whose IDS or PIN section differs completes as action 001b. -/
def execFwSlotProgrammed (s : State) : Host.Outcome State Fault Refusal :=
  .next (match s.fw.commit with
    | none => s
    | some c =>
      if c.step ≠ 2 ∨ s.draining then s
      else
        let f := s.stagedImage
        let s := (s.programSlot c.slot).setBoot c.slot (imgVersion f)
        if imgSectionBytes f 8 ≠ imgSectionBytes s.hbmImage 8 ∨ imgSectionBytes f 9 ≠ imgSectionBytes s.hbmImage 9 then
          s.commitDone (CplRec.bad 1 0x0B)
        else
          let s := { s with fw := { s.fw with commit := some { c with step := 3 } } }
          let s := (s.aen 2 1 3).onNvme (fun v => { v with pp := true })
          doAll (allLanes.filter (fun n => s.executing n)) (fun n s => s.put (F.MCS_STAT_stopreq n) 1) s)

/-- A lane's control store is loaded again, and the lane starts with match 1 (R488 step 6). -/
def State.reloadLane (f : Nat → Byte) (n : Fin 4) (s : State) : State :=
  if !s.laneUp n then s.laneSource f n
  else
    let s := (s.laneSource f n).loadStore n
    if s.flag (F.MCS_LDCTL_match n) && !s.slice n && decide (s.nvme.feats.ps ≤ 1) then s.mcsStart n else s

/-- FW_ACTIVATION_QUIESCED (R488 steps 5 to 7): the commands in flight have completed and the lanes have stopped. The image
in the slot is checked; if it fails, the image that ran before goes on. -/
def execFwActivationQuiesced (s : State) : Host.Outcome State Fault Refusal :=
  .next (match s.fw.commit with
    | none => s
    | some c =>
      if c.step ≠ 3 ∨ s.draining ∨ !s.buf.ctxs.isEmpty ∨ s.ctr.est.isSome ∨ allLanes.any s.executing then s
      else
        let lanes : List (Fin 4) := allLanes.filter (fun (n : Fin 4) => s.fitted n)
        if s.checkImage true (s.slotImage c.slot) = 0 then
          let f := s.slotImage c.slot
          let s := ((s.copyImage f).recordImage f).put F.CFG_BOOT_src c.slot
          let s := (doAll lanes (State.reloadLane f) s).onNvme (fun v => { v with pp := false })
          (s.commitDone CplRec.ok).pump
        else
          let f := s.hbmImage
          let s := (s.raiseAt F.ALR_CFGEV_e c.slot).onNvme (fun v => { v with pp := false })
          ((doAll lanes (State.reloadLane f) s).commitDone (CplRec.bad 1 7)).pump)

end Sys2Proof.Machine
end

