-- ==== Sys2Proof/Machine/Spindle.lean ====
section
/-! DEFINITION. The spindle drive's commands and events (07_spindle.md R286 to R322). -/

namespace Sys2Proof.Machine
open Sys2Proof

/-- A write of SPN_GO (R317, R318): a shadow curve that breaks R312, or has no breakpoints while the curve is the
source, is not scheduled, nor is a GO while one is pending (R17). -/
def State.writeSpnGo (p : Path) (v : Word) (s : State) : State :=
  s.gated p R.SPN_GO v
    (v.getLsbD 0 && (s.flag F.SPN_GO_pending || !s.curveGood || (s.get F.SPN_CRVHDR_nbp == 0 && s.get F.SPN_CTL_src == 1)))
    (fun s => if v.getLsbD 0 then s.put F.SPN_GO_pending 1 else s)

/-- SPN_GO (R318). -/
def execSpnGo (p : Path) (v : Word) (s : State) : Host.Outcome State Fault Refusal := .next (s.writeSpnGo p v)

/-- A write of SPN_CTL breaks a rule: a reserved source (R665), the curve without breakpoints (R317), or a change of
arm that R296 does not accept. -/
def State.spnCtlBad (s : State) (v : Word) : Bool :=
  let src := F.SPN_CTL_src.of v
  let arm := v.getLsbD 31
  src == 3 || (src == 1 && s.getA F.SPN_CRVHDR_nbp == 0) ||
    (arm && !(s.flag F.SPN_CTL_arm) &&
      (s.get F.SPN_MOTOR_pp == 0 || s.get F.SPN_MOTOR_res == 0 || s.get F.SPN_MOTOR_ind == 0)) ||
    (!arm && s.flag F.SPN_CTL_arm && s.spnState != 0 && s.spnState != 9)

/-- A write of SPN_CTL (R296, R309, R319): a source that begins to ask for a speed requests a start, run going to 0
under the curve commands the stop, and a change of source in RUN gives the ramp the new source's target. -/
def State.writeSpnCtl (p : Path) (v : Word) (s : State) : State :=
  s.gated p R.SPN_CTL v (s.spnCtlBad v) (fun s =>
    let want := s.wantsSpin && s.flag F.SPN_CTL_arm
    let run := s.flag F.SPN_CTL_run
    let src := s.get F.SPN_CTL_src
    let s := s.take R.SPN_CTL v
    if run && !(s.flag F.SPN_CTL_run) && s.get F.SPN_CTL_src == 1 then s.stopSpin
    else if s.get F.SPN_CTL_src != src && s.get F.SPN_CTL_src == 2 && s.flag F.SPN_SPDV_stop then s.stopSpin
    else if s.wantsSpin && !want then s.startSpin
    else if s.get F.SPN_CTL_src != src && s.spnState == 6 && s.spn.stop == 0 then s.sourceTarget
    else s)

/-- SPN_CTL_ARM (R296). -/
def execSpnCtlArm (p : Path) (v : Word) (s : State) : Host.Outcome State Fault Refusal := .next (s.writeSpnCtl p v)

/-- SPN_CTL_RUN (R296, R309). -/
def execSpnCtlRun (p : Path) (v : Word) (s : State) : Host.Outcome State Fault Refusal := .next (s.writeSpnCtl p v)

/-- SPN_CTL_SRC (R319). -/
def execSpnCtlSrc (p : Path) (v : Word) (s : State) : Host.Outcome State Fault Refusal := .next (s.writeSpnCtl p v)

/-! ## The PWM period -/

/-- The observer's part of a period (R292 to R294, R278). -/
def State.observe (m : PwmIn) (s : State) : State :=
  let ok := decide (s.get F.SPN_OBS_vmin ≤ m.speed.natAbs) && m.near
  let good := if ok then min 64 (s.spn.good + 1) else 0
  let fail := if ok then 0 else min 64 (s.spn.fail + 1)
  let lock := if good = 64 then true else if fail = 64 then false else s.flag F.SPN_STAT_obslock
  let s := s.onSpn (fun x => { x with good := good, fail := fail, angle := m.angle.toNat })
  let s := (s.put F.SPN_STAT_obslock (if lock then 1 else 0)).put F.SPN_STAT_rev (if m.speed < 0 then 1 else 0)
  (s.put F.SPN_STAT_obsrpm (min 0xFFFF m.speed.natAbs)).observerSpeed

/-- The chopper is faulty (R353). -/
def State.chopFaulty (s : State) : Bool := s.hrv.chopOpen || s.hrv.chopShort

/-- The low-side interval of a phase of duty `d` (R288 to R290), by the dead time and the sample window in 2.5 ns of a period of 10,000,
and the volt-seconds that it loses. An interval or a high-side pulse shorter than twice the dead time is not generated; one whose edges
would fall inside the sample window begins at the sample instant; any other is centred on it. -/
def lowSide (dead win : Nat) (d : Int) : (Nat × Nat) × Int :=
  let d := (clampI 0 10000 d).toNat
  let len := 10000 - d
  if d < 2 * dead then ((0, 10000), d)
  else if len < 2 * dead then ((0, 0), (d : Int) - 10000)
  else if len < 2 * (win + dead) then ((0, len), 0)
  else ((10000 - len / 2, len), 0)

/-- The phases take the duties of the current control, which brings the direct current to zero and the quadrature current to its
reference with the gains SPN_CURK (R305), and with them what the last period owes (R290). -/
def State.phases (cur : List Int) (iq : Int) (s : State) : State :=
  let m := Config.park s.spn.angle cur
  let kp (e : Int) : Int := gain (s.get F.SPN_CURK_kp * e) 4096
  let ki (e : Int) : Int := gain (s.get F.SPN_CURK_ki * e) 65536
  let pi := (s.spn.pi.1 + ki (-m.1), s.spn.pi.2 + ki (iq - m.2))
  let v := (kp (-m.1) + pi.1, kp (iq - m.2) + pi.2)
  let want := (Config.phaseDuty s.spn.angle v).zipIdx.map (fun d => 2 * d.1 + s.spn.owed.getD d.2 0)
  let out := want.map (lowSide (s.get F.SPN_PWMCFG_dead) (s.get F.SPN_PWMCFG_win))
  s.onSpn (fun x => { x with iq := iq, pi := pi, duty := want, low := out.map (·.1), owed := out.map (·.2) })

/-- A braking current as HRV limits it while the switch is closed, so that the bus stays below `VIN_SENSE` plus half of HRV_ISOCFG.rev
(R328). -/
def State.busLimited (s : State) (mbus : Nat) (iq : Int) : Int :=
  if s.flag F.HRV_STAT_iso then max iq (-(Config.regenBound (s.get F.HRV_VSNS_vin) mbus (s.get F.HRV_ISOCFG_rev) : Nat)) else iq

/-- The gates of the period (R299, R305, R351, R354 to R356). -/
def State.periodGates (m : PwmIn) (s : State) : State :=
  let st := s.spnState
  let double := s.diapause && s.get F.HRV_DIAP_cause == 6
  let zv := if double || decide (s.get F.HRV_BUS_zvmax * 100 < m.mbus) then true else if m.mbus < 15000 then false else s.spn.zv
  let s := s.put F.HRV_MSNS_mbus (m.mbus / 10)
  let s := s.onSpn (fun x => { x with zv := zv, low := [] })
  let braking := st == 6 || st == 7 || st == 8 || st == 2
  let zero := zv && st != 0 && st != 1 && st != 9
  let throttled := s.chopFaulty && decide (15000 < m.mbus) && braking
  let s := doIf (throttled && !(s.flag F.HRV_ERR_throttle)) (State.raise F.HRV_ERR_throttle) s
  let above := m.cur.any (fun c => decide (s.get F.SPN_BRK_ilim < c.natAbs))
  if zero || throttled || st == 2 then
    s.onSpn (fun x => { x with gates := if above then .off else .zero })
  else if st = 6 ∨ st = 7 then
        (s.onSpn (fun x => { x with gates := .closed })).phases m.cur (s.busLimited m.mbus s.spn.iq)
  else if st = 8 then
    let iq : Int := -(min (s.get F.SPN_ILIM_regen) (Config.rectRef m.mbus (s.get F.HRV_BUS_hset)) : Nat)
    (s.onSpn (fun x => { x with gates := .rectify })).phases m.cur iq
  else s.onSpn (fun x => { x with gates := gatesOf st })

/-- Open-loop rotation, hand-over and failure in GO (R302, R303). -/
def State.openLoop (m : PwmIn) (s : State) : State :=
  let ol := s.spn.ol + s.get F.SPN_OPEN_acc
  let s := s.onSpn (fun x => { x with ol := ol })
  let lock := s.flag F.SPN_STAT_obslock
  if lock && decide ((s.get F.SPN_OPEN_hand : Int) ≤ m.speed) && decide (0 < m.speed) then
    (s.inc F.SPN_STARTCNT_rest).enterRun
  else if 6000 * s.get F.SPN_OPEN_hand ≤ ol ∨ (lock && m.apart) ∨ m.speed < 0 then s.attemptFail
  else s

/-- PWM_PERIOD (R287): one period of the observer, current control, throttling and the start. -/
def execPwmPeriod (m : PwmIn) (s : State) : Host.Outcome State Fault Refusal :=
  .next (if !(s.runs 5) then s else
    let s := s.onSpn (fun x => { x with ocRow := if x.oc then x.ocRow else 0, oc := false })
    let s := s.observe m
    let s :=
      if s.spnState = 5 then s.openLoop m
      else if (s.spnState = 6 ∨ s.spnState = 7) ∧ !(s.flag F.SPN_STAT_obslock) then s.loseControl F.SPN_ERR_obslost
      else s
    s.periodGates m)

/-- PHASE_OVERCURRENT (R291, R306): the gates are off for the rest of the period; the sixteenth period in a row is an
overcurrent fault. -/
def execPhaseOvercurrent (s : State) : Host.Outcome State Fault Refusal :=
  .next (if s.spn.oc || !(s.runs 5) then s else
    let s := s.onSpn (fun x => { x with gates := .off, oc := true, ocRow := x.ocRow + 1 })
    if s.spn.ocRow = 16 then
      if s.spnState = 6 ∨ s.spnState = 7 then s.loseControl F.SPN_ERR_ocur else s.raise F.SPN_ERR_ocur
    else s)

/-! ## The spindle tick -/

/-- The reading of `SPDCMD` (R320): none if invalid, else stop or a speed in rpm. -/
def State.readSpd (s : State) (m : SpdIn) : Option (Option Nat) :=
  let lo := s.get F.SPN_SPDLIM_min
  let hi := s.get F.SPN_SPDLIM_max
  let r := m.raw.toNat
  let frac (a b : Nat) : Nat := if r ≤ a then lo else if b ≤ r then hi else lo + quot ((r - a) * (hi - lo)) (b - a)
  match s.get F.SPN_SPDCFG_mode with
  | 0 => if 1750 < r then none else if r < 150 then some none else some (some (frac 200 1600))
  | 1 =>
    if m.low then some none else if m.high || m.out || decide (950 < r) then none
    else if r < 50 then some none else some (some (frac 100 900))
  | _ =>
    if 16000 < r then none else if r < 10 then some none
    else some (some (max lo (min hi (r * s.get F.SPN_SPDCFG_fscale))))

/-- Shows a reading in SPN_SPDV; one that turns invalid sets SPN_ERR.spdcmd (R321). -/
def State.takeSpd (m : SpdIn) (s : State) : State :=
  let was := s.flag F.SPN_SPDV_valid
  let s := s.put F.SPN_SPDV_raw m.raw.toNat
  match s.readSpd m with
  | none =>
    let first := was || !(s.flag F.SPN_ERR_spdcmd)
    let s := (s.put F.SPN_SPDV_valid 0).put F.SPN_SPDV_stop 1
    doIf first (State.raise F.SPN_ERR_spdcmd) s
  | some none => ((s.put F.SPN_SPDV_valid 1).put F.SPN_SPDV_stop 1).put F.SPN_SPDV_rpm 0
  | some (some v) => ((s.put F.SPN_SPDV_valid 1).put F.SPN_SPDV_stop 0).put F.SPN_SPDV_rpm v

/-- The shadow curve becomes active (R318): cur is clamped to the new number of points less one. -/
def State.curveActivate (s : State) : State :=
  if s.flag F.SPN_GO_pending then
    let s := (doAll curveRegs State.activate s).put F.SPN_GO_pending 0
    s.put F.SPN_TGT_curve (min (s.get F.SPN_TGT_curve) (s.getA F.SPN_CRVHDR_npts - 1))
  else s

/-- The speed source's part of a tick: starts and stops that `SPDCMD` commands, a start from OFF while the source asks
for a speed, the curve's evaluation, and the dead band (R296, R304, R309, R314, R321). -/
def State.sourceTick (wasPin : Bool) (s : State) : State :=
  let quiet := decide (s.hrvState < 2) && !s.diapause
  let pinStops := s.get F.SPN_CTL_src == 2 && s.flag F.SPN_SPDV_stop
  let s :=
    if pinStops then s.stopSpin
    else if s.pinRuns && !wasPin then s.startSpin
    else if s.wantsSpin && s.spnState == 0 && quiet then s.startSpin
    else s
  if s.spn.stop ≠ 0 then s
  else if s.curveRuns then s.evalCurve
  else if s.pinRuns then
    if apart (s.get F.SPN_SPDV_rpm) (s.get F.SPN_TGT_rpm) < s.get F.SPN_SPDCFG_dead then s
    else s.setTarget (s.get F.SPN_SPDV_rpm) 0
  else s

/-- One tick of the ramp (R279), for a set-point and a target in 1/10,000 rpm, a slope in `n`-ths of `rate`, and a rate in
rpm/s. The slope changes by at most one part a tick: it grows while the parts that it must then lose again leave the target ahead; a
slope away from the target, or too great to end at it, is lost first. -/
def rampTick (now goal : Nat) (slope : Int) (rate n : Nat) : Nat × Int :=
  let up := decide (now < goal)
  let away := apart now goal
  let move (x : Int) : Nat := ((now : Int) + (if up then x else -x)).toNat
  if n = 0 then (move (min rate away : Nat), 0)
  else
    let step (k : Nat) : Nat := min rate (max 1 (quot (rate * k) n))
    let room (k : Nat) : Bool := decide (k ≤ n ∧ rate * k * (k + 1) ≤ 2 * n * away)
    let k := clampI (-(n : Int)) n (if up then slope else -slope)
    let signed (k : Int) : Int := if up then k else -k
    if k < 0 then (move (-(step (k + 1).natAbs : Int) * (if k = -1 then 0 else 1)), signed (k + 1))
    else
      let m := k.toNat
      if 2 * n * (away + m) < rate * m * (m - 1) then (move (step (m - 1)), signed (m - 1 : Nat))
      else
        let m := if room (m + 1) then m + 1 else if room m then m else m - 1
        if m = 0 ∨ away ≤ step m then (goal, 0) else (move (step m), signed m)

/-- One tick of the set-point ramp (R279, R281), of which SCA_RAMPCFG.round has a hundred for each of its units; the ramp
stands still at the target. -/
def State.rampStep (s : State) : State :=
  let goal := s.get F.SPN_TGT_rpm * 10000
  let now := s.spn.spFine
  let st := s.spnState
  if st = 8 then
    (((s.onSpn (fun x => { x with spFine := s.rpm * 10000 })).put F.SCA_RAMPSP_sp s.rpm).put F.SCA_RAMPSP_active 0)
  else if st ≠ 6 ∧ st ≠ 7 then s
  else if now = goal ∧ s.servo.slope = 0 then s.put F.SCA_RAMPSP_active 0
  else
    let r := rampTick now goal s.servo.slope (s.get F.SCA_RAMPCFG_rate) (100 * s.get F.SCA_RAMPCFG_round)
    let s := { s.onSpn (fun x => { x with spFine := r.1 }) with servo := { s.servo with slope := r.2 } }
    (s.put F.SCA_RAMPSP_sp (quot r.1 10000)).put F.SCA_RAMPSP_active 1

/-- The spindle loops (R249, R251, R305): the torque demand and the current reference that SPN takes from it. -/
def State.spindleLoops (s : State) : State :=
  let mine := (List.range 16).filter (fun n => s.loopOn n && s.flag F.SCA_CTL_run && s.getA (F.SCA_LCFG_src n) == 4)
  let s := doAll mine (fun n s => (s.runLoop n).afterLoop n) s
  let out := (List.range 16).filter (fun n => s.loopOn n && s.getA (F.SCA_LCFG_dst n) == 3)
  let d := clampI (-65536) 65536 (out.foldl (fun t n => t + s.loopValue n) 0)
  let s := s.setReg R.SCA_SDM (BitVec.ofInt 32 d)
  if s.spnState = 6 ∨ s.spnState = 7 then
    let q := gain (d * s.get F.SPN_ILIM_run) 65536
    s.onSpn (fun x => { x with iq := clampI (-(s.get F.SPN_ILIM_regen : Int)) (s.get F.SPN_ILIM_run) q })
  else s

/-- A test pulse of the chopper (R353). -/
def State.chopPulse (s : State) : State := { s with hrv := { s.hrv with chopTest := true, chop := !s.hrv.chopShort } }

/-- The lock of a speed point (R280, R297, R311); the firmware applies a test pulse after every spin-up (R353; at start-up, as R556
lays down). -/
def State.lockStep (s : State) : State :=
  let at_ := s.spn.spFine == s.get F.SPN_TGT_rpm * 10000
  let near := decide (apart s.rpm (s.get F.SPN_TGT_rpm) ≤ s.get F.SCA_RAMPLK_band)
  let n := if near then min 64 (s.servo.lockTicks + 1) else 0
  let s := { s with servo := { s.servo with lockTicks := n } }
  let lock := if at_ && n == 64 then 1 else 0
  let s := (s.put F.SCA_RAMPSP_locked lock).put F.SPN_STAT_locked lock
  if lock = 1 ∧ s.spnState = 6 then
    (if s.flag F.SPN_STAT_upok || decide (s.boot.ready < 3) || s.hrv.chopTest then s else s.chopPulse).put F.SPN_STAT_upok 1
  else s

/-- SPINDLE_TICK (R249): the staged curve, `SPDCMD`, the curve, the ramp, the spindle loops, the lock, the lowest speed
with heads loaded, the end of STOP, and automatic set installation. -/
def execSpindleTick (m : SpdIn) (s : State) : Host.Outcome State Fault Refusal :=
  .next (if !(s.runs 5) then s else
    let wasPin := s.pinRuns
    let s := ((s.curveActivate.takeSpd m).sourceTick wasPin).rampStep
    let s := s.spindleLoops.lockStep.flyCheck
    let s := if s.spnState = 7 ∧ s.rpm < s.get F.SPN_FLY_zvrpm then
        (s.onSpn (fun x => { x with stop := 4, startPend := false })).spnTo 2
      else s
    s.autoset)

/-! ## Events -/

/-- TURN_ON_WINDOW_END (R315): after the hold that follows upok. -/
def execTurnOnWindowEnd (s : State) : Host.Outcome State Fault Refusal :=
  .next (if s.flag F.SPN_STAT_upok then s.onSpn (fun x => { x with window := false }) else s)

/-- LOWER_TARGET_RELEASE (R310, R338): the dirty data fits the budget of the waiting lower speed, or there is none. -/
def execLowerTargetRelease (s : State) : Host.Outcome State Fault Refusal :=
  .next (match s.spn.wait with
    | some (rpm, pt) =>
      if s.get F.HRV_DIRTY_kib = 0 ∨ (s.spn.tbFresh ∧ s.get F.HRV_DIRTY_kib < s.get F.HRV_TBUDGET_kib) then
        s.passTarget rpm pt
      else s
    | none => s)

/-- SENSE_END (R298): the rotor is caught into RUN, or braked. -/
def execSenseEnd (s : State) : Host.Outcome State Fault Refusal :=
  .next (if s.spnState ≠ 1 then s
    else if s.flag F.SPN_STAT_obslock && !(s.flag F.SPN_STAT_rev) &&
        decide (s.get F.SPN_CATCH_rpm ≤ s.get F.SPN_STAT_obsrpm) then
      let s := ((s.put F.SPN_STAT_caught 1).inc F.SPN_STARTCNT_catch).enterRun
      if s.wantsSpin then s else s.stopSpin
    else s.spnTo 2)

/-- STANDSTILL (R299, R295): PROBE with a start pending, otherwise OFF; after a double fault the zero vector ends with it (R356). -/
def execStandstill (s : State) : Host.Outcome State Fault Refusal :=
  .next (if s.spnState ≠ 2 then
      (if s.diapause ∧ s.get F.HRV_DIAP_cause = 6 ∧ 6 ≤ s.spnState ∧ s.spnState ≤ 8 then s.spnTo 0 else s)
    else if s.spn.startPend then
      (s.onSpn (fun x => { x with pw := quot (s.get F.SPN_ALIGN_pw * 3 ^ x.probes) (2 ^ x.probes) })).spnTo 3
    else (s.onSpn (fun x => { x with stop := 0, wait := none })).spnTo 0)

/-- The index of the greatest element of a list; the first of equals. -/
def argMax (l : List Nat) : Nat :=
  (List.range l.length).foldl (fun b i => if l.getD b 0 < l.getD i 0 then i else b) 0

/-- The first vector forward from `v` that no earlier attempt used (R301). -/
def nextVec (used : List Nat) (v : Nat) : Nat :=
  (((List.range 6).map (fun k => (v + k) % 6)).find? (fun x => !used.contains x)).getD v

/-- PROBE_END (R300, R301, R303): the six peak currents; a conclusive probe aligns. -/
def execProbeEnd (peaks : List Nat) (s : State) : Host.Outcome State Fault Refusal :=
  .next (if s.spnState ≠ 3 then s
    else
      let m := argMax (peaks.take 6)
      let top := peaks.getD m 0
      let opp := peaks.getD ((m + 3) % 6) 0
      if opp < top ∧ opp * (100 + s.get F.SPN_ALIGN_pdiff) ≤ top * 100 then
        let v := nextVec s.spn.used m
        (s.onSpn (fun x => { x with vec := v, used := x.used ++ [v] })).spnTo 4
      else (s.onSpn (fun x => { x with probes := x.probes + 1 })).attemptFail)

/-- ALIGN_END (R301, R302). -/
def execAlignEnd (s : State) : Host.Outcome State Fault Refusal :=
  .next (if s.spnState ≠ 4 then s else (s.onSpn (fun x => { x with ol := 0 })).spnTo 5)

/-- STOP_DRAIN_DONE (R309): step 1 of the stop ends when both dirty counts are zero. -/
def execStopDrainDone (s : State) : Host.Outcome State Fault Refusal :=
  .next (if s.spn.stop = 1 ∧ s.clean then s.stopUnload else s)

end Sys2Proof.Machine
end

