-- ==== Sys2Proof/Machine/Harvest.lean ====
section
/-! DEFINITION. The harvest path's commands and events (08_harvest.md R324 to R364): the closing ramp, the budget, triggers,
the chopper, the end of a harvest, and diapause. -/

namespace Sys2Proof.Machine
open Sys2Proof

/-! ## The isolation switch -/

/-- SUPPLY_QUALIFIED (R326, R532 step 2): the closing ramp starts. -/
def execSupplyQualified (s : State) : Host.Outcome State Fault Refusal :=
  .next (if s.boot.phase ≠ 0 ∨ s.hrvState > 1 ∨ (s.diapause ∧ s.get F.HRV_DIAP_cause = 6) then s
    else
      let s := (s.put F.HRV_STAT_ramp 1).onHrv (fun h => { h with rampUs := s.us })
      { s with boot := { s.boot with phase := 1 } })

/-- ISO_RAMP_STEP (R326): `VIN_SENSE` and `MBUS_SENSE` in mV; the reference rises at HRV_ISOCFG.slew from the ramp's start.
The end of the ramp enables `REGEN_A` and `REGEN_B`. -/
def execIsoRampStep (vin mbus : Nat) (s : State) : Host.Outcome State Fault Refusal :=
  .next (if s.flag F.HRV_STAT_ramp then
      let s := (s.put F.HRV_VSNS_vin (vin / 10)).put F.HRV_MSNS_mbus (mbus / 10)
      if vin ≤ mbus + 300 ∧ mbus ≤ vin + 300 then
        let s := ((s.setIso true).put F.HRV_STAT_ramp 0).onHrv (fun h => { h with ramped := true, regen := true })
        { s with boot := { s.boot with phase := 2 } }
      else s.setIso (decide (mbus * 10 < s.get F.HRV_ISOCFG_slew * (s.us - s.hrv.rampUs)))
    else s)

/-- RAMP_TIMEOUT (R326). -/
def execRampTimeout (s : State) : Host.Outcome State Fault Refusal :=
  .next (if s.flag F.HRV_STAT_ramp then ((s.setIso false).put F.HRV_STAT_ramp 0).raise F.HRV_ERR_ramp else s)

/-! ## Triggers -/

/-- CONN_DET_BREAK (R325, R329). -/
def execConnDetBreak (s : State) : Host.Outcome State Fault Refusal := .next ((s.setIso false).trigger 0)

/-- REVERSE_CURRENT (R325, R328, R329). -/
def execReverseCurrent (s : State) : Host.Outcome State Fault Refusal :=
  .next (((s.setIso false).raise F.HRV_ERR_rev).trigger 1)

/-- SUPPLY_LOSS (R329). -/
def execSupplyLoss (s : State) : Host.Outcome State Fault Refusal := .next (s.trigger 2)

/-- A write of HRV_CMD (R329, R353): a forced trigger in factory test mode only, and no test pulse in a harvest. -/
def State.writeHrvCmd (p : Path) (v : Word) (s : State) : State :=
  let force := v.getLsbD 31
  let test := v.getLsbD 30
  s.gated p R.HRV_CMD v ((force && !s.factory) || (test && s.harvesting)) (fun s =>
    let s := doIf (test && !s.hrv.chopTest) (fun s => s.onHrv (fun h => { h with chopTest := true, chop := !h.chopShort })) s
    doIf force (State.trigger 3) s)

/-- HRV_FORCE (R329). -/
def execHrvForce (p : Path) (v : Word) (s : State) : Host.Outcome State Fault Refusal := .next (s.writeHrvCmd p v)

/-! ## The budget -/

/-- The parameters staged under HRV_GO (R337). -/
def hrvStaged : List Nat := [R.HRV_PAR0, R.HRV_PAR1, R.HRV_PAR2, R.HRV_INERTIA, R.HRV_CRATE] ++ (List.range 8).map R.HRV_WIND

/-- A computation of the budget (R334 to R338): the staged parameters take effect first. -/
def State.computeBudget (s : State) : State :=
  let s := if s.flag F.HRV_GO_pending then (doAll hrvStaged State.activate s).put F.HRV_GO_pending 0 else s
  let s := doIf s.parBad (State.raise F.HRV_ERR_par) s
  let n := s.budgetLanes
  let s := ((s.put F.HRV_LANES_mask (s.counted.foldl (fun m k => m + 2 ^ k) 0)).put F.HRV_LANES_n n).put F.HRV_STAT_rpm s.budgetRpm
  let s := s.setBudget (s.budgetAt n s.budgetRpm)
  let s := match s.spn.wait with
    | some (rpm, _) => (s.put F.HRV_TBUDGET_kib (s.budgetAt n (min s.rpm rpm))).onSpn (fun x => { x with tbFresh := true })
    | none => s
  s.pump

/-- HRV_BUDGET_COMPUTE (R337, R338): at an index of the reference lane, after 8.33 ms without one, or when a lane stops being
counted. With HRV_CTL.arm at 0 nothing is computed, and the budget is zero. -/
def execHrvBudgetCompute (s : State) : Host.Outcome State Fault Refusal :=
  .next (if s.flag F.HRV_CTL_arm then s.computeBudget else s.setBudget 0)

/-- A write of HRV_CTL (R335, R365): arm cannot be set in diapause. -/
def State.writeHrvCtl (p : Path) (v : Word) (s : State) : State :=
  s.gated p R.HRV_CTL v (v.getLsbD 0 && s.diapause) (fun s =>
    let s := s.take R.HRV_CTL v
    if s.harvesting ∨ s.hrvState = 7 then s
    else if s.flag F.HRV_CTL_arm then (if s.hrvState = 0 then s.put F.HRV_STAT_state 1 else s)
    else (s.put F.HRV_STAT_state 0).setBudget 0)

/-- HRV_CTL_ARM (R335). -/
def execHrvCtlArm (p : Path) (v : Word) (s : State) : Host.Outcome State Fault Refusal := .next (s.writeHrvCtl p v)

/-- A write of HRV_GO (R337, R17). -/
def State.writeHrvGo (p : Path) (v : Word) (s : State) : State :=
  s.gated p R.HRV_GO v (v.getLsbD 0 && s.flag F.HRV_GO_pending) (fun s => if v.getLsbD 0 then s.put F.HRV_GO_pending 1 else s)

/-- HRV_GO (R337). -/
def execHrvGo (p : Path) (v : Word) (s : State) : Host.Outcome State Fault Refusal := .next (s.writeHrvGo p v)

/-! ## The brake chopper -/

/-- CHOPPER_ON (R352): `MBUS_SENSE` in mV is above HRV_BUS.chon. A short fault stops the drive (R353). -/
def execChopperOn (mbus : Nat) (s : State) : Host.Outcome State Fault Refusal :=
  .next (let s := s.put F.HRV_MSNS_mbus (mbus / 10)
    if s.get F.HRV_BUS_chon * 100 < mbus ∧ !s.hrv.chopShort then s.onHrv (fun h => { h with chop := true }) else s)

/-- CHOPPER_OFF (R352): `MBUS_SENSE` in mV is below HRV_BUS.choff. -/
def execChopperOff (mbus : Nat) (s : State) : Host.Outcome State Fault Refusal :=
  .next (let s := s.put F.HRV_MSNS_mbus (mbus / 10)
    if mbus < s.get F.HRV_BUS_choff * 100 then s.onHrv (fun h => { h with chop := false }) else s)

/-- The chopper's current is out of range (R353): open with `CHOP` high, short with `CHOP` low. -/
def State.chopCheck (isns : Byte) (s : State) : State :=
  let s := s.put F.HRV_MSNS_chop isns.toNat
  if s.hrv.chop && decide (isns.toNat < s.get F.HRV_CHOP_imin) then
    (s.raise F.HRV_ERR_chopopen).onHrv (fun h => { h with chopOpen := true })
  else if !s.hrv.chop && decide (s.get F.HRV_CHOP_ileak < isns.toNat) then
    (s.raise F.HRV_ERR_chopshort).onHrv (fun h => { h with chopShort := true })
  else s

/-- CHOPPER_FAULT (R353): `CHOP_ISNS` has been out of range for tdet µs. -/
def execChopperFault (isns : Byte) (s : State) : Host.Outcome State Fault Refusal := .next (s.chopCheck isns)

/-- CHOP_TEST (R353). -/
def execChopTest (p : Path) (v : Word) (s : State) : Host.Outcome State Fault Refusal := .next (s.writeHrvCmd p v)

/-- CHOP_TEST_END (R353, R556 step 4): the pulse ends with the current seen in it; while the bus is above chon, `CHOP` stays
high. -/
def execChopTestEnd (isns : Byte) (s : State) : Host.Outcome State Fault Refusal :=
  .next (if !s.hrv.chopTest then s
    else
      let s := s.chopCheck isns
      let on := decide (s.get F.HRV_BUS_chon * 10 < s.get F.HRV_MSNS_mbus) && !s.hrv.chopShort
      s.onHrv (fun h => { h with chopTest := false, chop := on }))

/-! ## The end of coast writing, of a harvest and of a commit -/

/-- HOLD_LOW (R355, R361): `HOLD_SENSE`, in mV, is below 10.0 V; coast writing ends, and HRV moves to COMMIT. -/
def execHoldLow (hold : Nat) (s : State) : Host.Outcome State Fault Refusal :=
  .next (let s := s.put F.HRV_VSNS_hold (hold / 10)
    if !s.coasting || s.hrv.holdLow || decide (10000 ≤ hold) then s
    else
      let s := s.onHrv (fun h => { h with holdLow := true })
      if s.hstep == 3 || s.hstep == 4 then
        let s := s.onHrv (fun h => { h with dealt := [] })
        if s.coastLanes.isEmpty then (if s.harvesting then s.beginPark else s.onHrv (fun h => { h with phase := 6 }))
        else s.beginCommit
      else s)

/-- PARK_TIMEOUT (R350): 300 ms after the request, SPN brakes whatever the actuators do; those not unloaded are recorded. -/
def execParkTimeout (s : State) : Host.Outcome State Fault Refusal :=
  .next (if s.hrvState = 6 ∧ !s.hrv.parked then s.endPark (s.get F.SRV_STAT_loaded) else s)

/-- EVT_FLUSH_DONE (R616, R618, R350): every record of the flush is written, or a harvest meets a sector being erased; a second
flush starts, and a harvest that has parked is done. -/
def execEvtFlushDone (s : State) : Host.Outcome State Fault Refusal :=
  .next (if !(s.flag F.EVT_STAT_flush) || !(s.flushLeft.isEmpty || (s.harvesting && s.flushBlocked)) then s
    else
      let s := { s.put F.EVT_STAT_flush 0 with evt := { s.evt with left := 0 } }
      if s.evt.again && !(s.harvesting && s.flushBlocked) then { s with evt := { s.evt with again := false } }.askFlush
      else if s.hrvState = 6 ∧ s.hrv.parked then
        { s with evt := { s.evt with again := false } }.put F.HRV_STAT_state 7
      else s)

/-- DOUBLE_FAULT (R356): with the chopper faulty, the bus stays above 17.0 V under the zero vector, or the zero vector trips
the limit of R291; the switch stays open, and SPN keeps the zero vector. -/
def execDoubleFault (s : State) : Host.Outcome State Fault Refusal :=
  .next (if !s.chopFaulty then s
    else ((s.setIso false).raise F.HRV_ERR_double).onSpn (fun x => { x with zv := true }) |>.diapauseFor 6)

/-- THERMAL_CRITICAL (R360): the junction has been above tcrit for 100 ms. -/
def execThermalCritical (s : State) : Host.Outcome State Fault Refusal :=
  .next (if s.hrv.critSince.isSome then s.diapauseFor 5 else s)

/-- DIAPAUSE_COMMIT_DONE (R361 steps 3 and 4, R558 step 3, R609): the commit has ended; what it did not write is lost. The
controlled stop and a flush follow in diapause, and the unloads before a warm reset. -/
def execDiapauseCommitDone (s : State) : Host.Outcome State Fault Refusal :=
  .next (if s.hrv.commit = 0 ∨ s.hrv.phase ≠ 6 then s
    else
      let warm := s.hrv.commit == 1
      let s := if s.get F.HRV_HRES_result = 0 then s.put F.HRV_HRES_result (s.harvestResult s.lostNow) else s
      let s := s.onHrv (fun h => { h with commit := 0, phase := 0, dealt := [] })
      let s := (s.onBuf (fun b => { b with blks := b.blks.filter (fun w => !(w.st == .dirty || w.st == .wt)) })).syncDirty
      if warm then { s.unloadAll with boot := { s.boot with warm := 2 } }
      else
        let s := s.fwEvent 6
        (if s.get F.HRV_DIAP_cause = 6 then s else s.stopSpin).askFlush)

end Sys2Proof.Machine
end

