-- ==== Sys2Proof/Machine/Motion.lean ====
section
/-! DEFINITION. MOTION's register commands and its small events (06_servo_compute.md R255, R264 to R272, R282, R284;
16_package_and_electrical.md R649, R651). -/

namespace Sys2Proof.Machine
open Sys2Proof

/-- The shadow loop configuration breaks a rule of R255. -/
def State.lcfgBad (s : State) : Bool :=
  let all := List.range 16
  let en (n : Nat) : Bool := s.flag (F.SCA_LCFG_en n)
  all.any (fun n =>
    decide (6 ≤ s.get (F.SCA_LCFG_src n) ∨ 5 ≤ s.get (F.SCA_LCFG_dst n) ∨ 8 < s.get (F.SCA_LCFG_nsec n) ∨
      s.get (F.SCA_LCFG_nsec n) < s.get (F.SCA_LCFG_tap n) ∨ s.variant.lanes ≤ s.get (F.SCA_LCFG_act n)) ||
    (en n && s.get (F.SCA_LCFG_src n) == 2 && (s.get (F.SCA_LCFG_aux n) == n ||
      s.get (F.SCA_LCFG_act (s.get (F.SCA_LCFG_aux n))) != s.get (F.SCA_LCFG_act n))) ||
    (s.get (F.SCA_LCFG_dst n) == 3 && s.get (F.SCA_LCFG_src n) != 4)) ||
  decide (1 < (all.filter (fun n => en n && s.get (F.SCA_LCFG_dst n) == 3)).length)

/-- A write of SCA_GO (R255, R17). -/
def State.writeScaGo (p : Path) (v : Word) (s : State) : State :=
  s.gated p R.SCA_GO v (v.getLsbD 0 && (s.flag F.SCA_GO_pending || s.lcfgBad))
    (fun s => if v.getLsbD 0 then s.put F.SCA_GO_pending 1 else s)

/-- SCA_GO (R255). -/
def execScaGo (p : Path) (v : Word) (s : State) : Host.Outcome State Fault Refusal := .next (s.writeScaGo p v)

/-- The shadow loop configuration becomes active (R255): newly enabled loops start from zero states, and disabled ones are
cleared. -/
def State.lcfgActivate (s : State) : State :=
  if !(s.flag F.SCA_GO_pending) || !(s.runs 5) then s
  else
    let was := (List.range 16).filter (s.loopOn ·)
    let s := (doAll (List.range 16) (fun n => State.activate (R.SCA_LCFG n)) s).put F.SCA_GO_pending 0
    doAll (List.range 16) (fun n s =>
      if !(s.loopOn n) then s.stopLoop n
      else if was.contains n then s
      else doAll (List.range 8) (fun k => State.zeroSection (8 * n + k)) s) s

/-- SCA_LCFG_ACTIVATE (R255). -/
def execScaLcfgActivate (s : State) : Host.Outcome State Fault Refusal := .next s.lcfgActivate

/-- A write of SCA_SKCMDa (R272, R275). -/
def State.writeSkcmd (p : Path) (a : Fin 4) (v : Word) (s : State) : State :=
  let go := v.getLsbD 31
  s.gated p (R.SCA_SKCMD a) v (go && s.moving a) (fun s =>
    let s := s.take (R.SCA_SKCMD a) v
    if go then ((s.onAct a (fun x => { x with skReq := false })).retuneFor a (s.get (F.SCA_SKCMD_track a))).wantSeek a (s.get (F.SCA_SKCMD_track a)) else s)

/-- SCA_SKCMD_GO (R272). -/
def execScaSkcmdGo (p : Path) (a : Fin 4) (v : Word) (s : State) : Host.Outcome State Fault Refusal :=
  .next (s.writeSkcmd p a v)

/-- A write of SRV_SETCMD (R269). -/
def State.writeSetcmd (p : Path) (v : Word) (s : State) : State :=
  let go := v.getLsbD 31
  s.gated p R.SRV_SETCMD v (go && s.flag F.SRV_SETST_busy) (fun s =>
    let s := s.take R.SRV_SETCMD v
    if go then s.startInstall (s.get F.SRV_SETCMD_set) else s)

/-- SRV_SETCMD_GO (R269). -/
def execSrvSetcmdGo (p : Path) (v : Word) (s : State) : Host.Outcome State Fault Refusal := .next (s.writeSetcmd p v)

/-- SET_INSTALL_DONE (R268, R271): every loop has been written, or an uncorrectable error of a word stops the loader
after the loop in progress; a loop that is no longer computed is written here. -/
def execSetInstallDone (ecc : Bool) (s : State) : Host.Outcome State Fault Refusal :=
  .next (match s.servo.install with
    | none => s
    | some (i, left) =>
      if ecc then
        let s := (s.readWords 6 0 (640 * i) 640 true none).2
        ((s.onServo (fun x => { x with install := none, badSet := some i })).put F.SRV_SETST_busy 0).raise F.SRV_ERR_setecc
      else
        let busy := left.filter s.computed
        let s := s.installIdle i left
        if s.servo.install.isNone then s
        else if busy.isEmpty then
          (((s.onServo (fun x => { x with install := none })).put F.SRV_SETST_busy 0).put F.SRV_SETST_act i).inc
            F.SRV_SETST_count
        else s.onServo (fun x => { x with install := some (i, busy) }))

/-- The set store address advances (SRV_SSADDR.inc). -/
def State.ssNext (s : State) : State := if s.flag F.SRV_SSADDR_inc then s.inc F.SRV_SSADDR_addr else s

/-- The 64-bit codeword `a` of the set store: two words. -/
def State.storeCode (s : State) (a : Nat) : BitVec 64 :=
  cget (fun _ => (0 : Word)) s.servo.store (2 * a + 1) ++ cget (fun _ => (0 : Word)) s.servo.store (2 * a)

/-- A write of SRV_SSDATA (R266): the set store has 10,240 words. -/
def State.writeSsdata (p : Path) (v : Word) (s : State) : State :=
  s.gated p R.SRV_SSDATA v false (fun s =>
    let a := s.get F.SRV_SSADDR_addr
    let s := if a < 10240 then
        let s := s.onServo (fun x => { x with store := cset (fun _ => (0 : Word)) a v x.store })
        s.wroteWords 6 0 (a / 2) 1 (some (s.storeCode (a / 2)))
      else s
    s.ssNext)

/-- A read of SRV_SSDATA, which may meet an uncorrectable error. -/
def State.readSsdata (p : Path) (ecc : Bool) (s : State) : State :=
  s.gatedRead p R.SRV_SSDATA (fun s =>
    let a := s.get F.SRV_SSADDR_addr / 2
    let (ue, s) := if a < 5120 then s.readWords 6 0 a 1 ecc (some (s.storeCode a)) else (false, s)
    (doIf ue (State.raise F.SRV_ERR_setecc) s).ssNext)

/-- SRV_SSDATA_ACCESS (R266). -/
def execSrvSsdataAccess (p : Path) (wr : Option Word) (ecc : Bool) (s : State) : Host.Outcome State Fault Refusal :=
  .next (match wr with
    | some v => s.writeSsdata p v
    | none => s.readSsdata p ecc)

/-- A rate contract is active. -/
def State.contracted (s : State) : Bool := (List.range 16).any (fun i => s.get (F.CTR_C_CFG_state i) == 2)

/-- A write of SCA_FLCTL (R282, R284). The relay's first sign is a free value. -/
def State.writeFlctl (p : Path) (v : Word) (s : State) : State :=
  let go := v.getLsbD 31
  let n := F.SCA_FLCTL_loop.of v
  let a : Fin 4 := Fin.ofNat 4 (s.getA (F.SCA_LCFG_act n))
  let dst := s.getA (F.SCA_LCFG_dst n)
  let bad := go && (F.SCA_FLCTL_cycles.of v == 0 || !(s.loopOn n) || (dst != 1 && dst != 2) || s.moving a ||
    s.servoLost a || s.contracted || s.servo.flutter.isSome)
  s.gated p R.SCA_FLCTL v bad (fun s =>
    let s := s.take R.SCA_FLCTL v
    if v.getLsbD 30 then s.flutterFail 3
    else if go then
      let f : Flut := { loop := n, up := Config.freeInt s.free % 2 == 0, since := 0, switches := 0, samples := 0
                        hi := 0, lo := 0, ampl := 0 }
      let s := ((s.put F.SCA_FLST_state 1).put F.SCA_FLST_cause 0).put F.SCA_FLST_cycles 0
      ({ s.onServo (fun x => { x with flutter := some f }) with free := s.free + 1 }).forceOn a
    else s)

/-- FLUTTER_GO (R282). -/
def execFlutterGo (p : Path) (v : Word) (s : State) : Host.Outcome State Fault Refusal := .next (s.writeFlctl p v)

/-- FLUTTER_ABORT (R284). -/
def execFlutterAbort (p : Path) (v : Word) (s : State) : Host.Outcome State Fault Refusal := .next (s.writeFlctl p v)

/-- A write of SCA_STAT (R661): writing 1 to clr sets the recorded latency to zero. -/
def State.writeScaStat (p : Path) (v : Word) (s : State) : State :=
  s.gated p R.SCA_STAT v false (fun s => if v.getLsbD 31 then s.put F.SCA_STAT_lat 0 else s)

/-- SCA_STAT_CLR (R661). -/
def execScaStatClr (p : Path) (v : Word) (s : State) : Host.Outcome State Fault Refusal := .next (s.writeScaStat p v)

/-- VIB_FRAME (R649, R248): a reading of the vibration sensor; above the shock level it makes the shock condition active
on all actuators. -/
def execVibFrame (reading : BitVec 16) (s : State) : Host.Outcome State Fault Refusal :=
  .next (if !(s.runs 5) || !(s.flag F.SRV_VIBCFG_en) then s
    else
      let r := reading.toInt
      let s := (s.put F.SRV_VIBRD_val reading.toNat).onServo (fun x => { x with vib := r })
      let level := s.get F.SRV_SHOCK_level
      let hit := decide (level ≠ 0 ∧ level < r.natAbs)
      let new := hit && !s.servo.shock
      let s := s.onServo (fun x => { x with shock := hit })
      let s := if s.get F.EVT_MEASCFG_period = 0 then s
        else { s with meas := { s.meas with
          vibPeak := max s.meas.vibPeak r.natAbs, vibSq := s.meas.vibSq + r.natAbs * r.natAbs, vibN := s.meas.vibN + 1
          shocks := s.meas.shocks + (if new then 1 else 0) } }
      if hit then
        let s := doAll allLanes (fun a s =>
          ((s.onAct a (fun x => { x with shock := s.get F.SRV_SHOCK_hold })).forceOn a)) s
        doIf new (State.raise F.SRV_ERR_shock) s
      else s)

/-- VCM_PWM_PERIOD (R651, R277): one period of the voice-coil current controller of actuator `a`; `isns` is the coil
current in 1/65,536 of full scale. During an unload or load the demand is that of the velocity control, a free value. -/
def execVcmPwmPeriod (a : Fin 4) (isns : Int) (s : State) : Host.Outcome State Fault Refusal :=
  .next (if !(s.runs 5) || !(s.fitted a) then s
    else if !(s.loaded a) && (s.act a).ramp != some false then s.onAct a (fun x => { x with vcmS := 0, duty := 0 })
    else
      let s := if (s.act a).ramp.isSome then
          { s.setReg (R.SCA_VDM a) (BitVec.ofInt 32 (clampI (-65536) 65536 (Config.freeInt s.free))) with free := s.free + 1 }
        else s
      let e := s.regInt (R.SCA_VDM a) - isns
      let sum := (s.act a).vcmS
      let v := gain (s.get (F.SRV_VCMCFG_kp a) * e) 4096 + sum
      let out := clampI (-65536) 65536 v
      let sum := if v = out then sum + gain (s.get (F.SRV_VCMCFG_ki a) * e) 65536 else sum
      s.onAct a (fun x => { x with vcmS := sum, duty := gain (out * 2000) 65536 }))

end Sys2Proof.Machine
end

