-- ==== Sys2Proof/Machine/Power.lean ====
section
/-! DEFINITION. Power domains and power states (12_power_states.md R502 to R528): the handshake, emergence, pads and the
autonomous transitions. -/

namespace Sys2Proof.Machine
open Sys2Proof

/-- The fitted domains of a mask (R528). -/
def State.domains (s : State) (m : Nat) : List Nat :=
  (List.range 7).filter (fun d => m.testBit d && (!(isLane d) || s.fitted d))

/-- A command of PWR_CMD is one that R528 ignores. -/
def State.pwrBad (s : State) (wake stop : List Nat) : Bool :=
  let ph := s.get F.PWR_PSTAT_phase
  let on (d : Nat) : Bool := (s.dom d == 0 || s.dom d == 1 || s.dom d == 3 || wake.contains d) && !(stop.contains d)
  wake.any stop.contains ||
    (stop.contains 5 && (List.range 4).any on) || (stop.contains 6 && (List.range 6).any on) ||
    ph == 4 || ((ph == 1 || ph == 2) && (!stop.isEmpty || wake.isEmpty))

/-- A write of PWR_CMD (R504, R508, R509, R517): a wake in an entry waits for its end. -/
def State.writePwrCmd (p : Path) (v : Word) (s : State) : State :=
  let wake := s.domains (F.PWR_CMD_wake.of v)
  let stop := s.domains (F.PWR_CMD_stop.of v)
  s.gated p R.PWR_CMD v (v.getLsbD 31 && s.pwrBad wake stop) (fun s =>
    if !(v.getLsbD 31) then s
    else
      let ph := s.get F.PWR_PSTAT_phase
      if ph = 1 ∨ ph = 2 then
        (s.put F.PWR_PSTAT_wakepend 1).onPwr (fun p => { p with wake := p.wake ++ wake.filter (fun d => !(p.wake.contains d)) })
      else s.pwrGo wake stop)

/-- PWR_CMD_GO (R504). -/
def execPwrCmdGo (p : Path) (v : Word) (s : State) : Host.Outcome State Fault Refusal := .next (s.writePwrCmd p v)

/-- COCOON_AGREE (R504, R505, R507): the requested domain answers; while a condition makes it delay, it has not answered, and
where it refuses, the entry rolls back. -/
def execCocoonAgree (s : State) : Host.Outcome State Fault Refusal :=
  .next (if s.get F.PWR_PSTAT_phase ≠ 1 then s
    else match s.pwr.ask with
      | [] => s
      | d :: _ =>
        match s.refusal d with
        | some r => s.rollback d r
        | none => if s.agrees d then s.cocoonHead else s)

/-- COCOON_DELAY_TIMEOUT (R505): the requested domain has delayed for longer than PWR_HSCFG.dmax. -/
def execCocoonDelayTimeout (s : State) : Host.Outcome State Fault Refusal :=
  .next (if s.get F.PWR_PSTAT_phase ≠ 1 then s
    else match s.pwr.ask with
      | [] => s
      | d :: _ =>
        match s.refusal d with
        | some r => s.rollback d r
        | none => if s.agrees d then s else s.rollback d 1)

/-- ENTRY_RETRY (R507): the backoff is over, and the same entry runs from its first domain. -/
def execEntryRetry (s : State) : Host.Outcome State Fault Refusal :=
  .next (if s.get F.PWR_PSTAT_phase = 3 then
      (if s.flag F.PWR_PSTAT_wakepend then s.wakeNow else s.startEntry)
    else s)

/-- EMERGENCE_STEP_DONE (R514): the wait of the present step ends. -/
def execEmergenceStepDone (s : State) : Host.Outcome State Fault Refusal :=
  .next (if s.get F.PWR_PSTAT_phase ≠ 4 then s
    else match s.pwr.emerg with
      | [] => s
      | d :: _ =>
        match (s.waits d).find? (fun k => decide (s.pwr.step < k)) with
        | some k => s.onPwr (fun p => { p with step := k })
        | none =>
          let s := s.emerged d
          if isLane d then s.autoLane (Fin.ofNat 4 d) else s)

/-- A domain has failed to emerge (R516). -/
def State.domFailed (d : Nat) (s : State) : State :=
  let s := ((((s.setDom d 4).put F.PWR_FAIL_valid 1).put F.PWR_FAIL_dom d).put F.PWR_FAIL_step s.pwr.step).post 0 0x21
    [BitVec.ofNat 8 d, BitVec.ofNat 8 s.pwr.step]
  let s := (s.raiseAt F.PWR_ERR_fail d).onPwr (fun p => { p with auto := p.auto.filter (fun x => x != d) })
  let s := if isLane d then s.laneLeft.pump
    else if d = 4 then s
    else if d = 5 then s.onNvme (fun v => { v with nsReady := false })
    else s.diapauseFor 3
  if s.pwr.emerg.head? = some d then s.emergeNext else s

/-- EMERGENCE_STEP_TIMEOUT (R516): the domain starts again once, and then it has failed. -/
def execEmergenceStepTimeout (s : State) : Host.Outcome State Fault Refusal :=
  .next (if s.get F.PWR_PSTAT_phase ≠ 4 then s
    else match s.pwr.emerg with
      | [] => s
      | d :: _ => if s.pwr.again then s.domFailed d else s.onPwr (fun p => { p with step := 1, again := true }))

/-- A write of PWR_PADREL (R513). -/
def State.writePadrel (p : Path) (v : Word) (s : State) : State :=
  let ds := (s.domains v.toNat).filter (fun d => isLane d || d == 5)
  s.gated p R.PWR_PADREL v (ds.any (fun d => s.dom d != 0)) (fun s => doAll ds State.releasePads s)

/-- PWR_PADREL (R513). -/
def execPwrPadrel (p : Path) (v : Word) (s : State) : Host.Outcome State Fault Refusal := .next (s.writePadrel p v)

/-- DOMAIN_IDLE_COCOON (R523, R526): a lane out of the cocoon in PS2 whose queue has stayed empty, or the HBM in PS4, goes
back; the firmware stops the lane's sequencer first. -/
def execDomainIdleCocoon (d : Fin 7) (s : State) : Host.Outcome State Fault Refusal :=
  .next (if s.get F.PWR_PSTAT_phase ≠ 0 ∨ s.pwr.to_.isSome ∨ !(s.runs d) ∨ s.boot.phase ≠ 4 ∨ s.draining then s
    else if isLane d then
      let n := Fin.ofNat 4 d
      if s.nvme.feats.ps ≠ 2 ∨ !(s.fitted d) ∨ !(s.lane n).queue.isEmpty ∨ (s.lane n).cur.isSome ∨ !(s.buf.work[n]).isEmpty then s
      else (doIf (s.executing n) (State.put (F.MCS_STAT_stopreq n) 1) s).pwrGo [] [d.val]
    else if d = 6 ∧ s.nvme.feats.ps = 4 ∧ s.dom 5 ≠ 0 then s.pwrGo [] [6]
    else s)

/-- APST_TRANSITION (R527): the Gorlo has been idle for the time of its present state's entry, and goes to the entry's
state; no transition while a contract is pending or active (R387). -/
def execApstTransition (s : State) : Host.Outcome State Fault Refusal :=
  .next (
    let f := s.nvme.feats
    match f.apst[f.ps]? with
    | none => s
    | some (ms, to_) =>
      if !f.apste || ms = 0 || s.bound || s.outstanding || s.draining || s.hostDown || s.boot.phase != 4 ||
        decide (to_ ≤ f.ps) then s
      else (s.put F.PWR_IDLE_ms (max ms (s.get F.PWR_IDLE_ms))).enterPs to_)

end Sys2Proof.Machine
end

