-- ==== Sys2Proof/Machine/Loader.lean ====
section
/-! DEFINITION. The cold-start sequence from the closing ramp to the running units (13_startup_and_image.md R532 to R534, R540,
R549 to R554, R557): the power-good input, the crystal, the mask-ROM loader, and the installation of the image's sections. -/

namespace Sys2Proof.Machine
open Sys2Proof

/-- Changes the start-up. -/
def State.onBoot (f : Boot → Boot) (s : State) : State := { s with boot := f s.boot }

/-- PGOOD_CORE_RISE (R532 step 4, R608): CORE leaves reset, and its clocks start. -/
def execPgoodCoreRise (s : State) : Host.Outcome State Fault Refusal :=
  .next (if s.boot.phase ≠ 2 then s else { s.onBoot (fun b => { b with phase := 3 }) with coreUp := true })

/-- PGOOD_CORE_LATE (R533): AON keeps waiting. -/
def execPgoodCoreLate (s : State) : Host.Outcome State Fault Refusal :=
  .next (if s.boot.phase ≠ 2 then s else s.raise F.ALR_PWREV_pgcore)

/-- CRYSTAL_TIMEOUT (R26, R360): the clocks run from the RC oscillator. -/
def execCrystalTimeout (s : State) : Host.Outcome State Fault Refusal :=
  .next (if s.boot.phase ≠ 3 ∨ s.flag F.CFG_BOOT_warm ∨ s.diapause then s else ({ s with coreUp := false } : State).diapauseFor 4)

/-! ## Slot selection -/

/-- Records a slot's reason (R549). -/
def State.putReason (slot r : Nat) (s : State) : State :=
  if slot = 2 then s.put F.CFG_BOOT_rsnb r else s.put F.CFG_BOOT_rsna r

/-- Checks a slot and records its reason; a slot that fails raises the configuration cause (R550, R562). -/
def State.trySlot (m : ImageIn) (slot : Nat) (s : State) : Bool × State :=
  let r := s.checkImage (if slot = 2 then m.readB else m.readA) (s.slotImage slot)
  let s := s.putReason slot r
  (r == 0, if r = 0 then s else s.raiseAt F.ALR_CFGEV_e slot)

/-- The slot from which the loader starts (R550), tried first from slot `a`: with the other slot the fallback. -/
def State.pickSlot (m : ImageIn) (a : Nat) (fall : Bool) (s : State) : Option Nat × State :=
  let (ok, s) := s.trySlot m a
  if ok then (some a, s)
  else if !fall then (none, s)
  else
    let (ok, s) := s.trySlot m (3 - a)
    if ok then (some (3 - a), ((s.put F.CFG_BOOT_fallback 1).raiseAt F.ALR_CFGEV_e 0).fwEvent 5) else (none, s)

/-- The slot of a cold start, by the start mode (R530, R550): in normal and factory test mode the active slot of the boot
record, slot A without one; in recovery mode slot B; otherwise none. -/
def State.coldSlot (m : ImageIn) (s : State) : Option Nat × State :=
  let strap := s.get F.CFG_STRAP_mode
  if strap = 1 then s.pickSlot m 2 false
  else if strap = 0 ∨ strap = 2 then
    match s.bootNow with
    | none => s.pickSlot m 1 true
    | some (seq, slot, _) =>
      let s := (s.put F.CFG_BOOTREC_slot slot).put F.CFG_BOOTREC_seq seq
      s.pickSlot m (if slot = 2 then 2 else 1) true
  else (none, s)

/-! ## From image to running units -/

/-- A register write of the installation: the bits that software sets, but for MAP_CTL.en. -/
def State.installReg (x : Nat × Word) (s : State) : State :=
  let own := if x.1 = R.MAP_CTL then ownBits x.1 &&& ~~~1#32 else ownBits x.1
  s.setReg x.1 ((s.reg x.1 &&& ~~~own) ||| (x.2 &&& own))

/-- A register of the FW configuration block (R546): of MAP, CTR, CRYS or BUF. -/
def fwReg (a : Nat) : Bool :=
  let b := a / 0x10000
  b == R.MAP_CTL / 0x10000 || b == R.CTR_RSV / 0x10000 || b == R.CRYS_CTL / 0x10000 || b == R.BUF_CTL / 0x10000

/-- A register that the rows of R553 set in their own way. -/
def ownRow (a : Nat) : Bool := a == R.SPN_CTL || a == R.SCA_CTL || a == R.HRV_CTL || a == R.SPN_GO || a == R.SCA_GO || a == R.HRV_GO

/-- The words of a section, least significant byte first. -/
def sectionWords (bs : List Byte) : List (Nat × Word) :=
  ((chunks 4 131072 bs).zipIdx.map (fun x => (x.2, BitVec.ofNat 32 (ofLe x.1)))).filter (fun x => x.2 != 0)

/-- The records of the calibration area from address `o` on (R541): type and body of those whose CRC-64 is right; a record with a bad CRC is
treated as absent. They lie behind one another without gaps up to an erased header (DESIGN CHOICE: R541 gives the records' header only). -/
def State.calFrom (s : State) : Nat → Nat → List (Nat × List Byte)
  | 0, _ => []
  | k + 1, o =>
    let h := s.flashBytes o 16
    let len := ofLe (bytesAt h 4 4)
    if ofLe (bytesAt h 0 2) = 0xFFFF ∨ 0x3800000 < o + 16 + len then []
    else
      let body := s.flashBytes (o + 16) len
      let rest := s.calFrom k (o + 16 + len)
      if ofLe (bytesAt h 8 8) = (crc64 body).toNat then (ofLe (bytesAt h 0 2), body) :: rest else rest

/-- The body of the calibration record of a type (R541): 1 the factory slot-defect list, 2 the slip entries, 3 the windage table, 4 the
serial number. -/
def State.calRecord (s : State) (t : Nat) : Option (List Byte) :=
  ((s.calFrom 524288 0x3000000).find? (fun r => r.1 == t)).map (·.2)

/-- A calibration record as numbers of `n` bytes: slot defects as physical addresses and windage pairs as HRV_WINDk holds them (DESIGN
CHOICE: R541 names what they hold, not their layout), slip entries as R61 has them. -/
def State.calList (s : State) (t n : Nat) : List Nat :=
  let b := (s.calRecord t).getD []
  (chunks n (b.length / n) b).map ofLe

/-- The IDS section with the drive's serial number where it leaves SN blank (R541). -/
def State.idsNow (s : State) (i : Ids) : Ids :=
  if i.sn.all (fun b => b == 0x20 || b == 0) then { i with sn := bytesAt ((s.calRecord 4).getD i.sn) 0 20 } else i

/-- Lane `n`'s calibration sets (R145, R553 row 3). -/
def State.installChn (f : Nat → Byte) (n : Fin 4) (s : State) : State :=
  s.onLane n (fun l => { l with setRam := sectionWords (imgBytes f ((imgSection f 5).1 + 65536 * n.val) 65536) })

/-- The counters and the ring head (R540, R608, R617), with which the firmware locks the time. A warm start finds it locked. -/
def State.startTime (s : State) : State :=
  if s.flag F.EVT_CTL_tlock then s.put F.CFG_PCYC_count (s.get F.EVT_PCYC_count)
  else
    let (pot, pcyc) := ((s.lastCounter).map (·.2)).getD (0, 0)
    let head := s.evt.ring.foldl (fun (b : Option (Nat × EvtRec)) x => match b with
      | none => some x
      | some y => if y.2.seq ≤ x.2.seq then some x else some y) none
    let s := (((s.put F.EVT_POTLO_ms (pot % 2 ^ 32)).put F.EVT_POTHI_ms (pot / 2 ^ 32)).put F.EVT_PCYC_count (pcyc + 1)).put
      F.CFG_PCYC_count (pcyc + 1)
    let s := match head with
      | none => s
      | some x => (s.put F.EVT_RINGHD_slot ((x.1 + 1) % 65536)).put F.EVT_SEQ_seq ((x.2.seq + 1) % 2 ^ 32)
    (s.addCounter pot (pcyc + 1)).lockTime

/-- A lane's load starts (R553 row 4). -/
def State.loadLane (n : Fin 4) (s : State) : State := (s.put (F.MCS_LDCTL_busy n) 1).put (F.MCS_STAT_state n) 1

/-- Steps 7 and 8 of R532 and rows 1 to 4 of R553: the image is in the HBM, the IDs are applied, the resident firmware runs,
and the lanes load their control stores. -/
def State.startImage (f : Nat → Byte) (m : ImageIn) (src : Nat) (s : State) : State :=
  let lanes : List (Fin 4) := allLanes.filter (fun (n : Fin 4) => s.fitted n && s.runs n)
  let s := (((s.copyImage f).recordImage f).put F.CFG_BOOT_src src).put F.CFG_BOOT_ms m.ms.toNat
  let dig := (((imgSections f).find? (fun x => x.1 == 6)).map (fun x => x.2.2.2)).getD []
  let s := { s with geo := { m.geo with digest := ofLe ((bytesAt dig 40 8).reverse) } }
  let s := s.onBoot (fun b => { b with phase := 4, ids := s.idsNow m.ids, headLoad := m.headLoad, install := some m, loading := lanes.map (·.val) })
  let s := s.startTime.configGo.setReady
  let s := doAll (m.regs.filter (fun x => fwReg x.1)) State.installReg s
  let s := ((s.activate R.CTR_RSV).activate R.CTR_FRAME).ctrTotals
  let s := ((s.put F.BUF_CTL_lock 1).put F.CRYS_CTL_lock 1).put F.MAP_CTL_lock 1
  let s := s.onMap (fun x => { x with defects := s.calList 1 8, slip := slipSorted ((s.calList 2 8).map (BitVec.ofNat 64)) })
  let s := doAll (allLanes.filter (fun (n : Fin 4) => s.fitted n)) (State.installChn f) s
  doAll lanes (fun n s => (s.laneSource f n).loadLane n) s

/-- The minimal loader runs (R550). -/
def State.minimal (s : State) : State := (s.onBoot (fun b => { b with phase := 5 })).configGo.setReady

/-- Row 5 of R553: the sets of the set store, the registers, the curve and the loop configuration. -/
def State.installRow5 (f : Nat → Byte) (m : ImageIn) (s : State) : State :=
  let s := s.onServo (fun x => { x with store := sectionWords (imgBytes f (imgSection f 3).1 (min (imgSection f 3).2 40960)) })
  let s := doAll (m.regs.filter (fun x => !(fwReg x.1) && !(ownRow x.1))) State.installReg s
  ((s.writeSpnGo .core 1).curveActivate.writeScaGo .core 1).lcfgActivate

/-- Row 6 of R553: windage, HRV_GO, the lock, and arm where the windage record is valid. -/
def State.installRow6 (s : State) : State :=
  let s := doAll ((s.calList 3 4).take 8).zipIdx (fun x s => s.setReg (R.HRV_WIND x.2) (BitVec.ofNat 32 x.1)) s
  (s.writeHrvGo .core 1).writeHrvCtl .core (if (s.calRecord 3).isSome && !s.diapause then 0x80000001 else 0x80000000)

/-- The speed source at start (R530, R319), and whether the curve follows once upok sets. -/
def State.startSource (m : ImageIn) (s : State) : Nat × Bool :=
  if s.get F.CFG_STRAP_mode ≠ 0 ∨ s.getA F.SPN_CRVHDR_nbp = 0 then (2, false)
  else if m.pinStart then (2, true) else (1, false)

/-- Row 7 of R553: MOTION's pads, SCA and the spindle; in diapause it does not spin up (R26). -/
def State.installRow7 (m : ImageIn) (s : State) : State :=
  if !(s.runs 5) then s
  else
    let s := (s.releasePads 5).put F.SCA_CTL_run 1
    let (src, later) := s.startSource m
    if s.diapause then s
    else (s.writeSpnCtl .core (BitVec.ofNat 32 (2 ^ 31 + src * 16 + 1))).onBoot (fun b => { b with toCurve := later })

/-- Row 8 of R553: the pads of the lanes with match 1, which start. -/
def State.installRow8 (s : State) : State :=
  doAll (allLanes.filter (fun (n : Fin 4) => s.laneUp n && s.mcs n == 2 && s.flag (F.MCS_LDCTL_match n)))
    (fun (n : Fin 4) s => (s.releasePads n).mcsStart n) s

/-- Rows 5 to 8 of R553, once the last load has ended. -/
def State.installRest (s : State) : State :=
  match s.boot.install with
  | none => s
  | some m =>
    if !s.boot.loading.isEmpty then s
    else
      let s := s.onBoot (fun b => { b with install := none })
      (((s.installRow5 s.hbmImage m).installRow6.installRow7 m).installRow8).pump

/-- IMAGE_LOAD_DONE (R532 steps 5 to 9, R549 to R553, R557, R634): with `PGOOD_B` high the HBM has its supplies and is trained; the loader has read an image and checked it, and starts the
resident firmware or the minimal loader. Under the minimal loader it runs the image that a Firmware Commit of action 011b
staged (R551). -/
def execImageLoadDone (m : ImageIn) (s : State) : Host.Outcome State Fault Refusal :=
  .next (
    if s.boot.phase = 5 ∧ (s.fw.commit.map (·.step)) = some 5 then
      ((s.startImage s.stagedImage m 3).installRest).commitDone CplRec.ok
    else if s.boot.phase ≠ 3 then s
    else
      let warm := s.flag F.CFG_BOOT_warm
      let s := doAll m.failed (fun d s => s.domFailed d.val) s
      if m.failed.contains 6 then s.minimal
      else
        let s := s.put F.HBM_STAT_trained 1
        if warm then
          let f := s.hbmImage
          let src := s.get F.CFG_BOOT_src
          if signatureOk f && tableOk f && digestsOk f then (s.startImage f m src).installRest
          else if src = 1 ∨ src = 2 then
            match s.pickSlot m src (s.get F.CFG_STRAP_mode != 1) with
            | (some k, s) => (s.startImage (s.slotImage k) m k).installRest
            | (none, s) => s.minimal
          else s.minimal
        else
          let s := (s.inc F.HBM_TRAIN_count).onBoot (fun b => { b with vddq := true })
          match s.coldSlot m with
          | (some k, s) => (s.startImage (s.slotImage k) m k).installRest
          | (none, s) => s.minimal)

/-- A load of start-up has ended (R554): one that fails is repeated once, and a lane that fails again stays out of service. -/
def State.startLoad (n : Fin 4) (s : State) : State :=
  let good := s.mcs n == 2 && s.flag (F.MCS_LDCTL_match n)
  let k := s.boot.reloads.getD n 0
  let s := s.onBoot (fun b => { b with reloads := b.reloads.set n (if good then 0 else min 2 (k + 1)) })
  if !(s.boot.loading.contains n.val) then s
  else if !good && k == 0 then s.loadLane n
  else ((s.onBoot (fun b => { b with loading := b.loading.filter (· != n.val) })).installRest)

/-- A reload after a digest mismatch has ended (R581): with match 1 the lane starts; the second failure leaves it out of
service. -/
def State.reloaded (n : Fin 4) (s : State) : State :=
  let k := s.boot.reloads.getD n 0
  let done (s : State) (k : Nat) : State :=
    s.onBoot (fun b => { b with relo := b.relo.filter (· != n.val), reloads := b.reloads.set n k })
  if s.mcs n = 2 ∧ s.flag (F.MCS_LDCTL_match n) then
    let s := (done s 0).fwEvent 2
    if s.slice n || s.draining || decide (2 ≤ s.nvme.feats.ps) then s else (s.mcsStart n).pump
  else if k = 0 then (s.onBoot (fun b => { b with reloads := b.reloads.set n 1 })).loadLane n
  else done s 2

/-- MCS_LOAD_DONE (R231, R232, R225, R510, R554): the load ends, or meets an uncorrectable HBM error. -/
def execMcsLoadDone (n : Fin 4) (ecc : Bool) (s : State) : Host.Outcome State Fault Refusal :=
  .next (if s.mcs n ≠ 1 ∨ !(s.laneUp n) then s
    else
      let src := s.get (F.MCS_LDSRC_addr n) * 64
      let (ue, s) := s.readWords 0 0 (src / 8) 10248 ecc none
      let s := if ue then
          let s := (s.put (F.MCS_LDCTL_busy n) 0).put (F.MCS_LDCTL_match n) 0
          (s.put (F.MCS_STAT_state n) 0).raise (F.MCS_ERR_ldecc n)
        else (s.loadStore n).autoLane n
      if s.boot.relo.contains n.val then s.reloaded n
      else if s.boot.loading.contains n.val || s.boot.reloads.getD n 0 != 0 then s.startLoad n else s)

end Sys2Proof.Machine
end

