-- ==== Sys2Proof/Machine/Adoption.lean ====
section
/-! DEFINITION. Map rebuild and adoption (02_media_and_map.md R75 to R94, 08_harvest.md R349, R358), readiness
(13_startup_and_image.md R556), and the keel rebuild (R559, R560). The tiles that cannot be read at power-up, and the segments of a
checkpoint, come with the event that reads them. -/

namespace Sys2Proof.Machine
open Sys2Proof

/-! ## What can be read -/

/-- The system tiles of a record type that a lane in service reads well, among coast tiles or others: not those in `lost`, and not those
whose metadata names another address (R116). -/
def State.sysTiles (s : State) (lost : List Nat) (type : Nat) (coast : Bool) : List Tile :=
  (s.media.tiles.filter (fun x => !(lost.contains x.1) && x.2.kind == 2 && sysType x.2.tag == type && x.2.coast == coast &&
    x.1 == physKey x.2.place.surface x.2.place.track x.2.place.slot x.2.place.qtr && s.laneOf x.2.place.surface == some x.2.place.lane &&
    s.lanesIn.contains x.2.place.lane)).map (·.2)

/-! ## The keel vote -/

/-- The keel slots of the lanes in service that hold something, by surface: their keels, none where the copy cannot be read or fails its
CRC-64 (R83). -/
def State.keelCopies (s : State) (lost : List Nat) : List (Nat × Option Keel) :=
  let here (k : Nat) : Bool := (s.laneOf (keySurface k)).any s.lanesIn.contains &&
    s.geo.keel.any (fun x => x.1 == keySurface k && (x.2.1 == keyTrack k || x.2.2 == keyTrack k))
  let good := s.sysTiles lost sysKeel true
  (s.media.tiles.filter (fun t => here t.1)).map (fun t =>
    (keySurface t.1, if good.contains t.2 then Keel.parse t.2.data else none))

/-- The keels that can be used: those of correct CRC-64, by surface. -/
def State.keelsSeen (s : State) (lost : List Nat) : List (Nat × Keel) :=
  (s.keelCopies lost).filterMap (fun x => x.2.map (fun k => (x.1, k)))

/-- The keel of the highest sequence that two surfaces hold alike, under the digest of the loaded image (R83, R84). -/
def State.keelVote (s : State) (lost : List Nat) : Option Keel :=
  let seen := (s.keelsSeen lost).filter (fun x => x.2.digest == s.geo.digest)
  let good := seen.filter (fun x => seen.any (fun y => y.1 != x.1 && y.2 == x.2))
  (good.map (·.2)).foldl (fun b k => match b with
    | none => some k
    | some c => if c.seq < k.seq then some k else some c) none

/-- A copy fails its CRC-64, or differs from the voted ones (MAP_ERR.keel): one of their sequence (DEDUCED: each surface also holds the
keel before). -/
def State.keelDiffers (s : State) (lost : List Nat) (k : Keel) : Bool :=
  (s.keelCopies lost).any (fun x => match x.2 with
    | none => true
    | some c => c.seq == k.seq && c != k)

/-- ADOPTION_START (R83, R84, R92, R556, R559): the keel vote, with the heads loaded and the spindle at 3,600 rpm or more. No
keel stops the adoption. -/
def execAdoptionStart (s : State) (lost : List Nat := []) : Host.Outcome State Fault Refusal :=
  .next (if s.boot.phase ≠ 4 ∨ s.boot.ready ≠ 0 ∨ s.get F.MAP_ADOPT_phase ≠ 0 ∨ s.get F.SRV_STAT_loaded = 0 ∨
      allLanes.any (fun a => (s.act a).ramp == some false) ∨ s.rpm < 3600 ∨ s.draining ∨ s.boot.warm ≠ 0 then s
    else match s.keelVote lost with
      | none =>
        let s := doIf ((s.keelCopies lost).any (fun x => x.2.isNone)) (State.raise F.MAP_ERR_keel) s
        let other := !(s.keelsSeen lost).isEmpty && (s.keelsSeen lost).all (fun x => x.2.digest != s.geo.digest)
        ((s.put F.MAP_ADOPT_phase 3).raiseAt F.ALR_CFGEV_e 4).put F.CFG_RCVSTAT_geo (if other then 1 else 0)
      | some k =>
        let s := ((s.put F.MAP_ADOPT_phase 1).setWord 0 k.hseq).onMap (fun m => { m with keel := some k })
        (doIf (s.keelDiffers lost k) (State.raise F.MAP_ERR_keel) s).onBoot (fun b => { b with ready := 1 }))

/-! ## The checkpoint -/

/-- Segments of a checkpoint copy: tiles of 16 KiB in its 136 MiB (DESIGN CHOICE: R92 gives a segment no size). -/
def ckptSegments : Nat := 8704

/-- Segment `i` of a copy can be read: its lane is in service, and the read does not fail. -/
def State.segReads (s : State) (segs : List (Nat × Nat)) (c : CkCopy) (i : Nat) : Bool :=
  !c.lanes.isEmpty && s.lanesIn.contains (c.lanes.getD (i % c.lanes.length) 0) && !(segs.contains (c.copy, i))

/-- The checkpoint of an area and sequence as R92 reads it: the first half of its segments from copy 0, the second from copy 1, a segment
that fails from the other; and whether one failed. None where a segment fails on both (DESIGN CHOICE: the spec does not say what
then). -/
def State.readCkpt (s : State) (segs : List (Nat × Nat)) (area seq : Nat) : Option (Ckpt × Bool) :=
  let copy (n : Nat) : Option CkCopy := s.media.ck.find? (fun c => c.area == area && c.copy == n && c.ckpt.seq == seq)
  let reads (n i : Nat) : Bool := (copy n).any (fun c => s.segReads segs c i)
  let half (i : Nat) : Nat := if i < ckptSegments / 2 then 0 else 1
  let failed := (List.range ckptSegments).filter (fun i => !(reads (half i) i))
  if failed.all (fun i => reads (1 - half i) i) then ((copy 0).orElse (fun _ => copy 1)).map (fun c => (c.ckpt, !failed.isEmpty))
  else none

/-- The tables of a checkpoint; the factory's defects stay known (R54). -/
def State.loadCkpt (c : Ckpt) (s : State) : State :=
  s.onMap (fun m => { m with
    hbm := c.map, zones := c.zones, slip := c.slip, cache := [], wback := [], fills := [], ovl := [], placed := []
    defects := m.defects ++ c.defects.filter (fun d => !(m.defects.contains d)) })

/-! ## Replay -/

/-- The records of a journal tile, up to the first whose CRC-64 fails. -/
def Tile.records (t : Tile) : List JRec :=
  (((List.range (t.data.length / 32)).map (fun i => JRec.parse (bytesAt t.data (32 * i) 32))).takeWhile (·.isSome)).filterMap id

/-- The records on media: those of the journal bands before those of the harvests' journal tiles (R92 step 3). -/
def State.recsOnMedia (s : State) (lost : List Nat) : List JRec :=
  (s.sysTiles lost sysJournal false ++ s.sysTiles lost sysJournal true).flatMap Tile.records

/-- The records from a sequence number on that follow one another (R85). -/
def runFrom (rs : List JRec) : Nat → Nat → List JRec
  | 0, _ => []
  | fuel + 1, seq =>
    match rs.find? (fun r => r.seq == seq) with
    | none => []
    | some r => r :: runFrom rs fuel ((seq + 1) % 2 ^ 32)

/-- What replay makes of one record (R69, R78): the values are absolute. Records of types 3, 7 and 9 are applied as the overlay is
built. -/
def State.replay (r : JRec) (s : State) : State :=
  match r.type with
  | 1 => s.setHbmEntry r.key r.val
  | 2 =>
    let z := Zone.unpack r.val
    let was := (s.zone r.key).gen
    let s := s.onZone r.key (fun _ => z)
    if was = z.gen then s
    else doAll (List.range 128) (fun e => State.setHbmEntry (128 * r.key + e) (mkEntry 0 0 0 0 0 false z.gen)) s
  | 4 => s.onMap (fun m => { m with defects := if m.defects.contains r.key then m.defects else m.defects ++ [r.key] })
  | 5 => s.onMap (fun m => { m with
      slip := if r.key < m.slip.length then m.slip.set r.key r.val else m.slip ++ List.replicate (r.key - m.slip.length) 0 ++ [r.val] })
  | _ => s

/-! ## Manifests -/

/-- The entries that a tile of a manifest holds. -/
def Tile.entries (t : Tile) (n : Nat) : List ManEnt :=
  (List.range n).map (fun i =>
    { w0 := BitVec.ofNat 64 (ofLe (bytesAt t.data (16 * i) 8)), w1 := BitVec.ofNat 64 (ofLe (bytesAt t.data (16 * i + 8) 8)) })

/-- The manifest of a harvest on a lane (R349), from its header and the tiles of its entries; none where one is missing or the CRC-64
fails. -/
def manifestOf (ts : List Tile) (lane hseq : Nat) : Option Manifest :=
  let tile (i : Nat) : Option Tile := ts.find? (fun t => t.place.lane == lane && t.hseq == hseq && sysIndex t.tag == i)
  (tile 0).bind (fun h =>
    let n := ofLe (bytesAt h.data 4 4)
    let parts := (List.range (ceilDiv n 256)).map (fun i => (tile (i + 1)).map (fun t => t.entries (min 256 (n - 256 * i))))
    if parts.any (·.isNone) then none
    else
      let m : Manifest :=
        { hseq := ofLe (bytesAt h.data 0 4), lanes := (byteAt h.data 8).toNat, result := (byteAt h.data 9).toNat
          source := (byteAt h.data 10).toNat, time := ofLe (bytesAt h.data 12 8), ents := (parts.filterMap id).flatten }
      if m.hseq = hseq ∧ bytesAt h.data 0 28 = m.header then some m else none)

/-- The saltern slots that tiles fill, in order. -/
def State.slotsOf (s : State) (ts : List Tile) : List (Nat × Nat × Nat × Nat) :=
  (ts.filterMap (fun t => (s.saltSlotAt t.place).map (fun p => (t.place.lane, t.place.surface, p.1, p.2)))).eraseDups

/-- The copy of a manifest on a lane, as MAP keeps it in force. -/
def State.manRef (s : State) (ts : List Tile) (lane hseq : Nat) : ManRef :=
  { hseq := hseq
    slots := s.slotsOf ((ts.filter (fun t => t.place.lane == lane && t.hseq == hseq)).mergeSort (fun a b => decide (sysIndex a.tag ≤ sysIndex b.tag))) }

/-- The copies of manifests that the records of type 07h of a run name: lane and harvest. -/
def refsOf (run : List JRec) : List (Nat × Nat) :=
  (run.filter (fun r => r.type == 7)).map (fun r => (r.key / 2 ^ 25 % 4, r.val.toNat % 2 ^ 32))

/-- Copies of manifests without repeats, oldest harvest first. -/
def inOrder (l : List (Nat × Nat)) : List (Nat × Nat) := l.eraseDups.mergeSort (fun a b => !(newer a.2 b.2))

/-- The copies of manifests in force, oldest harvest first (R81, R92 step 4): those of the records of type 07h that replay meets, and those
that the keel names; each as its lane and harvest. -/
def mansNamed (run : List JRec) (k : Keel) : List (Nat × Nat) :=
  inOrder (refsOf run ++ (List.range 4).filterMap (fun l => ((k.man.getD l none).map (fun _ => (l, k.hseq)))))

/-- The mask that the records of type 09h give an entry (R666): the last for its slot and tile that follows the first reference to its
harvest. -/
def maskOf (run : List JRec) (e : ManEnt) : Option Nat :=
  let w := (e.w0, e.w1)
  let late := run.dropWhile (fun r => !(r.type == 7 && r.val.toNat % 2 ^ 32 == ovlHseq w))
  ((late.filter (fun r => r.type == 9 && r.key / 2 ^ 37 == e.w1.toNat / 2 ^ 37 && ovlKey (r.val, 0) == ovlKey w)).getLast?).map
    (fun r => ovlMask (r.val, 0))

/-! ## The overlay -/

/-- The blocks of a mask as runs: first block and length. -/
def maskRuns (m : Nat) : List (Nat × Nat) :=
  ((List.range 4).filter (fun k => m.testBit k && !(k != 0 && m.testBit (k - 1)))).map (fun k =>
    (k, ((List.range (4 - k)).takeWhile (fun j => m.testBit (k + j))).length))

/-- The first block that an entry's mask counts from. -/
def firstBlock (w : BitVec 64 × BitVec 64) : Nat := if ovlNs w = 2 then ovlKey w else 4 * ovlKey w

/-- Adds the blocks of an entry to the loss log (R358): it holds 65,536 entries, and the rest are counted. -/
def State.logLoss (cause : Nat) (w : BitVec 64 × BitVec 64) (s : State) : State :=
  doAll (maskRuns (ovlMask w)) (fun r s =>
    if 65536 ≤ s.map.loss.length then s.onMap (fun m => { m with lossOver := m.lossOver + 1 })
    else s.onMap (fun m => { m with
      loss := m.loss ++ [{ hseq := ovlHseq w, ns := ovlNs w, cause := cause, blocks := r.2, lba := firstBlock w + r.1 }] })) s

/-- The extent of an overlay entry becomes overlaid, at the home it has or is given (R65, R92 step 4). -/
def State.overlayExtent (x : Nat) (s : State) : State :=
  let v := s.hbmEntry x
  let gen := (s.zone (x / 128)).gen
  if entGen v = gen ∧ (entState v = 1 ∨ entState v = 2) then s.setHbmEntry x (withState v 2)
  else match s.placeExtent (x / 128) (x % 128) with
    | some e => s.setHbmEntry x (withState e 2)
    | none => s

/-- Adopts one entry of a manifest (R77, R92 step 4) unless its slot has been released or its tile superseded; with no room in the table
its blocks are lost (R358 cause 04h). -/
def State.adoptEnt (run : List JRec) (freed : List (Nat × Nat)) (e : ManEnt) (s : State) : State :=
  let w := (e.w0, e.w1)
  let mask := (maskOf run e).getD (ovlMask w)
  let key := ovlKey w
  let gen := ovlGen w
  if ovlUse w ≠ 1 ∨ freed.contains (e.w1.toNat / 2 ^ 37, ovlHseq w) ∨ mask = 0 ∨ (ovlNs w = 1 ∧ (s.zone (key / 16384)).gen ≠ gen) then s
  else
    let w : BitVec 64 × BitVec 64 := (ovlW0 1 key gen mask, e.w1)
    match s.ovlRoom ovlBuckets (key / 128 % ovlBuckets) with
    | none => (s.raise F.MAP_ERR_ovl).logLoss 4 w
    | some i =>
      let s := (s.setOvl i w).inc F.MAP_ADOPT_tiles
      if ovlNs w = 1 then s.overlayExtent (key / 128) else s

/-- The saltern slot of a word 1. -/
def w1Slot (w1 : BitVec 64) : Nat × Nat × Nat × Nat := (bits64 w1 62 2, bits64 w1 57 5, bits64 w1 53 4, bits64 w1 37 16)

/-- The saltern slots that something refers to: live entries, manifests in force and the harvests' journal tiles. -/
def State.slotsInUse (s : State) : List (Nat × Nat × Nat × Nat) :=
  (s.map.ovl.filter (fun e => ovlUse e.2 == 1)).map (fun e => w1Slot e.2.2) ++ s.map.mans.flatMap (·.slots) ++ s.map.jslots.map (·.2)

/-- The saltern's logs from a keel's pointers (R71, R81): the slots between them to which nothing refers are released. -/
def State.saltFrom (s : State) (k : Keel) : List SaltBand :=
  let used := s.slotsInUse
  (s.bandList.zipIdx).map (fun b =>
    let n := ((s.geo.saltern[b.2]?).map (·.2.2.2)).getD 0
    let p := k.salt.getD b.2 (0, 0)
    let occ := (p.1 + n - p.2) % max 1 n
    let rel := ((List.range occ).map (fun i => (p.2 + i) % n)).filter (fun x => !(used.contains (b.1.1, b.1.2.1, b.1.2.2, x)))
    SaltBand.advance { lane := b.1.1, surface := b.1.2.1, band := b.1.2.2, slots := n, fill := p.1, tail := p.2, occ := occ, rel := rel })

/-- Opened zones come back Closed or Empty (R668), with nothing written to media. -/
def State.reopen (s : State) : State :=
  doAll (s.map.zones.filter (fun z => z.2.st == 2 || z.2.st == 3)) (fun z s =>
    s.onZone z.1 (fun d => { d with st := if d.wp = 0 ∧ d.desc.isNone then 1 else 4 })) s

/-- The records of type 3 of a run: slot address and harvest. -/
def freedOf (run : List JRec) : List (Nat × Nat) := (run.filter (fun r => r.type == 3)).map (fun r => (r.key, r.val.toNat))

/-- The harvests' journal tiles that hold records from S on: each with its last record and its slot. -/
def State.journalSlots (s : State) (lost : List Nat) (first : Nat) : List (Nat × Nat × Nat × Nat × Nat) :=
  (s.sysTiles lost sysJournal true).flatMap (fun t => match t.records.getLast? with
    | some r => if newer first r.seq then [] else (s.slotsOf [t]).map (fun p => (r.seq, p))
    | none => [])

/-- The rebuild and adoption from a voted keel and the checkpoint that it names (R92 steps 2 to 5); nothing is written to media (R93). A
tile is adopted by its manifest alone: what its metadata says is looked at when it is read (R70, R94). -/
def State.adopt (k : Keel) (c : Ckpt) (lost : List Nat) (s : State) : State :=
  let s := (s.loadCkpt c).onMap (fun m => { m with
    keelSeq := k.seq, jfirst := k.jfirst, ckseq := k.ckseq, ckLanes := (k.lanes0, k.lanes1), jrnl := [], jout := [], waits := []
    reloc := [], loss := [], lossGone := [], lossOver := 0, lossHdr := (0, 0, 0, 0), ret := [], keelUp := none, ckpt := none })
  let rs := s.recsOnMedia lost
  let run := runFrom rs rs.length k.jfirst
  let last := (run.getLast?.map (·.seq)).getD ((k.jfirst + 2 ^ 32 - 1) % 2 ^ 32)
  let s := doAll run State.replay s
  let s := s.onMap (fun m => { m with slip := slipSorted m.slip })
  let s := doIf (rs.any (fun r => newer r.seq last)) (State.raise F.MAP_ERR_jrnl) s
  let ts := s.sysTiles lost sysManifest true
  let named := mansNamed run k
  let freed := freedOf run
  let mans : List Manifest := ((named.map (·.2)).eraseDups).filterMap (fun h =>
    ((named.filter (fun x => x.2 == h)).filterMap (fun x => manifestOf ts x.1 h)).head?)
  let s := s.put F.MAP_ADOPT_tiles 0
  let s := doAll (mans.flatMap (·.ents)) (State.adoptEnt run freed) s
  let s := s.onMap (fun m => { m with
    mans := (named.map (fun x => s.manRef ts x.1 x.2)).filter (fun r => !r.slots.isEmpty), jslots := s.journalSlots lost k.jfirst
    freed := freed.filter (fun f => named.any (fun x => x.2 == f.2))
    jnum := ((s.sysTiles lost sysJournal false).map (fun t => sysIndex t.tag + 1)).foldl max 0 })
  let s := s.onMap (fun m => { m with salt := s.saltFrom k })
  let s : State := match mans.find? (fun m => m.hseq == k.hseq) with
    | none => s
    | some m =>
      let s := s.onMap (fun x => { x with lossHdr := (m.hseq, m.result, m.source, m.time) })
      doAll (m.ents.filter (fun (e : ManEnt) => ovlUse (e.w0, e.w1) == 3)) (fun (e : ManEnt) => State.logLoss e.cause (e.w0, e.w1)) s
  let s := s.onMap (fun m => { m with loss := m.loss.mergeSort (fun a b => decide (a.ns < b.ns ∨ a.ns = b.ns ∧ a.lba ≤ b.lba)) })
  let s := (((s.setWord 1 (k.seq % 2 ^ 32)).setWord 2 (k.area * 2 ^ 31 + k.ckseq % 2 ^ 31)).setWord 3 last).setWord 4 last
  s.reopen.syncSalt

/-- ADOPTION_COMPLETE (R92, R93, R358, R556): the tables are rebuilt, and the map cache is enabled. A checkpoint of which a segment fails
on both copies gives no tables, and the adoption does not complete. -/
def execAdoptionComplete (s : State) (segs : List (Nat × Nat) := []) (lost : List Nat := []) : Host.Outcome State Fault Refusal :=
  .next (match s.map.keel with
    | none => s
    | some k =>
      if s.boot.ready ≠ 1 ∨ s.draining then s
      else match s.readCkpt segs k.area k.ckseq with
        | none => doIf (!(s.flag F.MAP_ERR_ckpt)) (State.raise F.MAP_ERR_ckpt) s
        | some (c, failed) =>
          let s := doIf failed (State.raise F.MAP_ERR_ckpt) s
          let s := (s.adopt k c lost).onMap (fun m => { m with keel := none })
          let s := ((s.put F.MAP_CTL_en 1).put F.MAP_CSTAT_state 1).put F.MAP_ADOPT_phase 2
          (s.onBoot (fun b => { b with ready := 2 })).syncDirty)

/-- NAMESPACE_READY (R93, R556 step 4, R496): after the chopper test both namespaces are ready; the first write is the adoption
record, references to the newest harvest's manifests follow it (type 07h), and the harvest-loss event where the loss log holds
entries. -/
def execNamespaceReady (s : State) : Host.Outcome State Fault Refusal :=
  .next (if s.boot.ready ≠ 3 ∨ s.hrv.chopTest ∨ s.draining then s
    else
      let s := (s.onBoot (fun b => { b with ready := 4 })).onNvme (fun v => { v with nsReady := true })
      let s := s.journal 8 0 (s.word 0).toNat
      let s := doAll (s.map.mans.filter (fun r => r.hseq == (s.word 0).toNat)) State.journalMan s
      let s := if s.map.loss.isEmpty then s else s.aen 7 2 0xC5
      s.setReady.pump)

/-! ## The keel rebuild -/

/-- A write of CFG_RCVCMD (R560): only in recovery mode after keel loss. -/
def State.writeRcvcmd (p : Path) (v : Word) (s : State) : State :=
  let keel := v.getLsbD 0
  s.gated p R.CFG_RCVCMD v (keel && !(s.get F.CFG_STRAP_mode == 1 && s.get F.MAP_ADOPT_phase == 3)) (fun s =>
    if keel then (s.put F.CFG_RCVSTAT_phase 1).put F.CFG_RCVSTAT_pct 0 else s)

/-- CFG_RCVCMD_KEEL (R560). -/
def execCfgRcvcmdKeel (p : Path) (v : Word) (s : State) : Host.Outcome State Fault Refusal := .next (s.writeRcvcmd p v)

/-- The log of a band from its occupied slots, oldest first: it ends after the newest, and begins at the first occupied slot from there
on; as fill and tail pointers. -/
def logFrom (n : Nat) (occ : List Nat) : Nat × Nat :=
  match occ.getLast? with
  | none => (0, 0)
  | some x =>
    let fill := (x + 1) % n
    (fill, (fill + ((List.range n).takeWhile (fun k => !(occ.contains ((fill + k) % n)))).length) % n)

/-- The complete checkpoint of the highest sequence (R560 step 1). -/
def State.bestCkpt (s : State) : Option CkCopy :=
  (s.media.ck.filter (fun c => (s.readCkpt [] c.area c.ckpt.seq).isSome)).foldl (fun b c => match b with
    | none => some c
    | some x => if newer c.ckpt.seq x.ckpt.seq then some c else some x) none

/-- The keel that the rebuild writes (R560): what replay, and the harvests' own tiles and manifests newer than any that the journal names,
give, in the next adoption, the map of steps 2 to 4. -/
def State.rebuiltKeel (s : State) (c : CkCopy) : Keel :=
  let rs := s.recsOnMedia []
  let run := runFrom rs rs.length c.ckpt.seq
  let ts := s.sysTiles [] sysManifest true
  let old := (run.filter (fun r => r.type == 7 || r.type == 8)).map (fun r => r.val.toNat % 2 ^ 32)
  let found := ((ts.filter (fun t => (manifestOf ts t.place.lane t.hseq).isSome && old.all (fun h => newer t.hseq h))).map (fun t =>
    (t.place.lane, t.hseq))).eraseDups
  let top (l : List Nat) : Nat := l.foldl (fun m h => if newer h m then h else m) (l.headD 0)
  let hseq := top (old ++ found.map (·.2) ++ (s.keelsSeen []).map (·.2.hseq))
  let named := inOrder (refsOf run ++ found)
  let freed := freedOf run
  let ents := named.flatMap (fun x => ((manifestOf ts x.1 x.2).map (·.ents)).getD [])
  let live := (ents.filter (fun e => ovlUse (e.w0, e.w1) == 1 && !(freed.contains (e.w1.toNat / 2 ^ 37, ovlHseq (e.w0, e.w1))))).map
    (fun e => w1Slot e.w1)
  let slots := live ++ (s.journalSlots [] c.ckpt.seq).map (·.2) ++ named.flatMap (fun x => (s.manRef ts x.1 x.2).slots)
  let man (l : Nat) : Option (Nat × Nat × Nat) :=
    if named.contains (l, hseq) then ((s.manRef ts l hseq).slots.head?).map (·.2) else none
  { seq := ((s.keelsSeen []).map (·.2.seq)).foldl max 0 + 1, hseq := hseq, area := c.area, ckseq := c.ckpt.seq
    lanes0 := ((s.media.ck.find? (fun x => x.area == c.area && x.copy == 0)).map (·.lanes)).getD []
    lanes1 := ((s.media.ck.find? (fun x => x.area == c.area && x.copy == 1)).map (·.lanes)).getD []
    jrnl := (s.newKeel c.area c.ckpt.seq ([], [])).jrnl, jfirst := c.ckpt.seq, man := (List.range 4).map man
    salt := s.bandList.zipIdx.map (fun b =>
      logFrom (((s.geo.saltern[b.2]?).map (·.2.2.2)).getD 0)
        ((slots.filter (fun x => x.1 == b.1.1 && x.2.1 == b.1.2.1 && x.2.2.1 == b.1.2.2)).map (·.2.2.2)))
    digest := s.geo.digest }

/-- A keel copy lies on media: in the first good position of the track that its sequence gives on a surface (R81). -/
def State.putKeel (k : Keel) (surface : Nat) (s : State) : State :=
  match s.geo.keel.find? (fun x => x.1 == surface), s.laneOf surface with
  | some x, some n =>
    let tr := if k.seq % 2 = 0 then x.2.1 else x.2.2
    let pos := (s.goodSlots surface tr (s.slotsAt tr 0)).headD 0
    let u := sysUnit sysKeel k.seq k.hseq k.bytes
    let t : Tile :=
      { kind := 2, tag := u.tag, gen := 0, shuffled := false, coast := true, hseq := k.hseq, modsel := 4
        place := { lane := n, surface := surface, track := tr, slot := pos, qtr := 0 }, data := bytesAt k.bytes 0 4096 }
    let key := physKey surface tr pos 0
    s.onMedia (fun d => { d with tiles := cput key t (d.tiles.filter (fun x => x.1 != key)) })
  | _, _ => s

/-- KEEL_REBUILD_DONE (R560): a new keel is on media, or the rebuild has failed for want of a complete checkpoint or of two
surfaces. -/
def execKeelRebuildDone (s : State) : Host.Outcome State Fault Refusal :=
  .next (if s.get F.CFG_RCVSTAT_phase ≠ 1 ∨ s.draining then s
    else
      let sfs := s.keelSurfaces s.lanesIn
      match s.bestCkpt with
      | none => s.put F.CFG_RCVSTAT_phase 3
      | some c =>
        if sfs.length < 2 then s.put F.CFG_RCVSTAT_phase 3
        else
          let s := doAll sfs (State.putKeel (s.rebuiltKeel c)) s
          (s.put F.CFG_RCVSTAT_phase 2).put F.CFG_RCVSTAT_pct 100)

end Sys2Proof.Machine
end

