-- ==== Sys2Proof/Machine/Alerts.lean ====
section
/-! DEFINITION. The alert block (15_alerts_and_events.md R597 to R602): clearing a cause, and the temperatures. -/

namespace Sys2Proof.Machine
open Sys2Proof

/-- The source registers of a cause (R597). -/
def causeRegs (c : Nat) : List Nat :=
  match c with
  | 0 => [R.PWR_ERR, R.ALR_PWREV]
  | 1 => [R.HRV_ERR]
  | 2 => [R.ALR_CFGEV]
  | 3 => [R.HST_ERR]
  | 4 => [R.BUF_ERR]
  | 5 => [R.DMA_INT, R.SHF_ERR]
  | 6 => [R.MAP_ERR]
  | 7 => [R.CTR_ERR]
  | 8 => [R.CRYS_ERR]
  | 9 => [R.SCA_SAT, R.SRV_ERR, R.SPN_ERR]
  | 10 => [R.ECC_ERR, R.RAKE_ERR, R.ISST_ERR]
  | 11 => [R.ALR_THERM]
  | 12 => [R.EVT_ERR]
  | 16 | 17 | 18 | 19 => [R.LANE_ERR (c - 16), R.MCS_ERR (c - 16)]
  | _ => []

/-- Every source bit of cause `c` reads 0 (R598); a cocooned domain's registers hold the values of R599. -/
def State.sourcesClear (s : State) (c : Nat) : Bool :=
  if 20 ≤ c then !(s.bit F.ALR_UCODE_lane (c - 20)) else (causeRegs c).all (fun a => s.reg a == 0)

/-- The causes that drive `ALERT_N` (R600). -/
def State.enabledCauses (s : State) : Nat :=
  ((s.get F.ALR_CAUSE_c) + (if s.diapause then 2 ^ 31 else 0)) &&& s.get F.ALR_PINEN_en

/-- `ALERT_N` is driven low: an enabled cause is set and the Alert Response Address has not released it (R600,
R606). -/
def State.alert (s : State) : Bool := s.enabledCauses != 0 && !(s.flag F.ALR_SUM_supp)

/-- A write of ALR_CAUSE (R598): a latch clears only if all its sources are clear. -/
def State.writeCauseReg (p : Path) (v : Word) (s : State) : State :=
  s.gated p R.ALR_CAUSE v false (fun s =>
    doAll (List.range 24) (fun c s =>
      if v.getLsbD c && s.sourcesClear c then s.putBit F.ALR_CAUSE_c c false else s) s)

/-- ALR_CAUSE_WRITE (R598). -/
def execAlrCauseWrite (p : Path) (v : Word) (s : State) : Host.Outcome State Fault Refusal :=
  .next (s.writeCauseReg p v)

/-- TEMP_SENSOR_UPDATE (R601): the highest junction temperature, the external diode and the stack temperature in °C;
the thermal source bits set as the junction temperature crosses its thresholds. -/
def execTempSensorUpdate (tj td hbm : Byte) (s : State) : Host.Outcome State Fault Refusal :=
  let old := sInt 8 (s.get F.ALR_TEMP_tj)
  let new := tj.toInt
  let above := sInt 8 (s.get F.ALR_TTH_over)
  let under := sInt 8 (s.get F.ALR_TTH_under)
  let crit := sInt 8 (s.get F.HRV_DIAPCFG_tcrit)
  let s := ((s.put F.ALR_TEMP_tj tj.toNat).put F.ALR_TEMP_td td.toNat).put F.HBM_STAT_temp hbm.toNat
  let s := s.put F.HBM_STAT_hot (if 85 < hbm.toInt then 1 else 0)
  let max8 (o : Option Byte) (b : Byte) : Option Byte :=
    match o with
    | some x => if x.toInt < b.toInt then some b else some x
    | none => some b
  let s := if s.get F.EVT_MEASCFG_period = 0 then s
    else { s with meas := { s.meas with tj := max8 s.meas.tj tj, td := max8 s.meas.td td } }
  let s := { s with hrv := { s.hrv with critSince := if crit < new then some (s.hrv.critSince.getD s.us) else none } }
  let s := doIf (decide (old < above ∧ above ≤ new)) (fun s => (s.raiseAt F.ALR_THERM_e 0).aen 1 1 2) s
  let s := doIf (s.flag F.ALR_TTH_underen && decide (under ≤ old ∧ new < under))
    (fun s => (s.raiseAt F.ALR_THERM_e 1).aen 1 1 2) s
  .next (doIf (decide (old ≤ crit ∧ crit < new)) (State.raiseAt F.ALR_THERM_e 2) s)

end Sys2Proof.Machine
end

