-- ==== Sys2Proof/Machine/Servo.lean ====
section
/-! DEFINITION. The samples and moves of the actuators (06_servo_compute.md R242, R277; 13_startup_and_image.md R555) with
what the harvest does on them, and flutter at start-up (R285). -/

namespace Sys2Proof.Machine
open Sys2Proof

/-- Lane `n` has settled on the first track of a saltern band of its own (R345). -/
def State.atBand (s : State) (n : Fin 4) : Bool :=
  !(s.moving n) && s.flag (F.SRV_POS_valid n) && (s.saltBands n.val).any (fun b => b.2.2.1 == (s.act n).target)

/-- The lane stops coast writing, of data or of step 7, where its symbol rate is below 1.60 Gbaud and half-rate mode is not allowed
(R129). -/
def State.coastRate (n : Fin 4) (s : State) : State :=
  if !(s.flag (F.LANE_CTL_halfok n)) && decide (s.get (F.LANE_SYMR_mbaud n) < 1600) && (s.hstep == 4 || s.hstep == 5) then
    s.onLane n (fun l => { l with left := true })
  else s

/-- What a position sample of actuator `a` moves in a harvest's coast (R345, R347): the symbol rate follows the speed, a head
that has reached its saltern band is marked, and tiles are dealt. -/
def State.coastSample (a : Fin 4) (s : State) : State :=
  if !s.coasting then s
  else
    let s := s.coastRate a
    let s := if (s.hstep == 3 || s.hstep == 4) && s.atBand a then s.onLane a (fun l => { l with inBand := true }) else s
    s.coastGo

/-- SERVO_SAMPLE (R242, R345, R347): the sample, and what the coast path does on it. -/
def execServoSample (a : Fin 4) (m : SampleIn) (s : State) : Host.Outcome State Fault Refusal := .next ((s.sample a m).coastSample a)

/-- UNLOAD_COMPLETE (R277, R309, R350, R558, R595): the heads of actuator `a` are on the ramp; its lane leaves service where its
sense ADC has failed. Once all heads are unloaded, the stop goes on, and harvest step 8 ends. -/
def execUnloadComplete (a : Fin 4) (s : State) : Host.Outcome State Fault Refusal :=
  .next (if (s.act a).ramp ≠ some true then s
    else
      let s := ((s.onAct a (fun x => { x with ramp := none, free := true, pes := 0 })).putBit F.SRV_STAT_loaded a false).endMove a true
      let s := s.put (F.SRV_POS_valid a) 0
      let s := if s.bit F.ISST_SENSEST_fail (3 + a) then (s.onLane a (fun l => { l with lost := true })).laneLeft.pump else s
      let s := if s.spn.stop = 2 then s.stopUnload else s
      if s.hrvState = 6 ∧ !s.hrv.parked ∧ s.get F.SRV_STAT_loaded = 0 then s.endPark 0 else s)

/-- LOAD_COMPLETE (R277, R247, R307): the heads of actuator `a` are loaded, and it follows the track of its first valid
sample at `pos`; its lane is back in service. -/
def execLoadComplete (a : Fin 4) (pos : Int) (s : State) : Host.Outcome State Fault Refusal :=
  .next (if (s.act a).ramp ≠ some false then s
    else
      let track := ((pos + 2048) / 4096).toNat
      let ref : Int := 4096 * track
      let pes := clampI (-0x8000) 0x7FFF (ref - pos)
      let s := s.onAct a (fun x => { x with
        ramp := none, target := track, offset := 0, pos := pos, ref := ref, refAt := ref, pes := pes, free := false, miss := 0
        settle := 0, acc := 0 })
      let s := (((s.put (F.SRV_POS_valid a) 1).put (F.SRV_POS_track a) track).put (F.SRV_PES_pes a) (ofInt 16 pes)).putBit
        F.SRV_STAT_loaded a true
      let s := (s.endMove a true).onLane a (fun l => { l with lost := s.bit F.ISST_SENSEST_fail (3 + a) })
      let s := (s.onSpn (fun x => { x with fly := x.fly.filter (· != a.val) })).forceOff a
      let s := match (s.act a).next with
        | some t => (s.onAct a (fun x => { x with next := none })).wantSeek a t
        | none => s
      s.pump)

/-- HEAD_LOAD_REQUEST (R555, R307): the observer's speed exceeds the head-load speed; on every fitted actuator the first
time, and later on those that R307 unloaded. -/
def execHeadLoadRequest (s : State) : Host.Outcome State Fault Refusal :=
  .next (if s.boot.phase ≠ 4 ∨ s.get F.SPN_STAT_obsrpm ≤ s.boot.headLoad ∨ s.diapause ∨ s.harvesting ∨ !(s.runs 5) then s
    else
      let mine (a : Fin 4) : Bool := s.fitted a && !(s.loaded a) && !(s.moving a) &&
        (!s.boot.loadReq || s.spn.fly.contains a.val)
      let s := doAll (allLanes.filter mine) (fun a => State.rampMove a false) s
      { s with boot := { s.boot with loadReq := true } })

/-- π, short of it by less than `10 ^ -40`, in units of `10 ^ -40`. -/
def pi40 : Nat := 31415926535897932384626433832795028841971

/-- A margin of 4h / (π·A) against a nominal one of `m` / 4,096: it is at least `p` / `q` times the nominal. -/
def marginAtLeast (h a m p q : Nat) : Bool := decide (pi40 * a * m * p < 4 * 4096 * h * q * 10 ^ 40)

/-- A numerator mantissa trimmed by the margin ratio, held between 0.8 and 1.25 (R285); one of the two whole numbers
beside the exact product, which one open. -/
def trim (b : Int) (h a m : Nat) : Int :=
  if !(marginAtLeast h a m 4 5) then gain (4 * b) 5
  else if marginAtLeast h a m 5 4 then gain (5 * b) 4
  else
    let x : Int := b * (4 * 4096 * h * 10 ^ 40 : Nat)
    x / (pi40 * a * m : Nat) + Config.trimmed b h a m % 2

/-- One result of flutter at start-up (R285): the loop, SCA_FLPER and SCA_FLA. It is compared with the flutter reference of
the active set; a trim goes to the live registers and to every valid set of the store, and anything else is reported. -/
def State.flutterResult (r : Fin 16 × Nat × Nat) (s : State) : State :=
  let act := s.get F.SRV_SETST_act
  let ref := (s.setWord9 act (1224 + s.getA (F.SCA_LCFG_act r.1))).toNat
  let m := natBits ref 16 16
  let p := 16 * natBits ref 8 8
  let sec := natBits ref 0 7
  let h := s.get F.SCA_FLAMP_h
  let a := r.2.2
  if 4 * r.2.1 < 3 * p ∨ 5 * p < 4 * r.2.1 ∨ !(marginAtLeast h a m 1 2) ∨ marginAtLeast h a m 2 1 then s.fwEvent 1
  else
    let t (w : Word) : Word := BitVec.ofInt 32 (trim w.toInt h a m)
    let s := doAll [R.SCA_SEC_B0 sec, R.SCA_SEC_B1 sec, R.SCA_SEC_B2 sec, R.SCA_SEC_B3 sec] (fun x s => s.setReg x (t (s.reg x))) s
    let words := ((List.range 8).filter (fun i => s.setWord9 i 1279 == 0x53455431#32)).flatMap
      (fun i => (List.range 4).map (fun k => 1280 * i + 9 * sec + k))
    s.onServo (fun x => { x with
      store := words.foldl (fun st w => cset (fun _ => (0 : Word)) w (t (cget (fun _ => (0 : Word)) st w)) st) x.store })

/-- FLUTTER_STARTUP_DONE (R285, R556 steps 2 and 3, R540): the results of flutter, in order; the chopper test pulse and a
counters record follow. -/
def execFlutterStartupDone (rs : List (Fin 16 × Nat × Nat)) (s : State) : Host.Outcome State Fault Refusal :=
  .next (if s.boot.ready ≠ 2 ∨ !(s.flag F.SPN_STAT_upok) ∨ s.servo.flutter.isSome ∨ s.harvesting ∨ s.diapause then s
    else
      let s := doAll rs State.flutterResult s
      let s := s.onHrv (fun h => { h with chopTest := true, chop := h.chop || !h.chopShort })
      { s.countersRecord with boot := { s.boot with ready := 3 } })

end Sys2Proof.Machine
end

