-- ==== Sys2Proof/Machine/Channel.lean ====
section
/-! DEFINITION. The read/write channel's commands and events (03_read_write_channel.md; 01_architecture.md R32, R33): units and
their outcomes, calibration sets, the preamplifier port and the synthesizer. -/

namespace Sys2Proof.Machine
open Sys2Proof

/-! ## Synthesizer and preamplifier fault -/

/-- Live writes to lane `n` are held: its synthesizer retunes (R32), its domain is cocooned, or a self-test slice has it
(R587). -/
def State.laneHolds (s : State) (n : Fin 4) : Bool := (s.lane n).retune || !(s.laneUp n) || s.slice n.val

/-- A performed write of a register of the lane's word clock: it acts at once, or when it is no longer held. -/
def State.laneTake (n : Fin 4) (a : Nat) (v : Word) (s : State) : State :=
  if s.laneHolds n then s.onLane n (fun l => { l with held := l.held ++ [(a, v)] }) else s.take a v

/-- SYNTH_LOCK_LOSS (R33, R135): write-unsafe while `WGn` is high. -/
def execSynthLockLoss (n : Fin 4) (s : State) : Host.Outcome State Fault Refusal :=
  .next (if !(s.flag (F.LANE_STAT_lock n)) || !(s.laneUp n) then s
    else
      let s := (s.put (F.LANE_STAT_lock n) 0).raise (F.LANE_ERR_lockloss n)
      if s.flag (F.LANE_STAT_wg n) then s.writeUnsafe n (some 3) else s)

/-- SYNTH_LOCK_ACQUIRED (R32): the live writes held at the crossing take effect. -/
def execSynthLockAcquired (n : Fin 4) (s : State) : Host.Outcome State Fault Refusal :=
  .next (if s.flag (F.LANE_STAT_lock n) || !(s.laneUp n) then s
    else
      let s := (s.put (F.LANE_STAT_lock n) 1).onLane n (fun l => { l with retune := false })
      if s.laneHolds n then s
      else (doAll (s.lane n).held (fun w s => s.take w.1 w.2) s).onLane n (fun l => { l with held := [] }))

/-- PAFLT_ASSERT (R135, R136): the level of `PAFLTn` changes; while `WGn` is high its assertion is write-unsafe, and otherwise it
fails the read in progress. -/
def execPafltAssert (n : Fin 4) (level : Bool) (s : State) : Host.Outcome State Fault Refusal :=
  .next (if !(s.laneUp n) then s
    else
      let was := (s.lane n).paflt
      let s := s.onLane n (fun l => { l with paflt := level })
      if !level || was then s
      else
        let s := s.raise (F.LANE_ERR_pafault n)
        if s.flag (F.LANE_STAT_wg n) then s.writeUnsafe n (some 2)
        else s.onLane n (fun l => { l with unit := l.unit.map (fun u => if !u.write && u.begun then { u with bad := true } else u) }))

/-! ## Staged and live registers -/

/-- A write of LANEn_GO (R17, R149, R152): it also repeats a set load that failed, which takes the staged values. -/
def State.writeLaneGo (p : Path) (n : Fin 4) (v : Word) (s : State) : State :=
  let go := v.getLsbD 0
  let again := (s.lane n).setBad
  s.gated p (R.LANE_GO n) v (go && s.flag (F.LANE_GO_pending n) && !again) (fun s =>
    if !go then s
    else
      let s := (s.put (F.LANE_GO_pending n) 1).onLane n (fun l => { l with goHeld := !(s.laneUp n) })
      if again then (s.laneActivate n).onLane n (fun l => { l with setBad := false, pset := (l.loading.map l.setFrames).getD [] }) else s)

/-- LANE_GO (R152). -/
def execLaneGo (p : Path) (n : Fin 4) (v : Word) (s : State) : Host.Outcome State Fault Refusal := .next (s.writeLaneGo p n v)

/-- LANE_SHADOW_ACTIVATE (R152): with the sequencer halted; a set load does the same. What was asked for while the domain was
cocooned waits for the first set load. -/
def execLaneShadowActivate (n : Fin 4) (s : State) : Host.Outcome State Fault Refusal :=
  .next (if s.executing n || !(s.laneUp n) || (s.lane n).goHeld then s else s.laneActivate n)

/-- A write of LANEn_EQMU (R110): writing 0 to save has no effect. -/
def State.writeEqmu (p : Path) (n : Fin 4) (v : Word) (s : State) : State :=
  s.gated p (R.LANE_EQMU n) v (decide ((F.LANE_EQMU_mu 0).of v < 8)) (fun s =>
    s.laneTake n (R.LANE_EQMU n) (v ||| (s.reg (R.LANE_EQMU n) &&& 0x80000000#32)))

/-- EQMU_SAVE (R110). -/
def execEqmuSave (p : Path) (n : Fin 4) (v : Word) (s : State) : Host.Outcome State Fault Refusal := .next (s.writeEqmu p n v)

/-- A write of LANEn_BRHW (R140): writing 1 to clr zeroes both marks. -/
def State.writeBrhw (p : Path) (n : Fin 4) (v : Word) (s : State) : State :=
  s.gated p (R.LANE_BRHW n) v false (fun s =>
    if v.getLsbD 31 then (s.put (F.LANE_BRHW_a n) 0).put (F.LANE_BRHW_b n) 0 else s)

/-- BRHW_CLR (R140). -/
def execBrhwClr (p : Path) (n : Fin 4) (v : Word) (s : State) : Host.Outcome State Fault Refusal := .next (s.writeBrhw p n v)

/-! ## Calibration sets -/

/-- The set RAM (R144): word `i` reads zero until it is written. -/
def setRamDefault (_ : Nat) : Word := 0

/-- The 64-bit codeword `a` of the set RAM: two words. -/
def Lane.setCode (l : Lane) (a : Nat) : BitVec 64 :=
  cget setRamDefault l.setRam (2 * a + 1) ++ cget setRamDefault l.setRam (2 * a)

/-- The set RAM address advances (LANEn_CALADDR.inc). -/
def State.calNext (n : Fin 4) (s : State) : State := if s.flag (F.LANE_CALADDR_inc n) then s.inc (F.LANE_CALADDR_addr n) else s

/-- A write of LANEn_CALDATA (R148): the set RAM only. -/
def State.writeCaldata (p : Path) (n : Fin 4) (v : Word) (s : State) : State :=
  s.gated p (R.LANE_CALDATA n) v false (fun s =>
    let a := s.get (F.LANE_CALADDR_addr n)
    let s := s.onLane n (fun l => { l with setRam := cset setRamDefault a v l.setRam })
    (s.wroteWords 5 n (a / 2) 1 (some ((s.lane n).setCode (a / 2)))).calNext n)

/-- A read of LANEn_CALDATA, which may meet an uncorrectable error. -/
def State.readCaldata (p : Path) (n : Fin 4) (ecc : Bool) (s : State) : State :=
  s.gatedRead p (R.LANE_CALDATA n) (fun s =>
    let a := s.get (F.LANE_CALADDR_addr n) / 2
    let (ue, s) := s.readWords 5 n a 1 ecc (some ((s.lane n).setCode a))
    (doIf ue (State.raise (F.LANE_ERR_setecc n)) s).calNext n)

/-- CALDATA_ACCESS (R148). -/
def execCaldataAccess (p : Path) (n : Fin 4) (wr : Option Word) (ecc : Bool) (s : State) : Host.Outcome State Fault Refusal :=
  .next (match wr with
    | some v => s.writeCaldata p n v
    | none => s.readCaldata p n ecc)

/-- SET_LOAD_COMPLETE (R110, R146 to R149): the working registers take the set, or nothing is loaded where its marker is
wrong or a word has an uncorrectable error; the load is then repeated after LANEn_GO. An index of 128 or above, which R144 rules
out, names no set: it fails as an invalid set does (DESIGN CHOICE). -/
def execSetLoadComplete (n : Fin 4) (ecc : Bool) (s : State) : Host.Outcome State Fault Refusal :=
  .next (match (s.lane n).loading with
    | none => s
    | some i =>
      if (s.lane n).setBad || !(s.laneUp n) then s
      else
      let (ue, s) := s.readWords 5 n (64 * i) 64 ecc none
      if ue || decide (128 ≤ i) || cget setRamDefault (s.lane n).setRam (128 * i + 127) != 0xC4A1#32 then
        let s := (s.put (F.LANE_STAT_setv n) 0).onLane n (fun l => { l with setBad := true })
        s.raise (F.LANE_ERR_setecc n)
      else
        let r := max 1 s.geo.rings.length
        let s := s.onLane n (fun l => { l with
          setok := true, setIdx := i, loading := none, taps := l.setTaps i, front := l.setFront i, vga := (l.setFront i).vga })
        let s := ((s.put (F.LANE_STAT_setv n) 1).put (F.LANE_STAT_head n) (i / r)).put (F.LANE_STAT_ring n) (i % r)
        s.setReg (R.LANE_RATIO n) (cget setRamDefault (s.lane n).setRam (128 * i)))

/-- Puts a 16-bit value into half `h` of a word of the set RAM. -/
def Lane.putHalf (l : Lane) (w h : Nat) (x : Int) : Lane :=
  { l with setRam := cset setRamDefault w ((⟨0, 16 * h, 16⟩ : Field).into (ofInt 16 x) (cget setRamDefault l.setRam w)) l.setRam }

/-- EQ_TAP_COPY (R110): with RG low, the working taps go into entry `k` of the set RAM, which is the active set's. -/
def execEqTapCopy (n : Fin 4) (k : Nat) (s : State) : Host.Outcome State Fault Refusal :=
  .next (if !(s.flag (F.LANE_EQMU_save n)) || s.flag (F.LANE_STAT_rg n) || !(s.flag (F.LANE_STAT_setv n)) || !(s.laneUp n) || k != (s.lane n).setIdx then s
    else
      let s := s.wroteWords 5 n (64 * k + 2) 12 none
      let s := s.onLane n (fun l => l.taps.zipIdx.foldl (fun l t => l.putHalf (128 * k + 4 + t.2 / 2) (t.2 % 2) t.1) l)
      s.put (F.LANE_EQMU_save n) 0)

/-! ## The preamplifier port -/

/-- A write of LANEn_PASCMD (R143): the transaction waits for the port, and for `WGn` to be low. -/
def State.writePascmd (p : Path) (n : Fin 4) (v : Word) (s : State) : State :=
  s.gated p (R.LANE_PASCMD n) v (s.flag (F.LANE_PASCMD_busy n)) (fun s =>
    let s := (s.take (R.LANE_PASCMD n) v).put (F.LANE_PASCMD_busy n) 1
    let f : PaFrame := { rd := s.flag (F.LANE_PASCMD_rd n), addr := s.get (F.LANE_PASCMD_addr n)
                         data := s.get (F.LANE_PASCMD_wdata n), cmd := true }
    s.onLane n (fun l => { l with pheld := some f }))

/-- PASCMD_WRITE (R143). -/
def execPascmdWrite (p : Path) (n : Fin 4) (v : Word) (s : State) : Host.Outcome State Fault Refusal := .next (s.writePascmd p n v)

/-- The head that a write frame selects (R100, R199): MCSn_PHSEL's form where the frame has it, else as the preamplifier's registers
have it. -/
def State.headOfFrame (s : State) (n : Fin 4) (f : PaFrame) : Option Nat :=
  if s.flag (F.MCS_PHSEL_en n) && f.addr == s.get (F.MCS_PHSEL_addr n) then
    (List.range 8).find? (fun h => decide ((s.get (F.MCS_PHSEL_base n) ||| (h * 2 ^ s.get (F.MCS_PHSEL_shift n))) % 256 = f.data))
  else Config.headSelect f.addr f.data

/-- PAS_FRAME_SEND (R142, R143, R146, R199, R200): a strobe frame, else a frame of a set load, else the transaction held while `WGn`
is high. Its bits go out on `PASDIOn`. -/
def execPasFrameSend (n : Fin 4) (s : State) : Host.Outcome State Fault Refusal :=
  .next (if (s.lane n).pcur.isSome || !(s.laneUp n) then s
    else match (s.lane n).pq, (s.lane n).pset, (s.lane n).pheld with
      | f :: rest, _, _ => s.onLane n (fun l => { l with pq := rest, pcur := some f, pas := f.bits })
      | [], f :: rest, _ => s.onLane n (fun l => { l with pset := rest, pcur := some f, pas := f.bits })
      | [], [], some f =>
        if s.flag (F.LANE_STAT_wg n) then s else s.onLane n (fun l => { l with pheld := none, pcur := some f, pas := f.bits })
      | [], [], none => s)

/-- PAS_FRAME_DONE (R142): a read frame returns in bits 7:0 what the preamplifier has driven; a write frame may select a head. -/
def execPasFrameDone (n : Fin 4) (rdata : Byte) (s : State) : Host.Outcome State Fault Refusal :=
  .next (match (s.lane n).pcur with
    | none => s
    | some f =>
      let s := s.onLane n (fun l => { l with pcur := none, pas := if f.rd then l.pas ||| rdata.setWidth 16 else l.pas })
      let s := match (if f.rd then none else s.headOfFrame n f) with
        | some h => s.selectHead n h
        | none => s
      if f.cmd then
        let s := s.put (F.LANE_PASCMD_busy n) 0
        if f.rd then s.put (F.LANE_PASCMD_rdata n) ((s.lane n).pas.toNat % 256) else s
      else s)

/-! ## Units -/

/-- A lane that writes coast tiles enters half-rate mode below 1.70 Gbaud, where it may (R128): whether it does so now, and the
state after it. -/
def State.halfNow (n : Fin 4) (s : State) : Bool × State :=
  let coast := ((s.lane n).cur.map (fun c => c.op == 2)).getD false
  if coast && s.coasting && s.flag (F.LANE_CTL_halfok n) && !(s.flag (F.LANE_STAT_half n)) &&
      decide (s.get (F.LANE_SYMR_mbaud n) < 1700) then
    (true, (s.put (F.LANE_STAT_half n) 1).retuneNow n)
  else (false, s)

/-- A write unit finds no whole unit in the FIFO (R132, R217): a write miss. -/
def State.writeMiss (n : Fin 4) (s : State) : State :=
  let s := (s.onLane n (fun l => { l with unit := none, wmiss := true })).setGates n
  (s.raise (F.LANE_ERR_wmiss n)).latchTrap n 4 (some 4)

/-- The fields of a unit as they pass under the head of lane `n` (R119, R120, R125, R126). -/
def State.fieldsOf (s : State) (n : Fin 4) (u : LUnit) : List (FieldKind × Nat) :=
  cutFields ((s.ringUnder n).cuts (unitStart u.modsel u.pos u.qtr) (unitLen u.modsel)) 0 (unitFields u.modsel)

/-- The lane's settings for a read unit. -/
def State.hearCfg (s : State) (n : Fin 4) (u : LUnit) : HearCfg :=
  { front := (s.lane n).front, taps := (s.lane n).taps, target := s.getA (F.LANE_AGC_target n), agc := s.getA (F.LANE_AGC_gain n)
    acq := s.getA (F.LANE_TR_acq n), kp := s.getA (F.LANE_TR_kp n), ki := s.getA (F.LANE_TR_ki n)
    level := if s.flag (F.LANE_CTL_taen n) then s.get (F.LANE_TATH_level n) else 0, len := s.get (F.LANE_TATH_len n)
    mu := s.get (F.LANE_EQMU_mu n), hold := u.agchold }

/-- The unit of the current command that is next: what its metadata says, and its data. -/
def State.unitNow (s : State) (n : Fin 4) (c : MediaCmd) : MUnit :=
  (c.units[s.get (F.MCS_TPOS_tidx n)]?).getD { kind := 0, tag := 0, gen := 0, hseq := 0, shuffled := false, ctx := 0, data := [] }

/-- The place of a unit as its metadata and its scrambler have it (R122, R124). -/
def placeOf (n : Fin 4) (surface track pos qtr modsel : Nat) : Place :=
  { lane := n, surface := surface, track := track, slot := pos, qtr := if natBits modsel 6 2 = 1 then qtr else 0 }

/-- The tile that a write unit writes (R122). -/
def MUnit.tile (mu : MUnit) (n : Fin 4) (c : MediaCmd) (u : LUnit) : Tile :=
  { kind := mu.kind, tag := mu.tag, gen := mu.gen, shuffled := mu.shuffled, coast := c.op == 2, hseq := mu.hseq
    modsel := u.modsel / 16, place := placeOf n c.surface c.track u.pos u.qtr u.modsel, data := mu.data }

/-- The unit at the head of the write FIFO: the command's, or one that a firmware channel put there, whose bytes say what it is. -/
def State.headTile (s : State) (n : Fin 4) (c : MediaCmd) (u : LUnit) : Tile :=
  if u.fw then
    let k := userBytes u.modsel
    Tile.parse (placeOf n c.surface c.track u.pos u.qtr u.modsel) (bytesAt (s.lane n).port 0 k) (bytesAt (s.lane n).port k 64)
  else (s.unitNow n c).tile n c u

/-- A read unit begins (R104 to R113, R138 to R140, R156 to R160): the read chain hears it, and its samples go to brine unless
MODSEL, LANEn_CTL.capen, the read gate or CRYS rules that out; what overflows a capture FIFO is dropped, the last samples first
(DESIGN CHOICE: which ones are lost is open), and the record is not whole. -/
def State.beginRead (n : Fin 4) (u : LUnit) (c : MediaCmd) (m : BeginIn) (s : State) : State :=
  let swap := s.geo.swapped.contains (s.under n).1
  let h := hear (s.hearCfg n u) (s.lane n).vga (s.lane n).dc u.widen m.sync (s.fieldsOf n u) (if swap then m.rd2 else m.rd1)
    (if swap then m.rd1 else m.rd2)
  let spill := decide (512 < max m.fillA m.fillB)
  let cap := s.flag (F.LANE_STAT_rg n) && s.flag (F.LANE_CTL_capen n) && !(u.modsel.testBit 3) && s.crysOn && !u.loop
  let s := s.onLane n (fun l => { l with
    vga := h.2.1, dc := h.2.2, unit := some { u with begun := true, nocap := !cap || spill, heard := h.1 } })
  let s := s.setGates n
  if !cap then s
  else
    let kept := h.1.a.length - (if spill then 64 * (max m.fillA m.fillB - 512) else 0)
    let s := s.capture n (placeOf n c.surface c.track u.pos u.qtr u.modsel) (h.1.a.take kept) (h.1.b.take kept)
    let s := (s.put (F.LANE_BRHW_a n) (max (s.get (F.LANE_BRHW_a n)) (min 512 m.fillA))).put (F.LANE_BRHW_b n)
      (max (s.get (F.LANE_BRHW_b n)) (min 512 m.fillB))
    doIf spill (State.raise (F.LANE_ERR_brovf n)) s

/-- A write unit begins (R131 to R133): its transitions go out, and what lay there is lost; it finds a whole unit in the FIFO, or
is a write miss. -/
def State.beginWrite (n : Fin 4) (u : LUnit) (c : MediaCmd) (m : BeginIn) (s : State) : State :=
  let h := s.halfNow n
  if h.1 then h.2
  else if ((h.2.lane n).wfifo = 0 ∨ m.starved) ∧ !((h.2.lane n).portUnit u.modsel) then h.2.writeMiss n
  else
    let u := { u with fw := decide ((h.2.lane n).wfifo = 0 ∨ m.starved) }
    let t := s.headTile n c u
    let s := (h.2.onLane n (fun l => { l with
      unit := some { u with begun := true }, wd := t.written l.front.precomp (h.2.fieldsOf n u) })).setGates n
    if s.flag (F.LANE_STAT_wg n) then
      s.onMedia (fun d => { d with tiles := d.tiles.filter (fun x => x.1 != physKey (s.under n).1 (s.under n).2 u.pos t.place.qtr) })
    else s

/-- UNIT_BEGIN (R131, R132, R138, R149, R196, R211, R217): the start of the armed unit's position has passed under the head. Without a
loaded set, or during a retune, no unit begins, and no coast tile on a lane that has stopped coast writing (R129). -/
def execUnitBegin (n : Fin 4) (m : BeginIn) (s : State) : Host.Outcome State Fault Refusal :=
  .next (match (s.lane n).unit, (s.lane n).cur with
    | some u, some c =>
      if u.begun || !u.due || !(s.executing n) || !(s.laneUp n) || !(s.flag (F.LANE_STAT_setv n)) || (s.lane n).retune ||
          (c.op == 2 && (s.lane n).left) then s
      else if u.write then s.beginWrite n u c m
      else s.beginRead n u c m
    | _, _ => s)

/-- A unit is complete (R212): the remaining count, the tile index and the buffer offset advance. -/
def State.advance (n : Fin 4) (u : LUnit) (c : MediaCmd) (s : State) : State :=
  let s := s.setCur n (some { c with count := c.count - 1 })
  let s := s.put (F.MCS_TPOS_tidx n) (s.get (F.MCS_TPOS_tidx n) + 1)
  s.onLane n (fun l => { l with unit := none, posDone := true, tdone := true, boff := l.boff + unitSize u.modsel })

/-- A coast tile has passed its end mark: of data, or of the journal, the manifest or the keel. -/
def State.coastMark (n : Fin 4) (mu : MUnit) (s : State) : State :=
  (if mu.kind = 2 then s.systemWritten n.val mu else s.coastWritten n.val mu).coastGo

/-- BUF channel `n` (write) or `n + 4` (read) moves the data of a unit (R420): the bytes count, and a tile of a shuffled zone
goes through the shuffler (R439) under the descriptor that BUF loads into that channel's slot (R443; the slot that BUF picks
is a DESIGN CHOICE: the channel's own number). -/
def State.bufMoved (n : Fin 4) (write : Bool) (home : Bool) (mu : MUnit) (s : State) : State :=
  let ch := if write then n.val else n.val + 4
  let s := s.add (F.DMA_CH_BYTES_count ch) (if home then 16384 else 4096)
  let z := mu.tag / 65536
  if home && mu.kind == 0 && (s.zone z).shuf && s.variant != .d02 then
    let d := (s.zone z).desc.getD []
    let s := (s.setReg (R.SHF_SLOT_D0 ch) (BitVec.ofNat 32 (ofLe (bytesAt d 0 4)))).setReg (R.SHF_SLOT_D1 ch)
      (BitVec.ofNat 32 (ofLe (bytesAt d 4 4)))
    ((s.put (F.SHF_SLOT_ZONE_z ch) z).putBit F.SHF_STAT_valid ch true).inc F.SHF_CNT_tiles
  else s

/-- The CRC-64 recomputed over the systematic part of the encoded stream, some of whose bits are wrong, matches the tile's (R134). -/
def Tile.verified (t : Tile) (err : List Nat) : Bool :=
  let bad := err.filter (fun i => decide (i < (codeOf (t.modsel * 16)).bits))
  bad.isEmpty ||
    (let b := scramble t.place ((chunks 8 t.info.length ((bitsOf t.info).zipIdx.map (fun x => x.1 != bad.contains x.2))).map byteOf)
     crc64 (b.take (b.length - 8)) == t.crc)

/-- A write unit ends (R134, R212): where `WGn` did not stay high it is invalid; one whose CRC-64 does not match fails write
verification; and otherwise it is on media, on the track under the head. -/
def State.endWrite (n : Fin 4) (u : LUnit) (c : MediaCmd) (err : List Nat) (s : State) : State :=
  let s := s.onLane n (fun l => { l with unit := none })
  let mu := s.unitNow n c
  let t := s.headTile n c u
  let s := if u.fw then s else s.bufMoved n true (c.op == 1) mu
  if u.short then s.setGates n
  else if u.bad || !(t.verified err) then
    let s := (s.onLane n (fun l => { l with wverify := true })).setGates n
    ((s.inc (F.LANE_WVCNT_count n)).raise (F.LANE_ERR_wverify n)).latchTrap n 3 (some 5)
  else
    let s := if u.fw then s.onLane n (fun l => { l with port := l.port.drop (64 * unitSize u.modsel) }) else s
    let s := ((s.advance n u c).setGates n).inc (F.LANE_WRCNT_count n)
    let s := s.unitWritten c mu t (physKey (s.under n).1 (s.under n).2 u.pos t.place.qtr)
    if c.op = 2 then ((s.coastMark n mu).halfNow n).2 else s.pump

/-- A read unit ends: its data is in the read FIFO, and its outcome follows; in LOOPBACK the command goes on unchanged (R194). -/
def State.endRead (n : Fin 4) (u : LUnit) (c : MediaCmd) (s : State) : State :=
  let p : PUnit := { surface := c.surface, track := c.track, pos := u.pos, qtr := u.qtr, under := s.under n, modsel := u.modsel
                     captured := !u.nocap && !u.short, bad := u.bad || u.short, loop := u.loop, mu := s.unitNow n c, heard := u.heard }
  let s := if u.loop then s.onLane n (fun l => { l with unit := none, tdone := true }) else (s.advance n u c).inc (F.LANE_RDCNT_count n)
  s.onLane n (fun l => { l with posted := l.posted ++ [p] })

/-- UNIT_END_MARK (R134, R212): the last postamble symbol of the unit in progress has passed; for a write, the bits of the encoded
stream that are wrong. A full read FIFO holds a read unit (R29). -/
def execUnitEndMark (n : Fin 4) (err : List Nat) (s : State) : Host.Outcome State Fault Refusal :=
  .next (match (s.lane n).unit, (s.lane n).cur with
    | some u, some c =>
      if !u.begun || decide (0 < u.left) then s
      else if u.write then s.endWrite n u c err
      else if u.loop || (s.lane n).readRoom u.modsel then s.endRead n u c
      else s
    | _, _ => s)

/-! ## Outcomes -/

/-- The outcome of on-the-fly decoding (R112, R115 to R117), and the tile where it is OK1 or OK2. `dec` says of each global
iteration in which local iteration the syndrome becomes zero, if it does, and with which codeword; LANEn_CTL.iterg and iterl bound
both. No codeword is stored where nothing lies. -/
def State.decode (s : State) (n : Fin 4) (p : PUnit) (dec : List (Option (Nat × Codeword))) : Nat × Option Tile :=
  let there := s.thereAt n p
  let ends := (dec.take (s.get (F.LANE_CTL_iterg n))).zipIdx.filterMap (fun d => match d.1 with
    | some (l, w) => if l ≤ s.get (F.LANE_CTL_iterl n) ∧ (w = .stored → there.isSome) then some (d.2, w) else none
    | none => none)
  if p.bad then (2, none)
  else if p.heard.sync.isNone then (4, none)
  else match ends with
    | [] => (2, none)
    | (g, w) :: _ =>
      match w.tile there (p.slot n) with
      | some t => (if g = 0 then 0 else 1, some t)
      | none => (3, none)

/-- What each global iteration of a decode ends with: the local iteration of its first zero syndrome, and the codeword. -/
def decoded (its : List (Option Nat)) (words : List Codeword) : List (Option (Nat × Codeword)) :=
  (its.zip words).map (fun x => x.1.map (fun l => (l, x.2)))

/-- The lane learns an outcome (R108, R117, R193): OUTOK, the TA-affected mark, the TA count, and after a good tile the taps as
adapted. -/
def State.learn (n : Fin 4) (p : PUnit) (o : Nat) (s : State) : State :=
  let good := decide (o ≤ 1)
  let s := s.onLane n (fun l => { l with
    outok := good, outCode := o, outTa := !p.heard.ta.isEmpty
    taps := if good && s.flag (F.LANE_CTL_adapt n) && !p.loop then p.heard.taps else l.taps })
  s.add (F.LANE_TACNT_count n) p.heard.ta.length

/-- TILE_OUTCOME_POST (R106, R108, R115 to R117, R158, R161, R563): the decode of the oldest unit whose end mark has passed ends;
`its` says of each global iteration in which local iteration the syndrome becomes zero, if it does, `words` with which codeword, and
`ecc` says that the read FIFO had an uncorrectable error. A tile whose metadata is not what is expected goes to the crystallizer
(R70). An outcome that is not OK1 or OK2, with incomplete brine, is INCOMPLETE. -/
def execTileOutcomePost (n : Fin 4) (its : List (Option Nat)) (words : List Codeword) (ecc : Bool) (s : State) : Host.Outcome State Fault Refusal :=
  .next (match (s.lane n).posted with
    | [] => s
    | p :: rest =>
      let s := if ecc then (s.readWords 9 n 0 9216 true none).2 else s
      let s := s.onLane n (fun l => { l with posted := rest })
      let d := s.decode n p (decoded its words)
      let have_ := p.captured && s.crysOn && s.recorded n p
      let o := if ecc || (decide (2 ≤ d.1) && !have_) then 5 else d.1
      let s := (s.learn n p o).headRecord n p o
      if p.loop then s
      else if o = 5 then ((s.inc (F.LANE_INCCNT_count n)).markRead p |>.reread n p 0xF3).pump
      else if o ≤ 1 then
        let s := doIf (o == 1) (State.inc (F.LANE_OK2CNT_count n)) s
        match d.2.filter (fun t => t.wanted p.mu) with
        | some t => ((s.bufMoved n false (natBits p.modsel 6 2 == 0) p.mu).unitRead p t.data).pump
        | none => if have_ then (s.markRead p).crysQueue n p else ((s.markRead p).reread n p 0xF3).pump
      else
        let s := s.inc (if o = 4 then F.LANE_NOSYNCCNT_count n else F.LANE_FAILCNT_count n)
        (s.markRead p).crysQueue n p)

end Sys2Proof.Machine
end

