-- ==== Sys2Proof/Machine/Contract.lean ====
section
/-! DEFINITION. The contract commands and events (09_rate_contracts.md R386 to R399). -/

namespace Sys2Proof.Machine
open Sys2Proof

/-- A 4-byte field of a contract descriptor (R394). -/
def word4 (d : List Byte) (o : Nat) : Nat := ofLe (bytesAt d o 4)

/-- The terms of a descriptor. -/
def termsOfDesc (d : List Byte) : Terms :=
  { rate := word4 d 4, maxBytes := word4 d 12 * 4096, depth := word4 d 16 * 1024 + word4 d 12 * 4096, lat := word4 d 8
    read := byteAt d 2 == 1
    zones := (List.range (byteAt d 24).toNat).map (fun k => (word4 d (32 + 8 * k), word4 d (36 + 8 * k))) }

/-- A field of the descriptor is outside its valid values (R394). -/
def descBad (d : List Byte) : Bool :=
  let b (i : Nat) : Nat := (byteAt d i).toNat
  let used := b 24
  let zero (o n : Nat) : Bool := (List.range n).all (fun i => b (o + i) == 0)
  ofLe (bytesAt d 0 2) == 0 || decide (1 < b 2) || b 3 != 0 || word4 d 4 == 0 || decide (2400 < word4 d 4) ||
    decide (word4 d 8 < 500 ∨ 60000000 < word4 d 8) || decide (word4 d 12 = 0 ∨ 512 < word4 d 12) ||
    decide (1048576 < word4 d 16) || decide ((if b 2 = 1 then 256 else 0) < word4 d 20) || decide (used = 0 ∨ 4 < used) ||
    !(zero 25 7) || !(zero (32 + 8 * used) (32 - 8 * used)) ||
    (List.range used).any (fun k => word4 d (36 + 8 * k) == 0 || decide (131072 < word4 d (32 + 8 * k) + word4 d (36 + 8 * k)))

/-- Two zone sets have a zone in common. -/
def Terms.meets (a b : Terms) : Bool :=
  a.zones.any (fun x => b.zones.any (fun y => decide (x.1 < y.1 + y.2 ∧ y.1 < x.1 + x.2 ∧ 0 < x.2 ∧ 0 < y.2)))

/-- The checks of step 1 (R388), in their order; in recovery mode every contract is refused (R531). -/
def State.step1 (s : State) (d : List Byte) : Option Nat :=
  let t := termsOfDesc d
  let live := s.slotsIn [1, 2]
  let dir := (byteAt d 2).toNat
  if descBad d then some 1
  else if !s.nvme.nsReady || s.diapause || s.get F.CFG_STRAP_mode == 1 then some 0x0A
  else if s.ctr.est.isSome then some 0x0B
  else if live.any (fun i => s.getA (F.CTR_C_CFG_stream i) == ofLe (bytesAt d 0 2) && s.getA (F.CTR_C_CFG_dir i) == dir) then some 2
  else if !t.read && live.any (fun i => !(s.terms i).read && (s.terms i).meets t) then some 0x0C
  else if (s.slotsIn [0]).isEmpty then some 3
  else none

/-- A refusal (R388, R395). -/
def refused (reason : Nat) : CplRec := { CplRec.bad 7 0xC2 with dw0 := reason * 2 ^ 24 }

/-- Step 3: the slot is installed as pending. -/
def State.installSlot (i : Nat) (d : List Byte) (s : State) : State :=
  let t := termsOfDesc d
  let s := (s.put (F.CTR_C_CFG_state i) 1 |>.put (F.CTR_C_CFG_dir i) (byteAt d 2).toNat).put (F.CTR_C_CFG_stream i)
    (ofLe (bytesAt d 0 2))
  let s := (((s.activate (R.CTR_C_CFG i)).install2 (R.CTR_C_RATE i) t.rate).install2 (R.CTR_C_LAT i) t.lat).install2 (R.CTR_C_BKT i)
    (t.depth / 1024)
  let s := (((s.install2 (R.CTR_C_MAX i) (t.maxBytes / 4096)).install2 (R.CTR_C_Q i) 0).install2 (R.CTR_C_OFF i) 0).install2
    (R.CTR_C_RA i) (word4 d 20)
  let s := doAll (List.range 4) (fun k s =>
    (s.install2 (R.CTR_C_ZSF i k) ((t.zones.getD k (0, 0)).1)).install2 (R.CTR_C_ZSC i k) ((t.zones.getD k (0, 0)).2)) s
  (s.onContract i (fun _ => { Contract.none with desc := bytesAt d 0 64 })).ctrTotals

/-- The slot returns to empty after a refusal at step 5 or 6, or an abort (R388, R480). -/
def State.dropEst (reason : Nat) (r : CplRec) (s : State) : State :=
  match s.ctr.est with
  | none => s
  | some e =>
    let s := (s.setSlot e.slot 0).logSlot 3 e.slot reason
    let s := (s.onContract e.slot (fun _ => Contract.none)).onCtr (fun c => { c with est := none })
    s.afterRelease.adminDone (BitVec.ofNat 16 e.cid) r

/-- Step 7: the slot becomes active, with the frame, quanta, offsets and the reservation of the new set. -/
def State.step7 (e : Est) (s : State) : State :=
  let i := e.slot
  let s := s.setSlot i 2
  let act := s.slotsIn [2]
  let ts := s.termsOf (s.slotsIn [1, 2])
  let n := s.lanesIn.length
  let s := match s.plan ts (s.speedOf (s.pointOf (s.get F.CTR_DREP_mbps)).2) with
    | none => s
    | some pl =>
      let s := s.install2 R.CTR_FRAME (Rat.units pl.frame)
      let s := doAll act (fun j s =>
        (s.install2 (R.CTR_C_Q j) (Rat.units (((s.terms j).rate : Rat) / (n : Rat) * pl.frame / 1024))).install2 (R.CTR_C_OFF j)
          (Config.freeInt (s.free + j)).toNat) s
      let s := { s with free := s.free + 16 }
      (s.onContract i (fun c => { c with minLat := Rat.units (s.minLat ts pl (s.terms i)) }))
  let s := s.onContract i (fun c => { c with
    tokens := s.getA (F.CTR_C_BKT_kib i) * 1024, tokUs := s.us, order := s.ctr.order
    born := (s.get F.EVT_POTHI_ms * 2 ^ 32 + s.get F.EVT_POTLO_ms) + s.nowMs })
  let s := s.onCtr (fun c => { c with est := none, order := c.order + 1 })
  let s := ((s.setWres).setGuard).setFloor
  (s.logSlot 1 i 0).adminDone (BitVec.ofNat 16 e.cid) (CplRec.good i [])

/-- ESTABLISH_CONTRACT (R387, R388, R394, R395): steps 1 to 3; the rest follows when its waits end, and the tiles of
a write contract's zones start home (R96). -/
def execEstablishContract (e : Sqe) (s : State) : Host.Outcome State Fault Refusal :=
  .next (s.admin false (fun s =>
    let d := e.data
    let refuse (r : Nat) : State :=
      (s.ctrLogRec 3 0xFF (ofLe (bytesAt d 0 2)) (byteAt d 2).toNat r (word4 d 4)).adminDone e.cid (refused r)
    if e.nsid ≠ 1 then s.adminDone e.cid (CplRec.bad 0 0x0B)
    else if e.dw10 != 0 || e.dw11 != 0 || e.dw12 != 0 || e.dw13 != 0 || e.dw14 != 0 || e.dw15 != 0 then
      s.adminDone e.cid CplRec.field
    else if s.fw.commit.any (fun c => c.action == 3) then s.adminDone e.cid (CplRec.bad 7 0xC3)
    else match s.step1 d with
      | some r => refuse r
      | none =>
        let t := termsOfDesc d
        let demand := max (s.get F.CTR_DEMAND_sum + t.rate) (s.get F.CTR_DEMAND_floor)
        let ts := s.termsOf (s.slotsIn [1, 2]) ++ [t]
        match s.contractReason ts demand with
        | some r => refuse r
        | none =>
          let i := (s.slotsIn [0]).headD 0
          let p := (s.pointOf demand).2
          let w := ((s.plan ts (s.speedOf p)).map (fun pl => Rat.units (reservation ts pl / 1024))).getD 0
          let s := (s.installSlot i d).setGuard
          let est : Est :=
            { cid := e.cid.toNat, desc := bytesAt d 0 64, slot := i, step := if t.read then 5 else 4, p := p, w := w }
          (s.onCtr (fun c => { c with est := some est })).pump) e)

/-- ESTABLISH_DRAIN_DONE (R388 step 4): the zone set is returned home, and the dirty data leaves room for W. -/
def execEstablishDrainDone (s : State) : Host.Outcome State Fault Refusal :=
  .next (match s.ctr.est with
    | some e =>
      let left := s.map.ovl.any (fun x => ovlUse x.2 == 1 && ovlNs x.2 == 1 && s.inZoneSet e.slot (ovlKey x.2 / 16384))
      if e.step = 4 ∧ !left ∧ s.get F.HRV_DIRTY_kib + e.w ≤ s.get F.HRV_BUDGET_kib then
        s.onCtr (fun c => { c with est := some { e with step := 5 } })
      else s
    | none => s)

/-- ESTABLISH_LOCKED (R388 steps 5 to 7, R45): the spindle is locked at a point at or above p; check 4 is repeated with
HRV_BUDGET. -/
def execEstablishLocked (s : State) : Host.Outcome State Fault Refusal :=
  .next (match s.ctr.est with
    | some e =>
      if e.step = 5 ∧ s.flag F.SPN_STAT_locked ∧ e.p ≤ s.get F.SPN_STAT_point then
        if s.get F.HRV_BUDGET_kib < s.wresAt e.p then s.dropEst 7 (refused 7) else s.step7 e
      else s
    | none => s)

/-- ESTABLISH_LOCK_TIMEOUT (R388 step 5): 30 s have passed. -/
def execEstablishLockTimeout (s : State) : Host.Outcome State Fault Refusal :=
  .next (match s.ctr.est with
    | some e => if e.step = 5 then s.dropEst 9 (refused 9) else s
    | none => s)

/-- A query entry (R398). -/
def State.queryEntry (s : State) (i : Nat) : List Byte :=
  let c := s.contract i
  let st := s.slotState i
  (if st = 0 then List.replicate 64 0 else bytesAt c.desc 0 64) ++
    [BitVec.ofNat 8 st, if st = 3 then BitVec.ofNat 8 c.why else 0, 0, 0] ++ leBytes 4 (s.getA (F.CTR_C_Q_kib i)) ++
    leBytes 4 c.minLat ++ leBytes 4 (s.get (F.CTR_C_WORST_us i)) ++ leBytes 8 c.served ++ leBytes 8 c.excess ++
    leBytes 8 c.late ++ leBytes 8 c.bytes ++ leBytes 8 c.born ++ List.replicate 8 0

/-- RELEASE_CONTRACT (R392, R396). -/
def execReleaseContract (e : Sqe) (s : State) : Host.Outcome State Fault Refusal :=
  .next (s.admin false (fun s =>
    let i := e.dw10.toNat
    if e.nsid ≠ 1 then s.adminDone e.cid (CplRec.bad 0 0x0B)
    else if 16 ≤ i then s.adminDone e.cid CplRec.field
    else if s.slotState i = 2 ∨ s.slotState i = 3 then
      let out := s.queryEntry i
      let s := (s.setSlot i 0).logSlot 2 i 0
      let s := (s.onContract i (fun _ => Contract.none)).afterRelease
      s.adminDone e.cid (CplRec.good 0 out)
    else s.adminDone e.cid CplRec.field) e)

/-- The header of R397. -/
def State.queryHeader (s : State) : List Byte :=
  let ts := s.termsOf (s.slotsIn [1, 2])
  let u := ((s.plan ts (s.speedOf (s.pointOf (s.get F.CTR_DREP_mbps)).2)).map (fun p => Rat.units (p.util * 1000))).getD 0
  let mask := s.lanesIn.foldl (fun m n => m + 2 ^ n) 0
  leBytes 2 (s.get F.CTR_DEMAND_sum) ++ leBytes 2 (s.get F.CTR_DREP_mbps) ++
    [BitVec.ofNat 8 (s.get F.SPN_TGT_point),
     BitVec.ofNat 8 (s.get F.SPN_STAT_locked + (if s.ctr.est.isSome then 2 else 0)), BitVec.ofNat 8 mask,
     BitVec.ofNat 8 s.enginesIn] ++ leBytes 4 (s.get F.CTR_WRES_kib) ++ leBytes 4 (s.get F.HRV_BUDGET_kib) ++
    leBytes 4 (s.getA F.CTR_FRAME_us) ++ leBytes 2 u ++ [BitVec.ofNat 8 (s.slotsIn [2]).length] ++ List.replicate 41 0

/-- QUERY_CONTRACTS (R397, R398). -/
def execQueryContracts (e : Sqe) (s : State) : Host.Outcome State Fault Refusal :=
  .next (s.admin false (fun s =>
    if e.nsid ≠ 1 then s.adminDone e.cid (CplRec.bad 0 0x0B)
    else s.adminDone e.cid
      (CplRec.good 0 (bytesAt (s.queryHeader ++ (List.range 16).flatMap s.queryEntry) 0 4096))) e)

/-- CONTRACT_RECHECK (R389, R391, R398, R667): what started it names the break reason, or nothing does. While HRV_STAT.wt is 1 the budget
is zero. -/
def execContractRecheck (why : RecheckCause) (s : State) : Host.Outcome State Fault Refusal :=
  let reason := match why with
    | .lane => some 0x10
    | .engine => some 0x11
    | .link => some 0x13
    | .budget => none
  let before := (s.slotsIn [2]).length
  let budget := if s.flag F.HRV_STAT_wt then 0 else s.budgetAt s.budgetLanes s.presentRpm
  let t := (s.readmit reason s.presentRpm budget).setGuard
  .next (if (t.slotsIn [2]).length < before then t.afterRelease else t)

end Sys2Proof.Machine
end

