-- ==== Sys2Proof/Machine/Crys.lean ====
section
/-! DEFINITION. The crystallizer's commands and events (04_crystallizer.md R159 to R184). -/

namespace Sys2Proof.Machine
open Sys2Proof

/-- The entry that an idle engine takes (R166, R168): the first of the lowest class; in class 0 the earliest deadline. An entry that
changes class keeps its place in the order of entry (DESIGN CHOICE: the spec does not say where it then stands). -/
def State.nextEntry (s : State) : Option CrysEnt :=
  let q := s.crys.queue
  let left (x : CrysEnt) : Nat := (x.deadline.getD 0 + 2 ^ 32 - s.ctrTime + 2 ^ 31) % 2 ^ 32
  match q.filter (fun x => x.cls == 0) with
  | x :: xs => some (xs.foldl (fun m y => if left y < left m then y else m) x)
  | [] => (q.find? (fun x => x.cls == 1)).orElse (fun _ => q.head?)

/-- CRYS_DISPATCH (R168): the first idle engine in service takes an entry. -/
def execCrysDispatch (s : State) : Host.Outcome State Fault Refusal :=
  .next (match (List.range s.variant.lanes).find? (fun e => (s.engine e).ent.isNone && !(s.bit F.CRYS_STAT_offline e)), s.nextEntry with
    | some e, some x =>
      if 1 < s.dom 4 then s
      else
        let s := s.onCrys (fun c => { c with queue := c.queue.filter (fun y => y.ord != x.ord) })
        let s := s.onEngine e (fun _ => { Engine.idle with
          ent := some x, at_ := s.us, itmax := s.get F.CRYS_CTL_itmax, iti := s.flag F.CRYS_CTL_iti && !x.neigh.isEmpty })
        (((s.put (F.CRYS_ENG_phase e) 1).put (F.CRYS_ENG_iter e) 0).syncCrys)
    | _, _ => s)

/-- The engine's entry has passed its stop time (R176), by the present CRYS_SCHED.guard (DESIGN CHOICE: whether a later change of the
guard moves the stop time of an entry already queued is open). -/
def State.expired (s : State) (x : CrysEnt) : Bool :=
  x.cls == 0 && (x.deadline.map (fun d => s.reached ((d + 2 ^ 32 - 10 * s.get F.CRYS_SCHED_guard) % 2 ^ 32))).getD false

/-- Engine `e` ends its entry: the longest time is kept, and pins not yet released are; `data` is what an OK entry delivers. -/
def State.engineEnd (e : Nat) (outcome : Nat) (data : List Byte) (s : State) : State :=
  let g := s.engine e
  match g.ent with
  | none => s
  | some x =>
    let s := if s.get (F.CRYS_ENG_phase e) = 1 then s.unpin x else s
    let s := s.put F.CRYS_MAXUS_max (max (min 65535 (s.us - g.at_)) (s.get F.CRYS_MAXUS_max))
    let s := s.onEngine e (fun _ => Engine.idle)
    s.crysEnd x outcome g.iti data

/-- An engine goes offline with its entry (R175): the entry is queued once more at the head, or ends ENGFAIL at its
second failure. It may make a 257th entry, for the 256 of R164 bound the tiles that find the queue full; and where its own record has
been overwritten since its pins were released, it is dispatched all the same and its load finds what the ring then holds (both DESIGN
CHOICE). -/
def State.engineOff (e : Nat) (f : Field) (s : State) : State :=
  let g := s.engine e
  let s := (s.raise f).putBit F.CRYS_STAT_offline e true
  match g.ent with
  | none => s.syncCrys
  | some x =>
    if 1 ≤ x.fails then s.engineEnd e 7 []
    else
      let s := if s.get (F.CRYS_ENG_phase e) = 1 then s.unpin x else s
      let s := s.onEngine e (fun _ => Engine.idle)
      let r := s.pin { x with fails := x.fails + 1 }
      (r.1.onCrys (fun c => { c with queue := r.2 :: c.queue })).reclass

/-- What ends a phase or an iteration before anything else: a local store error, a cancelled entry. -/
def State.engineStops (e : Nat) (store : Bool) (s : State) : Option State :=
  let g := s.engine e
  if store then some ((s.readWords 7 e 0 131072 true none).2.engineOff e F.CRYS_ERR_lsecc)
  else if g.cancel then some (s.engineEnd e 8 [])
  else none

/-- The bytes of the 64-byte unit `k` of a record, and whether they met an uncorrectable error on the way to the local store. -/
def State.loadChunk (n first k : Nat) (bad : List Nat) (s : State) : (Bool × List Byte) × State :=
  let a := s.ringAddr n (first + k)
  let r := s.readWords 0 0 (a / 8) 8 (bad.contains k) none
  ((r.1, s.hbmBytes a 64), r.2)

/-- The samples of a record as an engine copies them from the ring (R157, R170): of readers A and B, those that met an error, and the
state after the reads. -/
def State.loadRecord (n first count : Nat) (bad : List Nat) (s : State) : (List Int × List Int × List Nat) × State :=
  let m := ceilDiv count 64
  let r := (List.range (2 * m)).foldl (fun (x : (List Int × List Int × List Nat) × State) k =>
    let c := x.2.loadChunk n first (1 + k) bad
    let v := c.1.2.map BitVec.toInt
    let er := if c.1.1 then (List.range 64).map (64 * (k / 2) + ·) else []
    ((if k % 2 = 0 then x.1.1 ++ v else x.1.1, if k % 2 = 0 then x.1.2.1 else x.1.2.1 ++ v, x.1.2.2 ++ er), c.2)) (([], [], []), s)
  ((r.1.1.take count, r.1.2.1.take count, r.1.2.2), r.2)

/-- The fields of a unit of an entry in its record (R119, R120, R126). -/
def State.fieldsAt (s : State) (u : PUnit) : List (FieldKind × Nat) :=
  let r := s.geo.rings.getD (s.ringOf u.track) { first := 0, symbols := 0, wedge := 0, slots := [], skew := 0 }
  cutFields (r.cuts (unitStart u.modsel u.pos u.qtr) (unitLen u.modsel)) 0 (unitFields u.modsel)

/-- The load phase ends (R162, R170, R173, R175): the record and its neighbours are in the local store, the pins are released, and the
equaliser starts from the set that the header names. A chunk with an uncorrectable error counts as erasures. -/
def State.engineLoad (e : Nat) (x : CrysEnt) (bad : List Nat) (s : State) : State :=
  let own := (x.own.bind (fun f => (s.dir x.lane).find? (fun r => r.first == f)))
  let near := x.neigh.filterMap (fun f => (s.dir x.lane).find? (fun r => r.first == f))
  let a := match own with
    | some r => s.loadRecord x.lane r.first r.count bad
    | none => (([], [], []), s)
  let b := near.foldl (fun (y : List (List Int × List Int) × State) r =>
    let z := y.2.loadRecord x.lane r.first r.count []
    (y.1 ++ [(z.1.1, z.1.2.1)], z.2)) ([], a.2)
  let s := doIf (!a.1.2.2.isEmpty) (State.raise F.CRYS_ERR_brecc) b.2
  let l := s.lane (Fin.ofNat 4 x.lane)
  let i := (own.map (·.set_)).getD 0
  let s := s.onEngine e (fun g => { g with store := { Local.empty with
    a := a.1.1, b := a.1.2.1, erased := a.1.2.2, neigh := b.1, taps := l.setTaps i, front := l.setFront i } })
  ((s.unpin x).put (F.CRYS_ENG_phase e) 2).syncCrys

/-- The finish phase ends (R116, R170, R174, R178): the codeword found is descrambled and checked. A miscorrection is recorded, and
iterating goes on with damped LLRs, unless the stop time or the limit of iterations has come. -/
def State.engineFinish (e : Nat) (x : CrysEnt) (s : State) : State :=
  let g := s.engine e
  match g.store.word.bind (fun w => w.tile (s.thereAt x.lane x.unit) (x.unit.slot x.lane)) with
  | some t => if t.wanted x.unit.mu then s.engineEnd e 0 t.data else s.engineEnd e 1 []
  | none =>
    if s.expired x ∨ g.itmax ≤ s.get (F.CRYS_ENG_iter e) then s.engineEnd e 1 []
    else (s.onEngine e (fun g => { g with misc := true, store := { g.store with word := none, damp := true } })).put (F.CRYS_ENG_phase e) 4

/-- ENGINE_PHASE_END (R170 to R178): a load, sync, prepare or finish phase ends. `brine` are the 64-byte units of the record that met an
uncorrectable error, `store` an uncorrectable error in the local store, and `sync` the symbol errors of the best match of sync mark A in
the whole record, which the engine searches for after NOSYNC. -/
def execEnginePhaseEnd (e : Fin 4) (brine : List Nat) (store : Bool) (sync : Option Nat) (s : State) : Host.Outcome State Fault Refusal :=
  let ph := s.get (F.CRYS_ENG_phase e)
  .next (match (s.engine e).ent with
    | none => s
    | some x =>
      if ph = 0 ∨ ph = 4 then s
      else match s.engineStops e store with
        | some t => t
        | none =>
          if ph ≠ 5 ∧ s.expired x then s.engineEnd e 4 []
          else match ph with
            | 1 => s.engineLoad e x brine
            | 2 => if !x.nosync || sync.any (fun k => decide (k ≤ 12)) then s.put (F.CRYS_ENG_phase e) 3 else s.engineEnd e 3 []
            | 3 => (s.onEngine e (fun g => { g with store := g.store.prepare })).put (F.CRYS_ENG_phase e) 4
            | _ => s.engineFinish e x)

/-- ENGINE_ITERATION_END (R171 to R174, R176): a global iteration ends; `w` is the codeword of a zero syndrome. There is none of the
unit's own where nothing lies. -/
def execEngineIterationEnd (e : Fin 4) (w : Option Codeword) (store : Bool) (s : State) : Host.Outcome State Fault Refusal :=
  .next (match (s.engine e).ent with
    | none => s
    | some x =>
      if s.get (F.CRYS_ENG_phase e) ≠ 4 then s
      else
        let it := s.get (F.CRYS_ENG_iter e)
        let w := w.filter (fun w => w != .stored || (s.thereAt x.lane x.unit).isSome)
        let code := codeIdx (s.fieldsAt x.unit)
        let s := (s.onEngine e (fun g => { g with store := { g.store.iterate code g.iti it (s.get (F.LANE_EQMU_mu x.lane)) with word := w } })).inc
          (F.CRYS_ENG_iter e)
        match s.engineStops e store with
        | some t => t
        | none =>
          if w.isSome then s.put (F.CRYS_ENG_phase e) 5
          else if s.expired x then s.engineEnd e 4 []
          else if (s.engine e).itmax ≤ s.get (F.CRYS_ENG_iter e) then s.engineEnd e (if (s.engine e).misc then 1 else 2) []
          else s)

/-- ENGINE_WATCHDOG (R175): the engine has run longer than 4.5 ms on one entry. -/
def execEngineWatchdog (e : Fin 4) (s : State) : Host.Outcome State Fault Refusal :=
  .next (if (s.engine e).ent.isSome ∧ 4500 < s.us - (s.engine e).at_ then s.engineOff e F.CRYS_ERR_wdog else s)

/-- CLASS2_AGEING (R167): class 2 entries that have waited longer than CRYS_SCHED.agems move to class 1. -/
def execClass2Ageing (s : State) : Host.Outcome State Fault Refusal :=
  let ms := s.get F.CRYS_SCHED_agems
  .next (if ms = 0 then s else
    (s.onCrys (fun c => { c with queue := c.queue.map (fun x =>
      if x.cls = 2 ∧ ms * 1000 < s.us - x.since then { x with cls := 1, aged := true } else x) })).syncCrys)

/-- CLASS0_EXPIRE_UNDISPATCHED (R176): class 0 entries whose stop time passes before dispatch. -/
def execClass0ExpireUndispatched (s : State) : Host.Outcome State Fault Refusal :=
  let late := s.crys.queue.filter s.expired
  .next (doAll late (fun x s => (s.unpin x).crysEnd x 4 false [])
    (s.onCrys (fun c => { c with queue := c.queue.filter (fun x => !(s.expired x)) })))

/-- A write of CRYS_CMD (R159, R184). -/
def State.writeCrysCmd (p : Path) (v : Word) (s : State) : State :=
  let on := F.CRYS_CMD_engon.of v
  let clr := F.CRYS_CMD_dirclr.of v
  let bad := (List.range 4).any (fun i =>
    (on.testBit i && (decide (s.variant.lanes ≤ i) || !(s.bit F.CRYS_STAT_offline i) || (s.engine i).test)) ||
      (clr.testBit i && decide (s.variant.lanes ≤ i)))
  s.gated p R.CRYS_CMD v bad (fun s =>
    let s := doAll ((List.range 4).filter on.testBit) (fun e s => s.onEngine e (fun g => { g with test := true })) s
    doAll ((List.range 4).filter clr.testBit) (fun n s => s.onDir n (fun d => d.filter (fun r => decide (0 < r.pins)))) s)

/-- CRYS_ENGON (R184). -/
def execCrysEngon (p : Path) (v : Word) (s : State) : Host.Outcome State Fault Refusal := .next (s.writeCrysCmd p v)

/-- CRYS_DIRCLR (R159). -/
def execCrysDirclr (p : Path) (v : Word) (s : State) : Host.Outcome State Fault Refusal := .next (s.writeCrysCmd p v)

/-- ENGINE_RETURN_TEST_DONE (R184). -/
def execEngineReturnTestDone (e : Fin 4) (ok : Bool) (s : State) : Host.Outcome State Fault Refusal :=
  .next (if !((s.engine e).test) then s
    else
      let s := s.onEngine e (fun g => { g with test := false })
      (if ok then s.putBit F.CRYS_STAT_offline e false else s.raise F.CRYS_ERR_wdog).syncCrys)

/-- A write of CRYS_MAXUS. -/
def State.writeMaxus (p : Path) (v : Word) (s : State) : State :=
  s.gated p R.CRYS_MAXUS v false (fun s => if v.getLsbD 31 then s.put F.CRYS_MAXUS_max 0 else s)

/-- CRYS_MAXUS_CLR. -/
def execCrysMaxusClr (p : Path) (v : Word) (s : State) : Host.Outcome State Fault Refusal := .next (s.writeMaxus p v)

end Sys2Proof.Machine
end

