-- ==== Sys2Proof/Machine/Dma.lean ====
section
/-! DEFINITION. The stream DMA engine and the plane shuffler (10_buffer_and_dma.md R420 to R443). A row of an
instruction executes it on channel `n` where the channel runs and its next instruction is of that opcode. -/

namespace Sys2Proof.Machine
open Sys2Proof

/-- Changes channel `n`. -/
def State.onDma (n : Fin 16) (f : DmaCh → DmaCh) (s : State) : State := { s with dma := s.dma.set n (f s.dma[n]) }

/-- The state of channel `n` (R429): 0 IDLE, 1 RUN, 2 WAIT, 3 ENDHALT, 4 ERROR, 5 FAULT. -/
def State.chState (s : State) (n : Fin 16) : Nat := s.get (F.DMA_CH_STAT_state n)

/-- Signal `i` is set (R426). -/
def State.sig (s : State) (i : Nat) : Bool :=
  if i < 32 then s.bit F.DMA_SIG0_s i else s.bit F.DMA_SIG1_s (i - 32)

/-- Sets or clears signal `i`. -/
def State.setSig (i : Nat) (b : Bool) (s : State) : State :=
  if i < 32 then s.putBit F.DMA_SIG0_s i b else s.putBit F.DMA_SIG1_s (i - 32) b

/-- Latches an instruction's address in DMA_CHn_ENDA. -/
def State.latchEnd (n : Fin 16) (a : Nat) (s : State) : State :=
  (s.put (F.DMA_CH_ENDALO_a n) (a / 16)).put (F.DMA_CH_ENDAHI_a n) (a / 2 ^ 32)

/-- A fault stops the channel before the instruction (R428). -/
def State.chFault (n : Fin 16) (code : Nat) (s : State) : State :=
  let s := (s.latchEnd n s.dma[n].pc).put (F.DMA_CH_STAT_code n) code
  (s.put (F.DMA_CH_STAT_state n) 5).raiseAt F.DMA_INT_ch n

/-- A bus error halts the channel (R433): the failing beat's address, direction and cause. -/
def State.chError (n : Fin 16) (code a : Nat) (wr : Bool) (s : State) : State :=
  let s := (s.put (F.DMA_CH_ERRLO_a n) (a / 64)).put (F.DMA_CH_ERRHI_a n) (a / 2 ^ 32)
  let s := (s.put (F.DMA_CH_STAT_code n) code).put (F.DMA_CH_STAT_dir n) (if wr then 1 else 0)
  (s.put (F.DMA_CH_STAT_state n) 4).raiseAt F.DMA_INT_ch n

/-- LOOP nesting as DMA_CHn_STAT shows it. -/
def State.setLoops (n : Fin 16) (l : List DmaLoop) (s : State) : State :=
  (s.onDma n (fun c => { c with loops := l })).put (F.DMA_CH_STAT_depth n) l.length

/-- The channel goes on at `pc`. -/
def State.goTo (n : Fin 16) (pc : Nat) (s : State) : State := s.onDma n (fun c => { c with pc := pc, mv := none, wait := none })

/-- The instruction at the channel's address. -/
def State.insAt (s : State) (a : Nat) : List Byte := s.hbmBytes a 16

/-- A field of an instruction. -/
def insField (i : List Byte) (o n : Nat) : Nat := ofLe (bytesAt i o n)

/-- The bytes of an instruction that its opcode does not list are zero, and so are the bits of listed bytes that hold no
field (R421, R428). -/
def insReserved (i : List Byte) : Bool :=
  let b (k : Nat) : Nat := (byteAt i k).toNat
  let zero (l : List Nat) : Bool := l.all (fun k => b k == 0)
  match b 0 with
  | 0x00 => true
  | 0x01 => decide (b 1 < 64 ∧ b 2 < 32)
  | 0x02 => b 1 / 64 % 2 == 0 && decide (b 2 < 32)
  | 0x10 => zero [1, 14, 15]
  | 0x11 => zero ((List.range 15).map (· + 1))
  | 0x20 => decide (b 1 < 2 ∧ b 2 < 64) && zero ((List.range 13).map (· + 3))
  | 0x30 => decide (b 1 < 2 ∧ b 2 < 64) && zero ((List.range 13).map (· + 3))
  | 0x40 => zero [1, 2, 3, 4, 5, 11, 12, 13, 14, 15]
  | _ => false

/-- Executes `f` on the instruction at the channel's address if the channel runs there and the opcode is `op`; a reserved
byte that is not zero, or a reserved opcode, is a fault. -/
def State.dmaIns (n : Fin 16) (op : Byte) (f : List Byte → State → State) (s : State) : State :=
  let i := s.insAt s.dma[n].pc
  let known := [0x00#8, 0x01#8, 0x02#8, 0x10#8, 0x11#8, 0x20#8, 0x30#8, 0x40#8].contains (byteAt i 0)
  if s.chState n ≠ 1 ∨ s.dma[n].mv.isSome then s
  else if s.variant.hbmBytes < s.dma[n].pc + 16 then s.chError n 2 s.dma[n].pc false
  else if !known then s.chFault n 0xD
  else if byteAt i 0 ≠ op then s
  else if !(insReserved i) then s.chFault n 0xD
  else f i s

/-! ## Operands -/

/-- A write port and a read port of lane `k` (R422). -/
def portOf (a : Nat) : Option (Bool × Nat) :=
  if a % 0x10000 ≠ 0 then none
  else if 0x8000000000 ≤ a ∧ a < 0x8000040000 then some (true, (a - 0x8000000000) / 0x10000)
  else if 0x8000100000 ≤ a ∧ a < 0x8000140000 then some (false, (a - 0x8000100000) / 0x10000)
  else none

/-- The byte at offset `x` of an operand (R423). -/
def operandAt (code a x : Nat) : Nat := if code = 0 then a + x else a / 2 ^ code * 2 ^ code + (a + x) % 2 ^ code

/-- The part of HBM that a firmware channel may not write (R433): the map region, brine and the write pool. -/
def State.guarded (s : State) (a : Nat) : Bool :=
  let hit (base size : Nat) : Bool := decide (base ≤ a ∧ a < base + size)
  hit (s.get F.MAP_HBMBASE_base * 0x10000) 0x8000000 || hit (s.get F.MAP_OVLBASE_base * 0x10000) 0x1000000 ||
    hit (s.get F.MAP_SLIPBASE_base * 0x10000) 0x80000 ||
    hit (s.get F.CRYS_BRCFG_base * 0x4000000) (0x20000000 * 2 ^ s.get F.CRYS_BRCFG_size) ||
    hit (s.get F.BUF_WPOOL_base * 0x4000000) (s.get F.BUF_WPOOL_size * 0x4000000)

/-- The bus error of a beat (R433), if any. -/
def State.beatError (s : State) (n : Fin 16) (a : Nat) (wr : Bool) : Option Nat :=
  if a < 0x1000000000 then
    if s.variant.hbmBytes ≤ a then some 2 else if wr && decide (8 ≤ n.val) && s.guarded a then some 4 else none
  else match portOf a with
    | none => some 2
    | some (w, k) => if w ≠ wr then some 2 else if !(s.fitted k) ∨ !(s.runs k) then some 3 else none

/-- The move in progress as its instruction word. -/
def DmaMove.bytes (m : DmaMove) : List Byte := leBytes 16 m.ins
def DmaMove.len (m : DmaMove) : Nat := insField m.bytes 3 3
def DmaMove.srcCode (m : DmaMove) : Nat := (byteAt m.bytes 1).toNat % 32
def DmaMove.dstCode (m : DmaMove) : Nat := (byteAt m.bytes 2).toNat % 32

/-- A size code that R423 refuses. -/
def codeBad (c : Nat) : Bool := decide (1 ≤ c ∧ c ≤ 11) || c == 31

/-- The move retires (R424): its attached signal is set, and the channel goes on. -/
def State.retire (n : Fin 16) (m : DmaMove) (s : State) : State :=
  let s := if (byteAt m.bytes 1).getLsbD 5 then s.setSig (s.get (F.DMA_CH_CFG_sig n)) true else s
  s.goTo n (s.dma[n].pc + 16)

/-- Begins a MOVE or MOVS (R422 to R425, R428). -/
def State.beginDma (n : Fin 16) (movs : Bool) (i : List Byte) (s : State) : State :=
  let src := insField i 6 5
  let dst := insField i 11 5
  let len := insField i 3 3
  let sc := (byteAt i 1).toNat % 32
  let dc := (byteAt i 2).toNat % 32
  let port := decide (0x8000000000 ≤ src ∨ 0x8000000000 ≤ dst)
  let slot := s.get (F.DMA_CH_CFG_slot n)
  if codeBad sc || codeBad dc || (sc != 0 && decide (0x8000000000 ≤ src)) || (dc != 0 && decide (0x8000000000 ≤ dst)) then s.chFault n 8
  else if (port && len % 64 != 0) || (movs && len % 16384 != 0) then s.chFault n 9
  else if movs && (s.variant == .d02 || !(s.bit F.SHF_STAT_valid slot)) then s.chFault n 0xE
  else
    let sum (f : DmaLoop → Int) : Int := s.dma[n].loops.foldl (fun t l => t + l.i * f l) 0
    let at_ (a : Nat) (t : Int) : Nat := if 0x8000000000 ≤ a then a else ((a : Int) + t).toNat % 2 ^ 40
    let m : DmaMove := { ins := ofLe i, off := 0, src := at_ src (sum (·.ss)), dst := at_ dst (sum (·.ds)) }
    if len = 0 then s.retire n m else s.onDma n (fun c => { c with mv := some m })

/-- DMA_MOVE (R423, R424). -/
def execDmaMove (n : Fin 16) (s : State) : Host.Outcome State Fault Refusal := .next (s.dmaIns n 1 (State.beginDma n false))

/-- MOVS (R424, R428, R437 to R439). -/
def execMovs (n : Fin 16) (s : State) : Host.Outcome State Fault Refusal := .next (s.dmaIns n 2 (State.beginDma n true))

/-! ## The shuffler -/

/-- A descriptor in a slot of the shuffler. -/
def State.slotDesc (s : State) (k : Nat) : List Byte :=
  leBytes 4 (s.reg (R.SHF_SLOT_D0 k)).toNat ++ leBytes 4 (s.reg (R.SHF_SLOT_D1 k)).toNat

/-- One burst of a MOVE: its length, up to a 4 KiB boundary of either operand (R424). -/
def DmaMove.burst (m : DmaMove) : Nat :=
  let room (code a : Nat) : Nat := if 0x8000000000 ≤ a then 4096 else 4096 - operandAt code a m.off % 4096
  min (min 4096 (m.len - m.off)) (min (room m.srcCode m.src) (room m.dstCode m.dst))

/-- The address of a beat of an operand: a port does not advance. -/
def beatAt (code a x : Nat) : Nat := if 0x8000000000 ≤ a then a else operandAt code a x

/-- A beat into the write FIFO of the lane whose port `a` is. -/
def State.toPort (a : Nat) (data : List Byte) (s : State) : State :=
  match portOf a with
  | some (true, k) => s.onLane (Fin.ofNat 4 k) (fun l => { l with port := l.port ++ data }.fillFifo)
  | _ => s

/-- The request of the port of an operand (R432), if it is one. -/
def State.portWaits (s : State) (rest : Bool) (a : Nat) : Bool :=
  match portOf a with
  | some (w, k) => !((s.lane (Fin.ofNat 4 k)).portReq w || (!w && rest))
  | none => false

/-- Moves the beats of a burst: 64 bytes each, those before a failing beat complete (R433). `bad` is the beat that meets
an uncorrectable HBM error, and `inp` what a read FIFO delivers. -/
def State.beats (n : Fin 16) (m : DmaMove) (bad : Option Nat) (inp : List Byte) : Nat → Nat → Nat → State → State
  | 0, _, done, s => s.onDma n (fun c => { c with mv := some { m with off := m.off + done } })
  | k + 1, i, done, s =>
    let len := min 64 (m.burst - done)
    let x := m.off + done
    let src := beatAt m.srcCode m.src x
    let dst := beatAt m.dstCode m.dst x
    if len = 0 then s.onDma n (fun c => { c with mv := some { m with off := x } })
    else
      let stop (code a : Nat) (wr : Bool) : State := (s.onDma n (fun c => { c with mv := some { m with off := x } })).chError n code a wr
      match s.beatError n src false, s.beatError n dst true with
      | some c, _ => stop c src false
      | none, some c => stop c dst true
      | none, none =>
        let (ue, s) := if src < 0x8000000000 then s.readWords 0 0 (src / 8) (len / 8) (bad == some i) none else (false, s)
        if ue then (s.onDma n (fun c => { c with mv := some { m with off := x } })).chError n 1 src false
        else
          let data := (List.range len).map (fun j =>
            if 0x8000000000 ≤ src then byteAt inp (done + j) else s.hbmByte (operandAt m.srcCode m.src (x + j)))
          let s := if 0x8000000000 ≤ dst then s.toPort dst data
            else (doAll data.zipIdx (fun b s => s.setHbm (operandAt m.dstCode m.dst (x + b.2)) b.1) s).wroteWords 0 0 (dst / 8) (ceilDiv len 8) none
          (s.add (F.DMA_CH_BYTES_count n) len).beats n m bad inp k (i + 1) (done + len)

/-- One tile of a MOVS: read, shuffled and written whole; the number of the tile in its zone is open for a firmware
channel. -/
def State.moveTile (n : Fin 16) (m : DmaMove) (bad : Option Nat) (inp : List Byte) (s : State) : State :=
  let err (wr : Bool) : Option (Nat × Nat) := ((List.range 256).map (fun i =>
      if wr then beatAt m.dstCode m.dst (m.off + 64 * i) else beatAt m.srcCode m.src (m.off + 64 * i))).findSome? (fun a =>
    (s.beatError n a wr).map (fun c => (c, a)))
  match err false, bad, err true with
  | some (c, a), _, _ => s.chError n c a false
  | none, some i, _ =>
    let a := beatAt m.srcCode m.src (m.off + 64 * (i % 256))
    (s.readWords 0 0 (a / 8) 8 true none).2.chError n 1 a false
  | none, none, some (c, a) => s.chError n c a true
  | none, none, none =>
    let data := (List.range 16384).map (fun j =>
      if 0x8000000000 ≤ m.src then byteAt inp j else s.hbmByte (operandAt m.srcCode m.src (m.off + j)))
    let t := (Config.freeInt s.free).toNat % 16384
    let out := shuffle (s.slotDesc (s.get (F.DMA_CH_CFG_slot n))) ((byteAt m.bytes 1).getLsbD 7) t data
    let s := { s with free := s.free + 1 }
    let s := if 0x8000000000 ≤ m.dst then s.toPort m.dst out
      else (doAll out.zipIdx (fun b s => s.setHbm (operandAt m.dstCode m.dst (m.off + b.2)) b.1) s).wroteWords 0 0
        (beatAt m.dstCode m.dst m.off / 8) 2048 none
    ((s.add (F.DMA_CH_BYTES_count n) 16384).inc F.SHF_CNT_tiles).onDma n (fun c => { c with mv := some { m with off := m.off + 16384 } })

/-- DMA_BURST (R424, R432, R433): one burst of the move in progress, once its port's request is asserted; without it the
channel waits. `rest` says that the read FIFO holds the remainder of the unit in progress. The last burst retires the instruction. -/
def execDmaBurst (n : Fin 16) (rest : Bool) (bad : Option Nat) (inp : List Byte) (s : State) : Host.Outcome State Fault Refusal :=
  .next (match s.dma[n].mv with
    | none => s
    | some m =>
      if s.chState n ≠ 1 ∧ s.chState n ≠ 2 then s
      else if s.portWaits rest m.src || s.portWaits rest m.dst then s.put (F.DMA_CH_STAT_state n) 2
      else
        let s := s.put (F.DMA_CH_STAT_state n) 1
        let s := if byteAt m.bytes 0 = 2 then s.moveTile n m bad inp else s.beats n m bad inp 65 0 0
        match s.dma[n].mv with
        | some m => if s.chState n = 1 ∧ m.len ≤ m.off then s.retire n m else s
        | none => s)

/-! ## Control instructions -/

/-- DMA_END (R429, R430): with the doorbell flag set the channel clears it and fetches the address once more. -/
def execDmaEnd (n : Fin 16) (s : State) : Host.Outcome State Fault Refusal :=
  .next (s.dmaIns n 0 (fun _ s =>
    let s := s.latchEnd n s.dma[n].pc
    if s.flag (F.DMA_CH_STAT_db n) then s.put (F.DMA_CH_STAT_db n) 0 else s.put (F.DMA_CH_STAT_state n) 3))

/-- The address after the ENDL that matches a LOOP whose body begins at `a`. -/
def State.skipLoop (s : State) : Nat → Nat → Nat → Nat
  | 0, a, _ => a
  | k + 1, a, depth =>
    let op := s.hbmByte a
    if op = 0x11 then (if depth = 0 then a + 16 else s.skipLoop k (a + 16) (depth - 1))
    else if op = 0x10 then s.skipLoop k (a + 16) (depth + 1)
    else s.skipLoop k (a + 16) depth

/-- DMA_LOOP (R425). -/
def execDmaLoop (n : Fin 16) (s : State) : Host.Outcome State Fault Refusal :=
  .next (s.dmaIns n 0x10 (fun i s =>
    let pc := s.dma[n].pc
    if 2 ≤ s.dma[n].loops.length then s.chFault n 0xA
    else if insField i 2 4 = 0 then s.goTo n (s.skipLoop (s.variant.hbmBytes / 16) (pc + 16) 0)
    else
      let l : DmaLoop := { body := pc + 16, left := insField i 2 4, i := 0, ss := sInt 32 (insField i 6 4), ds := sInt 32 (insField i 10 4) }
      (s.setLoops n (l :: s.dma[n].loops)).goTo n (pc + 16)))

/-- ENDL (R425). -/
def execEndl (n : Fin 16) (s : State) : Host.Outcome State Fault Refusal :=
  .next (s.dmaIns n 0x11 (fun _ s =>
    match s.dma[n].loops with
    | [] => s.chFault n 0xB
    | l :: rest =>
      if 1 < l.left then (s.setLoops n ({ l with left := l.left - 1, i := l.i + 1 } :: rest)).goTo n l.body
      else (s.setLoops n rest).goTo n (s.dma[n].pc + 16)))

/-- DMA_WAIT (R426). -/
def execDmaWait (n : Fin 16) (s : State) : Host.Outcome State Fault Refusal :=
  .next (s.dmaIns n 0x20 (fun i s =>
    let g := insField i 2 1
    let eat := insField i 1 1 == 1
    if s.sig g then (if eat then s.setSig g false else s).goTo n (s.dma[n].pc + 16)
    else (s.onDma n (fun c => { c with wait := some (g, eat) })).put (F.DMA_CH_STAT_state n) 2))

/-- DMA_WAIT_SATISFIED (R426): channel `n`'s signal is set; of several that would consume it the lowest does. -/
def execDmaWaitSatisfied (n : Fin 16) (s : State) : Host.Outcome State Fault Refusal :=
  .next (match s.dma[n].wait with
    | none => s
    | some (g, eat) =>
      let ahead := (List.range n).any (fun k => (s.dma[Fin.ofNat 16 k]).wait == some (g, true))
      if !(s.sig g) || (eat && ahead) then s
      else ((if eat then s.setSig g false else s).goTo n (s.dma[n].pc + 16)).put (F.DMA_CH_STAT_state n) 1)

/-- SIG (R426). -/
def execSig (n : Fin 16) (s : State) : Host.Outcome State Fault Refusal :=
  .next (s.dmaIns n 0x30 (fun i s =>
    let s := s.setSig (insField i 2 1) true
    let s := if insField i 1 1 = 1 then s.raiseAt F.DMA_INT_ch n else s
    s.goTo n (s.dma[n].pc + 16)))

/-- DMA_JUMP (R427). -/
def execDmaJump (n : Fin 16) (s : State) : Host.Outcome State Fault Refusal :=
  .next (s.dmaIns n 0x40 (fun i s =>
    let t := insField i 6 5
    if t % 16 ≠ 0 then s.chFault n 0xC else s.goTo n t))

/-! ## Channel registers -/

/-- A write of DMA_CHn_CTL (R420, R429, R434). -/
def State.writeDmaCtl (p : Path) (n : Fin 16) (v : Word) (s : State) : State :=
  let st := s.chState n
  let bad := decide (n.val < 8) || (v.getLsbD 31 && decide (1 ≤ st ∧ st ≤ 4)) || (v.getLsbD 30 && st != 4)
  s.gated p (R.DMA_CH_CTL n) v bad (fun s =>
    let s := if v.getLsbD 31 then
        (((s.setLoops n []).goTo n (s.get (F.DMA_CH_PCLO_a n) * 16 + s.get (F.DMA_CH_PCHI_a n) * 2 ^ 32)).put (F.DMA_CH_STAT_db n) 0).put
          (F.DMA_CH_STAT_state n) 1
      else s
    let s := if v.getLsbD 30 then s.put (F.DMA_CH_STAT_state n) 1 else s
    if v.getLsbD 29 then ((s.setLoops n []).goTo n 0).put (F.DMA_CH_STAT_state n) 0 else s)

/-- DMA_CH_START (R429). -/
def execDmaChStart (p : Path) (n : Fin 16) (v : Word) (s : State) : Host.Outcome State Fault Refusal := .next (s.writeDmaCtl p n v)

/-- DMA_CH_RESUME (R434). -/
def execDmaChResume (p : Path) (n : Fin 16) (v : Word) (s : State) : Host.Outcome State Fault Refusal := .next (s.writeDmaCtl p n v)

/-- DMA_CH_ABORT (R434). -/
def execDmaChAbort (p : Path) (n : Fin 16) (v : Word) (s : State) : Host.Outcome State Fault Refusal := .next (s.writeDmaCtl p n v)

/-- A write of DMA_CHn_DB (R420, R430). -/
def State.writeDmaDb (p : Path) (n : Fin 16) (v : Word) (s : State) : State :=
  s.gated p (R.DMA_CH_DB n) v (decide (n.val < 8)) (fun s =>
    if !(v.getLsbD 0) then s
    else if s.chState n = 3 then
      ((s.goTo n (s.get (F.DMA_CH_ENDALO_a n) * 16 + s.get (F.DMA_CH_ENDAHI_a n) * 2 ^ 32)).put (F.DMA_CH_STAT_db n) 0).put
        (F.DMA_CH_STAT_state n) 1
    else s.put (F.DMA_CH_STAT_db n) 1)

/-- DMA_DOORBELL (R430). -/
def execDmaDoorbell (p : Path) (n : Fin 16) (v : Word) (s : State) : Host.Outcome State Fault Refusal := .next (s.writeDmaDb p n v)

/-- A write of DMA_SIGSETi or DMA_SIGCLRi (R426): each 1 sets or clears a signal. -/
def State.writeSig (p : Path) (i : Fin 2) (set_ : Bool) (v : Word) (s : State) : State :=
  let a := if set_ then (if i = 0 then R.DMA_SIGSET0 else R.DMA_SIGSET1) else if i = 0 then R.DMA_SIGCLR0 else R.DMA_SIGCLR1
  let r := if i = 0 then R.DMA_SIG0 else R.DMA_SIG1
  s.gated p a v false (fun s => s.setReg r (if set_ then s.reg r ||| v else s.reg r &&& ~~~v))

/-- DMA_SIGSET (R426). -/
def execDmaSigset (p : Path) (i : Fin 2) (v : Word) (s : State) : Host.Outcome State Fault Refusal := .next (s.writeSig p i true v)

/-- DMA_SIGCLR (R426). -/
def execDmaSigclr (p : Path) (i : Fin 2) (v : Word) (s : State) : Host.Outcome State Fault Refusal := .next (s.writeSig p i false v)

/-- A write of a shuffle slot's D0 (`hi` false) or D1 register (R443). -/
def State.writeSlot (p : Path) (k : Fin 16) (hi : Bool) (v : Word) (s : State) : State :=
  let a := if hi then R.SHF_SLOT_D1 k else R.SHF_SLOT_D0 k
  s.gated p a v (decide (k.val < 12)) (fun s =>
    let s := s.setReg a v
    if !hi then s
    else if s.descOk (s.slotDesc k) then s.putBit F.SHF_STAT_valid k true
    else (s.putBit F.SHF_STAT_valid k false).raise F.SHF_ERR_desc)

/-- SHF_SLOT_WRITE (R443). -/
def execShfSlotWrite (p : Path) (k : Fin 16) (hi : Bool) (v : Word) (s : State) : Host.Outcome State Fault Refusal :=
  .next (s.writeSlot p k hi v)

end Sys2Proof.Machine
end

