-- ==== Sys2Proof/Machine/FlashCmd.lean ====
section
/-! DEFINITION. The configuration flash as software reaches it, the revocation fuses, and the counters record
(13_startup_and_image.md R540, R542, R543, R548). -/

namespace Sys2Proof.Machine
open Sys2Proof

/-- A write of CFG_REVOKE (R548): fuses blow in factory test mode only, and stay blown. -/
def State.writeRevoke (p : Path) (v : Word) (s : State) : State :=
  s.gated p R.CFG_REVOKE v (!s.factory) (fun s => { s with fuses := s.fuses ||| v.toNat % 2 ^ 16 })

/-- CFG_REVOKE (R548). -/
def execCfgRevoke (p : Path) (v : Word) (s : State) : Host.Outcome State Fault Refusal := .next (s.writeRevoke p v)

/-- An erase or a program of the page at CFG_FLADDR is not permitted (R542): event ring, counters sectors, and outside
factory test mode the calibration area. -/
def State.flashBarred (s : State) : Bool :=
  let a := s.get F.CFG_FLADDR_page * 256
  decide (0x3800000 ≤ a ∧ a < 0x3C20000) || (decide (0x3000000 ≤ a ∧ a < 0x3800000) && !s.factory)

/-- A write of CFG_FLCMD (R542, R665). -/
def State.writeFlcmd (p : Path) (v : Word) (s : State) : State :=
  let go := v.getLsbD 31
  let op := F.CFG_FLCMD_op.of v
  s.gated p R.CFG_FLCMD v (op == 3 || (go && (s.flag F.CFG_FLCMD_busy || ((op == 1 || op == 2) && s.flashBarred)))) (fun s =>
    let s := s.take R.CFG_FLCMD v
    if go then (s.put F.CFG_FLCMD_busy 1).onBoot (fun b => { b with fl := some (op, s.get F.CFG_FLADDR_page) }) else s)

/-- FLASH_READ_PAGE (R542). -/
def execFlashReadPage (p : Path) (v : Word) (s : State) : Host.Outcome State Fault Refusal := .next (s.writeFlcmd p v)

/-- FLASH_PROGRAM (R542). -/
def execFlashProgram (p : Path) (v : Word) (s : State) : Host.Outcome State Fault Refusal := .next (s.writeFlcmd p v)

/-- FLASH_ERASE (R542). -/
def execFlashErase (p : Path) (v : Word) (s : State) : Host.Outcome State Fault Refusal := .next (s.writeFlcmd p v)

/-- Bytes of the flash of which nothing is known: an operation on them did not end (R543). -/
def State.spoilFlash (a n : Nat) (s : State) : State :=
  { s with
    flash := (List.range n).foldl (fun m i => cset flashDefault (a + i) (BitVec.ofInt 8 (Config.freeInt (s.free + i))) m) s.flash
    free := s.free + n }

/-- The bytes that an erase or a program was changing are unknown. -/
def State.spoilOp (op page : Nat) (s : State) : State :=
  if op = 1 then s.spoilFlash (256 * page) 256 else if op = 2 then s.spoilFlash (page / 256 * 65536) 65536 else s

/-- The words of the page buffer as bytes. -/
def State.flbuf (s : State) : List Byte := (List.range 64).flatMap (fun i => leBytes 4 (s.reg (R.CFG_FLBUF i)).toNat)

/-- FLASH_OP_DONE (R542, R543): the operation ends well, or with a flash error or timeout. -/
def execFlashOpDone (ok : Bool) (s : State) : Host.Outcome State Fault Refusal :=
  .next (match s.boot.fl with
    | none => s
    | some (op, page) =>
      let s := ((s.put F.CFG_FLCMD_busy 0).put F.CFG_FLCMD_res (if ok then 0 else 2)).onBoot (fun b => { b with fl := none })
      if !ok then s.spoilOp op page
      else if op = 0 then
        doAll (List.range 64) (fun i s => s.setReg (R.CFG_FLBUF i) (BitVec.ofNat 32 (ofLe (s.flashBytes (256 * page + 4 * i) 4)))) s
      else if op = 1 then s.program (256 * page) s.flbuf
      else s.eraseFlash (page / 256 * 65536) 65536)

/-- COUNTERS_RECORD (R540): the record of every 10 minutes. -/
def execCountersRecord (s : State) : Host.Outcome State Fault Refusal := .next s.countersRecord

end Sys2Proof.Machine
end

