-- ==== Sys2Proof/Machine/HostAdmin.lean ====
section
/-! DEFINITION. Admin commands (11_host_interface.md R455, R456, R459 to R465, R478 to R480, R489 to R493, R498): queues,
Identify, Abort, asynchronous events, features and directives. Command and data layouts are those of NVMe Base 2.0. -/

namespace Sys2Proof.Machine
open Sys2Proof

/-! ## Queues -/

/-- CAP.MQES (R453). -/
def mqes : Nat := 0xFFF

/-- CREATE_IO_COMPLETION_QUEUE (R455, R499). -/
def execCreateIoCompletionQueue (e : Sqe) (s : State) : Host.Outcome State Fault Refusal :=
  .next (s.admin false (fun s =>
    let id := e.dw10.toNat % 65536
    let size := e.dw10.toNat / 65536
    let vec := e.dw11.toNat / 65536
    if id = 0 ∨ 64 < id ∨ s.nvme.cqs.any (fun q => q.id == id) then s.adminDone e.cid (CplRec.bad 1 1)
    else if size = 0 ∨ mqes < size then s.adminDone e.cid (CplRec.bad 1 2)
    else if 64 < vec then s.adminDone e.cid (CplRec.bad 1 8)
    else if !(e.dw11.getLsbD 0) then s.adminDone e.cid CplRec.field
    else (s.onNvme (fun v => { v with cqs := v.cqs ++ [{ id := id, size := size + 1, vector := vec, used := 0 }] })).adminDone
      e.cid CplRec.ok) e)

/-- CREATE_IO_SUBMISSION_QUEUE (R455, R499). -/
def execCreateIoSubmissionQueue (e : Sqe) (s : State) : Host.Outcome State Fault Refusal :=
  .next (s.admin false (fun s =>
    let id := e.dw10.toNat % 65536
    let size := e.dw10.toNat / 65536
    let cq := e.dw11.toNat / 65536
    if cq = 0 ∨ 64 < cq ∨ id = 0 ∨ 64 < id ∨ s.nvme.sqs.any (fun q => q.id == id) then s.adminDone e.cid (CplRec.bad 1 1)
    else if !(s.nvme.cqs.any (fun q => q.id == cq)) then s.adminDone e.cid (CplRec.bad 1 0)
    else if size = 0 ∨ mqes < size then s.adminDone e.cid (CplRec.bad 1 2)
    else if !(e.dw11.getLsbD 0) then s.adminDone e.cid CplRec.field
    else (s.onNvme (fun v => { v with sqs := v.sqs ++ [{ id := id, size := size + 1, cq := cq }] })).adminDone e.cid CplRec.ok) e)

/-- DELETE_IO_SUBMISSION_QUEUE (R456, R167): unsealed commands are discarded; the command completes after the sealed ones. -/
def execDeleteIoSubmissionQueue (e : Sqe) (s : State) : Host.Outcome State Fault Refusal :=
  .next (s.admin false (fun s =>
    let id := e.dw10.toNat % 65536
    if !(s.nvme.sqs.any (fun q => q.id == id)) ∨ s.nvme.deletes.any (fun d => d.1 == id) then s.adminDone e.cid (CplRec.bad 1 1)
    else
      let s := s.onNvme (fun v => { v with deletes := v.deletes ++ [(id, e.cid.toNat)] })
      let s := doAll (s.buf.ctxs.filter (fun c => c.sq == id && decide (c.stage ≤ 1))) (fun c s => s.failWrite c (CplRec.bad 0 8)) s
      (s.withdraw.postAll).pump.reclass) e)

/-- DELETE_IO_COMPLETION_QUEUE (R499). -/
def execDeleteIoCompletionQueue (e : Sqe) (s : State) : Host.Outcome State Fault Refusal :=
  .next (s.admin false (fun s =>
    let id := e.dw10.toNat % 65536
    if !(s.nvme.cqs.any (fun q => q.id == id)) then s.adminDone e.cid (CplRec.bad 1 1)
    else if s.nvme.sqs.any (fun q => q.cq == id) then s.adminDone e.cid (CplRec.bad 1 0x0C)
    else (s.onNvme (fun v => { v with cqs := v.cqs.filter (fun q => q.id != id) })).adminDone e.cid CplRec.ok) e)

/-! ## Identify -/

/-- Bytes put at offsets of `n` bytes of zeros. -/
def page (n : Nat) (fs : List (Nat × List Byte)) : List Byte := fs.foldl (fun p f => patch p f.1 f.2) (List.replicate n 0)

/-- A hexadecimal digit in ASCII. -/
def hexDigit (d : Nat) : Byte := BitVec.ofNat 8 (if d < 10 then 0x30 + d else 0x37 + d)

/-- FR of an image version (R544): its eight hexadecimal digits. -/
def frOf (ver : Nat) : List Byte := (List.range 8).map (fun i => hexDigit (ver / 16 ^ (7 - i) % 16))

/-- Text of `n` bytes, padded with spaces. -/
def text (n : Nat) (bs : List Byte) : List Byte := (bs ++ List.replicate n 0x20).take n

/-- The power state descriptors (R521): MP, NOPS, ENLAT, EXLAT and the relative figures. -/
def psDescs : List (Nat × Nat × Nat × Nat) :=
  [(1500, 0, 0, 0), (1000, 0, 3000000, 2000000), (600, 0, 1000000, 2000), (350, 1, 5000000, 1500000), (180, 1, 10000000, 12000000)]

/-- A power state descriptor as 32 bytes. -/
def psDesc (k : Nat) (d : Nat × Nat × Nat × Nat) : List Byte :=
  leBytes 2 d.1 ++ [0, BitVec.ofNat 8 (2 * d.2.1)] ++ leBytes 4 d.2.2.1 ++ leBytes 4 d.2.2.2 ++ List.replicate 4 (BitVec.ofNat 8 k) ++
    List.replicate 16 0

/-- Identify Controller (R461, FWUG of R485); under the minimal loader (R550) NN is 0 and FR is spaces. -/
def State.idController (s : State) : List Byte :=
  let min := s.boot.phase == 5
  let i := s.boot.ids
  page 4096
    ([(0, leBytes 2 (if min then Config.fuseVid.toNat else i.vid)), (2, leBytes 2 i.ssvid), (4, text 20 i.sn), (24, text 40 i.mn),
      (64, if min then text 8 [] else frOf (s.get F.CFG_IMGVER_ver)), (72, [4]), (73, leBytes 3 i.ieee), (77, [9]),
      (84, leBytes 4 10000000), (88, leBytes 4 3000000), (92, leBytes 4 0x200), (111, [1]), (256, leBytes 2 0x24),
      (258, [3, 3, 0x14, 0x06, 63, 4]), (265, [1]), (266, leBytes 2 373), (268, leBytes 2 383), (270, leBytes 2 10), (319, [1]),
      (512, [0x66, 0x44]), (514, leBytes 2 4096), (516, leBytes 4 (if min then 0 else 2)), (520, leBytes 2 0x10)] ++
      (psDescs.zipIdx.map (fun d => (2048 + 32 * d.2, psDesc d.2 d.1))))

/-- NUSE of a namespace (R459): for NSID 1 the blocks below the write pointers. -/
def State.nuse (s : State) (ns : Nat) : Nat := if ns = 2 then nsSize 2 else sumOf s.map.zones (fun z => z.2.wp)

/-- The Identify Namespace data structure (R459): 0's based counts and sizes as the table gives them. -/
def State.idNamespace (s : State) (ns : Nat) : List Byte :=
  page 4096 [(0, leBytes 8 (nsSize ns)), (8, leBytes 8 (nsSize ns)), (16, leBytes 8 (s.nuse ns)), (33, [1]),
    (64, leBytes 2 (if ns = 1 then 3 else 0)), (66, leBytes 2 (if ns = 1 then 3 else 0)), (72, leBytes 2 511), (128, leBytes 4 (12 * 65536))]

/-- The Zoned Namespace Command Set's Identify Namespace (R460). -/
def idZoned : List Byte :=
  page 4096 [(2, leBytes 2 1), (4, leBytes 4 127), (8, leBytes 4 63), (2816, leBytes 8 65536), (2824, [1])]

/-- What Identify returns (R461); none where the CNS, or its command set, is not supported. -/
def State.identify (s : State) (e : Sqe) : Except CplRec (List Byte) :=
  let csi := e.dw11.toNat / 2 ^ 24
  let ns := e.nsid.toNat
  let known := ns == 1 || ns == 2
  match e.dw10.toNat % 256 with
  | 0x00 => if known then .ok (s.idNamespace ns) else .error (CplRec.bad 0 0x0B)
  | 0x01 => .ok s.idController
  | 0x02 =>
    if 0xFFFFFFFE ≤ ns then .error (CplRec.bad 0 0x0B)
    else .ok (bytesAt (([1, 2].filter (fun k => decide (ns < k))).flatMap (leBytes 4)) 0 4096)
  | 0x03 => if known then .ok (page 4096 [(0, [4, 1, 0, 0, if ns = 1 then 2 else 0])]) else .error (CplRec.bad 0 0x0B)
  | 0x05 =>
    if !known then .error (CplRec.bad 0 0x0B)
    else if csi = 2 ∧ ns = 1 then .ok idZoned
    else if csi = 0 ∧ ns = 2 then .ok (List.replicate 4096 0)
    else .error CplRec.field
  | 0x06 => if csi = 2 then .ok (page 4096 [(0, [9])]) else if csi = 0 then .ok (List.replicate 4096 0) else .error CplRec.field
  | 0x1C => .ok (page 4096 [(0, leBytes 8 5)])
  | _ => .error CplRec.field

/-- The HBM holds what an admin command needs: in PS4 it emerges alone (R526). -/
def State.wakeHbm (s : State) : State :=
  if s.nvme.feats.ps = 4 ∧ s.dom 6 = 2 ∧ s.get F.PWR_PSTAT_phase = 0 ∧ s.boot.phase = 4 then s.pwrGo [6] [] else s

/-- IDENTIFY (R461, R362, R550). -/
def execIdentify (e : Sqe) (s : State) : Host.Outcome State Fault Refusal :=
  .next (s.admin true (fun s =>
    match s.identify e with
    | .ok d => s.adminDone e.cid (CplRec.good 0 d)
    | .error r => s.adminDone e.cid r) e)

/-! ## Abort and asynchronous events -/

/-- ABORT (R478 to R480): an Establish Contract in step 4 or 5 can be aborted, and an I/O command goes to BUF. An Abort
ends at once, so that four are never outstanding. -/
def execAbort (e : Sqe) (s : State) : Host.Outcome State Fault Refusal :=
  .next (s.admin false (fun s =>
    let sq := e.dw10.toNat % 65536
    let cid := e.dw10.toNat / 65536
    if sq = 0 then
      if s.ctr.est.any (fun x => x.cid == cid) then (s.dropEst 0 (CplRec.bad 0 7)).adminDone e.cid CplRec.ok
      else s.adminDone e.cid (CplRec.good 1 [])
    else
      let s := (s.put F.BUF_ABORT_sqid sq).put F.BUF_ABORT_cid cid
      let r := s.abortIo sq cid
      (r.2.put F.BUF_ABORT_result r.1).adminDone e.cid (CplRec.good (if r.1 = 1 then 0 else 1) [])) e)

/-- ASYNCHRONOUS_EVENT_REQUEST (R498, R499): at most four wait (R461). -/
def execAsynchronousEventRequest (e : Sqe) (s : State) : Host.Outcome State Fault Refusal :=
  .next (s.admin false (fun s =>
    if 4 ≤ s.nvme.aers.length then s.adminDone e.cid (CplRec.bad 1 5)
    else (s.onNvme (fun v => { v with aers := v.aers ++ [e.cid.toNat] })).sendAen) e)

/-! ## Set Features -/

/-- Changes the features. -/
def State.onFeats (f : Feats → Feats) (s : State) : State := s.onNvme (fun v => { v with feats := f v.feats })

/-- Set Features with feature identifier `fid` (R489, R490): a Save bit fails first, and an entry with another identifier is
one of no listed feature. -/
def State.setFeature (fid : Nat) (f : State → Except CplRec State) (e : Sqe) (s : State) : State :=
  s.admin false (fun s =>
    if e.dw10.getLsbD 31 then s.adminDone e.cid (CplRec.bad 1 0x0D)
    else if e.dw10.toNat % 256 ≠ fid then s.adminDone e.cid CplRec.field
    else match f s with
      | .ok t => t.adminDone e.cid CplRec.ok
      | .error r => s.adminDone e.cid r) e

/-- SET_ARBITRATION (R490): the weights are ignored. -/
def execSetArbitration (e : Sqe) (s : State) : Host.Outcome State Fault Refusal :=
  .next (s.setFeature 1 (fun s => .ok (s.onFeats (fun f => { f with burst := e.dw11.toNat % 8 }))) e)

/-- The point that the active contracts need (R386, R387). -/
def State.neededPoint (s : State) : Nat := s.pointFor (s.get F.CTR_DREP_mbps)

/-- A power state is refused while contracts are pending or active (R387). -/
def State.psBarred (s : State) (k : Nat) : Bool := s.bound && (decide (2 ≤ k) || (k == 1 && decide (s.psCap 1 < s.neededPoint)))

/-- SET_POWER_MANAGEMENT (R522, R387): the command completes, and the transition starts. -/
def execSetPowerManagement (e : Sqe) (s : State) : Host.Outcome State Fault Refusal :=
  let k := e.dw11.toNat % 32
  .next (s.setFeature 2 (fun s =>
    if 4 < k then .error CplRec.field else if s.psBarred k then .error (CplRec.bad 7 0xC3) else .ok (s.enterPs k)) e)

/-- A kelvin value as a two's-complement byte in degrees Celsius (R601), held within it. -/
def celsius (k : Nat) : Nat := ofInt 8 (clampI (-128) 127 ((k : Int) - 273))

/-- SET_TEMPERATURE_THRESHOLD (R490, R601): the composite thresholds, in kelvin. An under-threshold of 0 K disables it. -/
def execSetTemperatureThreshold (e : Sqe) (s : State) : Host.Outcome State Fault Refusal :=
  let k := e.dw11.toNat % 65536
  let sel := natBits e.dw11.toNat 16 4
  let th := natBits e.dw11.toNat 20 2
  .next (s.setFeature 4 (fun s =>
    if !(sel = 0 ∨ sel = 15) ∨ 1 < th then .error CplRec.field
    else if th = 0 then .ok ((s.onFeats (fun f => { f with tOver := k })).put F.ALR_TTH_over (celsius k))
    else .ok (((s.onFeats (fun f => { f with tUnder := k })).put F.ALR_TTH_under (celsius k)).put F.ALR_TTH_underen (if k = 0 then 0 else 1))) e)

/-- SET_NUMBER_OF_QUEUES (R490, R499): at most 64 of each kind, 0's based, before any queue is created. -/
def execSetNumberOfQueues (e : Sqe) (s : State) : Host.Outcome State Fault Refusal :=
  let sq := e.dw11.toNat % 65536
  let cq := e.dw11.toNat / 65536
  .next (s.admin false (fun s =>
    if e.dw10.getLsbD 31 then s.adminDone e.cid (CplRec.bad 1 0x0D)
    else if e.dw10.toNat % 256 ≠ 7 ∨ sq = 65535 ∨ cq = 65535 then s.adminDone e.cid CplRec.field
    else if !s.nvme.sqs.isEmpty ∨ !s.nvme.cqs.isEmpty then s.adminDone e.cid (CplRec.bad 0 0x0C)
    else
      let s := s.onFeats (fun f => { f with nsq := min 63 sq, ncq := min 63 cq })
      s.adminDone e.cid (CplRec.good (min 63 sq + 65536 * min 63 cq) [])) e)

/-- SET_INTERRUPT_COALESCING (R490, R491). -/
def execSetInterruptCoalescing (e : Sqe) (s : State) : Host.Outcome State Fault Refusal :=
  .next (s.setFeature 8 (fun s =>
    .ok (s.onFeats (fun f => { f with coalThr := e.dw11.toNat % 256, coalTime := e.dw11.toNat / 256 % 256 }))) e)

/-- SET_INTERRUPT_VECTOR_CONFIGURATION (R490): coalescing disabled on a vector, or enabled again. -/
def execSetInterruptVectorConfiguration (e : Sqe) (s : State) : Host.Outcome State Fault Refusal :=
  let v := e.dw11.toNat % 65536
  .next (s.setFeature 9 (fun s =>
    if 64 < v then .error CplRec.field
    else .ok (s.onFeats (fun f => { f with
      noCoal := (f.noCoal.filter (fun x => x != v)) ++ (if e.dw11.getLsbD 16 then [v] else []) }))) e)

/-- SET_ASYNC_EVENT_CONFIGURATION (R490, R498). -/
def execSetAsyncEventConfiguration (e : Sqe) (s : State) : Host.Outcome State Fault Refusal :=
  .next (s.setFeature 0x0B (fun s => .ok (s.onFeats (fun f => { f with aec := e.dw11.toNat }))) e)

/-- The APST table of a data structure (R527): for each state its idle time and target. -/
def apstTable (d : List Byte) : List (Nat × Nat) :=
  (List.range 32).map (fun i => let w := ofLe (bytesAt d (8 * i) 8); (natBits w 8 24, natBits w 3 5))

/-- An APST table that R527 refuses: an entry in use whose target is not a later non-operational state. -/
def apstBad (t : List (Nat × Nat)) : Bool :=
  t.zipIdx.any (fun x => x.1.1 != 0 && (!(x.1.2 == 3 || x.1.2 == 4) || decide (x.1.2 ≤ x.2)))

/-- SET_APST (R527). -/
def execSetApst (e : Sqe) (s : State) : Host.Outcome State Fault Refusal :=
  let t := apstTable e.data
  .next (s.setFeature 0x0C (fun s =>
    if apstBad t then .error CplRec.field else .ok (s.onFeats (fun f => { f with apste := e.dw11.getLsbD 0, apst := t }))) e)

/-- SET_ACOUSTIC_CEILING (R492, R387). -/
def execSetAcousticCeiling (e : Sqe) (s : State) : Host.Outcome State Fault Refusal :=
  let k := e.dw11.toNat
  .next (s.setFeature 0xC2 (fun s =>
    if 7 < k ∨ (k ≠ 7 ∧ s.getA F.SPN_CRVHDR_npts ≤ k) then .error CplRec.field
    else if s.bound && decide (k < s.neededPoint) then .error (CplRec.bad 7 0xC3)
    else .ok (s.setAcou k)) e)

/-- SET_MAGAZINE_ENERGY (R493): Feature Not Changeable. -/
def execSetMagazineEnergy (e : Sqe) (s : State) : Host.Outcome State Fault Refusal :=
  .next (s.setFeature 0xC3 (fun _ => .error (CplRec.bad 1 0x0E)) e)

/-! ## Get Features -/

/-- The Magazine Energy data structure (R493). -/
def State.magazineEnergy (s : State) : List Byte :=
  let fl := (if s.flag F.HRV_STAT_wt then 1 else 0) + (if s.flag F.SPN_STAT_upok then 2 else 0) + (if s.diapause then 4 else 0) +
    (if s.flag F.HRV_ERR_chopopen || s.flag F.HRV_ERR_chopshort then 8 else 0)
  leBytes 4 (s.get F.HRV_BUDGET_kib) ++ leBytes 4 (s.get F.HRV_DIRTY_kib) ++ leBytes 4 (s.get F.HRV_WTDIRTY_kib) ++
    leBytes 4 (s.get F.CTR_WRES_kib) ++ leBytes 2 s.rpm ++ [BitVec.ofNat 8 (s.get F.SPN_TGT_point), BitVec.ofNat 8 fl,
      BitVec.ofNat 8 (s.get F.HRV_LANES_mask)] ++ List.replicate 11 0

/-- A feature's value as dword 0 and data (R490, R492, R493): the thresholds and vectors that CDW11 names. -/
def State.featValue (s : State) (f : Feats) (acou : Nat) (e : Sqe) : Option (Nat × List Byte) :=
  match e.dw10.toNat % 256 with
  | 0x01 => some (f.burst, [])
  | 0x02 => some (f.ps, [])
  | 0x04 => some (if natBits e.dw11.toNat 20 2 = 0 then f.tOver else f.tUnder, [])
  | 0x07 => some (f.nsq + 65536 * f.ncq, [])
  | 0x08 => some (f.coalThr + 256 * f.coalTime, [])
  | 0x09 =>
    let v := e.dw11.toNat % 65536
    if 64 < v then none else some (v + (if f.noCoal.contains v then 65536 else 0), [])
  | 0x0B => some (f.aec, [])
  | 0x0C => some (if f.apste then 1 else 0, bytesAt (f.apst.flatMap (fun x => leBytes 8 (x.1 * 256 + x.2 * 8))) 0 256)
  | 0xC2 => some (acou + 65536 * (if acou = 7 then 0 else s.pointRpm acou), [])
  | 0xC3 => some (0, s.magazineEnergy)
  | _ => none

/-- Get Features (R489): the current value, the default, or the capabilities: changeable and not saveable. -/
def State.getFeature (e : Sqe) (s : State) : State :=
  let sel := natBits e.dw10.toNat 8 3
  let v := if sel = 0 then s.featValue s.nvme.feats s.acou e else s.featValue Feats.default 7 e
  match v with
  | none => s.adminDone e.cid CplRec.field
  | some (dw0, d) =>
    if 3 < sel then s.adminDone e.cid CplRec.field
    else if sel = 3 then s.adminDone e.cid (CplRec.good 4 [])
    else s.adminDone e.cid (CplRec.good dw0 d)

/-- GET_FEATURES (R489). -/
def execGetFeatures (e : Sqe) (s : State) : Host.Outcome State Fault Refusal := .next (s.admin false (State.getFeature e) e)

/-- GET_MAGAZINE_ENERGY (R493). -/
def execGetMagazineEnergy (e : Sqe) (s : State) : Host.Outcome State Fault Refusal :=
  .next (s.admin false (fun s => if e.dw10.toNat % 256 = 0xC3 then s.getFeature e else s.adminDone e.cid CplRec.field) e)

/-! ## Directives -/

/-- The directive operation and type of a Directive Send or Receive. -/
def Sqe.doper (e : Sqe) : Nat := e.dw11.toNat % 256
def Sqe.dirType (e : Sqe) : Nat := e.dw11.toNat / 256 % 256
def Sqe.dirSpec (e : Sqe) : Nat := e.dw11.toNat / 65536

/-- A directive command on NSID 1 (R462). -/
def State.directive (e : Sqe) (f : State → State) (s : State) : State :=
  s.admin false (fun s => if e.nsid = 1 then f s else s.adminDone e.cid (CplRec.bad 0 0x0B)) e

/-- ENABLE_DIRECTIVE (R463): the Streams directive is enabled or disabled; the Identify directive is always enabled. -/
def execEnableDirective (e : Sqe) (s : State) : Host.Outcome State Fault Refusal :=
  .next (s.directive e (fun s =>
    let on := e.dw12.getLsbD 0
    if Sqe.dirType e ≠ 0 ∨ Sqe.doper e ≠ 1 ∨ natBits e.dw12.toNat 8 8 ≠ 1 then s.adminDone e.cid CplRec.field
    else (s.onNvme (fun v => { v with
      streams := on, openStreams := if on then v.openStreams else [], nsa := if on then v.nsa else 0 })).adminDone e.cid CplRec.ok))

/-- A pending or active contract binds a stream (R465). -/
def State.binds (s : State) (stream : Nat) : Bool := (s.slotsIn [1, 2]).any (fun i => s.getA (F.CTR_C_CFG_stream i) == stream)

/-- RELEASE_IDENTIFIER (R465). -/
def execReleaseIdentifier (e : Sqe) (s : State) : Host.Outcome State Fault Refusal :=
  .next (s.directive e (fun s =>
    let k := Sqe.dirSpec e
    if Sqe.dirType e ≠ 1 ∨ Sqe.doper e ≠ 1 ∨ !s.nvme.streams then s.adminDone e.cid CplRec.field
    else if s.binds k then s.adminDone e.cid (CplRec.bad 7 0xC3)
    else (s.onNvme (fun v => { v with openStreams := v.openStreams.filter (fun x => x != k) })).adminDone e.cid CplRec.ok))

/-- RELEASE_RESOURCES (R465): it would release every stream. -/
def execReleaseResources (e : Sqe) (s : State) : Host.Outcome State Fault Refusal :=
  .next (s.directive e (fun s =>
    if Sqe.dirType e ≠ 1 ∨ Sqe.doper e ≠ 2 ∨ !s.nvme.streams then s.adminDone e.cid CplRec.field
    else if s.bound then s.adminDone e.cid (CplRec.bad 7 0xC3)
    else (s.onNvme (fun v => { v with openStreams := [], nsa := 0 })).adminDone e.cid CplRec.ok))

/-- DIRECTIVE_RECEIVE (R463): the parameters of the Identify and Streams directives, the open streams, and an allocation of
stream resources. -/
def execDirectiveReceive (e : Sqe) (s : State) : Host.Outcome State Fault Refusal :=
  .next (s.directive e (fun s =>
    let give (s : State) (dw0 : Nat) (d : List Byte) : State := s.adminDone e.cid (CplRec.good dw0 (d.take (4 * (e.dw10.toNat + 1))))
    match Sqe.dirType e, Sqe.doper e with
    | 0, 1 => give s 0 (page 4096 [(0, [3]), (32, [if s.nvme.streams then 3 else 1])])
    | 1, 1 => give s 0 (page 32 [(0, leBytes 2 65535), (2, leBytes 2 65535), (22, leBytes 2 s.nvme.nsa),
        (24, leBytes 2 s.nvme.openStreams.length)])
    | 1, 2 =>
      if s.nvme.streams then give s 0 (leBytes 2 s.nvme.openStreams.length ++ s.nvme.openStreams.flatMap (leBytes 2))
      else s.adminDone e.cid CplRec.field
    | 1, 3 =>
      let n := min (e.dw12.toNat % 65536) (65535 - s.nvme.nsa)
      if s.nvme.streams then give (s.onNvme (fun v => { v with nsa := v.nsa + n })) n [] else s.adminDone e.cid CplRec.field
    | _, _ => s.adminDone e.cid CplRec.field))

end Sys2Proof.Machine
end

