-- ==== Sys2Proof/Machine/HostLogs.lean ====
section
/-! DEFINITION. Get Log Page (11_host_interface.md R470, R494 to R497; 09_rate_contracts.md R399; 15_alerts_and_events.md R620,
R622). -/

namespace Sys2Proof.Machine
open Sys2Proof

/-- Get Log Page for page `lid` (R494, R498): offset and extended NUMD, and with RAE cleared the page's events are enabled
again. In PS4 the HBM emerges for it (R526). -/
def State.logPage (lid align : Nat) (f : State → List Byte) (e : Sqe) (s : State) : State :=
  s.admin true (fun s =>
    let off := e.dw12.toNat + e.dw13.toNat * 2 ^ 32
    let len := 4 * (e.dw10.toNat / 65536 + e.dw11.toNat % 65536 * 65536 + 1)
    let p := f s
    if e.dw10.toNat % 256 ≠ lid ∨ off % align ≠ 0 ∨ 2097152 < len ∨ p.length < off then s.adminDone e.cid CplRec.field
    else
      let s := if e.dw10.getLsbD 15 then s else s.clearAen lid
      (s.wakeHbm).adminDone e.cid (CplRec.good 0 ((p.drop off).take len))) e

/-- A status as the 16 bits of a completion, its phase tag clear. -/
def statusBits (sct sc : Nat) : Nat := sc * 2 + sct * 512 + (if (CplRec.bad sct sc).dnr then 32768 else 0)

/-- An Error Information entry (R470): byte 29 carries the vendor's code. -/
def ErrEnt.bytes (x : ErrEnt) : List Byte :=
  leBytes 8 x.count ++ leBytes 2 x.sq ++ leBytes 2 x.cid ++ leBytes 2 (statusBits x.sct x.sc) ++ [0, 0] ++ leBytes 8 x.lba ++
    leBytes 4 x.ns ++ [0, BitVec.ofNat 8 x.code] ++ List.replicate 34 0

/-- ERROR_INFORMATION_LOG (R470, R494). -/
def execErrorInformationLog (e : Sqe) (s : State) : Host.Outcome State Fault Refusal :=
  .next (s.logPage 1 4 (fun s => bytesAt (s.nvme.errs.flatMap ErrEnt.bytes) 0 4096) e)

/-- The SMART / Health Information page (R495). -/
def State.smart (s : State) : List Byte :=
  let c := (s.lastCounter.map (·.2)).getD (0, 0)
  let k := ofInt 16 (sInt 8 (s.get F.ALR_TEMP_tj) + 273)
  page 512 [(0, [BitVec.ofNat 8 s.critWarn]), (1, leBytes 2 k), (32, leBytes 16 (ceilDiv s.nvme.rdUnits 1000)),
    (48, leBytes 16 (ceilDiv s.nvme.wrUnits 1000)), (112, leBytes 16 c.2), (128, leBytes 16 (c.1 / 3600000)),
    (144, leBytes 16 s.media.harvests), (160, leBytes 16 s.nvme.ureads), (176, leBytes 16 s.nvme.errCount)]

/-- SMART_HEALTH_LOG (R495): controller-wide only. -/
def execSmartHealthLog (e : Sqe) (s : State) : Host.Outcome State Fault Refusal :=
  .next (if e.nsid = 0 ∨ e.nsid = 0xFFFFFFFF then s.logPage 2 4 State.smart e else s.admin true (fun s => s.adminDone e.cid CplRec.field) e)

/-- The image version in a slot's header, where it holds an image. -/
def State.slotVersion (s : State) (slot : Nat) : Option Nat :=
  let a := (slot - 1) * 0x1800000
  if s.flashBytes a 4 = [0x4F, 0x4C, 0x55, 0x4B] then some (ofLe (s.flashBytes (a + 12) 4)) else none

/-- The Firmware Slot Information page (R486, R494, R550): the running slot, the slot of the next cold reset if it is
another one, and the versions. -/
def State.fwSlots (s : State) : List Byte :=
  let run := let k := s.get F.CFG_BOOT_src; if k = 1 ∨ k = 2 then k else 0
  let next := (s.bootNow.map (·.2.1)).getD 1
  page 512 [(0, [BitVec.ofNat 8 (run + (if next = run then 0 else 16 * next))]),
    (8, ((s.slotVersion 1).map frOf).getD (List.replicate 8 0)), (16, ((s.slotVersion 2).map frOf).getD (List.replicate 8 0))]

/-- FIRMWARE_SLOT_LOG (R494). -/
def execFirmwareSlotLog (e : Sqe) (s : State) : Host.Outcome State Fault Refusal := .next (s.logPage 3 4 State.fwSlots e)

/-- The effects of the admin opcodes that the part supports (R462, R497). -/
def adminEffects : List (Nat × Nat) :=
  [0x00, 0x01, 0x02, 0x04, 0x05, 0x06, 0x08, 0x09, 0x0A, 0x0C, 0x11, 0x19, 0x1A, 0xC3].map (fun o => (o, 1)) ++
    [(0x10, 0x19), (0xC1, 0x10001), (0xC2, 0x10001)]

/-- The effects of the I/O opcodes. -/
def State.ioEffects (s : State) : List (Nat × Nat) :=
  ([0x00, 0x01, 0x02, 0x7A, 0x7D].map (fun o => (o, 1)) ++ [(0x79, 3), (0x86, 3), (0x85, 1)]).filter
    (fun x => s.ioOpcode (BitVec.ofNat 8 x.1))

/-- COMMANDS_SUPPORTED_LOG (R497). -/
def execCommandsSupportedLog (e : Sqe) (s : State) : Host.Outcome State Fault Refusal :=
  .next (s.logPage 5 4 (fun s => page 4096 (adminEffects.map (fun x => (4 * x.1, leBytes 4 x.2)) ++
    s.ioEffects.map (fun x => (1024 + 4 * x.1, leBytes 4 x.2)))) e)

/-- A contract log record (R399). -/
def CtrLog.bytes (r : CtrLog) : List Byte :=
  leBytes 8 r.time ++ [BitVec.ofNat 8 r.event, BitVec.ofNat 8 r.handle] ++ leBytes 2 r.stream ++ [BitVec.ofNat 8 r.dir,
    BitVec.ofNat 8 r.reason] ++ leBytes 2 r.demand ++ leBytes 4 r.rate ++ List.replicate 12 0

/-- CONTRACT_LOG (R399): the total, the valid records, and the records, newest first. -/
def execContractLog (e : Sqe) (s : State) : Host.Outcome State Fault Refusal :=
  .next (s.logPage 0xC4 4 (fun s => bytesAt (leBytes 4 s.ctr.logged ++ leBytes 2 (s.ctr.log.take 126).length ++
    List.replicate 58 0 ++ (s.ctr.log.take 126).flatMap CtrLog.bytes) 0 4096) e)

/-- A loss entry (R358). -/
def Loss.bytes (l : Loss) : List Byte :=
  leBytes 4 l.hseq ++ [BitVec.ofNat 8 l.ns, BitVec.ofNat 8 l.cause] ++ leBytes 2 l.blocks ++ leBytes 8 l.lba

/-- HARVEST_LOSS_LOG (R496): entries in order of NSID and LBA. -/
def execHarvestLossLog (e : Sqe) (s : State) : Host.Outcome State Fault Refusal :=
  .next (s.logPage 0xC5 4 (fun s =>
    let h := s.map.lossHdr
    leBytes 4 h.1 ++ leBytes 4 s.map.loss.length ++ leBytes 4 s.map.lossOver ++ [BitVec.ofNat 8 h.2.1, BitVec.ofNat 8 h.2.2.1, 0, 0] ++
      leBytes 8 h.2.2.2 ++ List.replicate 40 0 ++ s.map.loss.flatMap Loss.bytes) e)

/-- The records of the history (R620), newest first, each once: those of the SRAM, then those of the ring. -/
def State.history (s : State) : List EvtRec :=
  let sram := (s.evt.sram.map (·.1)).reverse
  let hd := s.get F.EVT_RINGHD_slot
  let age (k : Nat) : Nat := (hd + 65535 - k) % 65536
  let ring := (s.evt.ring.mergeSort (fun x y => decide (age x.1 ≤ age y.1))).map (·.2)
  (sram ++ ring.filter (fun r => !(sram.any (fun x => x.seq == r.seq && x.early == r.early)))).take 65024

/-- Records missing from gaps in the ring's sequence numbers, from its records, newest first. -/
def missing : List EvtRec → Nat
  | a :: b :: l => (a.seq + 2 ^ 32 - b.seq - 1) % 2 ^ 32 + missing (b :: l)
  | _ => 0

/-- EVENT_HISTORY_LOG (R620): the offset is a multiple of 64. -/
def execEventHistoryLog (e : Sqe) (s : State) : Host.Outcome State Fault Refusal :=
  .next (s.logPage 0xC6 64 (fun s =>
    let rs := s.history
    let hd := s.get F.EVT_RINGHD_slot
    let age (k : Nat) : Nat := (hd + 65535 - k) % 65536
    let ring := (s.evt.ring.mergeSort (fun x y => decide (age x.1 ≤ age y.1))).map (·.2)
    leBytes 4 rs.length ++ leBytes 4 ((rs.head?.map (·.seq)).getD 0) ++ leBytes 4 ((rs.getLast?.map (·.seq)).getD 0) ++
      leBytes 4 (s.get F.EVT_DROP_count) ++ leBytes 4 (missing ring) ++ List.replicate 44 0 ++ rs.flatMap EvtRec.bytes) e)

/-- MEASUREMENT_LOG (R622): entries newest first. -/
def execMeasurementLog (e : Sqe) (s : State) : Host.Outcome State Fault Refusal :=
  .next (s.logPage 0xC7 4 (fun s => leBytes 4 s.meas.log.length ++ leBytes 2 (s.get F.EVT_MEASCFG_period) ++ List.replicate 58 0 ++
    s.meas.log.flatten) e)

end Sys2Proof.Machine
end

