-- ==== Sys2Proof/Machine/Resets.lean ====
section
/-! DEFINITION. Resets (00_scope.md R12, 08_harvest.md R330, R331, 13_startup_and_image.md R529, R557, R558, 17_register_map.md
R660) and the power-good inputs after start-up (16_package_and_electrical.md R633, R635). -/

namespace Sys2Proof.Machine
open Sys2Proof

/-! ## Cold reset -/

/-- A flash operation or a ring erase that loses its power leaves unknown bytes (R543). -/
def State.dropFlash (s : State) : State :=
  let s := match s.boot.fl with
    | some (op, page) => s.spoilOp op page
    | none => s
  match s.evt.erase with
  | none => s
  | some k =>
    if 0 ≤ Config.freeInt s.free then
      { s with free := s.free + 1, evt := { s.evt with ring := s.evt.ring.filter (fun x => x.1 / 1024 != k) } }
    else { s with free := s.free + 1 }

/-- A cold reset with a strap value (R12, R529): every register and store takes its reset value; the disks, the flash, the
fuses and the level of `PERST_N` stay. -/
def State.coldReset (strap : Nat) (s : State) : State :=
  let s := s.dropFlash
  let r : State := { State.reset with
    variant := s.variant, media := s.media, flash := s.flash, fuses := s.fuses, free := s.free, pending := s.pending
    evt := { State.reset.evt with ring := s.evt.ring }
    nvme := { Nvme.reset with perst := s.nvme.perst } }
  r.put F.CFG_STRAP_mode strap

/-- A cold reset inside the block: the straps are not sampled (R529). -/
def State.coldAgain (s : State) : State := s.coldReset (s.get F.CFG_STRAP_mode)

/-- COLD_RESET (R12, R529, R330): `PWRON_N` rises and the straps are sampled; a harvest ignores it, and so does DONE. -/
def execColdReset (strap : Fin 8) (s : State) : Host.Outcome State Fault Refusal :=
  .next (if 2 ≤ s.hrvState then s else s.coldReset strap.val)

/-- VDD_3V3_LOSS (R633, R331): AON is held in reset. -/
def execVdd3v3Loss (s : State) : Host.Outcome State Fault Refusal := .next (s.coldAgain.onBoot (fun b => { b with phase := 6 }))

/-- REJOIN_RESET (R331): in DONE, the connector is mated and the supply good for the rejoin time. -/
def execRejoinReset (s : State) : Host.Outcome State Fault Refusal := .next (if s.hrvState = 7 then s.coldAgain else s)

/-! ## Warm reset -/

/-- A write of SYS_RST (R558, R660, R363): admission closes, unsealed commands are discarded, and what is dirty is committed
before the heads are unloaded. -/
def State.writeSysRst (p : Path) (v : Word) (s : State) : State :=
  s.gated p R.SYS_RST v (!(v.getLsbD 0 && F.SYS_RST_key.of v == 0x5253) || s.diapause) (fun s =>
    if s.boot.warm ≠ 0 then s
    else
      let s := s.discardAll.onBuf (fun b => { b with closed := true })
      if s.clean then s.unloadAll.onBoot (fun b => { b with warm := 2 })
      else (s.onBoot (fun b => { b with warm := 1 })).beginSwitchCommit 1)

/-- SYS_RST (R660). -/
def execSysRst (p : Path) (v : Word) (s : State) : Host.Outcome State Fault Refusal := .next (s.writeSysRst p v)

/-- A warm reset (R12, R557): the HBM contents, the isolation state of HRV, the event recorder, the disks and the flash stay,
and the loader starts again from the image copy. -/
def State.warmReset (s : State) : State :=
  let s := match s.boot.fl with
    | some (op, page) => s.spoilOp op page
    | none => s
  let r : State := { State.reset with
    variant := s.variant, us := s.us, ctrBase := s.us, coreUp := s.coreUp, evt := s.evt, meas := { s.meas with log := [] }, smb := s.smb, media := s.media
    flash := s.flash, fuses := s.fuses, hbm := s.hbm, tap := s.tap, free := s.free, pending := s.pending
    regs := s.regs, active := s.active, integ := { s.integ with left := 0, done := 0, again := false, failed := [] }
    nvme := { Nvme.reset with perst := s.nvme.perst }
    hrv := { HrvSt.reset with ramped := s.hrv.ramped, regen := s.hrv.regen }
    boot := { Boot.reset with phase := 3, imgLen := s.boot.imgLen, vddq := s.boot.vddq } }
  let iso := s.get F.HRV_STAT_iso
  ((r.resetRegs .warm).put F.HRV_STAT_iso iso).put F.CFG_BOOT_warm 1

/-- WARM_RESET_TAKES_EFFECT (R557, R558): the commit is over and every head is unloaded. -/
def execWarmResetTakesEffect (s : State) : Host.Outcome State Fault Refusal :=
  .next (if s.boot.warm ≠ 2 ∨ s.get F.SRV_STAT_loaded ≠ 0 ∨ allLanes.any (fun a => (s.act a).ramp == some true) ∨ s.harvesting then s
    else s.warmReset)

/-! ## Power-good inputs -/

/-- PGOOD_CORE_LOW (R635): an internal cold reset; in a harvest, write-unsafe on every lane, and coast writing is held. -/
def execPgoodCoreLow (s : State) : Host.Outcome State Fault Refusal :=
  .next (if s.boot.phase < 3 ∨ s.boot.phase = 6 ∨ s.hrvState = 7 then s
    else if s.harvesting then
      (doAll (allLanes.filter (fun (n : Fin 4) => s.fitted n)) (fun n => State.writeUnsafe n none) s).onHrv (fun h => { h with coreLow := true })
    else s.coldAgain)

/-- The coast-write commands of the slots that are dealt again leave the queues. -/
def State.dropCoast (s : State) : State :=
  let keep (c : MediaCmd) : Bool := c.op != 2
  doAll allLanes (fun (n : Fin 4) s =>
    (s.setQueue n ((s.lane n).queue.filter keep)).onBuf (fun b => { b with work := b.work.set n (b.work[n].filter keep) })) s

/-- PGOOD_CORE_RETURN (R635, R346): within 1 ms the harvest goes on; every slot whose last coast tile had not passed its end
mark is dealt again. -/
def execPgoodCoreReturn (s : State) : Host.Outcome State Fault Refusal :=
  .next (if !s.hrv.coreLow then s
    else
      let s := s.onHrv (fun h => { h with coreLow := false })
      if s.hstep == 3 || s.hstep == 4 then (s.dropCoast.onHrv (fun h => { h with dealt := [] })).coastGo else s)

/-- PGOOD_CORE_TIMEOUT (R635): DONE at once, with no keel update; `ISO_N` is released and the pads latch. -/
def execPgoodCoreTimeout (s : State) : Host.Outcome State Fault Refusal :=
  .next (if !s.hrv.coreLow then s
    else
      let s := (s.setIso false).put F.HRV_STAT_state 7
      let s := doAll (s.lanesFitted ++ [5]) State.holdPads s
      s.onHrv (fun h => { h with coreLow := false, dealt := [], copies := [], keel := false }))

/-- PGOOD_A_LOW (R635, R516): write-unsafe on every lane, and every running LANE domain has failed. -/
def execPgoodALow (s : State) : Host.Outcome State Fault Refusal :=
  .next (let run := (s.lanesFitted).filter (fun n => s.runs n)
    if run.isEmpty ∨ s.boot.phase < 4 then s
    else
      let s := doAll (allLanes.filter (fun (n : Fin 4) => s.fitted n)) (fun n => State.writeUnsafe n none) s
      doAll run State.domFailed s)

/-- PGOOD_B_LOW (R634, R635, R360): the switch of `VDDQ_HBM` opens, and once the start-up waits are over the HBM has failed. -/
def execPgoodBLow (s : State) : Host.Outcome State Fault Refusal :=
  .next (let s := s.onBoot (fun b => { b with vddq := false })
    if s.boot.phase < 4 ∨ s.boot.phase = 6 then s else s.diapauseFor 3)

end Sys2Proof.Machine
end

