-- ==== Sys2Proof/Machine/Integrity.lean ====
section
/-! DEFINITION. Data integrity and self-test (14_integrity_and_selftest.md): triplicated words, the lockstep commit engine, the
tests of the checkers, the rake, ISST and the sense ADC checks. -/

namespace Sys2Proof.Machine
open Sys2Proof

/-! ## Triplicated words -/

/-- The address of copy `c` of word `i`. -/
def copyReg (i c : Nat) : Nat := if c = 0 then R.TMR_W_C0 i else if c = 1 then R.TMR_W_C1 i else R.TMR_W_C2 i

/-- The voter at word `i` (R570): a copy that differs from the other two is rewritten and counted; three that differ
pairwise are uncorrectable. -/
def State.voteFix (i : Nat) (s : State) : State :=
  let a := s.reg (copyReg i 0)
  let b := s.reg (copyReg i 1)
  let c := s.reg (copyReg i 2)
  let fix (k : Nat) (v : Word) : State :=
    let s := ((s.setReg (copyReg i k) v).mirror i v).inc F.TMR_FIXCNT_count
    ((s.put F.TMR_FIX_valid 1).put F.TMR_FIX_copy k).put F.TMR_FIX_word i
  if a = b ∧ b = c then s
  else if b = c then fix 0 b
  else if a = c then fix 1 a
  else if a = b then fix 2 a
  else s.diapauseFor 2

/-- A write of TMR_INJ (R571): one copy takes TMR_INJD, and the voter corrects it. -/
def State.writeTmrInj (p : Path) (v : Word) (s : State) : State :=
  let go := v.getLsbD 31
  s.gated p R.TMR_INJ v (go && F.TMR_INJ_copy.of v == 3) (fun s =>
    let s := s.take R.TMR_INJ v
    if go then
      let i := s.get F.TMR_INJ_word
      (s.setReg (copyReg i (s.get F.TMR_INJ_copy)) (s.reg R.TMR_INJD)).voteFix i
    else s)

/-- TMR_INJ (R571). -/
def execTmrInj (p : Path) (v : Word) (s : State) : Host.Outcome State Fault Refusal := .next (s.writeTmrInj p v)

/-! ## The lockstep commit engine -/

/-- The comparator is diverted (R576). -/
def State.diverted (s : State) : Bool := s.flag F.TMR_LSCTL_test && s.factory && !(s.flag F.BUF_CTL_lock)

/-- The comparator sees a mismatch in group `g` (R574, R576). -/
def State.mismatch (g cyc : Nat) (s : State) : State :=
  if s.diverted then s.put F.TMR_LSSTAT_tested 1
  else
    let s := (s.put F.TMR_LSSTAT_mism 1).put F.TMR_LSSTAT_group g
    (s.put F.TMR_LSCYC_cyc cyc).diapauseFor 1

/-- LOCKSTEP_MISMATCH (R574, R575): a mismatch in a group, 0 for the first, at a CORE cycle; or no group: the comparator's own test,
which runs before BUF_CTL.lock is set, has not detected one that it forced. -/
def execLockstepMismatch (g : Option (Fin 8)) (cyc : Word) (s : State) : Host.Outcome State Fault Refusal :=
  .next (if !s.coreUp && s.boot.phase < 3 then s
    else match g with
      | some g => if s.flag F.TMR_LSSTAT_mism then s else s.mismatch g cyc.toNat
      | none => if s.flag F.BUF_CTL_lock then s else (s.put F.TMR_LSSTAT_stfail 1).diapauseFor 1)

/-- A write of TMR_LSCTL (R576): test and inj only in factory test mode with BUF_CTL.lock at 0. An injection is a mismatch of
one step. -/
def State.writeLsctl (p : Path) (v : Word) (s : State) : State :=
  let test := v.getLsbD 31
  let inj := v.getLsbD 30
  s.gated p R.TMR_LSCTL v ((test || inj) && !(s.factory && !(s.flag F.BUF_CTL_lock))) (fun s =>
    let s := s.take R.TMR_LSCTL v
    if inj then
      let (x, s) := s.fresh
      s.mismatch (s.get F.TMR_LSCTL_group) (ofInt 32 x)
    else s)

/-- TMR_LSCTL_INJ (R576). -/
def execTmrLsctlInj (p : Path) (v : Word) (s : State) : Host.Outcome State Fault Refusal := .next (s.writeLsctl p v)

/-! ## Testing the checkers -/

/-- The instance of a memory is fitted (R563, R567, R596). -/
def State.instOk (s : State) (mem inst : Nat) : Bool :=
  match mem with
  | 3 => decide (inst < 4)
  | 5 | 8 | 9 => decide (inst < 4) && s.fitted inst
  | 7 => decide (inst < s.variant.lanes)
  | 10 => s.fitted (inst / 2)
  | _ => inst == 0

/-- The domain of a memory does not run (R24, R567). -/
def State.memDown (s : State) (mem inst : Nat) : Bool :=
  match mem with
  | 0 => s.dom 6 == 2 || !s.boot.vddq
  | 5 | 8 | 9 => s.dom inst == 2
  | 6 => s.dom 5 == 2
  | 7 => s.dom 4 == 2
  | 10 => s.dom (inst / 2) == 2
  | 11 => s.hostDown
  | _ => false

/-- The weight of the flip masks. -/
def State.flipWeight (s : State) : Nat :=
  popcount (s.get F.ECC_FLIPD0_m) 32 + popcount (s.get F.ECC_FLIPD1_m) 32 + popcount (s.get F.ECC_FLIPC_m) 8

/-- A write of ECC_FLIPCTL (R566, R567): while a flip is armed, only a write of 0 to arm is accepted. -/
def State.writeFlipctl (p : Path) (v : Word) (s : State) : State :=
  let arm := v.getLsbD 31
  let m := F.ECC_FLIPCTL_mem.of v
  let i := F.ECC_FLIPCTL_inst.of v
  let w := s.flipWeight
  s.gated p R.ECC_FLIPCTL v
    (arm && (s.flag F.ECC_FLIPCTL_arm || w == 0 || decide (12 ≤ m) || !(s.instOk m i) || s.memDown m i ||
      (!s.factory && decide (1 < w ∧ m ≤ 3)))) (State.take R.ECC_FLIPCTL v)

/-- ECC_FLIP_ARM (R566). -/
def execEccFlipArm (p : Path) (v : Word) (s : State) : Host.Outcome State Fault Refusal := .next (s.writeFlipctl p v)

/-- A write of ECC_SPLITCTL (R568). -/
def State.writeSplitctl (p : Path) (v : Word) (s : State) : State :=
  let m := F.ECC_SPLITCTL_mem.of v
  s.gated p R.ECC_SPLITCTL v
    (v.getLsbD 31 && (!s.factory || decide (m < 4 ∨ 9 < m) || (s.flag F.ECC_FLIPCTL_arm && s.get F.ECC_FLIPCTL_mem == m)))
    (State.take R.ECC_SPLITCTL v)

/-- ECC_SPLIT_EN (R568). -/
def execEccSplitEn (p : Path) (v : Word) (s : State) : Host.Outcome State Fault Refusal := .next (s.writeSplitctl p v)

/-- A write of ECC_CTL (R563): writing 1 to clr zeroes every counter. -/
def State.writeEccCtl (p : Path) (v : Word) (s : State) : State :=
  s.gated p R.ECC_CTL v false (fun s =>
    if v.getLsbD 31 then
      doAll (List.range 12) (fun m s => (s.put (F.ECC_CE_count m) 0).put (F.ECC_UE_count m) 0) s
    else s)

/-- ECC_CTL_CLR (R563). -/
def execEccCtlClr (p : Path) (v : Word) (s : State) : Host.Outcome State Fault Refusal := .next (s.writeEccCtl p v)

/-! ## Uncorrectable errors -/

/-- The block at `lba` of NSID 1 as its tile's home slot holds it (R405). -/
def State.homeBlock (s : State) (lba : Nat) : Option (List Byte) :=
  let rate := (s.zone (lba / 65536)).rate
  (s.located (lba / 512)).bind (fun v => (s.tileSlot v rate (lba / 4 % 128)).bind (fun p =>
    ((s.media.tiles.find? (fun x => x.1 == physKey (entSurface v) p.1 p.2 0)).map (·.2)).bind (fun t =>
      if t.tag = lba / 4 * 4 then some (bytesAt (s.homeOrder t.tag true t.data) (lba % 4 * 4096) 4096) else none)))

/-- A block of the write pool has an uncorrectable error (R405): a held one is read back from its home slot. -/
def State.wpoolBad (ns lba : Nat) (s : State) : State :=
  match s.buf.blks.find? (fun b => b.ns == ns && b.lba == lba) with
  | none => s
  | some b =>
    match b.st with
    | .landing => match s.ctx? b.ctx with
      | some c => (s.failWrite c (CplRec.bad 0 4)).pump
      | none => s
    | .held => match s.homeBlock lba with
      | some d => s.onBuf (fun x => { x with blks := x.blks.map (fun w => if w.ord = b.ord ∧ w.lba = lba ∧ w.ns = ns then { w with data := d } else w) })
      | none => s
    | _ => ((s.raise F.BUF_ERR_wpecc).onBuf (fun x => { x with spoilt := b.ord :: x.spoilt })).diapauseFor 2

/-- A staged unit of the read pool is discarded (R405): each tile that took it waits for it again, and it is reread (R179). -/
def State.rpoolBad (surface track pos qtr : Nat) (s : State) : State :=
  let hit (x : RSrc) : Bool := x.surface == surface && x.track == track && x.pos == pos && x.qtr == qtr && x.done
  let took (c : Ctx) : Option (Ctx × RTile × RSrc) := if c.stage = 1 then
    (c.tiles.findSome? (fun t => (t.srcs.find? hit).map (fun x => (c, t, x)))) else none
  let s := s.raise F.BUF_ERR_rpecc
  match s.buf.ctxs.findSome? took with
  | none => s.pump
  | some (c, t, x) =>
    let cmd := s.readCmd c.id c.sqe.nsid.toNat t.lba c.deadline x
    let s := s.onBuf (fun b => { b with ctxs := b.ctxs.map (fun c => if c.stage ≠ 1 then c else { c with tiles := c.tiles.map (fun t =>
      if t.srcs.any hit then { t with st := 1, srcs := t.srcs.map (fun y => if hit y then { y with done := false } else y) } else t) }) })
    (doAll cmd.punits (fun p s => s.reread (Fin.ofNat 4 x.lane) p 0xF3) s).pump

/-- An uncorrectable error in the HBM is handled by region (R405, R565). -/
def State.hbmBad (place : HbmPlace) (s : State) : State :=
  match place with
  | .wpool ns lba => s.wpoolBad ns lba
  | .rpool sf tr p q => s.rpoolBad sf tr p q
  | .ahead lba => (s.raise F.BUF_ERR_rpecc).onBuf (fun b => { b with ahead := b.ahead.filter (fun a => a.lba != lba) })
  | .map => s.diapauseFor 2
  | .brine => s
  | .image flash => if flash && (s.get F.CFG_BOOT_src == 1 || s.get F.CFG_BOOT_src == 2) then s else s.diapauseFor 2
  | .staging => { s with fw := { s.fw with staged := [] } }
  | .firmware => s.diapauseFor 2

/-- An uncorrectable error in the map cache (R563): word `addr` of line `addr / 8`, the lines taken set by set. -/
def State.lineBad (addr : Nat) (s : State) : State :=
  let i := addr / 64 % cacheSets
  let w := addr / 8 % 8
  match (s.mset i).ways.getD w none with
  | none => s
  | some l =>
    if l.dirty then s.diapauseFor 2
    else (s.onMset i (fun m => { m with ways := m.ways.set w none })).startFill (l.tag * cacheSets + i)

/-- An uncorrectable error in the event recorder (R563): the record is dropped and counted. -/
def State.recordBad (addr : Nat) (s : State) : State :=
  let n := s.evt.sram.length
  let k := (addr / 8 + 512 + n - s.evt.next) % 512
  match s.evt.sram[k]? with
  | none => s
  | some x =>
    let before := ((s.evt.sram.take k).filter (fun y => !y.2)).length
    let left := if !x.2 && decide (before < s.evt.left) then s.evt.left - 1 else s.evt.left
    let s := { s with evt := { s.evt with sram := dropAt s.evt.sram k, left := left } }
    (s.put F.EVT_STAT_unfl s.evt.unflushed).dropRec

/-- An uncorrectable error is handled as R563 lays down for its memory. -/
def State.memBad (mem inst addr : Nat) (place : HbmPlace) (s : State) : State :=
  let n := Fin.ofNat 4 inst
  match mem with
  | 0 => s.hbmBad place
  | 1 => s.lineBad addr
  | 4 => s.recordBad addr
  | 5 => s.raise (F.LANE_ERR_setecc n)
  | 6 => s.raise F.SRV_ERR_setecc
  | 7 => s.engineOff inst F.CRYS_ERR_lsecc
  | 8 => s.onLane n (fun l =>
      ({ l with unit := l.unit.map (fun (u : LUnit) => if u.write then { u with bad := true } else u), port := [] } : Lane).fillFifo)
  | 9 => s.onLane n (fun l => match l.posted with
      | [] => l
      | p :: rest => { l with posted := { p with bad := true, captured := false } :: rest })
  | 10 => s.onLane (Fin.ofNat 4 (inst / 2)) (fun l =>
      { l with unit := l.unit.map (fun (u : LUnit) => if u.write then u else { u with short := true }) })
  | 11 => match place with
    | .wpool ns lba =>
      if s.buf.blks.any (fun b => b.ns == ns && b.lba == lba && b.st == .landing) then s.wpoolBad ns lba else s
    | _ => s
  | _ => s.diapauseFor 2

/-- A word is read by a requester that no command of the block names. -/
def State.readAt (mem inst addr : Nat) (place : HbmPlace) (s : State) : State :=
  let (ue, s) := s.readWords mem inst addr 1 false none
  if ue then s.memBad mem inst addr place else s

/-- MEMORY_BIT_ERROR (R563, R566, R570): a stored bit changes of itself, and what a read or a write then meets. -/
def execMemoryBitError (e : MemEvent) (s : State) : Host.Outcome State Fault Refusal :=
  .next (match e with
    | .change m i a b =>
      if !(s.instOk m i) then s
      else
        let p := s.poisonAt m i a.toNat
        s.setPoison (if b.val < 64 then { p with data := p.data ^^^ 2 ^ b.val } else { p with check := p.check ^^^ 2 ^ (b.val - 64) })
    | .changeTmr w c b => (s.setReg (copyReg w c) (s.reg (copyReg w c) ^^^ BitVec.ofNat 32 (2 ^ b.val))).voteFix w
    | .changeStore n w b => s.onLane n (fun l =>
        { l with cs := cset (fun _ => (0 : BitVec 160)) w.val (cget (fun _ => (0 : BitVec 160)) l.cs w.val ^^^ BitVec.ofNat 160 (2 ^ b.val)) l.cs })
    | .read m i a place => if s.instOk m i && !(s.memDown m i) then s.readAt m i a.toNat place else s
    | .write m i a => if s.instOk m i && !(s.memDown m i) then s.wroteWords m i a.toNat 1 none else s)

/-! ## The rake -/

/-- The memory, instance and word of a cursor (R577); instances follow one another. -/
def rakeWord (t cur : Nat) : Nat × Nat × Nat :=
  match t with
  | 2 => (3, cur / 32768, cur % 32768)
  | 3 => (2, 0, cur)
  | 5 => (5, cur / 8192, cur % 8192)
  | 7 => (7, cur / 131072, cur % 131072)
  | t => (t, 0, cur)

/-- The lap of control store `n` may run (R580). -/
def State.lapOk (s : State) (n : Nat) : Bool :=
  let i := Fin.ofNat 4 n
  s.fitted n && s.runs n && s.mcs i != 0 && s.mcs i != 1 && s.flag (F.MCS_LDCTL_match n)

/-- The rake works on target `t` (R577, R580, R583). -/
def State.raking (s : State) (t : Nat) : Bool :=
  let e := s.get (F.RAKE_CUR_addr 7) / 131072
  s.flag F.RAKE_CTL_en && !(s.flag F.RAKE_STAT_harv) && decide (3 ≤ s.boot.phase ∧ s.boot.phase < 6) &&
    (if t = 0 then s.runs 6
     else if t = 1 then s.get F.MAP_CSTAT_state != 0
     else if t = 2 then !s.hrv.coresHalted
     else if t = 6 then s.runs 5
     else if t = 7 then s.runs 4 && (s.engine e).ent.isNone && !(s.bit F.CRYS_STAT_offline e)
     else if 8 ≤ t then s.lapOk (t - 8) else true)

/-- The HBM word after `a` that is not brine, in words. -/
def State.afterBrine (s : State) (a : Nat) : Nat :=
  let b := s.get F.CRYS_BRCFG_base * 0x800000
  let n := 0x4000000 * 2 ^ s.get F.CRYS_BRCFG_size
  if b ≤ a ∧ a < b + n then b + n else a

/-- RAKE_SCRUB (R577 to R579): the rake reads the word at a cursor, writes a correctable one back, and goes on. `place` says what
lies there in the HBM. Words of a control store only enter the digest. -/
def execRakeScrub (t : Fin 12) (place : HbmPlace) (s : State) : Host.Outcome State Fault Refusal :=
  .next (if !(s.raking t) then s
    else
      let cur := s.get (F.RAKE_CUR_addr t)
      if 8 ≤ t.val then s.put (F.RAKE_CUR_addr t) ((cur + 1) % 4096)
      else
        let cur := if t.val = 0 then s.afterBrine cur else cur
        let (m, i, a) := rakeWord t cur
        let p := s.poisonAt m i a
        let s := s.put (F.RAKE_CUR_addr t) (if t.val = 0 then s.afterBrine (cur + 1) else cur + 1)
        let (ue, s) := s.readWords m i a 1 false none
        if ue then s.memBad m i a place
        else if p.weight = 0 ∨ s.split m i then s
        else (s.wroteWords m i a 1 none).inc (F.RAKE_FIX_count t))

/-- The bytes of a control store in load order (R230). -/
def Lane.storeBytes (l : Lane) : List Byte :=
  (List.range 4096).flatMap (fun w => leBytes 20 (cget (fun _ => (0 : BitVec 160)) l.cs w).toNat)

/-- The digest of lane `n`'s control store is compared (R580, R581): on a difference the sequencer is killed, its lane leaves
service, and the firmware loads it again. -/
def State.digestCheck (n : Fin 4) (s : State) : State :=
  let d := Config.sha384 (s.lane n).storeBytes
  let hit := (List.range 12).all (fun i => s.reg (R.MCS_DIGREF n i) == digestWord d i)
  let s := ((s.put (F.RAKE_DIG_valid n) 1).put (F.RAKE_DIG_match n) (if hit then 1 else 0)).put (F.RAKE_DIG_dig n)
    (natBits d.toNat 368 8 * 256 + natBits d.toNat 376 8)
  if hit then s
  else
    let s := doIf (s.executing n) (State.mcsKill n) s
    let s := ((s.put (F.MCS_LDCTL_match n) 0).raiseAt F.RAKE_ERR_dig n).onBoot (fun b =>
      { b with relo := if b.relo.contains n.val then b.relo else b.relo ++ [n.val], reloads := b.reloads.set n 0 })
    let s := s.laneLeft.pump
    if s.slice n then s else s.loadLane n

/-- RAKE_LAP_END (R580 to R582): a cursor has been over its whole target, in `ms`. -/
def execRakeLapEnd (t : Fin 12) (ms : Word) (s : State) : Host.Outcome State Fault Refusal :=
  .next (if !(s.raking t) then s
    else
      let s := ((s.inc (F.RAKE_LAPCNT_count t)).put (F.RAKE_LAPTIME_ms t) ms.toNat).put (F.RAKE_CUR_addr t) 0
      if 8 ≤ t.val then s.digestCheck (Fin.ofNat 4 (t.val - 8)) else s)

/-- RAKE_LAP_SLOW (R582): a lap has run longer than RAKE_CTL.lapmax. -/
def execRakeLapSlow (t : Fin 12) (s : State) : Host.Outcome State Fault Refusal :=
  .next (if s.raking t then s.raiseAt F.RAKE_ERR_slow t else s)

/-! ## ISST -/

/-- The blocks of a logic partition (R584). -/
def partBlocks (p : Nat) : Nat := [48, 96, 128, 256, 80].getD p 0

/-- A slice cannot start on lane `n` (R586). -/
def State.sliceBarred (s : State) (n : Fin 4) : Bool :=
  s.get F.ISST_STAT_state != 0 || !(s.laneUp n) || !(s.mcs n == 0 || s.mcs n == 2 || s.mcs n == 5) || (s.lane n).wfifo != 0 || !(s.lane n).port.isEmpty ||
    s.flag (F.LANE_STAT_wg n) || s.flag (F.LANE_STAT_rg n) || s.harvesting || s.diapause

/-- A slice of `len` blocks or repetitions of a partition starts on a lane (R586). -/
def State.startSlice (lane part len : Nat) (again : Bool) (s : State) : State :=
  let s := ((s.put F.ISST_STAT_state 1).put F.ISST_STAT_lane lane).put F.ISST_STAT_part part
  let s := s.put F.ISST_STAT_block (if part = 5 then 0 else s.get (F.ISST_POS_block (Fin.ofNat 4 lane) part))
  { s with integ := { s.integ with left := len, done := 0, again := again } }

/-- A write of ISST_CMD (R586). -/
def State.writeIsstCmd (p : Path) (v : Word) (s : State) : State :=
  let go := v.getLsbD 31
  let part := F.ISST_CMD_part.of v
  let lane := F.ISST_CMD_lane.of v
  let bad := F.ISST_CMD_len.of v == 0 || decide (5 < part) || s.sliceBarred (Fin.ofNat 4 lane)
  s.gated p R.ISST_CMD v (go && bad) (fun s =>
    let s := s.take R.ISST_CMD v
    if go then s.startSlice lane part (s.get F.ISST_CMD_len) false else s)

/-- ISST_CMD_GO (R586). -/
def execIsstCmdGo (p : Path) (v : Word) (s : State) : Host.Outcome State Fault Refusal := .next (s.writeIsstCmd p v)

/-- The slice ends (R589): its position and laps, its result, and the datapath's reset (R590). What failed the resident firmware repeats
once; where it fails again, the lane stays out of service, and event 03h is posted (R594). -/
def State.sliceOver (pass : Bool) (s : State) : State :=
  let n := Fin.ofNat 4 (s.get F.ISST_STAT_lane)
  let part := s.get F.ISST_STAT_part
  let block := s.get F.ISST_STAT_block
  let s := if part = 5 then s
    else
      let laps := (s.get (F.ISST_POS_block n part) + s.integ.done) / partBlocks part
      (s.put (F.ISST_POS_block n part) block).add (F.ISST_LAP_count n) laps
  let again := s.integ.again
  let s := ((s.put F.ISST_RES_valid 1).put F.ISST_RES_pass (if pass then 1 else 0)).put F.ISST_RES_aborted 0
  let s := ((s.put F.ISST_RES_lane n).put F.ISST_RES_part part).put F.ISST_RES_block (if pass then 0 else block)
  let s := if pass then s else s.raiseAt (if part = 5 then F.ISST_ERR_analog else F.ISST_ERR_logic) n
  let s := s.endSlice
  if pass ∨ s.boot.phase ≠ 4 then s
  else if again then (({ s with integ := { s.integ with failed := n.val :: s.integ.failed } }).fwEvent 3).laneLeft.pump
  else if s.sliceBarred n then s
  else s.startSlice n.val part 1 true

/-- ISST_BLOCK_END (R588, R589): a block or repetition ends, and its comparison holds or does not. -/
def execIsstBlockEnd (ok : Bool) (s : State) : Host.Outcome State Fault Refusal :=
  .next (if s.get F.ISST_STAT_state ≠ 1 then s
    else if !ok then s.sliceOver false
    else
      let part := s.get F.ISST_STAT_part
      let next := s.get F.ISST_STAT_block + 1
      let s := s.put F.ISST_STAT_block (if part = 5 then next else next % partBlocks part)
      let s := { s with integ := { s.integ with left := s.integ.left - 1, done := s.integ.done + 1 } }
      if s.integ.left = 0 then s.sliceOver true else s)

/-- SENSE_ADC_CHECK (R592, R595): the check of ADC `a`, and what the firmware does where it fails: with ADC 0 it disarms HRV. -/
def execSenseAdcCheck (a : Fin 7) (ok : Bool) (s : State) : Host.Outcome State Fault Refusal :=
  .next (if !(s.flag F.ISST_SENSECFG_en) || (decide (3 ≤ a.val) && !(s.fitted (a.val - 3))) || decide (s.boot.phase < 3) then s
    else
      let s := s.putBit F.ISST_SENSEST_fail a.val (!ok)
      if ok then s
      else
        let s := s.raise F.ISST_ERR_sense
        if a.val = 0 ∧ s.boot.phase = 4 ∧ s.flag F.HRV_CTL_arm then s.writeHrvCtl .core 0 else s)

end Sys2Proof.Machine
end

