-- ==== Sys2Proof/Machine/Map.lean ====
section
/-! DEFINITION. MAP's commands and events (02_media_and_map.md R78 to R99). -/

namespace Sys2Proof.Machine
open Sys2Proof

/-- A write of MAP_CTL (R88, R91): bad with a checkpoint size out of range, or with en set while DRAINING. -/
def State.writeMapCtl (p : Path) (v : Word) (s : State) : State :=
  let mib := F.MAP_CTL_ckpt_mib.of v
  let st := s.get F.MAP_CSTAT_state
  let en := v.getLsbD 0
  s.gated p R.MAP_CTL v (decide (mib < 4 ∨ 0x20 < mib) || (en && st == 2)) (fun s =>
    let s := s.take R.MAP_CTL v
    if en && st == 0 then s.put F.MAP_CSTAT_state 1
    else if !en && st == 1 then (s.put F.MAP_CSTAT_state 2).staleFills
    else if !en && st == 3 then s.put F.MAP_CSTAT_state 2
    else s)

/-- MAP_CTL_EN (R88, R91). -/
def execMapCtlEn (p : Path) (v : Word) (s : State) : Host.Outcome State Fault Refusal := .next (s.writeMapCtl p v)

/-- A write of MAP_CMD (R81, R89, R91). Before the namespaces are ready, adoption lets MAP write nothing to media, and no checkpoint
starts (R93). -/
def State.writeMapCmd (p : Path) (v : Word) (s : State) : State :=
  let inv := v.getLsbD 0
  let ck := v.getLsbD 1
  s.gated p R.MAP_CMD v ((inv && s.get F.MAP_CSTAT_state != 1) || (ck && s.flag F.MAP_CKSTAT_busy)) (fun s =>
    let s := if inv then (s.put F.MAP_CSTAT_state 3).staleFills else s
    if ck && decide (4 ≤ s.boot.ready) then s.ckptStart else s)

/-- MAP_CMD_INV (R89 to R91). -/
def execMapCmdInv (p : Path) (v : Word) (s : State) : Host.Outcome State Fault Refusal := .next (s.writeMapCmd p v)

/-- MAP_CMD_CKPT (R81). -/
def execMapCmdCkpt (p : Path) (v : Word) (s : State) : Host.Outcome State Fault Refusal := .next (s.writeMapCmd p v)

/-- MAP_FILL_LAND (R87, R90). -/
def execMapFillLand (s : State) : Host.Outcome State Fault Refusal := .next s.landFill

/-- MAP_CACHE_CLEAN_DONE (R88, R89): every line is clean and then invalidated. -/
def execMapCacheCleanDone (s : State) : Host.Outcome State Fault Refusal :=
  .next (match s.get F.MAP_CSTAT_state with
    | 2 => s.cleanCache.put F.MAP_CSTAT_state 0
    | 3 => s.cleanCache.put F.MAP_CSTAT_state 1
    | _ => s)

/-- JOURNAL_TILE_TIMEOUT (R80): 100 ms after the first record of the open journal tile. -/
def execJournalTileTimeout (s : State) : Host.Outcome State Fault Refusal :=
  .next (if !s.openRecs.isEmpty ∧ 100000 ≤ s.us - s.map.jsince ∧ !s.draining then s.closeJournal.pump else s)

/-- JOURNAL_TILE_ON_MEDIA (R79 to R81): the oldest closed journal tile is on media in both copies. -/
def execJournalTileOnMedia (s : State) : Host.Outcome State Fault Refusal :=
  .next (if s.draining then s else s.landJournal.pump)

/-- CHECKPOINT_DONE (R81, R82): the copies have ended, retried on one copy or not. A lane that left service during them makes
the checkpoint failed, and MAP asks again at once; otherwise both copies stand in the new area, and the keel update that names it goes
out. -/
def execCheckpointDone (retried : Bool) (s : State) : Host.Outcome State Fault Refusal :=
  .next (match s.map.ckpt with
    | none => s
    | some j =>
      if j.copied || s.draining then s
      else if j.lanes.any (fun n => !(s.lanesIn.contains n)) then s.ckptFail
      else
        let c := s.ckptNow j.seq
        let ls := ckptLanes j.lanes
        let s := s.onMedia (fun d => { d with ck := d.ck.filter (fun x => x.area != j.area) ++
          [{ area := j.area, copy := 0, lanes := ls.1, ckpt := c }, { area := j.area, copy := 1, lanes := ls.2, ckpt := c }] })
        let s := s.onMap (fun m => { m with ckpt := some { j with copied := true, retried := retried } })
        (s.keelBegin (s.newKeel j.area j.seq ls)).pump)

/-- A lane may start background work (R97, R383): no contract is in force, the background slice of its frame is not used up, or CTR
estimates that the next visit can still start by its offset. -/
def State.backgroundFits (s : State) (lane : Nat) : Bool :=
  !s.framed || decide (s.ctr.bg.getD lane 0 * 100 < s.getA F.CTR_RSV_pct * s.getA F.CTR_FRAME_us) || s.visitFits lane

/-- RETURN_HOME (R95 to R97): in the background time of its lane, the tile with overlay key `key` of a namespace starts its way home; in a
stripe the first in tile order goes first (R96). Its reads, its write and its records follow as its units pass (R95). -/
def execReturnHome (ns : Nat) (key : Nat) (s : State) : Host.Outcome State Fault Refusal :=
  let z := key / 16384
  let lane := entLane (s.entry (key / 128))
  .next (if s.draining ∨ s.boot.ready < 4 then s
    else if ns = 2 then
      match (s.sectorOf key).map (·.1) with
      | none => s
      | some l => if s.returnBusy 2 0 0 || !(s.backgroundFits l) then s else (s.returnStart 2 key false).pump
    else if s.returnBusy 1 z lane || s.returnNext z lane != some key || !(s.backgroundFits lane) then s
    else (s.returnStart 1 key false).pump)

end Sys2Proof.Machine
end

