-- ==== Sys2Proof/Machine/MicroRows.lean ====
section
/-! DEFINITION. The rows that are one operation of a microword (R195 to R205): the operation acts on a sequencer that
executes microcode; an operation that is a fault (R228) enters FAULT in its place. -/

namespace Sys2Proof.Machine
open Sys2Proof

/-- An operation of a word on lane `n`: its fault if it is one, otherwise its effect. -/
def State.micro (n : Fin 4) (fault : Option Nat) (f : State → State) (s : State) : State :=
  if !(s.executing n) || !(s.laneUp n) then s
  else match fault with
    | some c => s.microFault n c
    | none => f s

/-- A fault of code `c` if it holds. -/
def faultIf (b : Bool) (c : Nat) : Option Nat := if b then some c else none

/-- The word that holds the operation has its write gate bit set (R228, code 5h). -/
def State.wordWg (s : State) (n : Fin 4) : Bool := mbit (s.lane n).word 131

/-- CMDPOP (R195). -/
def execCmdpop (n : Fin 4) (s : State) : Host.Outcome State Fault Refusal :=
  .next (s.micro n (faultIf (s.bufopBad n 1) 8) (State.opBuf n 1 0))

/-- CMDDONE (R195). -/
def execCmddone (n : Fin 4) (s : State) : Host.Outcome State Fault Refusal :=
  .next (s.micro n (faultIf (s.bufopBad n 2) 8) (State.opBuf n 2 0))

/-- REQUEUE (R195). -/
def execRequeue (n : Fin 4) (s : State) : Host.Outcome State Fault Refusal :=
  .next (s.micro n (faultIf (s.bufopBad n 4) 8) (State.opBuf n 4 0))

/-- FLUSHQ (R195). -/
def execFlushq (n : Fin 4) (s : State) : Host.Outcome State Fault Refusal :=
  .next (s.micro n (faultIf (s.bufopBad n 5) 8) (State.opBuf n 5 0))

/-- CMDERR (R195). -/
def execCmderr (n : Fin 4) (code : Byte) (s : State) : Host.Outcome State Fault Refusal :=
  .next (s.micro n (faultIf (s.bufopBad n 3) 8) (State.opBuf n 3 code.toNat))

/-- START (R196, R216), with the word's DPATH, MODSEL and SYNCOP. -/
def execStart (n : Fin 4) (dpath : BitVec 4) (modsel sync : Byte) (s : State) : Host.Outcome State Fault Refusal :=
  .next (
    let d := dpath.toNat
    let bad := if 6 ≤ d ∨ 3 ≤ sync.toNat then some 3
      else if s.modselWrong n 0 modsel.toNat then some 6
      else faultIf (s.tileopBad n (s.lane n).cur.isSome 1 d) 8
    s.micro n bad (State.opTile n 1 d modsel.toNat sync.toNat))

/-- SETLOAD (R196). -/
def execSetload (n : Fin 4) (s : State) : Host.Outcome State Fault Refusal :=
  .next (s.micro n (faultIf (s.tileopBad n (s.lane n).cur.isSome 2 0) 8) (State.opTile n 2 0 0 0))

/-- NEXT (R196). -/
def execNext (n : Fin 4) (s : State) : Host.Outcome State Fault Refusal :=
  .next (s.micro n (faultIf (s.tileopBad n (s.lane n).cur.isSome 3 0) 8) (State.opTile n 3 0 0 0))

/-- REWIND (R196). -/
def execRewind (n : Fin 4) (s : State) : Host.Outcome State Fault Refusal :=
  .next (s.micro n (faultIf (s.tileopBad n (s.lane n).cur.isSome 4 0) 8) (State.opTile n 4 0 0 0))

/-- DEFECT (R196). -/
def execDefect (n : Fin 4) (s : State) : Host.Outcome State Fault Refusal :=
  .next (s.micro n (faultIf (s.tileopBad n (s.lane n).cur.isSome 5 0) 8) (State.opTile n 5 0 0 0))

/-- ABANDON (R196). -/
def execAbandon (n : Fin 4) (s : State) : Host.Outcome State Fault Refusal :=
  .next (s.micro n (faultIf (s.tileopBad n (s.lane n).cur.isSome 6 0) 8) (State.opTile n 6 0 0 0))

/-- CLRST (R196, R228). -/
def execClrst (n : Fin 4) (s : State) : Host.Outcome State Fault Refusal :=
  .next (
    let bad := if s.wordWg n then some 5 else faultIf (s.tileopBad n (s.lane n).cur.isSome 7 0) 8
    s.micro n bad (State.opTile n 7 0 0 0))

/-- LD0 (R197). -/
def execLd0 (n : Fin 4) (imm : BitVec 12) (s : State) : Host.Outcome State Fault Refusal :=
  .next (s.micro n none (State.opLc n 1 imm.toNat))

/-- LD1 (R197). -/
def execLd1 (n : Fin 4) (imm : BitVec 12) (s : State) : Host.Outcome State Fault Refusal :=
  .next (s.micro n none (State.opLc n 2 imm.toNat))

/-- LDB (R197). -/
def execLdb (n : Fin 4) (imm : BitVec 12) (s : State) : Host.Outcome State Fault Refusal :=
  .next (s.micro n none (State.opLc n 3 imm.toNat))

/-- CNT0 (R197). -/
def execCnt0 (n : Fin 4) (s : State) : Host.Outcome State Fault Refusal :=
  .next (s.micro n none (State.opLc n 4 0))

/-- CNT1 (R197). -/
def execCnt1 (n : Fin 4) (s : State) : Host.Outcome State Fault Refusal :=
  .next (s.micro n none (State.opLc n 5 0))

/-- DEC0 (R197). -/
def execDec0 (n : Fin 4) (s : State) : Host.Outcome State Fault Refusal :=
  .next (s.micro n none (State.opLc n 6 0))

/-- DEC1 (R197). -/
def execDec1 (n : Fin 4) (s : State) : Host.Outcome State Fault Refusal :=
  .next (s.micro n none (State.opLc n 7 0))

/-- INC0 (R197). -/
def execInc0 (n : Fin 4) (s : State) : Host.Outcome State Fault Refusal :=
  .next (s.micro n none (State.opLc n 8 0))

/-- INC1 (R197). -/
def execInc1 (n : Fin 4) (s : State) : Host.Outcome State Fault Refusal :=
  .next (s.micro n none (State.opLc n 9 0))

/-- TIMER_LOAD (R198). -/
def execTimerLoad (n : Fin 4) (sel unit : BitVec 2) (imm : BitVec 16) (s : State) : Host.Outcome State Fault Refusal :=
  .next (s.micro n none (doAll (timersOf sel.toNat) (fun t => State.opTimer n t 1 unit.toNat imm.toNat)))

/-- TIMER_STOP (R198). -/
def execTimerStop (n : Fin 4) (sel : BitVec 2) (s : State) : Host.Outcome State Fault Refusal :=
  .next (s.micro n none (doAll (timersOf sel.toNat) (fun t => State.opTimer n t 2 0 0)))

/-- TIMER_RESTART (R198). -/
def execTimerRestart (n : Fin 4) (sel : BitVec 2) (s : State) : Host.Outcome State Fault Refusal :=
  .next (s.micro n none (doAll (timersOf sel.toNat) (fun t => State.opTimer n t 3 0 0)))

/-- TIMER_EXPIRE (R198): the time that a running timer still counts passes. -/
def execTimerExpire (n : Fin 4) (t : Fin 2) (s : State) : Host.Outcome State Fault Refusal :=
  .next (s.micro n none (State.tickTimer n t (max 1 (s.get (tmField n t)))))

/-- PREAMP_STROBE (R199, R200): frames that do not fit wait. -/
def execPreampStrobe (n : Fin 4) (strobes : BitVec 7) (s : State) : Host.Outcome State Fault Refusal :=
  .next (s.micro n none (doIf (s.framesFit n strobes.toNat) (State.opPreamp n strobes.toNat)))

/-- HSEL (R199, R228). -/
def execHsel (n : Fin 4) (s : State) : Host.Outcome State Fault Refusal :=
  .next (s.micro n (faultIf (s.wordWg n) 5) (doIf (s.framesFit n 128) (State.opPreamp n 128)))

/-- SEEK (R201, R228). -/
def execSeek (n : Fin 4) (s : State) : Host.Outcome State Fault Refusal :=
  .next (s.micro n (faultIf (s.wordWg n) 5) (State.opServo n 1 0))

/-- SEEKSALT (R201, R228). -/
def execSeeksalt (n : Fin 4) (s : State) : Host.Outcome State Fault Refusal :=
  .next (s.micro n (faultIf (s.wordWg n) 5) (State.opServo n 2 0))

/-- UNLOAD (R201, R228). -/
def execUnload (n : Fin 4) (s : State) : Host.Outcome State Fault Refusal :=
  .next (s.micro n (faultIf (s.wordWg n) 5) (State.opServo n 5 0))

/-- OFFSET (R201). -/
def execOffset (n : Fin 4) (imm : BitVec 16) (s : State) : Host.Outcome State Fault Refusal :=
  .next (s.micro n none (State.opServo n 3 imm.toNat))

/-- CLROFF (R201). -/
def execClroff (n : Fin 4) (s : State) : Host.Outcome State Fault Refusal :=
  .next (s.micro n none (State.opServo n 4 0))

/-- LOAD (R201). -/
def execLoad (n : Fin 4) (s : State) : Host.Outcome State Fault Refusal :=
  .next (s.micro n none (State.opServo n 6 0))

/-- WIDEN (R203): marks the unit that the word starts. -/
def execWiden (n : Fin 4) (s : State) : Host.Outcome State Fault Refusal :=
  .next (s.micro n none (State.onLane n (fun l =>
    { l with unit := l.unit.map (fun u => if u.begun then u else { u with widen := true }) })))

/-- AGCHOLD (R203): marks the unit that the word starts. -/
def execAgchold (n : Fin 4) (s : State) : Host.Outcome State Fault Refusal :=
  .next (s.micro n none (State.onLane n (fun l =>
    { l with unit := l.unit.map (fun u => if u.begun then u else { u with agchold := true }) })))

/-- MICROCODE_EVENT (R204). -/
def execMicrocodeEvent (n : Fin 4) (code : Byte) (imm : BitVec 16) (s : State) : Host.Outcome State Fault Refusal :=
  .next (s.micro n none (State.opEvt n code.toNat imm.toNat))

/-- STAT_COUNT (R205). -/
def execStatCount (n : Fin 4) (mask : Byte) (s : State) : Host.Outcome State Fault Refusal :=
  .next (s.micro n none (State.opStat n mask.toNat))

end Sys2Proof.Machine
end

