-- ==== Sys2Proof/Machine/Microcode.lean ====
section
/-! DEFINITION. The sequencing rows of the microword (R192, R208, R223, R224): the word at the sequencer's address
executes if its SEQ is the row's. -/

namespace Sys2Proof.Machine
open Sys2Proof

/-- CONT (R192). -/
def execCont (n : Fin 4) (e : WordEnv) (s : State) : Host.Outcome State Fault Refusal := .next (s.runWord n 0 e)

/-- JUMP (R192). -/
def execJump (n : Fin 4) (e : WordEnv) (s : State) : Host.Outcome State Fault Refusal := .next (s.runWord n 1 e)

/-- JCOND (R192). -/
def execJcond (n : Fin 4) (e : WordEnv) (s : State) : Host.Outcome State Fault Refusal := .next (s.runWord n 2 e)

/-- CALL (R192). -/
def execCall (n : Fin 4) (e : WordEnv) (s : State) : Host.Outcome State Fault Refusal := .next (s.runWord n 3 e)

/-- RET (R192). -/
def execRet (n : Fin 4) (e : WordEnv) (s : State) : Host.Outcome State Fault Refusal := .next (s.runWord n 4 e)

/-- LOOP (R192). -/
def execLoop (n : Fin 4) (e : WordEnv) (s : State) : Host.Outcome State Fault Refusal := .next (s.runWord n 5 e)

/-- A word clock in which a waiting WAITC word finds its condition false (R208). -/
def State.waitClock (n : Fin 4) (e : WordEnv) (s : State) : State :=
  let m := (s.lane n).word
  if !(s.lane n).waiting || s.condOf n e m then s else (s.clocks n m 1).waitTest n m (s.get (F.MCS_STAT_pc n))

/-- WAITC (R208): the word starts; while it waits, each further WAITC is `e.wait + 1` word clocks, or those until its condition is
true or a trap ends it. -/
def execWaitc (n : Fin 4) (e : WordEnv) (s : State) : Host.Outcome State Fault Refusal :=
  .next (if (s.lane n).waiting && s.executing n && s.laneUp n then
      doAll (List.range (e.wait + 1)) (fun _ s => s.waitClock n e) s
    else s.runWord n 6 e)

/-- WAITC_END (R208): the condition is true, and the word ends at the next address. -/
def execWaitcEnd (n : Fin 4) (e : WordEnv) (s : State) : Host.Outcome State Fault Refusal :=
  let m := (s.lane n).word
  .next (if (s.lane n).waiting && s.executing n && s.laneUp n && s.condOf n e m then
      let pc := s.get (F.MCS_STAT_pc n)
      let s := ((s.condRead n m).clocks n m 1).onLane n (fun l => { l with waiting := false })
      (s.opLc n (wordBits m 84 4) (wordBits m 72 12)).wordEnd n m pc ((pc + 1) % 4096)
    else s)

/-- TRAPRET (R224). -/
def execTrapret (n : Fin 4) (e : WordEnv) (s : State) : Host.Outcome State Fault Refusal := .next (s.runWord n 7 e)

/-- FORCED_HARVEST_TRAP (R223): a pending harvest cause has waited 32,768 word clocks and is taken at the end of the
word last executed, or in the clock in which a WAITC word tests. -/
def execForcedHarvestTrap (n : Fin 4) (s : State) : Host.Outcome State Fault Refusal :=
  .next (if s.executing n && s.bit (F.MCS_STAT_pend n) 0 then
      let s := if (s.lane n).waiting then
          s.opLc n (wordBits (s.lane n).word 84 4) (wordBits (s.lane n).word 72 12)
        else s
      s.takeTrap n 1 true (s.lane n).last (s.get (F.MCS_STAT_pc n))
    else s)

end Sys2Proof.Machine
end

