-- ==== Sys2Proof/Machine/RegRead.lean ====
section
/-! DEFINITION. Reads of the register window (00_scope.md R3, R7, R10, R18, R25; 17_register_map.md R658 to R662): what a
register reads as, among them the registers that show what the block holds elsewhere, and the reads that are ignored. -/

namespace Sys2Proof.Machine
open Sys2Proof

/-- SYS_CAP (R1). -/
def Variant.cap : Variant → Word
  | .h16 => 0x0010140F
  | .h08 => 0x0008140F
  | .d02 => 0x00080203

/-- The index of the first block of the family of block `b` (R659). -/
def familyBase (b : Nat) : Nat :=
  if b = 0x11 then 0x10 else if 0x13 ≤ b ∧ b ≤ 0x16 then 0x13 else if 0x1A ≤ b ∧ b ≤ 0x21 then 0x1A else b

/-- BLK_ID of block `b` (R659). -/
def blkId (b : Nat) : Word := BitVec.ofNat 32 (b * 2 ^ 24 + familyBase b * 2 ^ 16 + (b - familyBase b) * 2 ^ 8 + 1)

/-- The record at index `i` of EVT's SRAM: the records held end before the place of the next one. -/
def EvtState.at_ (e : EvtState) (i : Nat) : Option EvtRec :=
  (e.sram[(i + 512 + e.sram.length - e.next) % 512]?).map (·.1)

/-- ALR_SUM (R600, R606). -/
def State.alrSum (s : State) : Word :=
  BitVec.ofNat 32 (s.enabledCauses % 2 ^ 24 + (if s.flag F.ALR_SUM_supp then 2 ^ 30 else 0) + (if s.alert then 2 ^ 31 else 0))

/-- The value of the last write of a list that holds one to the register at `a`. -/
def heldLast (l : List (Nat × Word)) (a : Nat) : Option Word := (l.reverse.find? (fun h => h.1 == a)).map (·.2)

/-- A write to the register at `a` that is held until its domain can take it: it reads as written (R15, R32, R270). -/
def State.heldVal (s : State) (a : Nat) : Option Word :=
  let b := a / 0x10000
  if 0x13 ≤ b ∧ b ≤ 0x16 then heldLast (s.lane (Fin.ofNat 4 (b - 0x13))).held a
  else if 0x10 ≤ b ∧ b ≤ 0x12 then heldLast s.servo.heldW a else none

/-- What the register at window offset `a` holds, for a read that is permitted. A WO field reads as zero (R7). -/
def State.readVal (s : State) (a : Nat) : Word :=
  let b := a / 0x10000
  if b < 0x22 ∧ a % 0x10000 = 0 then blkId b
  else if s.actAbsent a then 0
  else match csWord a with
    | some (n, w, k) => (cget (fun _ => (0 : BitVec 160)) (s.lane n).cs w >>> (32 * k)).setWidth 32
    | none =>
      if a = R.SYS_CAP then s.variant.cap
      else if a = R.ALR_CAUSE then s.reg a ||| (if s.diapause then 0x80000000#32 else 0)
      else if a = R.ALR_SUM then s.alrSum
      else if a = R.CFG_KEY then F.CFG_KEY_rev.into s.fuses (s.reg a)
      else if a = R.CFG_POTLO then BitVec.ofNat 32 s.potMs
      else if a = R.CFG_POTHI then BitVec.ofNat 32 (s.potMs / 2 ^ 32)
      else if a = R.CTR_TIME then BitVec.ofNat 32 s.ctrTime
      else if a = R.DMA_SIGSET0 ∨ a = R.DMA_SIGCLR0 then s.reg R.DMA_SIG0
      else if a = R.DMA_SIGSET1 ∨ a = R.DMA_SIGCLR1 then s.reg R.DMA_SIG1
      else if a = R.HBM_STAT then
        F.HBM_STAT_half.into (s.get F.PWR_CFG_hbmhalf) (F.HBM_STAT_sref.into (if s.blockDown 0x18 then 1 else 0) (s.reg a))
      else if R.TMR_W_C0 0 ≤ a ∧ a < R.TMR_W_C0 8 ∧ a % 16 = 12 then s.word ((a - R.TMR_W_C0 0) / 16 % 8)
      else if R.EVT_RDDATA 0 ≤ a ∧ a < R.EVT_RDDATA 16 then
        BitVec.ofNat 32 (((s.evt.at_ (s.get F.EVT_RDIDX_idx)).map (fun r => ofLe (bytesAt r.bytes (a - R.EVT_RDDATA 0) 4))).getD 0)
      else if 0x13 ≤ b ∧ b ≤ 0x16 ∧ a = R.LANE_CALDATA (b - 0x13) then
        cget setRamDefault (s.lane (Fin.ofNat 4 (b - 0x13))).setRam (s.get (F.LANE_CALADDR_addr (b - 0x13)))
      else if a = R.SRV_SSDATA then cget (fun _ => (0 : Word)) s.servo.store (s.get F.SRV_SSADDR_addr)
      else (s.heldVal a).getD (s.reg a)

/-- What a read of one word returns: zero where it is ignored (R3, R18, R25, R662). -/
def State.readOut (s : State) (p : Path) (a : Nat) : Word :=
  if a % 4 ≠ 0 ∨ (s.readCause p a).isSome then 0 else s.readVal a

/-- What a read of one word does (R10, R18): it is ignored and counted, or reads CALDATA or SSDATA, whose address advances,
or changes nothing. -/
def State.readOne (p : Path) (a : Nat) (s : State) : State :=
  let b := a / 0x10000
  if !(s.pathOpen p) then s
  else if a % 4 ≠ 0 ∧ !(p = .smbus ∧ !(smbBlock b)) then s.ignore p (s.countBlock p a) a 6 true
  else match s.readCause p a with
    | some c => s.ignore p (s.countBlock p a) a c true
    | none =>
      if 0x13 ≤ b ∧ b ≤ 0x16 ∧ a = R.LANE_CALDATA (b - 0x13) then s.readCaldata p (Fin.ofNat 4 (b - 0x13)) false
      else if a = R.SRV_SSDATA then s.readSsdata p false
      else s

/-- IGNORED_READ (R10, R18 to R25, R664): a narrow or misaligned read is ignored whole; a 64-bit read is two 32-bit reads, the
lower address first. A read that the rules permit changes nothing but for CALDATA and SSDATA. -/
def execIgnoredRead (p : Path) (a : Word) (w : Width) (s : State) : Host.Outcome State Fault Refusal :=
  .next (
    let a := a.toNat
    let b := a / 0x10000
    if !(s.pathOpen p) || (p != .smbus && decide (0x400000 ≤ a)) then s
    else if p = .smbus ∧ !(smbBlock b) then s.readOne p a
    else match w with
      | .narrow => s.ignore p (s.countBlock p a) a 6 true
      | .word => s.readOne p a
      | .double => if a % 8 ≠ 0 then s.ignore p (s.countBlock p a) a 6 true else (s.readOne p a).readOne p (a + 4))

end Sys2Proof.Machine
end

