-- ==== Sys2Proof/Machine/RegWrite.lean ====
section
/-! DEFINITION. Writes of the register window (00_scope.md R7 to R23, R664, R665): a register that a command of its own writes
acts as that command does; every other one takes the value by its access types, where its description permits it. -/

namespace Sys2Proof.Machine
open Sys2Proof

/-- The write of a register that a command of its own writes. -/
def ownWriter (a : Nat) : Option (Path → Word → State → State) :=
  let b := a / 0x10000
  let lane : Fin 4 := Fin.ofNat 4 (b - 0x13)
  let seq : Fin 4 := Fin.ofNat 4 ((b - 0x1A) / 2)
  let at_ (n : Nat) (r : Nat → Nat) : Option Nat := (List.range n).find? (fun i => a == r i)
  if 0x13 ≤ b ∧ b ≤ 0x16 then
    (if a = R.LANE_GO lane then some (fun p v => State.writeLaneGo p lane v)
     else if a = R.LANE_EQMU lane then some (fun p v => State.writeEqmu p lane v)
     else if a = R.LANE_BRHW lane then some (fun p v => State.writeBrhw p lane v)
     else if a = R.LANE_CALDATA lane then some (fun p v => State.writeCaldata p lane v)
     else if a = R.LANE_PASCMD lane then some (fun p v => State.writePascmd p lane v)
     else none)
  else if 0x1A ≤ b ∧ b < 0x22 then
    (if a = R.MCS_CTL seq then some (fun p v => State.writeMcsCtl p seq v)
     else if a = R.MCS_LDCTL seq then some (fun p v => State.writeLdctl p seq v)
     else none)
  else match b with
  | 0x0 => if a = R.SYS_RST then some State.writeSysRst else none
  | 0x1 => if a = R.PWR_CMD then some State.writePwrCmd else if a = R.PWR_PADREL then some State.writePadrel else none
  | 0x2 => if a = R.ALR_CAUSE then some State.writeCauseReg else none
  | 0x3 =>
    if a = R.EVT_CTL then some State.writeEvtCtl else if a = R.EVT_CMD then some State.writeEvtCmd
    else (at_ 4 R.EVT_SW_HDR).map (fun c p v => State.writeSwHdr p (Fin.ofNat 4 c) v)
  | 0x4 =>
    if a = R.CFG_REVOKE then some State.writeRevoke else if a = R.CFG_FLCMD then some State.writeFlcmd
    else if a = R.CFG_RCVCMD then some State.writeRcvcmd else none
  | 0x5 =>
    if a = R.ECC_CTL then some State.writeEccCtl else if a = R.ECC_FLIPCTL then some State.writeFlipctl
    else if a = R.ECC_SPLITCTL then some State.writeSplitctl else none
  | 0x7 => if a = R.ISST_CMD then some State.writeIsstCmd else none
  | 0x9 => if a = R.CTR_GO then some State.writeCtrGo else none
  | 0xA =>
    if a = R.BUF_CTL then some State.writeBufCtl else if a = R.BUF_ABORT then some State.writeBufAbort
    else none
  | 0xB => if a = R.MAP_CTL then some State.writeMapCtl else if a = R.MAP_CMD then some State.writeMapCmd else none
  | 0xC =>
    if a = R.DMA_SIGSET0 then some (fun p v => State.writeSig p 0 true v)
    else if a = R.DMA_SIGSET1 then some (fun p v => State.writeSig p 1 true v)
    else if a = R.DMA_SIGCLR0 then some (fun p v => State.writeSig p 0 false v)
    else if a = R.DMA_SIGCLR1 then some (fun p v => State.writeSig p 1 false v)
    else match at_ 16 R.DMA_CH_CTL, at_ 16 R.DMA_CH_DB with
      | some n, _ => some (fun p v => State.writeDmaCtl p (Fin.ofNat 16 n) v)
      | none, some n => some (fun p v => State.writeDmaDb p (Fin.ofNat 16 n) v)
      | none, none => none
  | 0xD => match at_ 16 R.SHF_SLOT_D0, at_ 16 R.SHF_SLOT_D1 with
    | some k, _ => some (fun p v => State.writeSlot p (Fin.ofNat 16 k) false v)
    | none, some k => some (fun p v => State.writeSlot p (Fin.ofNat 16 k) true v)
    | none, none => none
  | 0xE =>
    if a = R.HRV_CTL then some State.writeHrvCtl else if a = R.HRV_GO then some State.writeHrvGo
    else if a = R.HRV_CMD then some State.writeHrvCmd else none
  | 0xF => if a = R.SPN_CTL then some State.writeSpnCtl else if a = R.SPN_GO then some State.writeSpnGo else none
  | 0x10 => if a = R.SCA_GO then some State.writeScaGo else if a = R.SCA_STAT then some State.writeScaStat else none
  | 0x11 =>
    if a = R.SCA_FLCTL then some State.writeFlctl
    else (at_ 4 R.SCA_SKCMD).map (fun n p v => State.writeSkcmd p (Fin.ofNat 4 n) v)
  | 0x12 =>
    if a = R.SRV_SETCMD then some State.writeSetcmd else if a = R.SRV_SSDATA then some State.writeSsdata else none
  | 0x17 => if a = R.CRYS_CMD then some State.writeCrysCmd else if a = R.CRYS_MAXUS then some State.writeMaxus else none
  | 0x19 => if a = R.TMR_INJ then some State.writeTmrInj else if a = R.TMR_LSCTL then some State.writeLsctl else none
  | _ => none

/-- A read contract is active (R141). -/
def State.readContract (s : State) : Bool := (s.slotsIn [2]).any (fun i => (s.terms i).read)

/-- A write of CRYS_BRCFG that misplaces the brine region: its base is no multiple of its size, or it ends beyond the HBM. -/
def State.brineBad (s : State) (v : Word) : Bool :=
  let units := 8 * 2 ^ F.CRYS_BRCFG_size.of v
  let base := F.CRYS_BRCFG_base.of v
  base % units != 0 || decide (s.variant.hbmBytes < (base + units) * 0x4000000)

/-- A CALSEL value that names a head or ring beyond the GEO counts, where a GEO section is in force. -/
def State.calselBad (s : State) (n : Nat) (v : Word) : Bool :=
  !s.geo.rings.isEmpty &&
    (decide ((s.geo.surfaces.filter (fun x => x.1 == n)).length ≤ (F.LANE_CALSEL_head n).of v) ||
      decide (s.geo.rings.length ≤ (F.LANE_CALSEL_ring n).of v))

/-- A value that the description of a lane's register does not permit (chapter 3). -/
def State.laneValueBad (s : State) (n a : Nat) (v : Word) : Bool :=
  if a = R.LANE_CTL n then
    let l := (F.LANE_CTL_iterl n).of v
    let g := (F.LANE_CTL_iterg n).of v
    l == 0 || decide (10 < l) || !(g == 1 || g == 2) || ((F.LANE_CTL_capen n).of v == 0 && s.readContract)
  else if a = R.LANE_CALSEL n then s.calselBad n v
  else if a = R.LANE_AGC n then decide ((F.LANE_AGC_target n).of v < 0x40 ∨ 0x7F < (F.LANE_AGC_target n).of v)
  else false

/-- A write of a DMA channel's configuration or program address that R420 or R429 refuses. -/
def State.dmaValueBad (s : State) (a : Nat) (v : Word) : Bool :=
  (List.range 16).any (fun n =>
    if a == R.DMA_CH_CFG n then decide (n < 8)
    else if a == R.DMA_CH_PCLO n || a == R.DMA_CH_PCHI n then
      decide (n < 8) || (v != s.reg a && decide (1 ≤ s.chState (Fin.ofNat 16 n) ∧ s.chState (Fin.ofNat 16 n) ≤ 4))
    else false)

/-- A value, or a moment, that the description of the register at `a` does not permit (R20, cause 101b; R665). -/
def State.valueBad (s : State) (a : Nat) (v : Word) : Bool :=
  let b := a / 0x10000
  if 0x13 ≤ b ∧ b ≤ 0x16 then s.laneValueBad (b - 0x13) a v
  else if 0x1A ≤ b ∧ b < 0x22 then
    let n := Fin.ofNat 4 ((b - 0x1A) / 2)
    decide (R.MCS_DIGEXP n 0 ≤ a ∧ a < R.MCS_DIGEXP n 12) && s.loadBarred n
  else match b with
  | 0x1 => a == R.PWR_HSCFG && F.PWR_HSCFG_dmax.of v == 0
  | 0x5 => (a == R.ECC_FLIPADDR || a == R.ECC_FLIPD0 || a == R.ECC_FLIPD1 || a == R.ECC_FLIPC) && s.flag F.ECC_FLIPCTL_arm
  | 0x6 => a == R.RAKE_CTL && F.RAKE_CTL_rate.of v == 0
  | 0x7 => a == R.ISST_SENSECFG && F.ISST_SENSECFG_period.of v == 0
  | 0x9 =>
    (a == R.CTR_RSV && decide (F.CTR_RSV_pct.of v < 0xA ∨ 0x32 < F.CTR_RSV_pct.of v)) ||
      (a == R.CTR_CRYCFG && F.CTR_CRYCFG_fwin.of v == 0)
  | 0xC => s.dmaValueBad a v
  | 0xE =>
    (a == R.HRV_ISOCFG && F.HRV_ISOCFG_slew.of v == 0) ||
      (a == R.HRV_VINTH && decide (F.HRV_VINTH_on.of v ≤ F.HRV_VINTH_lvl.of v))
  | 0xF =>
    (a == R.SPN_PWMCFG && decide (F.SPN_PWMCFG_win.of v < 0xF0)) || (a == R.SPN_SPDCFG && F.SPN_SPDCFG_mode.of v == 3)
  | 0x10 =>
    (a == R.SCA_CTL && F.SCA_CTL_run.of v == 0 && (allLanes.any s.loaded || s.rpm != 0)) ||
      (List.range 16).any (fun n => a == R.SCA_FFG n (s.getA (F.SCA_LCFG_act n)))
  | 0x12 => a == R.SRV_VIBCFG && decide (F.SRV_VIBCFG_div.of v < 4)
  | 0x17 =>
    (a == R.CRYS_CTL && decide (F.CRYS_CTL_itmax.of v = 0 ∨ 0x40 < F.CRYS_CTL_itmax.of v)) || (a == R.CRYS_BRCFG && s.brineBad v)
  | _ => false

/-- The loop being installed whose writes the loader makes to the register at `a` (R270). -/
def State.installing (s : State) (a : Nat) : Bool :=
  match s.servo.install with
  | some (_, l) => l.any (fun n => (s.loopWords n).any (fun w => w.1 == a))
  | none => false

/-- What follows at once from a write that was taken: the totals of CTR (R386), a GO that no frame will take any more (R400),
grants (R404), and the vibration port turned off (R649). -/
def State.afterTake (a : Nat) (s : State) : State :=
  if a = R.CTR_DEMAND then s.ctrTotals
  else if a = R.CTR_CTL then
    (if s.flag F.CTR_GO_pending && s.get F.CTR_CTL_en == 0 then (s.onCtr (fun c => { c with take := [] })).ctrApply else s)
  else if a = R.BUF_RPRSV then s.pump
  else if a = R.SRV_VIBCFG ∧ s.get F.SRV_VIBCFG_en = 0 then
    ((s.put F.SRV_VIBRD_val 0).onServo (fun x => { x with vib := 0, shock := false }))
  else s

/-- A write of a register that no command of its own writes. -/
def State.writePlain (p : Path) (a : Nat) (v : Word) (s : State) : State :=
  s.gated p a v (s.valueBad a v) (fun s =>
    let b := a / 0x10000
    if 0x13 ≤ b ∧ b ≤ 0x16 ∧ (a = R.LANE_CTL (b - 0x13) ∨ a = R.LANE_TATH (b - 0x13)) then s.laneTake (Fin.ofNat 4 (b - 0x13)) a v
    else if 0x10 ≤ b ∧ b ≤ 0x12 ∧ s.installing a then s.onServo (fun x => { x with heldW := x.heldW ++ [(a, v)] })
    else (s.take a v).afterTake a)

/-- An aligned 32-bit write of `v` at window offset `a`. -/
def State.writeOne (p : Path) (a : Nat) (v : Word) (s : State) : State :=
  if a / 0x10000 < 0x22 ∧ a % 0x10000 = 4 then s.gated p a v false (State.clearIgn (a / 0x10000) v)
  else if (csWord a).isSome then s.writeWindow p a v
  else match ownWriter a with
    | some f => f p v s
    | none => s.writePlain p a v

/-- A write access (R10, R330, R664): a narrow or misaligned one is ignored whole, a 64-bit one is two 32-bit writes, the lower
address first. -/
def State.writeAccess (p : Path) (a : Nat) (w : Width) (v : BitVec 64) (s : State) : State :=
  let narrow (s : State) : State := s.ignore p (s.countBlock p a) a 6 false
  if !(s.writeOpen p) || (p != .smbus && decide (0x400000 ≤ a)) then s
  else if p = .smbus ∧ !(smbBlock (a / 0x10000)) then s.ignore p (s.countBlock p a) a 1 false
  else match w with
    | .narrow => narrow s
    | .word => if a % 4 ≠ 0 then narrow s else s.writeOne p a (v.setWidth 32)
    | .double => if a % 8 ≠ 0 then narrow s else (s.writeOne p a (v.setWidth 32)).writeOne p (a + 4) ((v >>> 32).setWidth 32)

/-- REGISTER_WRITE (R7, R8, R10). -/
def execRegisterWrite (p : Path) (a : Word) (w : Width) (v : BitVec 64) (s : State) : Host.Outcome State Fault Refusal :=
  .next (s.writeAccess p a.toNat w v)

/-- BLK_IGNCNT_CLR (R22). -/
def execBlkIgncntClr (p : Path) (b : Fin 34) (v : Word) (s : State) : Host.Outcome State Fault Refusal :=
  .next (s.gated p (R.BLK_IGNCNT b) v false (State.clearIgn b v))

end Sys2Proof.Machine
end

