-- ==== Sys2Proof/Machine/Sideband.lean ====
section
/-! DEFINITION. The SMBus sideband (15_alerts_and_events.md R603 to R606; 16_package_and_electrical.md R646), the test access
port (R655) and the errors of the PCIe link (11_host_interface.md R499, R501). -/

namespace Sys2Proof.Machine
open Sys2Proof

/-! ## Packet error check -/

/-- One bit of the packet error check: the CRC of x^8 + x^2 + x + 1 that SMBus lays down (PRESUMED). -/
def pecBit (c : Byte) : Byte := if c.getLsbD 7 then (c <<< 1) ^^^ 0x07#8 else c <<< 1

/-- One byte of the packet error check. -/
def pecByte (c b : Byte) : Byte := (List.range 8).foldl (fun c _ => pecBit c) (c ^^^ b)

/-- The packet error check over the bytes of a transaction. -/
def pec (bs : List Byte) : Byte := bs.foldl pecByte 0

/-- The Gorlo's address as the byte of a write; a read's byte is one more. -/
def State.smbByte (s : State) : Byte := BitVec.ofNat 8 (2 * s.get F.ALR_SMB_addr)

/-- The sideband is addressed: AON serves it in every state in which `VDD_3V3` is present (R603). -/
def State.smbFor (s : State) (tgt : BitVec 7) : Bool := s.pathOpen .smbus && tgt.toNat == s.get F.ALR_SMB_addr

/-- Answers a read with command code `code`: the bytes and the PEC over the whole transaction (R603). -/
def State.answer (code : Byte) (bs : List Byte) (s : State) : State :=
  { s with smb := { s.smb with resp := bs ++ [pec ([s.smbByte, code, s.smbByte + 1] ++ bs)] } }

/-! ## Basic management -/

/-- The status flags (R604): the layout of the bits is that of NVMe-MI (PRESUMED): 7 no arbitration lost, 6 not ready, 5
functional, 4 no reset needed, 3 the port's link active, 1 and 0 always set. -/
def State.miFlags (s : State) : Byte :=
  BitVec.ofNat 8 (0x93 + (if s.nvme.nsReady then 0 else 0x40) + (if s.diapause then 0 else 0x20) + (if s.nvme.linkUp then 8 else 0))

/-- Byte `i` of the basic management data but for the two PEC bytes, 7 and 31 (R604; bytes 0 to 31 as NVMe-MI lays them down,
PRESUMED; the vendor block's numbers are least significant byte first, DESIGN CHOICE). -/
def State.miByte (s : State) (i : Nat) : Byte :=
  let vendor : List Byte :=
    leBytes 4 (s.readVal R.ALR_CAUSE).toNat ++ leBytes 4 (s.reg R.HRV_BUDGET).toNat ++ leBytes 4 (s.reg R.HRV_DIRTY).toNat ++
      leBytes 2 s.rpm ++ [BitVec.ofNat 8 s.nvme.feats.ps, BitVec.ofNat 8 (s.get F.HRV_DIAP_cause)] ++
      leBytes 4 ((s.reg R.EVT_SEQ).toNat + (2 ^ 32 - 1)) ++ leBytes 4 (s.reg R.HRV_HSEQ).toNat
  if i = 0 then 6
  else if i = 1 then s.miFlags
  else if i = 2 then ~~~(BitVec.ofNat 8 s.critWarn)
  else if i = 3 then (let t := sInt 8 (s.get F.ALR_TEMP_tj); if 126 < t then 0x7F else if t < -60 then 0xC4 else BitVec.ofInt 8 t)
  else if i < 8 then 0
  else if i = 8 then 22
  else if i = 9 then BitVec.ofNat 8 (s.boot.ids.vid / 256)
  else if i = 10 then BitVec.ofNat 8 s.boot.ids.vid
  else if i < 31 then byteAt s.boot.ids.sn (i - 11)
  else if i < 32 then 0
  else byteAt vendor (i - 32)

/-- The bytes of a read of `len` bytes from offset `off`: bytes 7 and 31 are the PEC over what went before them. -/
def State.miBytes (s : State) (off len : Nat) : List Byte :=
  let head : List Byte := [s.smbByte, BitVec.ofNat 8 off, s.smbByte + 1]
  (List.range len).foldl (fun bs k =>
    let i := off + k
    bs ++ [if i = 7 ∨ i = 31 then pec (head ++ bs) else if i < 64 then s.miByte i else 0]) []

/-- NVME_MI_BASIC_MANAGEMENT (R604): the host reads `len` bytes from offset `off`. -/
def execNvmeMiBasicManagement (tgt : BitVec 7) (off : BitVec 6) (len : BitVec 7) (s : State) : Host.Outcome State Fault Refusal :=
  .next (if s.smbFor tgt then s.answer (off.setWidth 8) (s.miBytes off.toNat (min len.toNat (64 - off.toNat))) else s)

/-! ## Register access -/

/-- SMBUS_SET_ADDRESS (R605, R603): a write whose PEC is wrong is discarded. -/
def execSmbusSetAddress (tgt : BitVec 7) (a : Word) (pec : PecIn) (s : State) : Host.Outcome State Fault Refusal :=
  .next (if s.smbFor tgt && pec != .bad then { s with smb := { s.smb with addr := a.toNat } } else s)

/-- SMBUS_REGISTER_READ (R605, R662): a block read of 4 bytes; an ignored one returns zero and is counted. -/
def execSmbusRegisterRead (tgt : BitVec 7) (s : State) : Host.Outcome State Fault Refusal :=
  .next (if s.smbFor tgt then
      (s.answer 0xF1 (4 :: leBytes 4 (s.readOut .smbus s.smb.addr).toNat)).readOne .smbus s.smb.addr
    else s)

/-- SMBUS_REGISTER_WRITE (R605, R603, R662): the address, then the data, as an aligned write of one word. -/
def execSmbusRegisterWrite (tgt : BitVec 7) (a : Word) (v : Word) (pec : PecIn) (s : State) : Host.Outcome State Fault Refusal :=
  .next (if s.smbFor tgt && pec != .bad then s.writeAccess .smbus a.toNat .word (v.setWidth 64) else s)

/-- SMBUS_TIMEOUT (R646): the interface is reset and waits for a start; the answer in progress is lost. -/
def execSmbusTimeout (s : State) : Host.Outcome State Fault Refusal := .next { s with smb := { s.smb with resp := [] } }

/-- ALERT_RESPONSE (R606): a read of the Alert Response Address while `ALERT_N` is driven; the answer releases the pin if
arbitration is won. -/
def execAlertResponse (won : Bool) (s : State) : Host.Outcome State Fault Refusal :=
  .next (if s.pathOpen .smbus && s.flag F.ALR_CTL_ara && s.alert && won then
      let s := (s.inc F.ALR_CTL_aracnt).put F.ALR_SUM_supp 1
      { s with smb := { s.smb with resp := [s.smbByte, pec [0x19, s.smbByte]] } }
    else s)

/-! ## The test access port -/

/-- TAP_INSTRUCTION (R655): outside factory test mode every instruction but three selects BYPASS. -/
def execTapInstruction (ir : TapInstr) (s : State) : Host.Outcome State Fault Refusal :=
  .next { s with tap := if s.factory then ir else match ir with
    | .idcode => .idcode
    | .samplePreload => .samplePreload
    | _ => .bypass }

/-! ## PCIe errors -/

/-- A PCIe error on the data transfer of command `id`: Data Transfer Error (R499), for a write whose data has not all come, or
for a read whose completion has not been posted. -/
def State.transferFails (id : Nat) (s : State) : State :=
  match s.ctx? id with
  | none => s
  | some c =>
    if c.stage = 1 ∧ c.sqe.isWrite ∧ !c.landedAll then (s.failWrite c (CplRec.bad 0 4)).pump
    else if c.sqe.isRead ∧ (c.stage = 1 ∨ c.stage = 3) then (s.stageRecord id (CplRec.bad 0 4)).pump
    else s

/-- PCIE_ERROR (R499, R501): an error reported through AER; an uncorrectable one may have hit a data transfer. -/
def execPcieError (corr : Bool) (xfer : Option Nat) (s : State) : Host.Outcome State Fault Refusal :=
  .next (if !s.nvme.linkUp || s.nvme.perst || s.hostDown then s
    else if corr then s.raise F.HST_ERR_corr
    else
      let s := s.raise F.HST_ERR_uncorr
      match xfer with
      | some id => s.transferFails id
      | none => s)

end Sys2Proof.Machine
end

