-- ==== Sys2Proof/Machine/Dispatch.lean ====
section
/-! DEFINITION. The meaning of every command: one arm per constructor, each one direct call. -/

namespace Sys2Proof.Machine
open Sys2Proof

def exec (i : Instr) (s : State) : Host.Outcome State Fault Refusal :=
  match i with
  | .registerWrite p a w v => Sys2Proof.Machine.execRegisterWrite p a w v s
  | .blkIgncntClr p b v => Sys2Proof.Machine.execBlkIgncntClr p b v s
  | .laneGo p n v => Sys2Proof.Machine.execLaneGo p n v s
  | .laneShadowActivate n => Sys2Proof.Machine.execLaneShadowActivate n s
  | .scaGo p v => Sys2Proof.Machine.execScaGo p v s
  | .scaLcfgActivate => Sys2Proof.Machine.execScaLcfgActivate s
  | .spnGo p v => Sys2Proof.Machine.execSpnGo p v s
  | .hrvGo p v => Sys2Proof.Machine.execHrvGo p v s
  | .ctrGo p v => Sys2Proof.Machine.execCtrGo p v s
  | .coldReset strap => Sys2Proof.Machine.execColdReset strap s
  | .vdd3v3Loss => Sys2Proof.Machine.execVdd3v3Loss s
  | .sysRst p v => Sys2Proof.Machine.execSysRst p v s
  | .warmResetTakesEffect => Sys2Proof.Machine.execWarmResetTakesEffect s
  | .perstNAssert => Sys2Proof.Machine.execPerstNAssert s
  | .functionLevelReset => Sys2Proof.Machine.execFunctionLevelReset s
  | .hotReset => Sys2Proof.Machine.execHotReset s
  | .dlDown => Sys2Proof.Machine.execDlDown s
  | .controllerReset => Sys2Proof.Machine.execControllerReset s
  | .controllerEnable cc acqs => Sys2Proof.Machine.execControllerEnable cc acqs s
  | .crystalTimeout => Sys2Proof.Machine.execCrystalTimeout s
  | .supplyQualified => Sys2Proof.Machine.execSupplyQualified s
  | .isoRampStep vin mbus => Sys2Proof.Machine.execIsoRampStep vin mbus s
  | .rampTimeout => Sys2Proof.Machine.execRampTimeout s
  | .pgoodCoreRise => Sys2Proof.Machine.execPgoodCoreRise s
  | .pgoodCoreLate => Sys2Proof.Machine.execPgoodCoreLate s
  | .imageLoadDone m => Sys2Proof.Machine.execImageLoadDone m s
  | .pgoodCoreLow => Sys2Proof.Machine.execPgoodCoreLow s
  | .pgoodCoreReturn => Sys2Proof.Machine.execPgoodCoreReturn s
  | .pgoodCoreTimeout => Sys2Proof.Machine.execPgoodCoreTimeout s
  | .pgoodALow => Sys2Proof.Machine.execPgoodALow s
  | .pgoodBLow => Sys2Proof.Machine.execPgoodBLow s
  | .linkRetrain rate width => Sys2Proof.Machine.execLinkRetrain rate width s
  | .synthLockLoss n => Sys2Proof.Machine.execSynthLockLoss n s
  | .synthLockAcquired n => Sys2Proof.Machine.execSynthLockAcquired n s
  | .pafltAssert n level => Sys2Proof.Machine.execPafltAssert n level s
  | .commandFetch q e => Sys2Proof.Machine.execCommandFetch q e s
  | .grant => Sys2Proof.Machine.execGrant s
  | .hostDataTlp id n => Sys2Proof.Machine.execHostDataTlp id n s
  | .sealWrites => Sys2Proof.Machine.execSealWrites s
  | .readSeal => Sys2Proof.Machine.execReadSeal s
  | .completionStage cq n => Sys2Proof.Machine.execCompletionStage cq n s
  | .cqWaitLong => Sys2Proof.Machine.execCqWaitLong s
  | .partialTileTimeout t => Sys2Proof.Machine.execPartialTileTimeout t s
  | .writeDeadlineMiss id => Sys2Proof.Machine.execWriteDeadlineMiss id s
  | .contractStopTime id => Sys2Proof.Machine.execContractStopTime id s
  | .frameStart n => Sys2Proof.Machine.execFrameStart n s
  | .bufCtlLock p v => Sys2Proof.Machine.execBufCtlLock p v s
  | .bufAbortWrite p v => Sys2Proof.Machine.execBufAbortWrite p v s
  | .flush q e => Sys2Proof.Machine.execFlush q e s
  | .write q e => Sys2Proof.Machine.execWrite q e s
  | .read q e => Sys2Proof.Machine.execRead q e s
  | .zoneAppend q e => Sys2Proof.Machine.execZoneAppend q e s
  | .planeRead q e => Sys2Proof.Machine.execPlaneRead q e s
  | .zoneCodeRate q e => Sys2Proof.Machine.execZoneCodeRate q e s
  | .zoneClose q e => Sys2Proof.Machine.execZoneClose q e s
  | .zoneFinish q e => Sys2Proof.Machine.execZoneFinish q e s
  | .zoneOpen q e => Sys2Proof.Machine.execZoneOpen q e s
  | .zoneReset q e => Sys2Proof.Machine.execZoneReset q e s
  | .zoneResetSeal => Sys2Proof.Machine.execZoneResetSeal s
  | .offlineZone q e => Sys2Proof.Machine.execOfflineZone q e s
  | .setZoneDescriptorExtension q e => Sys2Proof.Machine.execSetZoneDescriptorExtension q e s
  | .reportZones q e => Sys2Proof.Machine.execReportZones q e s
  | .extendedReportZones q e => Sys2Proof.Machine.execExtendedReportZones q e s
  | .createIoSubmissionQueue e => Sys2Proof.Machine.execCreateIoSubmissionQueue e s
  | .createIoCompletionQueue e => Sys2Proof.Machine.execCreateIoCompletionQueue e s
  | .deleteIoSubmissionQueue e => Sys2Proof.Machine.execDeleteIoSubmissionQueue e s
  | .deleteIoCompletionQueue e => Sys2Proof.Machine.execDeleteIoCompletionQueue e s
  | .identify e => Sys2Proof.Machine.execIdentify e s
  | .abort e => Sys2Proof.Machine.execAbort e s
  | .asynchronousEventRequest e => Sys2Proof.Machine.execAsynchronousEventRequest e s
  | .setArbitration e => Sys2Proof.Machine.execSetArbitration e s
  | .setPowerManagement e => Sys2Proof.Machine.execSetPowerManagement e s
  | .setTemperatureThreshold e => Sys2Proof.Machine.execSetTemperatureThreshold e s
  | .setNumberOfQueues e => Sys2Proof.Machine.execSetNumberOfQueues e s
  | .setInterruptCoalescing e => Sys2Proof.Machine.execSetInterruptCoalescing e s
  | .setInterruptVectorConfiguration e => Sys2Proof.Machine.execSetInterruptVectorConfiguration e s
  | .setAsyncEventConfiguration e => Sys2Proof.Machine.execSetAsyncEventConfiguration e s
  | .setApst e => Sys2Proof.Machine.execSetApst e s
  | .setAcousticCeiling e => Sys2Proof.Machine.execSetAcousticCeiling e s
  | .setMagazineEnergy e => Sys2Proof.Machine.execSetMagazineEnergy e s
  | .getFeatures e => Sys2Proof.Machine.execGetFeatures e s
  | .getMagazineEnergy e => Sys2Proof.Machine.execGetMagazineEnergy e s
  | .errorInformationLog e => Sys2Proof.Machine.execErrorInformationLog e s
  | .smartHealthLog e => Sys2Proof.Machine.execSmartHealthLog e s
  | .firmwareSlotLog e => Sys2Proof.Machine.execFirmwareSlotLog e s
  | .commandsSupportedLog e => Sys2Proof.Machine.execCommandsSupportedLog e s
  | .contractLog e => Sys2Proof.Machine.execContractLog e s
  | .harvestLossLog e => Sys2Proof.Machine.execHarvestLossLog e s
  | .eventHistoryLog e => Sys2Proof.Machine.execEventHistoryLog e s
  | .measurementLog e => Sys2Proof.Machine.execMeasurementLog e s
  | .enableDirective e => Sys2Proof.Machine.execEnableDirective e s
  | .releaseIdentifier e => Sys2Proof.Machine.execReleaseIdentifier e s
  | .releaseResources e => Sys2Proof.Machine.execReleaseResources e s
  | .directiveReceive e => Sys2Proof.Machine.execDirectiveReceive e s
  | .firmwareImageDownload e => Sys2Proof.Machine.execFirmwareImageDownload e s
  | .firmwareCommit000 e => Sys2Proof.Machine.execFirmwareCommit000 e s
  | .firmwareCommit001 e => Sys2Proof.Machine.execFirmwareCommit001 e s
  | .firmwareCommit010 e => Sys2Proof.Machine.execFirmwareCommit010 e s
  | .firmwareCommit011 e => Sys2Proof.Machine.execFirmwareCommit011 e s
  | .fwSlotProgrammed => Sys2Proof.Machine.execFwSlotProgrammed s
  | .fwActivationQuiesced => Sys2Proof.Machine.execFwActivationQuiesced s
  | .establishContract e => Sys2Proof.Machine.execEstablishContract e s
  | .establishDrainDone => Sys2Proof.Machine.execEstablishDrainDone s
  | .establishLocked => Sys2Proof.Machine.execEstablishLocked s
  | .establishLockTimeout => Sys2Proof.Machine.execEstablishLockTimeout s
  | .releaseContract e => Sys2Proof.Machine.execReleaseContract e s
  | .queryContracts e => Sys2Proof.Machine.execQueryContracts e s
  | .contractRecheck why => Sys2Proof.Machine.execContractRecheck why s
  | .shutdownNotificationNormal => Sys2Proof.Machine.execShutdownNotificationNormal s
  | .shutdownNotificationAbrupt => Sys2Proof.Machine.execShutdownNotificationAbrupt s
  | .shutdownComplete => Sys2Proof.Machine.execShutdownComplete s
  | .namespaceReady => Sys2Proof.Machine.execNamespaceReady s
  | .headLoadRequest => Sys2Proof.Machine.execHeadLoadRequest s
  | .adoptionStart lost => Sys2Proof.Machine.execAdoptionStart s lost
  | .adoptionComplete segs lost => Sys2Proof.Machine.execAdoptionComplete s segs lost
  | .flutterStartupDone rs => Sys2Proof.Machine.execFlutterStartupDone rs s
  | .cfgRcvcmdKeel p v => Sys2Proof.Machine.execCfgRcvcmdKeel p v s
  | .keelRebuildDone => Sys2Proof.Machine.execKeelRebuildDone s
  | .cfgRevoke p v => Sys2Proof.Machine.execCfgRevoke p v s
  | .flashReadPage p v => Sys2Proof.Machine.execFlashReadPage p v s
  | .flashProgram p v => Sys2Proof.Machine.execFlashProgram p v s
  | .flashErase p v => Sys2Proof.Machine.execFlashErase p v s
  | .flashOpDone ok => Sys2Proof.Machine.execFlashOpDone ok s
  | .unitBegin n m => Sys2Proof.Machine.execUnitBegin n m s
  | .unitEndMark n err => Sys2Proof.Machine.execUnitEndMark n err s
  | .tileOutcomePost n its words ecc => Sys2Proof.Machine.execTileOutcomePost n its words ecc s
  | .setLoadComplete n ecc => Sys2Proof.Machine.execSetLoadComplete n ecc s
  | .eqmuSave p n v => Sys2Proof.Machine.execEqmuSave p n v s
  | .eqTapCopy n k => Sys2Proof.Machine.execEqTapCopy n k s
  | .caldataAccess p n wr ecc => Sys2Proof.Machine.execCaldataAccess p n wr ecc s
  | .brhwClr p n v => Sys2Proof.Machine.execBrhwClr p n v s
  | .pascmdWrite p n v => Sys2Proof.Machine.execPascmdWrite p n v s
  | .pasFrameSend n => Sys2Proof.Machine.execPasFrameSend n s
  | .pasFrameDone n rdata => Sys2Proof.Machine.execPasFrameDone n rdata s
  | .crysDispatch => Sys2Proof.Machine.execCrysDispatch s
  | .enginePhaseEnd e brine store sync => Sys2Proof.Machine.execEnginePhaseEnd e brine store sync s
  | .engineIterationEnd e w store => Sys2Proof.Machine.execEngineIterationEnd e w store s
  | .engineWatchdog e => Sys2Proof.Machine.execEngineWatchdog e s
  | .class2Ageing => Sys2Proof.Machine.execClass2Ageing s
  | .class0ExpireUndispatched => Sys2Proof.Machine.execClass0ExpireUndispatched s
  | .crysEngon p v => Sys2Proof.Machine.execCrysEngon p v s
  | .engineReturnTestDone e ok => Sys2Proof.Machine.execEngineReturnTestDone e ok s
  | .crysDirclr p v => Sys2Proof.Machine.execCrysDirclr p v s
  | .crysMaxusClr p v => Sys2Proof.Machine.execCrysMaxusClr p v s
  | .mcsStart p n v => Sys2Proof.Machine.execMcsStart p n v s
  | .mcsStop p n v => Sys2Proof.Machine.execMcsStop p n v s
  | .mcsKill p n v => Sys2Proof.Machine.execMcsKill p n v s
  | .mcsLoadGo p n v => Sys2Proof.Machine.execMcsLoadGo p n v s
  | .mcsLoadDone n ecc => Sys2Proof.Machine.execMcsLoadDone n ecc s
  | .csWindowWrite p a v => Sys2Proof.Machine.execCsWindowWrite p a v s
  | .cont n e => Sys2Proof.Machine.execCont n e s
  | .jump n e => Sys2Proof.Machine.execJump n e s
  | .jcond n e => Sys2Proof.Machine.execJcond n e s
  | .call n e => Sys2Proof.Machine.execCall n e s
  | .ret n e => Sys2Proof.Machine.execRet n e s
  | .loop n e => Sys2Proof.Machine.execLoop n e s
  | .waitc n e => Sys2Proof.Machine.execWaitc n e s
  | .waitcEnd n e => Sys2Proof.Machine.execWaitcEnd n e s
  | .trapret n e => Sys2Proof.Machine.execTrapret n e s
  | .forcedHarvestTrap n => Sys2Proof.Machine.execForcedHarvestTrap n s
  | .cmdpop n => Sys2Proof.Machine.execCmdpop n s
  | .cmddone n => Sys2Proof.Machine.execCmddone n s
  | .cmderr n code => Sys2Proof.Machine.execCmderr n code s
  | .requeue n => Sys2Proof.Machine.execRequeue n s
  | .flushq n => Sys2Proof.Machine.execFlushq n s
  | .start n dpath modsel sync => Sys2Proof.Machine.execStart n dpath modsel sync s
  | .setload n => Sys2Proof.Machine.execSetload n s
  | .next n => Sys2Proof.Machine.execNext n s
  | .rewind n => Sys2Proof.Machine.execRewind n s
  | .defect n => Sys2Proof.Machine.execDefect n s
  | .abandon n => Sys2Proof.Machine.execAbandon n s
  | .clrst n => Sys2Proof.Machine.execClrst n s
  | .ld0 n imm => Sys2Proof.Machine.execLd0 n imm s
  | .ld1 n imm => Sys2Proof.Machine.execLd1 n imm s
  | .ldb n imm => Sys2Proof.Machine.execLdb n imm s
  | .cnt0 n => Sys2Proof.Machine.execCnt0 n s
  | .cnt1 n => Sys2Proof.Machine.execCnt1 n s
  | .dec0 n => Sys2Proof.Machine.execDec0 n s
  | .dec1 n => Sys2Proof.Machine.execDec1 n s
  | .inc0 n => Sys2Proof.Machine.execInc0 n s
  | .inc1 n => Sys2Proof.Machine.execInc1 n s
  | .timerLoad n sel unit imm => Sys2Proof.Machine.execTimerLoad n sel unit imm s
  | .timerStop n sel => Sys2Proof.Machine.execTimerStop n sel s
  | .timerRestart n sel => Sys2Proof.Machine.execTimerRestart n sel s
  | .timerExpire n t => Sys2Proof.Machine.execTimerExpire n t s
  | .preampStrobe n strobes => Sys2Proof.Machine.execPreampStrobe n strobes s
  | .hsel n => Sys2Proof.Machine.execHsel n s
  | .seek n => Sys2Proof.Machine.execSeek n s
  | .seeksalt n => Sys2Proof.Machine.execSeeksalt n s
  | .offset n imm => Sys2Proof.Machine.execOffset n imm s
  | .clroff n => Sys2Proof.Machine.execClroff n s
  | .unload n => Sys2Proof.Machine.execUnload n s
  | .load n => Sys2Proof.Machine.execLoad n s
  | .widen n => Sys2Proof.Machine.execWiden n s
  | .agchold n => Sys2Proof.Machine.execAgchold n s
  | .microcodeEvent n code imm => Sys2Proof.Machine.execMicrocodeEvent n code imm s
  | .statCount n mask => Sys2Proof.Machine.execStatCount n mask s
  | .servoSample a m => Sys2Proof.Machine.execServoSample a m s
  | .unloadComplete a => Sys2Proof.Machine.execUnloadComplete a s
  | .loadComplete a pos => Sys2Proof.Machine.execLoadComplete a pos s
  | .scaSkcmdGo p a v => Sys2Proof.Machine.execScaSkcmdGo p a v s
  | .srvSetcmdGo p v => Sys2Proof.Machine.execSrvSetcmdGo p v s
  | .setInstallDone ecc => Sys2Proof.Machine.execSetInstallDone ecc s
  | .srvSsdataAccess p wr ecc => Sys2Proof.Machine.execSrvSsdataAccess p wr ecc s
  | .flutterGo p v => Sys2Proof.Machine.execFlutterGo p v s
  | .flutterAbort p v => Sys2Proof.Machine.execFlutterAbort p v s
  | .scaStatClr p v => Sys2Proof.Machine.execScaStatClr p v s
  | .vibFrame reading => Sys2Proof.Machine.execVibFrame reading s
  | .vcmPwmPeriod a isns => Sys2Proof.Machine.execVcmPwmPeriod a isns s
  | .pwmPeriod m => Sys2Proof.Machine.execPwmPeriod m s
  | .phaseOvercurrent => Sys2Proof.Machine.execPhaseOvercurrent s
  | .spindleTick m => Sys2Proof.Machine.execSpindleTick m s
  | .turnOnWindowEnd => Sys2Proof.Machine.execTurnOnWindowEnd s
  | .lowerTargetRelease => Sys2Proof.Machine.execLowerTargetRelease s
  | .spnCtlArm p v => Sys2Proof.Machine.execSpnCtlArm p v s
  | .spnCtlRun p v => Sys2Proof.Machine.execSpnCtlRun p v s
  | .spnCtlSrc p v => Sys2Proof.Machine.execSpnCtlSrc p v s
  | .senseEnd => Sys2Proof.Machine.execSenseEnd s
  | .standstill => Sys2Proof.Machine.execStandstill s
  | .probeEnd peaks => Sys2Proof.Machine.execProbeEnd peaks s
  | .alignEnd => Sys2Proof.Machine.execAlignEnd s
  | .stopDrainDone => Sys2Proof.Machine.execStopDrainDone s
  | .connDetBreak => Sys2Proof.Machine.execConnDetBreak s
  | .reverseCurrent => Sys2Proof.Machine.execReverseCurrent s
  | .supplyLoss => Sys2Proof.Machine.execSupplyLoss s
  | .hrvForce p v => Sys2Proof.Machine.execHrvForce p v s
  | .parkTimeout => Sys2Proof.Machine.execParkTimeout s
  | .rejoinReset => Sys2Proof.Machine.execRejoinReset s
  | .hrvBudgetCompute => Sys2Proof.Machine.execHrvBudgetCompute s
  | .hrvCtlArm p v => Sys2Proof.Machine.execHrvCtlArm p v s
  | .chopperOn mbus => Sys2Proof.Machine.execChopperOn mbus s
  | .chopperOff mbus => Sys2Proof.Machine.execChopperOff mbus s
  | .chopperFault isns => Sys2Proof.Machine.execChopperFault isns s
  | .chopTest p v => Sys2Proof.Machine.execChopTest p v s
  | .chopTestEnd isns => Sys2Proof.Machine.execChopTestEnd isns s
  | .holdLow hold => Sys2Proof.Machine.execHoldLow hold s
  | .doubleFault => Sys2Proof.Machine.execDoubleFault s
  | .thermalCritical => Sys2Proof.Machine.execThermalCritical s
  | .diapauseCommitDone => Sys2Proof.Machine.execDiapauseCommitDone s
  | .lockstepMismatch g cyc => Sys2Proof.Machine.execLockstepMismatch g cyc s
  | .journalTileTimeout => Sys2Proof.Machine.execJournalTileTimeout s
  | .journalTileOnMedia => Sys2Proof.Machine.execJournalTileOnMedia s
  | .mapCmdCkpt p v => Sys2Proof.Machine.execMapCmdCkpt p v s
  | .checkpointDone retried => Sys2Proof.Machine.execCheckpointDone retried s
  | .returnHome ns key => Sys2Proof.Machine.execReturnHome ns key s
  | .mapCtlEn p v => Sys2Proof.Machine.execMapCtlEn p v s
  | .mapCmdInv p v => Sys2Proof.Machine.execMapCmdInv p v s
  | .mapFillLand => Sys2Proof.Machine.execMapFillLand s
  | .mapCacheCleanDone => Sys2Proof.Machine.execMapCacheCleanDone s
  | .dmaChStart p n v => Sys2Proof.Machine.execDmaChStart p n v s
  | .dmaChResume p n v => Sys2Proof.Machine.execDmaChResume p n v s
  | .dmaChAbort p n v => Sys2Proof.Machine.execDmaChAbort p n v s
  | .dmaDoorbell p n v => Sys2Proof.Machine.execDmaDoorbell p n v s
  | .dmaSigset p k v => Sys2Proof.Machine.execDmaSigset p k v s
  | .dmaSigclr p k v => Sys2Proof.Machine.execDmaSigclr p k v s
  | .dmaEnd n => Sys2Proof.Machine.execDmaEnd n s
  | .dmaMove n => Sys2Proof.Machine.execDmaMove n s
  | .movs n => Sys2Proof.Machine.execMovs n s
  | .dmaLoop n => Sys2Proof.Machine.execDmaLoop n s
  | .endl n => Sys2Proof.Machine.execEndl n s
  | .dmaWait n => Sys2Proof.Machine.execDmaWait n s
  | .dmaWaitSatisfied n => Sys2Proof.Machine.execDmaWaitSatisfied n s
  | .sig n => Sys2Proof.Machine.execSig n s
  | .dmaJump n => Sys2Proof.Machine.execDmaJump n s
  | .dmaBurst n rest bad inp => Sys2Proof.Machine.execDmaBurst n rest bad inp s
  | .shfSlotWrite p k hi v => Sys2Proof.Machine.execShfSlotWrite p k hi v s
  | .pwrCmdGo p v => Sys2Proof.Machine.execPwrCmdGo p v s
  | .cocoonAgree => Sys2Proof.Machine.execCocoonAgree s
  | .cocoonDelayTimeout => Sys2Proof.Machine.execCocoonDelayTimeout s
  | .entryRetry => Sys2Proof.Machine.execEntryRetry s
  | .emergenceStepDone => Sys2Proof.Machine.execEmergenceStepDone s
  | .emergenceStepTimeout => Sys2Proof.Machine.execEmergenceStepTimeout s
  | .pwrPadrel p v => Sys2Proof.Machine.execPwrPadrel p v s
  | .domainIdleCocoon d => Sys2Proof.Machine.execDomainIdleCocoon d s
  | .apstTransition => Sys2Proof.Machine.execApstTransition s
  | .eccFlipArm p v => Sys2Proof.Machine.execEccFlipArm p v s
  | .eccSplitEn p v => Sys2Proof.Machine.execEccSplitEn p v s
  | .eccCtlClr p v => Sys2Proof.Machine.execEccCtlClr p v s
  | .tmrInj p v => Sys2Proof.Machine.execTmrInj p v s
  | .tmrLsctlInj p v => Sys2Proof.Machine.execTmrLsctlInj p v s
  | .rakeScrub t place => Sys2Proof.Machine.execRakeScrub t place s
  | .rakeLapEnd t ms => Sys2Proof.Machine.execRakeLapEnd t ms s
  | .rakeLapSlow t => Sys2Proof.Machine.execRakeLapSlow t s
  | .isstCmdGo p v => Sys2Proof.Machine.execIsstCmdGo p v s
  | .isstBlockEnd ok => Sys2Proof.Machine.execIsstBlockEnd ok s
  | .senseAdcCheck a ok => Sys2Proof.Machine.execSenseAdcCheck a ok s
  | .tempSensorUpdate tj td hbm => Sys2Proof.Machine.execTempSensorUpdate tj td hbm s
  | .alrCauseWrite p v => Sys2Proof.Machine.execAlrCauseWrite p v s
  | .evtSwPost p c v => Sys2Proof.Machine.execEvtSwPost p c v s
  | .evtTlock p v => Sys2Proof.Machine.execEvtTlock p v s
  | .evtCmdFlush p v => Sys2Proof.Machine.execEvtCmdFlush p v s
  | .evtFlushPageDone ok => Sys2Proof.Machine.execEvtFlushPageDone ok s
  | .evtFlushDone => Sys2Proof.Machine.execEvtFlushDone s
  | .evtSectorEraseDone => Sys2Proof.Machine.execEvtSectorEraseDone s
  | .measurementIntervalEnd vin hold mbus => Sys2Proof.Machine.execMeasurementIntervalEnd vin hold mbus s
  | .nvmeMiBasicManagement tgt off len => Sys2Proof.Machine.execNvmeMiBasicManagement tgt off len s
  | .smbusSetAddress tgt a pec => Sys2Proof.Machine.execSmbusSetAddress tgt a pec s
  | .smbusRegisterRead tgt => Sys2Proof.Machine.execSmbusRegisterRead tgt s
  | .smbusRegisterWrite tgt a v pec => Sys2Proof.Machine.execSmbusRegisterWrite tgt a v pec s
  | .alertResponse won => Sys2Proof.Machine.execAlertResponse won s
  | .smbusTimeout => Sys2Proof.Machine.execSmbusTimeout s
  | .tapInstruction ir => Sys2Proof.Machine.execTapInstruction ir s
  | .perstNDeassert => Sys2Proof.Machine.execPerstNDeassert s
  | .linkUp rate width => Sys2Proof.Machine.execLinkUp rate width s
  | .countersRecord => Sys2Proof.Machine.execCountersRecord s
  | .ignoredRead p a w => Sys2Proof.Machine.execIgnoredRead p a w s
  | .unsupportedOpcode q e => Sys2Proof.Machine.execUnsupportedOpcode q e s
  | .pcieError corr xfer => Sys2Proof.Machine.execPcieError corr xfer s
  | .memoryBitError e => Sys2Proof.Machine.execMemoryBitError e s

end Sys2Proof.Machine
end

