-- ==== Sys2Proof/Machine/Tick.lean ====
section
/-! DEFINITION. What the block does of itself while no command waits: its microsecond clock counts (R370, R608), the idle
time counts (R527), a servo set is rewritten (R271), and the resident firmware goes on with a transition of the power state (R522, R523) and makes the speed
curve the source at the end of spin-up (R319). Every other event in time is a command of the table. -/

namespace Sys2Proof.Machine
open Sys2Proof

/-- The start-up source gives way to the curve once upok is set (R319). -/
def State.curveSource (s : State) : State :=
  if s.boot.toCurve && s.flag F.SPN_STAT_upok && !s.diapause && decide (s.hrvState < 2) then
    { s.writeSpnCtl .core 0x80000011 with boot := { s.boot with toCurve := false } }
  else s

/-- With sense ADC 1 or 2 failed the firmware does not start the spindle again once it has stopped (R595). -/
def State.senseStop (s : State) : State :=
  if (s.bit F.ISST_SENSEST_fail 1 || s.bit F.ISST_SENSEST_fail 2) && s.spnState == 0 && s.flag F.SPN_CTL_arm &&
      s.boot.phase == 4 && s.runs 5 then
    s.writeSpnCtl .core ((s.reg R.SPN_CTL) &&& 0x7FFFFFFE#32)
  else s

/-- Each millisecond the firmware rewrites a set that failed to install, from the SRV section in the HBM (R271). -/
def State.setRewrite (s : State) : State :=
  match s.servo.badSet with
  | none => s
  | some i =>
    if s.boot.phase ≠ 4 ∨ !(s.runs 5) then s
    else
      let sec := imgSection s.hbmImage 3
      let new := (sectionWords (imgBytes s.hbmImage (sec.1 + 5120 * i) (min 5120 (sec.2 - 5120 * i)))).map (fun w => (w.1 + 1280 * i, w.2))
      let s := s.onServo (fun x => { x with badSet := none
                                            store := x.store.filter (fun w => w.1 < 1280 * i) ++ new ++ x.store.filter (fun w => 1280 * (i + 1) ≤ w.1) })
      s.wroteWords 6 0 (640 * i) 640 none

/-- One microsecond passes: the write-back buffer drains (R86), and the engines' times go on (R170). -/
def State.tick (s : State) : State :=
  let s := { s with us := s.us + 1 }
  let s := if s.us % 1000 = 0 then s.idleMs.setRewrite else s
  s.drainBack.syncCrys.curveSource.senseStop.pmStep.ps2Step

end Sys2Proof.Machine
end

