-- ==== Sys2Proof/Safety.lean ====
section
/-! DEFINITION. What counts as a sound state, in the terms the statements use: its memories and its register tables are in
their one canonical form, so that equal contents are equal data. And the conditions, on the state and the operands alone, under
which the commands of a family act. -/

namespace Sys2Proof.Machine
open Sys2Proof

/-- A memory is in its canonical form: addresses strictly rising, and no byte listed that equals what an unlisted address
reads as. -/
def Memory.wf (d : Nat → Byte) (m : List Host.Cell) : Bool := cwf d m

/-- The HBM and the configuration flash are in canonical form. -/
def State.memoryWf (s : State) : Bool := Memory.wf hbmDefault s.hbm && Memory.wf flashDefault s.flash

/-- The stored and the active register values are in canonical form: no register is listed at its reset value. -/
def State.registersWf (s : State) : Bool := cwf (resetVal s.variant) s.regs && cwf (resetVal s.variant) s.active

/-- The invariant of the block's stores. -/
def State.canonical (s : State) : Bool := s.memoryWf && s.registersWf

/-- No fuse blown in `s` is clear in `t` (R548). -/
def State.fusesStay (s t : State) : Prop := ∀ k, s.fuses.testBit k = true → t.fuses.testBit k = true

/-! ## When commands act -/

/-- A write of `v` at `a` through `p` reaches its register: the path is there, no harvest runs (R330), and no cause of R664 applies. -/
def State.accepts (s : State) (p : Path) (a : Nat) (v : Word) : Bool := s.writeOpen p && (s.writeCause p a v).isNone

/-- A read at `a` through `p` reaches its register. -/
def State.readable (s : State) (p : Path) (a : Nat) : Bool := s.pathOpen p && (s.readCause p a).isNone

/-- A write at `a` belongs to no command of its own: not BLK_IGNCNT, not a word of a control store, not a register that a command
writes; nor is it one whose write the block may have to hold. -/
def State.plain (s : State) (a : Nat) : Bool :=
  !(decide (a / 0x10000 < 0x22 ∧ a % 0x10000 = 4)) && (csWord a).isNone && (ownWriter a).isNone &&
    !(decide (0x13 ≤ a / 0x10000 ∧ a / 0x10000 ≤ 0x16)) && !(decide (0x10 ≤ a / 0x10000 ∧ a / 0x10000 ≤ 0x12) && s.installing a)

/-- An admin command is fetched and served: the controller is enabled and ready, no activation holds it, no harvest runs, the
admin completion queue has room, and the resident firmware is not in diapause (R362, R455, R488). -/
def State.serves (s : State) : Bool :=
  s.nvme.en && s.nvme.rdy && !s.nvme.pp && !s.harvesting && !s.hostDown && s.cqRoom 0 && !s.diapause && s.boot.phase != 5

/-- An I/O command of queue `q` is fetched: BUF fetches (R402, R343, R488), the queue exists and is not being deleted, and a context
is free (R409). -/
def State.fetches (s : State) (q : Nat) : Bool :=
  s.fetchOpen && s.nvme.sqs.any (fun x => x.id == q) && !(s.nvme.deletes.any (fun x => x.1 == q)) && decide (s.buf.ctxs.length < 4096)

/-- The fetch of `e` from queue `q` gives it a context, in which it waits for its grant, or has the record of the check that it
fails (R409, R462). -/
def State.holdsCommand (s : State) (q : Nat) (e : Sqe) : Prop :=
  ∃ c ∈ (s.fetch1 q e).buf.ctxs, c.sq = q ∧ c.sqe = e ∧ (c.stage = 0 ∧ c.record = none ∨ c.stage = 3 ∧ c.record.isSome = true)

/-- The state once command `e` of queue `q` has gone as far as it can at once: fetch, grant, landing of its data, seal,
completion (R407 to R414). -/
def State.ioTaken (s : State) (q : Nat) (e : Sqe) : State :=
  (((s.fetch1 q e).grantAll).land s.buf.nextId (e.nlb * 4096)).pump.reclass

/-- The state as an admin command finds it once it is fetched: HST has counted it, and the idle time is zero (R527). -/
def State.adminTaken (s : State) : State := (s.inc F.HST_ADMCNT_count).put F.PWR_IDLE_ms 0

/-- A Get Log Page names page `lid`, whose bytes are `f`, at an offset of the page's alignment within it, and asks for no more than
MDTS (R494). -/
def State.logReads (s : State) (lid align : Nat) (f : State → List Byte) (e : Sqe) : Bool :=
  let off := e.dw12.toNat + e.dw13.toNat * 2 ^ 32
  let len := 4 * (e.dw10.toNat / 65536 + e.dw11.toNat % 65536 * 65536 + 1)
  decide (e.dw10.toNat % 256 = lid ∧ off % align = 0 ∧ len ≤ 2097152 ∧ off ≤ (f s.adminTaken).length)

/-- The state after that Get Log Page: its bytes are returned, and without RAE its events are enabled again (R494, R498). -/
def State.logRead (s : State) (lid : Nat) (f : State → List Byte) (e : Sqe) : State :=
  let off := e.dw12.toNat + e.dw13.toNat * 2 ^ 32
  let len := 4 * (e.dw10.toNat / 65536 + e.dw11.toNat % 65536 * 65536 + 1)
  let t := if e.dw10.getLsbD 15 then s.adminTaken else s.adminTaken.clearAen lid
  t.wakeHbm.adminDone e.cid (CplRec.good 0 (((f s.adminTaken).drop off).take len))

/-- Microcode executes on a lane that runs. -/
def State.runsMicro (s : State) (n : Fin 4) : Bool := s.executing n && s.laneUp n

/-- The word `m` with SEQ `q` at the address of lane `n` is about to execute, without a fault, and its preamp frames fit (R191, R200,
R228). -/
def State.startsWord (s : State) (n : Fin 4) (q : Nat) (m : BitVec 160) : Bool :=
  s.runsMicro n && !(s.lane n).waiting && s.fetch n == m && wordBits m 145 3 == q && (s.wordFault n m).isNone &&
    s.framesFit n (wordBits m 104 8)

/-- The state at the end of that word's last word clock, before its SEQ: its once-only operations, its gates and its clocks (R207). -/
def State.wordBody (n : Fin 4) (m : BitVec 160) (s : State) : State :=
  (((s.onLane n (fun l => { l with word := m })).onceOps n m).setGates n).clocks n m (wordBits m 132 6 + 1)

/-- The loop counter operation of a word, after its SEQ (R207, R209). -/
def State.wordLc (n : Fin 4) (m : BitVec 160) (s : State) : State :=
  (s.condRead n m).opLc n (wordBits m 84 4) (wordBits m 72 12)

end Sys2Proof.Machine
end

