-- ==== Sys2Proof/WellFormed.lean ====
section
/-! DEFINITION. Well-formed commands: what a command's operands must be for the command to be the one its row names. A
fetched NVMe command carries the opcode, and the feature, log page, action or operation, of its row (11_host_interface.md
R462, R490, R494; 10_buffer_and_dma.md R440); a command that brings readings brings as many as the block takes. Machine/ gives
every command a meaning, well-formed or not: one whose entry names another operation acts as its row's rules treat it. -/

namespace Sys2Proof

/-- An I/O queue. -/
def onIo (q : Fin 65) : Bool := q.val != 0

/-- Bits 7:0 of CDW10, of CDW13. -/
def Sqe.low10 (e : Sqe) : Nat := e.dw10.toNat % 256
def Sqe.low13 (e : Sqe) : Nat := e.dw13.toNat % 256

/-- The commit action of a Firmware Commit. -/
def Sqe.commitAction (e : Sqe) : Nat := e.dw10.toNat / 8 % 8

/-- The directive type and operation of a Directive Send. -/
def Sqe.dirOp (e : Sqe) : Nat × Nat := (e.dw11.toNat / 256 % 256, e.dw11.toNat % 256)

/-- The opcodes of R462. -/
def adminOps : List Byte :=
  [0x00#8, 0x01#8, 0x02#8, 0x04#8, 0x05#8, 0x06#8, 0x08#8, 0x09#8, 0x0A#8, 0x0C#8, 0x10#8, 0x11#8, 0x19#8, 0x1A#8, 0xC1#8,
   0xC2#8, 0xC3#8]
def ioOps : List Byte := [0x00#8, 0x01#8, 0x02#8, 0x79#8, 0x7A#8, 0x7D#8, 0x86#8]

/-- A link rate code and a width that the Gorlo trains at (R444). -/
def linkShape (rate : Fin 6) (width : Fin 5) : Bool := rate.val != 0 && [1, 2, 4].contains width.val

/-- The command is well-formed. -/
def Instr.wf (i : Instr) : Bool :=
  match i with
  | .registerWrite _ _ _ _ => true
  | .blkIgncntClr _ _ _ => true
  | .laneGo _ _ _ => true
  | .laneShadowActivate _ => true
  | .scaGo _ _ => true
  | .scaLcfgActivate => true
  | .spnGo _ _ => true
  | .hrvGo _ _ => true
  | .ctrGo _ _ => true
  | .coldReset _ => true
  | .vdd3v3Loss => true
  | .sysRst _ _ => true
  | .warmResetTakesEffect => true
  | .perstNAssert => true
  | .functionLevelReset => true
  | .hotReset => true
  | .dlDown => true
  | .controllerReset => true
  | .controllerEnable _ _ => true
  | .crystalTimeout => true
  | .supplyQualified => true
  | .isoRampStep _ _ => true
  | .rampTimeout => true
  | .pgoodCoreRise => true
  | .pgoodCoreLate => true
  | .imageLoadDone _ => true
  | .pgoodCoreLow => true
  | .pgoodCoreReturn => true
  | .pgoodCoreTimeout => true
  | .pgoodALow => true
  | .pgoodBLow => true
  | .linkRetrain rate width => linkShape rate width
  | .synthLockLoss _ => true
  | .synthLockAcquired _ => true
  | .pafltAssert _ _ => true
  | .commandFetch q _ => onIo q
  | .grant => true
  | .hostDataTlp _ n => decide (0 < n ∧ n ≤ 65536)
  | .sealWrites => true
  | .readSeal => true
  | .completionStage _ _ => true
  | .cqWaitLong => true
  | .partialTileTimeout _ => true
  | .writeDeadlineMiss _ => true
  | .contractStopTime _ => true
  | .frameStart _ => true
  | .bufCtlLock _ _ => true
  | .bufAbortWrite _ _ => true
  | .flush q e => onIo q && e.op == 0x0
  | .write q e => onIo q && e.op == 0x1
  | .read q e => onIo q && e.op == 0x2
  | .zoneAppend q e => onIo q && e.op == 0x7D
  | .planeRead q e => onIo q && e.op == 0x85
  | .zoneCodeRate q e => onIo q && e.op == 0x86
  | .zoneClose q e => onIo q && e.op == 0x79 && e.low13 == 0x1
  | .zoneFinish q e => onIo q && e.op == 0x79 && e.low13 == 0x2
  | .zoneOpen q e => onIo q && e.op == 0x79 && e.low13 == 0x3
  | .zoneReset q e => onIo q && e.op == 0x79 && e.low13 == 0x4
  | .zoneResetSeal => true
  | .offlineZone q e => onIo q && e.op == 0x79 && e.low13 == 0x5
  | .setZoneDescriptorExtension q e => onIo q && e.op == 0x79 && e.low13 == 0x10
  | .reportZones q e => onIo q && e.op == 0x7A && e.low13 == 0x0
  | .extendedReportZones q e => onIo q && e.op == 0x7A && e.low13 == 0x1
  | .createIoSubmissionQueue e => e.op == 0x1
  | .createIoCompletionQueue e => e.op == 0x5
  | .deleteIoSubmissionQueue e => e.op == 0x0
  | .deleteIoCompletionQueue e => e.op == 0x4
  | .identify e => e.op == 0x6
  | .abort e => e.op == 0x8
  | .asynchronousEventRequest e => e.op == 0xC
  | .setArbitration e => e.op == 9 && e.low10 == 0x1
  | .setPowerManagement e => e.op == 9 && e.low10 == 0x2
  | .setTemperatureThreshold e => e.op == 9 && e.low10 == 0x4
  | .setNumberOfQueues e => e.op == 9 && e.low10 == 0x7
  | .setInterruptCoalescing e => e.op == 9 && e.low10 == 0x8
  | .setInterruptVectorConfiguration e => e.op == 9 && e.low10 == 0x9
  | .setAsyncEventConfiguration e => e.op == 9 && e.low10 == 0xB
  | .setApst e => e.op == 9 && e.low10 == 0xC
  | .setAcousticCeiling e => e.op == 9 && e.low10 == 0xC2
  | .setMagazineEnergy e => e.op == 9 && e.low10 == 0xC3
  | .getFeatures e => e.op == 0xA
  | .getMagazineEnergy e => e.op == 0xA && e.low10 == 0xC3
  | .errorInformationLog e => e.op == 2 && e.low10 == 0x1
  | .smartHealthLog e => e.op == 2 && e.low10 == 0x2
  | .firmwareSlotLog e => e.op == 2 && e.low10 == 0x3
  | .commandsSupportedLog e => e.op == 2 && e.low10 == 0x5
  | .contractLog e => e.op == 2 && e.low10 == 0xC4
  | .harvestLossLog e => e.op == 2 && e.low10 == 0xC5
  | .eventHistoryLog e => e.op == 2 && e.low10 == 0xC6
  | .measurementLog e => e.op == 2 && e.low10 == 0xC7
  | .enableDirective e => e.op == 0x19 && e.dirOp == (0, 1)
  | .releaseIdentifier e => e.op == 0x19 && e.dirOp == (1, 1)
  | .releaseResources e => e.op == 0x19 && e.dirOp == (1, 2)
  | .directiveReceive e => e.op == 0x1A
  | .firmwareImageDownload e => e.op == 0x11
  | .firmwareCommit000 e => e.op == 0x10 && e.commitAction == 0
  | .firmwareCommit001 e => e.op == 0x10 && e.commitAction == 1
  | .firmwareCommit010 e => e.op == 0x10 && e.commitAction == 2
  | .firmwareCommit011 e => e.op == 0x10 && e.commitAction == 3
  | .fwSlotProgrammed => true
  | .fwActivationQuiesced => true
  | .establishContract e => e.op == 0xC1
  | .establishDrainDone => true
  | .establishLocked => true
  | .establishLockTimeout => true
  | .releaseContract e => e.op == 0xC2
  | .queryContracts e => e.op == 0xC3
  | .contractRecheck _ => true
  | .shutdownNotificationNormal => true
  | .shutdownNotificationAbrupt => true
  | .shutdownComplete => true
  | .namespaceReady => true
  | .headLoadRequest => true
  | .adoptionStart _ => true
  | .adoptionComplete _ _ => true
  | .flutterStartupDone _ => true
  | .cfgRcvcmdKeel _ _ => true
  | .keelRebuildDone => true
  | .cfgRevoke _ _ => true
  | .flashReadPage _ _ => true
  | .flashProgram _ _ => true
  | .flashErase _ _ => true
  | .flashOpDone _ => true
  | .unitBegin _ _ => true
  | .unitEndMark _ _ => true
  | .tileOutcomePost _ _ _ _ => true
  | .setLoadComplete _ _ => true
  | .eqmuSave _ _ _ => true
  | .eqTapCopy _ k => decide (k < 128)
  | .caldataAccess _ _ _ _ => true
  | .brhwClr _ _ _ => true
  | .pascmdWrite _ _ _ => true
  | .pasFrameSend _ => true
  | .pasFrameDone _ _ => true
  | .crysDispatch => true
  | .enginePhaseEnd _ _ _ _ => true
  | .engineIterationEnd _ _ _ => true
  | .engineWatchdog _ => true
  | .class2Ageing => true
  | .class0ExpireUndispatched => true
  | .crysEngon _ _ => true
  | .engineReturnTestDone _ _ => true
  | .crysDirclr _ _ => true
  | .crysMaxusClr _ _ => true
  | .mcsStart _ _ _ => true
  | .mcsStop _ _ _ => true
  | .mcsKill _ _ _ => true
  | .mcsLoadGo _ _ _ => true
  | .mcsLoadDone _ _ => true
  | .csWindowWrite _ _ _ => true
  | .cont _ _ => true
  | .jump _ _ => true
  | .jcond _ _ => true
  | .call _ _ => true
  | .ret _ _ => true
  | .loop _ _ => true
  | .waitc _ _ => true
  | .waitcEnd _ _ => true
  | .trapret _ _ => true
  | .forcedHarvestTrap _ => true
  | .cmdpop _ => true
  | .cmddone _ => true
  | .cmderr _ _ => true
  | .requeue _ => true
  | .flushq _ => true
  | .start _ _ _ _ => true
  | .setload _ => true
  | .next _ => true
  | .rewind _ => true
  | .defect _ => true
  | .abandon _ => true
  | .clrst _ => true
  | .ld0 _ _ => true
  | .ld1 _ _ => true
  | .ldb _ _ => true
  | .cnt0 _ => true
  | .cnt1 _ => true
  | .dec0 _ => true
  | .dec1 _ => true
  | .inc0 _ => true
  | .inc1 _ => true
  | .timerLoad _ _ _ _ => true
  | .timerStop _ _ => true
  | .timerRestart _ _ => true
  | .timerExpire _ _ => true
  | .preampStrobe _ _ => true
  | .hsel _ => true
  | .seek _ => true
  | .seeksalt _ => true
  | .offset _ _ => true
  | .clroff _ => true
  | .unload _ => true
  | .load _ => true
  | .widen _ => true
  | .agchold _ => true
  | .microcodeEvent _ _ _ => true
  | .statCount _ _ => true
  | .servoSample _ _ => true
  | .unloadComplete _ => true
  | .loadComplete _ _ => true
  | .scaSkcmdGo _ _ _ => true
  | .srvSetcmdGo _ _ => true
  | .setInstallDone _ => true
  | .srvSsdataAccess _ _ _ => true
  | .flutterGo _ _ => true
  | .flutterAbort _ _ => true
  | .scaStatClr _ _ => true
  | .vibFrame _ => true
  | .vcmPwmPeriod _ _ => true
  | .pwmPeriod m => m.cur.length == 3
  | .phaseOvercurrent => true
  | .spindleTick _ => true
  | .turnOnWindowEnd => true
  | .lowerTargetRelease => true
  | .spnCtlArm _ _ => true
  | .spnCtlRun _ _ => true
  | .spnCtlSrc _ _ => true
  | .senseEnd => true
  | .standstill => true
  | .probeEnd peaks => peaks.length == 6
  | .alignEnd => true
  | .stopDrainDone => true
  | .connDetBreak => true
  | .reverseCurrent => true
  | .supplyLoss => true
  | .hrvForce _ _ => true
  | .parkTimeout => true
  | .rejoinReset => true
  | .hrvBudgetCompute => true
  | .hrvCtlArm _ _ => true
  | .chopperOn _ => true
  | .chopperOff _ => true
  | .chopperFault _ => true
  | .chopTest _ _ => true
  | .chopTestEnd _ => true
  | .holdLow _ => true
  | .doubleFault => true
  | .thermalCritical => true
  | .diapauseCommitDone => true
  | .lockstepMismatch _ _ => true
  | .journalTileTimeout => true
  | .journalTileOnMedia => true
  | .mapCmdCkpt _ _ => true
  | .checkpointDone _ => true
  | .returnHome _ _ => true
  | .mapCtlEn _ _ => true
  | .mapCmdInv _ _ => true
  | .mapFillLand => true
  | .mapCacheCleanDone => true
  | .dmaChStart _ _ _ => true
  | .dmaChResume _ _ _ => true
  | .dmaChAbort _ _ _ => true
  | .dmaDoorbell _ _ _ => true
  | .dmaSigset _ _ _ => true
  | .dmaSigclr _ _ _ => true
  | .dmaEnd _ => true
  | .dmaMove _ => true
  | .movs _ => true
  | .dmaLoop _ => true
  | .endl _ => true
  | .dmaWait _ => true
  | .dmaWaitSatisfied _ => true
  | .sig _ => true
  | .dmaJump _ => true
  | .dmaBurst _ _ _ inp => decide (inp.length ≤ 16384)
  | .shfSlotWrite _ _ _ _ => true
  | .pwrCmdGo _ _ => true
  | .cocoonAgree => true
  | .cocoonDelayTimeout => true
  | .entryRetry => true
  | .emergenceStepDone => true
  | .emergenceStepTimeout => true
  | .pwrPadrel _ _ => true
  | .domainIdleCocoon _ => true
  | .apstTransition => true
  | .eccFlipArm _ _ => true
  | .eccSplitEn _ _ => true
  | .eccCtlClr _ _ => true
  | .tmrInj _ _ => true
  | .tmrLsctlInj _ _ => true
  | .rakeScrub _ _ => true
  | .rakeLapEnd _ _ => true
  | .rakeLapSlow _ => true
  | .isstCmdGo _ _ => true
  | .isstBlockEnd _ => true
  | .senseAdcCheck _ _ => true
  | .tempSensorUpdate _ _ _ => true
  | .alrCauseWrite _ _ => true
  | .evtSwPost _ _ _ => true
  | .evtTlock _ _ => true
  | .evtCmdFlush _ _ => true
  | .evtFlushPageDone _ => true
  | .evtFlushDone => true
  | .evtSectorEraseDone => true
  | .measurementIntervalEnd _ _ _ => true
  | .nvmeMiBasicManagement _ off len => decide (0 < len.toNat ∧ off.toNat + len.toNat ≤ 64)
  | .smbusSetAddress _ _ _ => true
  | .smbusRegisterRead _ => true
  | .smbusRegisterWrite _ _ _ _ => true
  | .alertResponse _ => true
  | .smbusTimeout => true
  | .tapInstruction _ => true
  | .perstNDeassert => true
  | .linkUp rate width => linkShape rate width
  | .countersRecord => true
  | .ignoredRead _ _ _ => true
  | .unsupportedOpcode q e => if q.val = 0 then !(adminOps.contains e.op) else !(ioOps.contains e.op)
  | .pcieError _ _ => true
  | .memoryBitError _ => true

end Sys2Proof
end

