-- ==== Sys2Proof/Certificates/Slice0/Obligations.lean ====
section
/-! DEFINITION. The statements for the provers. The conclusions name the next state by the model's own operations, each of which
cites the rule of the spec that it follows. -/

open Sys2Proof Sys2Proof.Machine

/-- With a command c at the front of the queue, a step is exec of c on the state that keeps the rest of the queue. The queue is
the model's own (log entry 2). -/
def Obligations.StepRunsFrontCommand : Prop :=
  ∀ (c : Instr) (rest : List Instr) (s : State), s.pending = c :: rest → step s = exec c { s with pending := rest }

/-- On an empty queue a step answers the state one microsecond later, which is the model's choice (log entry 1). Where no
millisecond ends, the resident firmware does not run, and neither a power-state transition nor the change to the speed curve nor
a line in MAP's write-back buffer waits, the registers of CRYS then show its queue and engines at the new time, and nothing else
changes. -/
def Obligations.IdleStepIsOneMicrosecond : Prop :=
  (∀ s : State, s.pending = [] → step s = .next s.tick) ∧
  (∀ s : State, (s.us + 1) % 1000 ≠ 0 → s.boot.toCurve = false → s.boot.phase ≠ 4 → s.pwr.to_ = none →
    s.map.wback = [] → s.tick = State.syncCrys { s with us := s.us + 1 })

/-- Every command answers a next state, from every state and with every operand: an access that the spec forbids is ignored and
counted (R18), and ends no run. The queue that waits, the variant of the part and every blown fuse are the same after it. -/
def Obligations.CommandKeepsQueueAndVariant : Prop :=
  ∀ (c : Instr) (s : State), ∃ t, exec c s = .next t ∧ t.pending = s.pending ∧ t.variant = s.variant ∧ s.fusesStay t

/-- From every state whose HBM, flash, stored and active registers are in their canonical form (addresses strictly rising, no
entry equal to what an unlisted address reads as), a step answers a state in the same form. So equal contents stay equal data.
-/
def Obligations.StepKeepsCanonical : Prop :=
  ∀ s t : State, s.canonical = true → step s = .next t → t.canonical = true

/-- State.reset is in canonical form, and its queue is empty. Every register reads its reset value; the spindle is OFF, HRV is
DISARMED, every sequencer is in RESET and no commit or power handshake runs. The clause on every register takes in values that
the spec does not give, which are the model's (log entry 7). -/
def Obligations.ResetCanonical : Prop :=
  State.reset.canonical = true ∧ State.reset.pending = [] ∧ (∀ a, State.reset.reg a = resetVal .h16 a) ∧
  State.reset.spnState = 0 ∧ State.reset.hrvState = 0 ∧ (∀ n : Fin 4, State.reset.mcs n = 0) ∧ State.reset.diapause = false ∧
  State.reset.get F.PWR_PSTAT_phase = 0 ∧ State.reset.get F.MAP_CSTAT_state = 0

/-- No step of the block clears a fuse of the revocation mask that is blown. In factory test mode a 1 written to bit k of
CFG_REVOKE blows fuse k, and the other fuses stay as they are; in any other mode the write is ignored and counted with cause
101b. The fuses are 16. -/
def Obligations.BlownFusesStay : Prop :=
  (∀ s t : State, step s = .next t → s.fusesStay t) ∧
  (∀ (p : Path) (v : Word) (s : State), s.accepts p R.CFG_REVOKE v = true → s.factory = true →
    exec (.cfgRevoke p v) s = .next { s with fuses := s.fuses ||| v.toNat % 2 ^ 16 } ∧
    ∀ k, (s.fuses ||| v.toNat % 2 ^ 16).testBit k = (s.fuses.testBit k || (decide (k < 16) && v.getLsbD k))) ∧
  (∀ (p : Path) (v : Word) (s : State), s.accepts p R.CFG_REVOKE v = true → s.factory = false →
    exec (.cfgRevoke p v) s = .next (s.ignore p 4 R.CFG_REVOKE 5 false))

/-- A 32-bit write that no cause of R664 stops, of a register without a command of its own and of a value its description
permits, stores what the access types make of it, and then does what follows at once from the new value (State.afterTake:
CTR_DEMAND, CTR_CTL, BUF_RPRSV and SRV_VIBCFG alone have such an effect). In the stored word the RW and RWL bits are the bits
written, RO bits stay, a 1 clears a W1C bit and sets a W1S bit while a 0 leaves it, and WO and WZ bits read zero. No other
register changes, nor any active value. -/
def Obligations.WriteFollowsAccessTypes : Prop :=
  ∀ (p : Path) (a : Word) (w : BitVec 64) (s : State) (d : RegDesc), let n := a.toNat; let v : Word := w.setWidth 32
    regDesc n = some d → n % 4 = 0 → s.accepts p n v = true → s.plain n = true → s.valueBad n v = false →
    exec (.registerWrite p a .word w) s = .next ((s.take n v).afterTake n) ∧
    (let m (k : Nat) : Word := BitVec.ofNat 32 k; let r := (s.take n v).reg n; let old := s.reg n
      r &&& m (d.rw ||| d.rwl) = v &&& m (d.rw ||| d.rwl) ∧ r &&& m d.ro = old &&& m d.ro ∧
      r &&& m d.w1c = (old &&& ~~~v) &&& m d.w1c ∧ r &&& m d.w1s = (old ||| v) &&& m d.w1s ∧
      r &&& m (d.wo ||| d.wz) = 0) ∧
    (∀ b, b ≠ n → (s.take n v).reg b = s.reg b) ∧ s.take n v = { s with regs := (s.take n v).regs } ∧
    (n ≠ R.CTR_DEMAND → n ≠ R.CTR_CTL → n ≠ R.BUF_RPRSV → n ≠ R.SRV_VIBCFG → (s.take n v).afterTake n = s.take n v)

/-- BLK_IGNCNT.count saturates at FFh, and BLK_IGNADDR records each new ignored access, also while the count stays at FFh. An
access ignored in block k with a cause c below 8 adds one to that block's count unless the count is FFh, and sets in its
BLK_IGNADDR: valid, the cause, the path, the index of the block addressed, the word offset, and read or write. Nothing else of
the block changes. -/
def Obligations.IgnoredAccessIsCounted : Prop :=
  ∀ (p : Path) (k a c : Nat) (rd : Bool) (s : State), c < 8 → let t := s.ignore p k a c rd
    t.get (F.BLK_IGNCNT_count k) = min 0xFF (s.get (F.BLK_IGNCNT_count k) + 1) ∧
    t.get (F.BLK_IGNADDR_valid k) = 1 ∧ t.get (F.BLK_IGNADDR_cause k) = c ∧ t.get (F.BLK_IGNADDR_src k) = pathCode p ∧
    t.get (F.BLK_IGNADDR_blk k) = a / 0x10000 % 64 ∧ t.get (F.BLK_IGNADDR_off k) = a % 0x10000 / 4 ∧
    t.get (F.BLK_IGNADDR_rd k) = (if rd then 1 else 0) ∧
    (∀ b, b ≠ R.BLK_IGNCNT k → b ≠ R.BLK_IGNADDR k → t.reg b = s.reg b) ∧ t = { s with regs := t.regs }

/-- While no harvest runs, in the window, and for SMBus in its five blocks, a narrow access, a misaligned 32-bit or 64-bit write
or read is ignored in full and counted with cause 110b, and its read returns zero. An aligned 64-bit write or read is the two
32-bit ones, the lower address first. -/
def Obligations.NarrowOrMisalignedIsIgnored : Prop :=
  ∀ (p : Path) (a : Word) (v : BitVec 64) (s : State), let n := a.toNat
    s.writeOpen p = true → n + 8 ≤ 0x400000 → (p = .smbus → smbBlock (n / 0x10000) = true) →
    let w := s.ignore p (s.countBlock p n) n 6 false; let r := s.ignore p (s.countBlock p n) n 6 true
    exec (.registerWrite p a .narrow v) s = .next w ∧ exec (.ignoredRead p a .narrow) s = .next r ∧
    (n % 4 ≠ 0 → exec (.registerWrite p a .word v) s = .next w ∧ exec (.ignoredRead p a .word) s = .next r ∧ s.readOut p n = 0) ∧
    (n % 8 ≠ 0 → exec (.registerWrite p a .double v) s = .next w ∧ exec (.ignoredRead p a .double) s = .next r) ∧
    (n % 8 = 0 →
      (∃ t, exec (.registerWrite p a .word v) s = .next t ∧
        exec (.registerWrite p a .double v) s = exec (.registerWrite p (a + 4) .word (v >>> 32)) t) ∧
      (∃ t, exec (.ignoredRead p a .word) s = .next t ∧ exec (.ignoredRead p a .double) s = exec (.ignoredRead p (a + 4) .word) t))

/-- While no harvest runs, a 32-bit write for which R664 names a cause, through any path and to any register, and a 32-bit read
for which it names one, change nothing but the count and the record of ignored accesses of one block. So no write through BAR2
to a register that is not host-writable, and no write over SMBus to one it may not write, changes another register or any other
state. A permitted write of BLK_IGNCNT with clr set clears the count and BLK_IGNADDR.valid, and nothing else. During a harvest
no write through any path has any effect. -/
def Obligations.ForbiddenAccessDoesNothingElse : Prop :=
  (∀ (p : Path) (a : Word) (v : BitVec 64) (s : State) (c : Nat), s.writeOpen p = true → a.toNat % 4 = 0 → a.toNat < 0x400000 →
    s.writeCause p a.toNat (v.setWidth 32) = some c → (p = .smbus → smbBlock (a.toNat / 0x10000) = true) →
    exec (.registerWrite p a .word v) s = .next (s.ignore p (s.countBlock p a.toNat) a.toNat c false)) ∧
  (∀ (p : Path) (a : Word) (s : State) (c : Nat), s.pathOpen p = true → a.toNat % 4 = 0 → a.toNat < 0x400000 →
    s.readCause p a.toNat = some c →
    exec (.ignoredRead p a .word) s = .next (s.ignore p (s.countBlock p a.toNat) a.toNat c true) ∧ s.readOut p a.toNat = 0) ∧
  (∀ (p : Path) (a : Word) (v : BitVec 64) (s t : State), a.toNat % 4 = 0 →
    (p = .bar2 ∧ hostWritable a.toNat = false ∨ p = .smbus ∧ smbWritable a.toNat = false) →
    exec (.registerWrite p a .word v) s = .next t →
    t = { s with regs := t.regs } ∧ ∀ b, b % 0x10000 ≠ 4 → b % 0x10000 ≠ 8 → t.reg b = s.reg b) ∧
  (∀ (p : Path) (b : Fin 34) (v : Word) (s : State), s.accepts p (R.BLK_IGNCNT b) v = true → v.getLsbD 31 = true →
    exec (.blkIgncntClr p b v) s = .next ((s.put (F.BLK_IGNCNT_count b) 0).put (F.BLK_IGNADDR_valid b) 0)) ∧
  (∀ (p : Path) (a : Word) (z : Width) (v : BitVec 64) (s : State), s.harvesting = true → exec (.registerWrite p a z v) s = .next s)

/-- A 32-bit read that no cause stops leaves the whole state as it is, unless it reads LANEn_CALDATA or SRV_SSDATA, whose
address registers step on. BLK_ID of every block returns the identity of the block, and SYS_CAP the variant's. -/
def Obligations.PermittedReadChangesNothing : Prop :=
  (∀ (p : Path) (a : Word) (s : State), a.toNat % 4 = 0 → a.toNat < 0x400000 → s.readable p a.toNat = true →
    (∀ n : Fin 4, a.toNat ≠ R.LANE_CALDATA n) → a.toNat ≠ R.SRV_SSDATA → exec (.ignoredRead p a .word) s = .next s) ∧
  (∀ (p : Path) (b : Fin 34) (s : State), s.readable p (R.BLK_ID b) = true → s.readOut p (R.BLK_ID b) = blkId b) ∧
  (∀ (p : Path) (s : State), s.readable p R.SYS_CAP = true → s.readOut p R.SYS_CAP = s.variant.cap)

/-- A write of 1 to the go field of LANEn_GO, SCA_GO, SPN_GO or HRV_GO, while its pending bit reads 0 and the block's checks of
the shadow values pass, sets pending and makes no value active; LANEn_GO is held where the lane's domain is cocooned, and where
a set load failed it takes the staged values at once and lets the load repeat (R149). A write of CTR_GO that names slots none of
which is pending or active at rate zero sets CTR_GO.pending, and the lanes in service take the values at their frame starts;
where no frames run they act at once. -/
def Obligations.GoWriteSetsPending : Prop :=
  (∀ (p : Path) (n : Fin 4) (v : Word) (s : State), s.accepts p (R.LANE_GO n) v = true → v.getLsbD 0 = true →
     (s.flag (F.LANE_GO_pending n) = false ∨ (s.lane n).setBad = true) →
     let t := (s.put (F.LANE_GO_pending n) 1).onLane n (fun l => { l with goHeld := !(s.laneUp n) })
     ((s.lane n).setBad = false → exec (.laneGo p n v) s = .next t) ∧
     ((s.lane n).setBad = true → exec (.laneGo p n v) s = .next ((t.laneActivate n).onLane n (fun l =>
       { l with setBad := false, pset := (l.loading.map l.setFrames).getD [] })))) ∧
  (∀ (p : Path) (v : Word) (s : State), s.accepts p R.SCA_GO v = true → v.getLsbD 0 = true → s.flag F.SCA_GO_pending = false →
     s.lcfgBad = false → exec (.scaGo p v) s = .next (s.put F.SCA_GO_pending 1)) ∧
  (∀ (p : Path) (v : Word) (s : State), s.accepts p R.SPN_GO v = true → v.getLsbD 0 = true → s.flag F.SPN_GO_pending = false →
     s.curveGood = true → ¬(s.get F.SPN_CRVHDR_nbp = 0 ∧ s.get F.SPN_CTL_src = 1) →
     exec (.spnGo p v) s = .next (s.put F.SPN_GO_pending 1)) ∧
  (∀ (p : Path) (v : Word) (s : State), s.accepts p R.HRV_GO v = true → v.getLsbD 0 = true → s.flag F.HRV_GO_pending = false →
     exec (.hrvGo p v) s = .next (s.put F.HRV_GO_pending 1)) ∧
  (∀ (p : Path) (v : Word) (s : State), s.accepts p R.CTR_GO v = true → v.toNat % 65536 ≠ 0 → s.flag F.CTR_GO_pending = false →
     (∀ i < 16, (v.toNat % 65536).testBit i = true → s.get (F.CTR_C_CFG_state i) = 1 ∨ s.get (F.CTR_C_CFG_state i) = 2 →
       s.get (F.CTR_C_RATE_mbps i) ≠ 0) →
     exec (.ctrGo p v) s = .next (
       let t := (s.onCtr (fun c => { c with take := s.lanesIn, takeMask := v.toNat % 65536 })).put F.CTR_GO_pending 1
       if t.lanesIn.isEmpty ∨ t.get F.CTR_CTL_en = 0 then State.ctrApply (t.onCtr (fun c => { c with take := [] })) else t))

/-- With a GO of lane n pending and its sequencer halted (and the GO not held since a cocoon), the activation makes the shadow
values of LANEn_CALSEL, LANEn_TR and LANEn_AGC active together and clears pending; the shadow values, and the active values of
every other register, stay. With SCA_GO pending and MOTION running, it makes the sixteen SCA_LCFGn active together and clears
pending; the active values of every other register stay. -/
def Obligations.StagedValuesActTogether : Prop :=
  (∀ (n : Fin 4) (s : State), s.executing n = false → s.laneUp n = true → s.flag (F.LANE_GO_pending n) = true → (s.lane n).goHeld = false →
     ∃ t, exec (.laneShadowActivate n) s = .next t ∧ t.get (F.LANE_GO_pending n) = 0 ∧
       t.actReg (R.LANE_CALSEL n) = s.reg (R.LANE_CALSEL n) ∧ t.actReg (R.LANE_TR n) = s.reg (R.LANE_TR n) ∧
       t.actReg (R.LANE_AGC n) = s.reg (R.LANE_AGC n) ∧
       (∀ a, a ≠ R.LANE_CALSEL n → a ≠ R.LANE_TR n → a ≠ R.LANE_AGC n → t.actReg a = s.actReg a) ∧
       (∀ a, a ≠ R.LANE_GO n → t.reg a = s.reg a)) ∧
  (∀ s : State, s.flag F.SCA_GO_pending = true → s.runs 5 = true →
     ∃ t, exec .scaLcfgActivate s = .next t ∧ t.get F.SCA_GO_pending = 0 ∧
       (∀ n : Fin 16, t.actReg (R.SCA_LCFG n) = s.reg (R.SCA_LCFG n)) ∧
       (∀ a, (∀ n : Fin 16, a ≠ R.SCA_LCFG n) → t.actReg a = s.actReg a))

/-- Outside a harvest and DONE a cold reset gives every register its reset value but the straps, which it samples; the variant,
the disks, the fuses, the event ring and the queue stay. AON's own reset and the rejoin reset do the same with the straps kept.
SYS_RST with its key, outside diapause and with no warm reset under way, closes admission, discards what is not sealed, and
either unloads the heads or begins the commit. Once that is over and every head is unloaded the warm reset takes effect: every
register that a warm reset reaches has its reset value but HRV_STAT.iso and CFG_BOOT.warm, the registers it does not reach stay,
and so do the HBM, the event recorder, the disks and the fuses. -/
def Obligations.ColdAndWarmResets : Prop :=
  (∀ (strap : Fin 8) (s : State), s.hrvState < 2 → ∃ t, exec (.coldReset strap) s = .next t ∧ t = s.coldReset strap.val ∧
     t.get F.CFG_STRAP_mode = strap ∧ (∀ a, a ≠ R.CFG_STRAP → t.reg a = resetVal s.variant a) ∧ (∀ a, t.actReg a = resetVal s.variant a) ∧
     t.variant = s.variant ∧ t.media = s.media ∧ t.fuses = s.fuses ∧ t.pending = s.pending) ∧
  (∀ s : State, exec .vdd3v3Loss s = .next ((s.coldReset (s.get F.CFG_STRAP_mode)).onBoot (fun b => { b with phase := 6 }))) ∧
  (∀ s : State, s.hrvState = 7 → exec .rejoinReset s = .next (s.coldReset (s.get F.CFG_STRAP_mode))) ∧
  (∀ (p : Path) (v : Word) (s : State), s.accepts p R.SYS_RST v = true → v.getLsbD 0 = true → F.SYS_RST_key.of v = 0x5253 →
     s.diapause = false → s.boot.warm = 0 → exec (.sysRst p v) s = .next (
       let t := s.discardAll.onBuf (fun b => { b with closed := true })
       if t.clean then t.unloadAll.onBoot (fun b => { b with warm := 2 })
       else (t.onBoot (fun b => { b with warm := 1 })).beginSwitchCommit 1)) ∧
  (∀ s : State, s.boot.warm = 2 → s.get F.SRV_STAT_loaded = 0 → (∀ a : Fin 4, (s.act a).ramp ≠ some true) → s.harvesting = false →
     ∃ t, exec .warmResetTakesEffect s = .next t ∧ t = s.warmReset ∧
     (∀ a, a ≠ R.HRV_STAT → a ≠ R.CFG_BOOT → t.reg a = if resets .warm a then resetVal s.variant a else s.reg a) ∧
     t.get F.CFG_BOOT_warm = 1 ∧ t.get F.HRV_STAT_iso = s.get F.HRV_STAT_iso ∧
     t.hbm = s.hbm ∧ t.evt = s.evt ∧ t.media = s.media ∧ t.fuses = s.fuses ∧ t.us = s.us ∧ t.pending = s.pending)

/-- Each reset of the function takes the controller and the HOST domain through the same reset. PERST_N asserted holds the
function with no link until it is deasserted; a hot reset and a link that goes down leave the link to train again, and the
latter is reported; a function level reset leaves HST_LINK as it was and sets HST_ERR.flr. A controller reset reaches the
controller alone. -/
def Obligations.ControllerAndFunctionResets : Prop :=
  (∀ s : State, s.hostDown = false → s.nvme.perst = false → exec .perstNAssert s =
     .next (s.hostReset.linkDown.onNvme (fun v => { v with perst := true, pewake := false, config := false, linkUp := false }))) ∧
  (∀ s : State, (s.hostDown = true ∨ s.nvme.perst = true) → exec .perstNAssert s =
     .next (s.onNvme (fun v => { v with perst := true, pewake := false, config := false, linkUp := false }))) ∧
  (∀ s : State, exec .perstNDeassert s = .next (s.onNvme (fun v => { v with perst := false }))) ∧
  (∀ s : State, s.answers = true →
     exec .functionLevelReset s = .next (((s.hostReset.setReg R.HST_LINK (s.reg R.HST_LINK)).configGo).raise F.HST_ERR_flr)) ∧
  (∀ s : State, s.hostDown = false → s.nvme.perst = false → s.nvme.linkUp = true → exec .hotReset s = .next s.hostReset.linkDown) ∧
  (∀ s : State, s.hostDown = false → s.nvme.perst = false → s.nvme.linkUp = true →
     exec .dlDown s = .next (s.hostReset.linkDown.raise F.HST_ERR_down)) ∧
  (∀ s : State, s.answers = true → s.nvme.en = true → exec .controllerReset s = .next s.controllerOff)

/-- Setting CC.EN takes CC and the size of the admin completion queue. With a command set, entry sizes or page size other than
the model's, CSTS.RDY stays 0 and CSTS.CFS sets. With the right ones CFS is 0, and RDY is 1 from the moment the controller may
report ready. No register changes. -/
def Obligations.EnableWithWrongSizesFails : Prop :=
  ∀ (cc : Word) (acqs : BitVec 12) (s : State), s.answers = true → s.nvme.en = false →
    ∃ t, exec (.controllerEnable cc acqs) s = .next t ∧ t.nvme.en = true ∧ t.nvme.adminSize = acqs.toNat + 1 ∧ t.nvme.shst = 0 ∧
    t.nvme.crime = cc.getLsbD 24 ∧ t.regs = s.regs ∧ t.nvme.feats = s.nvme.feats ∧
    (natBits cc.toNat 4 3 = 6 → natBits cc.toNat 16 4 = 6 → natBits cc.toNat 20 4 = 4 → t.nvme.cfs = false ∧
      t.nvme.rdy = (s.boot.phase == 5 || (s.boot.phase == 4 && (cc.getLsbD 24 || s.nvme.nsReady)))) ∧
    (¬(natBits cc.toNat 4 3 = 6 ∧ natBits cc.toNat 16 4 = 6 ∧ natBits cc.toNat 20 4 = 4) → t.nvme.cfs = true ∧ t.nvme.rdy = false)

/-- A link that comes up to a rate code and a width of 1, 2 or 4 lanes shows them in HST_LINK. A retrain counts in HST_RETRAIN
and shows the new ones, and a lower rate or width sets HST_ERR.lower. A normal shutdown notification begins the shutdown, drains
the dirty data and asks for a flush of the event recorder; it is complete once nothing is dirty and no flush runs, and then a
counters record is appended. An abrupt one is complete at once. -/
def Obligations.LinkAndShutdown : Prop :=
  (∀ (rate : Fin 6) (width : Fin 5) (s : State), s.hostDown = false → s.nvme.perst = false → 3 ≤ s.boot.phase → rate.val ≠ 0 →
     (width.val = 1 ∨ width.val = 2 ∨ width.val = 4) →
     exec (.linkUp rate width) s = .next (
       ((((s.put F.HST_LINK_up 1).put F.HST_LINK_rate rate).put F.HST_LINK_width width).put F.HST_LINK_ltssm (Config.ltssm 1).toNat
         |>.onNvme (fun v => { v with linkUp := true, pewake := false })).configGo)) ∧
  (∀ (rate : Fin 6) (width : Fin 5) (s : State), s.hostDown = false → s.nvme.perst = false → s.nvme.linkUp = true → rate.val ≠ 0 →
     (width.val = 1 ∨ width.val = 2 ∨ width.val = 4) →
     exec (.linkRetrain rate width) s = .next (
       let t := ((s.inc F.HST_RETRAIN_count).put F.HST_LINK_rate rate).put F.HST_LINK_width width
       (if rate.val < s.get F.HST_LINK_rate ∨ width.val < s.get F.HST_LINK_width then t.raise F.HST_ERR_lower else t).setGuard)) ∧
  (∀ s : State, s.answers = true → s.nvme.en = true → s.nvme.shst = 0 →
     exec .shutdownNotificationNormal s = .next ((s.onNvme (fun v => { v with shst := 1 })).pump).askFlush) ∧
  (∀ s : State, s.answers = true → s.nvme.en = true →
     exec .shutdownNotificationAbrupt s = .next (s.onNvme (fun v => { v with shst := 2 }))) ∧
  (∀ s : State, s.nvme.shst = 1 → s.clean = true → s.flag F.EVT_STAT_flush = false → s.evt.waiting = false →
     exec .shutdownComplete s = .next (s.countersRecord.onNvme (fun v => { v with shst := 2 })))

/-- A qualified supply starts the closing ramp. While it runs, a step samples both voltages; when they are within 0.3 V of one
another the ramp ends, the switch stays closed and both regulators are enabled, and otherwise the switch follows the reference.
A ramp that takes too long opens the switch and sets HRV_ERR.ramp. A loaded image trains the HBM, whose supply switch is closed
by then, and starts from the slot that the loader chooses. PGOOD_CORE starts the cores; if it is late, ALR_PWREV.pgcore sets and
nothing else happens but what the setting of a source bit brings. A crystal that fails at a cold start ends in diapause with
cause 04h. -/
def Obligations.PowerUpSequence : Prop :=
  (∀ s : State, s.boot.phase = 0 → s.hrvState ≤ 1 → ¬(s.diapause = true ∧ s.get F.HRV_DIAP_cause = 6) → exec .supplyQualified s =
     .next (((s.put F.HRV_STAT_ramp 1).onHrv (fun h => { h with rampUs := s.us })).onBoot (fun b => { b with phase := 1 }))) ∧
  (∀ (vin mbus : Nat) (s : State), s.flag F.HRV_STAT_ramp = true → exec (.isoRampStep vin mbus) s = .next (
     let t := (s.put F.HRV_VSNS_vin (vin / 10)).put F.HRV_MSNS_mbus (mbus / 10)
     if vin ≤ mbus + 300 ∧ mbus ≤ vin + 300 then
       (((t.setIso true).put F.HRV_STAT_ramp 0).onHrv (fun h => { h with ramped := true, regen := true })).onBoot (fun b => { b with phase := 2 })
     else t.setIso (decide (mbus * 10 < t.get F.HRV_ISOCFG_slew * (t.us - t.hrv.rampUs))))) ∧
  (∀ s : State, s.flag F.HRV_STAT_ramp = true →
     exec .rampTimeout s = .next (((s.setIso false).put F.HRV_STAT_ramp 0).raise F.HRV_ERR_ramp)) ∧
  (∀ s : State, s.boot.phase = 2 → exec .pgoodCoreRise s = .next { s with boot := { s.boot with phase := 3 }, coreUp := true }) ∧
  (∀ s : State, s.boot.phase = 2 → exec .pgoodCoreLate s = .next (s.raise F.ALR_PWREV_pgcore)) ∧
  (∀ s : State, s.boot.phase = 3 → s.flag F.CFG_BOOT_warm = false → s.diapause = false →
     exec .crystalTimeout s = .next (({ s with coreUp := false } : State).diapauseFor 4)) ∧
  (∀ (m : ImageIn) (s : State), s.boot.phase = 3 → s.flag F.CFG_BOOT_warm = false → m.failed = [] → exec (.imageLoadDone m) s = .next (
     match (((s.put F.HBM_STAT_trained 1).inc F.HBM_TRAIN_count).onBoot (fun b => { b with vddq := true })).coldSlot m with
     | (some k, t) => (t.startImage (t.slotImage k) m k).installRest
     | (none, t) => t.minimal))

/-- Above the head-load speed the heads are loaded. With heads loaded and the spindle at 3,600 rpm adoption starts from the
voted keel, or stops with its phase at 11b where there is none; its completion rebuilds the tables from the checkpoint that the
keel names and enables the map cache, with MAP_ERR.ckpt where a segment was read from the other copy; a checkpoint that neither
copy gives stops it there (the model's choice, log entry 99). With the spindle in tolerance flutter's results are applied, the
chopper test starts and a counters record is appended; after the test both namespaces are ready and the adoption record is
written. In recovery mode after keel loss a write of CFG_RCVCMD.keel starts the rebuild; it ends with a keel of a sequence one
higher, which names the best complete checkpoint, on every surface of the lanes in service, or fails for want of a checkpoint or
of two surfaces. -/
def Obligations.ReadinessSteps : Prop :=
  (∀ s : State, s.boot.phase = 4 → s.boot.headLoad < s.get F.SPN_STAT_obsrpm → s.diapause = false → s.harvesting = false → s.runs 5 = true →
     exec .headLoadRequest s = .next (
       (doAll (allLanes.filter (fun (a : Fin 4) => s.fitted a && !(s.loaded a) && !(s.moving a) && (!s.boot.loadReq || s.spn.fly.contains a.val)))
         (fun a => State.rampMove a false) s).onBoot (fun b => { b with loadReq := true }))) ∧
  (∀ (lost : List Nat) (s : State), s.boot.phase = 4 → s.boot.ready = 0 → s.get F.MAP_ADOPT_phase = 0 → s.get F.SRV_STAT_loaded ≠ 0 →
     (∀ a : Fin 4, (s.act a).ramp ≠ some false) → 3600 ≤ s.rpm → s.draining = false → s.boot.warm = 0 →
     exec (.adoptionStart lost) s = .next (match s.keelVote lost with
       | some k =>
         let t := ((s.put F.MAP_ADOPT_phase 1).setWord 0 k.hseq).onMap (fun m => { m with keel := some k })
         (if t.keelDiffers lost k then t.raise F.MAP_ERR_keel else t).onBoot (fun b => { b with ready := 1 })
       | none =>
         let t := if (s.keelCopies lost).any (fun x => x.2.isNone) then s.raise F.MAP_ERR_keel else s
         ((t.put F.MAP_ADOPT_phase 3).raiseAt F.ALR_CFGEV_e 4).put F.CFG_RCVSTAT_geo
           (if !(t.keelsSeen lost).isEmpty && (t.keelsSeen lost).all (fun x => x.2.digest != t.geo.digest) then 1 else 0))) ∧
  (∀ (segs : List (Nat × Nat)) (lost : List Nat) (s : State) (k : Keel), s.map.keel = some k → s.boot.ready = 1 → s.draining = false →
     exec (.adoptionComplete segs lost) s = .next (match s.readCkpt segs k.area k.ckseq with
       | some (c, failed) =>
         let t := if failed then s.raise F.MAP_ERR_ckpt else s
         (((((t.adopt k c lost).onMap (fun m => { m with keel := none })).put F.MAP_CTL_en 1).put F.MAP_CSTAT_state 1
           |>.put F.MAP_ADOPT_phase 2).onBoot (fun b => { b with ready := 2 })).syncDirty
       | none => if s.flag F.MAP_ERR_ckpt = false then s.raise F.MAP_ERR_ckpt else s)) ∧
  (∀ (rs : List (Fin 16 × Nat × Nat)) (s : State), s.boot.ready = 2 → s.flag F.SPN_STAT_upok = true → s.servo.flutter = none →
     s.harvesting = false → s.diapause = false → exec (.flutterStartupDone rs) s = .next (
       let t := (doAll rs State.flutterResult s).onHrv (fun h => { h with chopTest := true, chop := h.chop || !h.chopShort })
       { t.countersRecord with boot := { t.boot with ready := 3 } })) ∧
  (∀ s : State, s.boot.ready = 3 → s.hrv.chopTest = false → s.draining = false → exec .namespaceReady s = .next (
     let t := ((s.onBoot (fun b => { b with ready := 4 })).onNvme (fun v => { v with nsReady := true })).journal 8 0 (s.word 0).toNat
     let u := doAll (t.map.mans.filter (fun r => r.hseq == (t.word 0).toNat)) State.journalMan t
     (if u.map.loss.isEmpty then u else u.aen 7 2 0xC5).setReady.pump)) ∧
  (∀ (p : Path) (v : Word) (s : State), s.accepts p R.CFG_RCVCMD v = true → v.getLsbD 0 = true → s.get F.CFG_STRAP_mode = 1 →
     s.get F.MAP_ADOPT_phase = 3 → exec (.cfgRcvcmdKeel p v) s = .next ((s.put F.CFG_RCVSTAT_phase 1).put F.CFG_RCVSTAT_pct 0)) ∧
  (∀ (s : State) (c : CkCopy), s.get F.CFG_RCVSTAT_phase = 1 → s.draining = false → s.bestCkpt = some c →
     2 ≤ (s.keelSurfaces s.lanesIn).length →
     exec .keelRebuildDone s = .next (((doAll (s.keelSurfaces s.lanesIn) (State.putKeel (s.rebuiltKeel c)) s).put F.CFG_RCVSTAT_phase 2).put
       F.CFG_RCVSTAT_pct 100) ∧
     (s.rebuiltKeel c).seq = ((s.keelsSeen []).map (·.2.seq)).foldl max 0 + 1 ∧ (s.rebuiltKeel c).digest = s.geo.digest ∧
     (s.rebuiltKeel c).ckseq = c.ckpt.seq ∧ (s.rebuiltKeel c).area = c.area) ∧
  (∀ s : State, s.get F.CFG_RCVSTAT_phase = 1 → s.draining = false → (s.bestCkpt = none ∨ (s.keelSurfaces s.lanesIn).length < 2) →
     exec .keelRebuildDone s = .next (s.put F.CFG_RCVSTAT_phase 3))

/-- A go of CFG_FLCMD while no operation runs starts the read, the program or the erase of the page in CFG_FLADDR; a program or
an erase is taken outside the event ring, the counters sectors and, outside factory test mode, the calibration area. When it
ends well a read fills the page buffer, a program writes the buffer's bytes to the page, and an erase clears the sector; when it
does not, CFG_FLCMD.res reads 2 and the bytes that it was changing are unknown. In the forbidden regions a program or an erase
is ignored and counted with cause 101b. Once time is locked a counters record with the power-on time and the power-cycle count
is appended after the latest, its sector erased where it begins one. -/
def Obligations.FlashOperations : Prop :=
  (∀ (p : Path) (v : Word) (s : State), s.accepts p R.CFG_FLCMD v = true → v.getLsbD 31 = true → F.CFG_FLCMD_op.of v = 0 →
     s.flag F.CFG_FLCMD_busy = false → exec (.flashReadPage p v) s =
     .next (((s.take R.CFG_FLCMD v).put F.CFG_FLCMD_busy 1).onBoot (fun b => { b with fl := some (0, (s.take R.CFG_FLCMD v).get F.CFG_FLADDR_page) }))) ∧
  (∀ (p : Path) (v : Word) (s : State), s.accepts p R.CFG_FLCMD v = true → v.getLsbD 31 = true → F.CFG_FLCMD_op.of v = 1 →
     s.flag F.CFG_FLCMD_busy = false → s.flashBarred = false → exec (.flashProgram p v) s =
     .next (((s.take R.CFG_FLCMD v).put F.CFG_FLCMD_busy 1).onBoot (fun b => { b with fl := some (1, (s.take R.CFG_FLCMD v).get F.CFG_FLADDR_page) }))) ∧
  (∀ (p : Path) (v : Word) (s : State), s.accepts p R.CFG_FLCMD v = true → v.getLsbD 31 = true → F.CFG_FLCMD_op.of v = 2 →
     s.flag F.CFG_FLCMD_busy = false → s.flashBarred = false → exec (.flashErase p v) s =
     .next (((s.take R.CFG_FLCMD v).put F.CFG_FLCMD_busy 1).onBoot (fun b => { b with fl := some (2, (s.take R.CFG_FLCMD v).get F.CFG_FLADDR_page) }))) ∧
  (∀ (p : Path) (v : Word) (s : State), s.accepts p R.CFG_FLCMD v = true → v.getLsbD 31 = true →
     (F.CFG_FLCMD_op.of v = 1 ∨ F.CFG_FLCMD_op.of v = 2) → s.flashBarred = true →
     exec (.flashProgram p v) s = .next (s.ignoreRule p R.CFG_FLCMD) ∧ exec (.flashErase p v) s = .next (s.ignoreRule p R.CFG_FLCMD)) ∧
  (∀ (op page : Nat) (s : State), s.boot.fl = some (op, page) → op ≤ 2 →
     let t := ((s.put F.CFG_FLCMD_busy 0).put F.CFG_FLCMD_res 0).onBoot (fun b => { b with fl := none })
     exec (.flashOpDone true) s = .next (
       if op = 0 then
         doAll (List.range 64) (fun i s => s.setReg (R.CFG_FLBUF i) (BitVec.ofNat 32 (ofLe (s.flashBytes (256 * page + 4 * i) 4)))) t
       else if op = 1 then t.program (256 * page) t.flbuf else t.eraseFlash (page / 256 * 65536) 65536) ∧
     exec (.flashOpDone false) s =
       .next ((((s.put F.CFG_FLCMD_busy 0).put F.CFG_FLCMD_res 2).onBoot (fun b => { b with fl := none })).spoilOp op page)) ∧
  (∀ s : State, s.boot.phase = 4 → s.flag F.EVT_CTL_tlock = true →
     exec .countersRecord s = .next (s.addCounter s.potMs (s.get F.EVT_PCYC_count))) ∧
  (∀ (pot pcyc : Nat) (s : State), let i := ((s.lastCounter).map (fun r => (r.1 + 1) % 8192)).getD 0
     let body := leBytes 8 pot ++ leBytes 4 pcyc
     s.addCounter pot pcyc = (if i % 4096 = 0 then s.eraseFlash (0x3C00000 + 16 * i) 0x10000 else s).program (0x3C00000 + 16 * i)
       (body ++ leBytes 4 (Config.crc32c body).toNat))

/-- A PWR_CMD go that arrives while an entry or emergence is in progress is ignored and counted with cause 101b. The one
exception is a wake-only command during an entry, which sets PWR_PSTAT.wakepend, and whose domains then wait for the entry's
end. Entry is the phase 1 or 2 of PWR_PSTAT, emergence the phase 4. -/
def Obligations.PowerCommandDuringEntryIsIgnored : Prop :=
  ∀ (p : Path) (v : Word) (s : State), s.accepts p R.PWR_CMD v = true → v.getLsbD 31 = true →
    let wake := s.domains (F.PWR_CMD_wake.of v); let stop := s.domains (F.PWR_CMD_stop.of v)
    (s.get F.PWR_PSTAT_phase = 4 ∨ (s.get F.PWR_PSTAT_phase = 1 ∨ s.get F.PWR_PSTAT_phase = 2) ∧ ¬(stop = [] ∧ wake ≠ []) →
      exec (.pwrCmdGo p v) s = .next (s.ignore p 1 R.PWR_CMD 5 false)) ∧
    ((s.get F.PWR_PSTAT_phase = 1 ∨ s.get F.PWR_PSTAT_phase = 2) ∧ stop = [] ∧ wake ≠ [] →
      ∃ t, exec (.pwrCmdGo p v) s = .next t ∧ t.get F.PWR_PSTAT_wakepend = 1 ∧ (∀ d ∈ wake, d ∈ t.pwr.wake) ∧
        (∀ a, a ≠ R.PWR_PSTAT → t.reg a = s.reg a))

/-- A power command while neither runs begins with the domains that it wakes and stops. The domain that is asked cocoons when it
agrees, and rolls the entry back when it refuses, or when it has delayed too long, with reason 1. After the backoff the entry
runs again, or the wake that waits runs. An emergence step that ends goes on to the domain's next wait, and after the last one
the domain has emerged; a step that times out starts the domain again once, and then the domain has failed. -/
def Obligations.PowerHandshake : Prop :=
  (∀ (p : Path) (v : Word) (s : State), s.accepts p R.PWR_CMD v = true → v.getLsbD 31 = true →
     s.pwrBad (s.domains (F.PWR_CMD_wake.of v)) (s.domains (F.PWR_CMD_stop.of v)) = false →
     s.get F.PWR_PSTAT_phase ≠ 1 → s.get F.PWR_PSTAT_phase ≠ 2 →
     exec (.pwrCmdGo p v) s = .next (s.pwrGo (s.domains (F.PWR_CMD_wake.of v)) (s.domains (F.PWR_CMD_stop.of v)))) ∧
  (∀ (s : State) (d : Nat) (ds : List Nat), s.get F.PWR_PSTAT_phase = 1 → s.pwr.ask = d :: ds →
     (s.refusal d = none → s.agrees d = true → exec .cocoonAgree s = .next s.cocoonHead) ∧
     (∀ r, s.refusal d = some r → exec .cocoonAgree s = .next (s.rollback d r))) ∧
  (∀ (s : State) (d : Nat) (ds : List Nat), s.get F.PWR_PSTAT_phase = 1 → s.pwr.ask = d :: ds → s.refusal d = none →
     s.agrees d = false → exec .cocoonDelayTimeout s = .next (s.rollback d 1)) ∧
  (∀ s : State, s.get F.PWR_PSTAT_phase = 3 →
     exec .entryRetry s = .next (if s.flag F.PWR_PSTAT_wakepend then s.wakeNow else s.startEntry)) ∧
  (∀ (s : State) (d : Nat) (ds : List Nat), s.get F.PWR_PSTAT_phase = 4 → s.pwr.emerg = d :: ds →
     (∀ k, (s.waits d).find? (fun k => decide (s.pwr.step < k)) = some k →
       exec .emergenceStepDone s = .next (s.onPwr (fun p => { p with step := k }))) ∧
     ((s.waits d).find? (fun k => decide (s.pwr.step < k)) = none → exec .emergenceStepDone s =
       .next (if isLane d then (s.emerged d).autoLane (Fin.ofNat 4 d) else s.emerged d))) ∧
  (∀ (s : State) (d : Nat) (ds : List Nat), s.get F.PWR_PSTAT_phase = 4 → s.pwr.emerg = d :: ds →
     exec .emergenceStepTimeout s = .next (if s.pwr.again then s.domFailed d else s.onPwr (fun p => { p with step := 1, again := true })))

/-- A write of PWR_PADREL that names running domains releases their pads. A lane out of the cocoon in PS2 with nothing to do,
and the HBM in PS4 with MOTION cocooned, go back into the cocoon. The Gorlo idle for the time of its present state's entry goes
to the entry's state. A core power-good that falls outside a harvest is a cold reset; within one it makes every lane
write-unsafe, and the harvest goes on when it returns in time, or is done at once when it does not. The other power-good inputs
fail the running lanes, or open the switch of VDDQ_HBM and end in diapause with cause 03h. -/
def Obligations.PadsAndIdleDomains : Prop :=
  (∀ (p : Path) (v : Word) (s : State), s.accepts p R.PWR_PADREL v = true →
     (∀ d ∈ (s.domains v.toNat).filter (fun d => isLane d || d == 5), s.dom d = 0) →
     exec (.pwrPadrel p v) s = .next (doAll ((s.domains v.toNat).filter (fun d => isLane d || d == 5)) State.releasePads s)) ∧
  (∀ (n : Fin 4) (s : State), s.get F.PWR_PSTAT_phase = 0 → s.pwr.to_ = none → s.runs n = true → s.boot.phase = 4 → s.draining = false →
     s.nvme.feats.ps = 2 → s.fitted n = true → (s.lane n).queue = [] → (s.lane n).cur = none → s.buf.work[n] = [] →
     exec (.domainIdleCocoon (Fin.castLE (by decide) n)) s =
       .next ((if s.executing n then s.put (F.MCS_STAT_stopreq n) 1 else s).pwrGo [] [n.val])) ∧
  (∀ s : State, s.get F.PWR_PSTAT_phase = 0 → s.pwr.to_ = none → s.runs 6 = true → s.boot.phase = 4 → s.draining = false →
     s.nvme.feats.ps = 4 → s.dom 5 ≠ 0 → exec (.domainIdleCocoon 6) s = .next (s.pwrGo [] [6])) ∧
  (∀ (s : State) (ms to_ : Nat), s.nvme.feats.apst[s.nvme.feats.ps]? = some (ms, to_) → s.nvme.feats.apste = true → ms ≠ 0 →
     s.bound = false → s.outstanding = false → s.draining = false → s.hostDown = false → s.boot.phase = 4 → s.nvme.feats.ps < to_ →
     exec .apstTransition s = .next ((s.put F.PWR_IDLE_ms (max ms (s.get F.PWR_IDLE_ms))).enterPs to_)) ∧
  (∀ s : State, 3 ≤ s.boot.phase → s.boot.phase ≠ 6 → s.hrvState ≠ 7 → exec .pgoodCoreLow s = .next (
     if s.harvesting then
       (doAll (allLanes.filter (fun (n : Fin 4) => s.fitted n)) (fun n => State.writeUnsafe n none) s).onHrv (fun h => { h with coreLow := true })
     else s.coldReset (s.get F.CFG_STRAP_mode))) ∧
  (∀ s : State, s.hrv.coreLow = true → exec .pgoodCoreReturn s = .next (
     let t := s.onHrv (fun h => { h with coreLow := false })
     if t.hstep = 3 ∨ t.hstep = 4 then (t.dropCoast.onHrv (fun h => { h with dealt := [] })).coastGo else t)) ∧
  (∀ s : State, s.hrv.coreLow = true → exec .pgoodCoreTimeout s = .next (
     (doAll (((s.setIso false).put F.HRV_STAT_state 7).lanesFitted ++ [5]) State.holdPads ((s.setIso false).put F.HRV_STAT_state 7)).onHrv
       (fun h => { h with coreLow := false, dealt := [], copies := [], keel := false }))) ∧
  (∀ s : State, s.lanesFitted.filter (fun n => s.runs n) ≠ [] → 4 ≤ s.boot.phase → exec .pgoodALow s = .next (
     doAll (s.lanesFitted.filter (fun n => s.runs n)) State.domFailed
       (doAll (allLanes.filter (fun (n : Fin 4) => s.fitted n)) (fun n => State.writeUnsafe n none) s))) ∧
  (∀ s : State, 4 ≤ s.boot.phase → s.boot.phase ≠ 6 →
     exec .pgoodBLow s = .next ((s.onBoot (fun b => { b with vddq := false })).diapauseFor 3))

/-- While BUF fetches, the queue exists and a context is free, each I/O command (Flush, Write, Read, Zone Append, Plane Read,
Zone Code Rate, the Zone Management Send actions and Receive reports) takes a context that holds it with its queue and its
opcode and action. There it waits for its grant, or has the record of the check that it fails. The command then goes on at once
through grant, landing, seal and completion as far as the rules let it. A command fetched by itself stops after its context is
taken. -/
def Obligations.IoCommandsAreTaken : Prop :=
  (∀ (q : Fin 65) (e : Sqe) (s : State), q.val ≠ 0 → s.fetches q = true →
     exec (.flush q e) s = .next (s.ioTaken q ({ e with op := 0 })) ∧ s.holdsCommand q ({ e with op := 0 })) ∧
  (∀ (q : Fin 65) (e : Sqe) (s : State), q.val ≠ 0 → s.fetches q = true →
     exec (.write q e) s = .next (s.ioTaken q ({ e with op := 1 })) ∧ s.holdsCommand q ({ e with op := 1 })) ∧
  (∀ (q : Fin 65) (e : Sqe) (s : State), q.val ≠ 0 → s.fetches q = true →
     exec (.read q e) s = .next (s.ioTaken q ({ e with op := 2 })) ∧ s.holdsCommand q ({ e with op := 2 })) ∧
  (∀ (q : Fin 65) (e : Sqe) (s : State), q.val ≠ 0 → s.fetches q = true →
     exec (.zoneAppend q e) s = .next (s.ioTaken q ({ e with op := 0x7D })) ∧ s.holdsCommand q ({ e with op := 0x7D })) ∧
  (∀ (q : Fin 65) (e : Sqe) (s : State), q.val ≠ 0 → s.fetches q = true →
     exec (.planeRead q e) s = .next (s.ioTaken q ({ e with op := 0x85 })) ∧ s.holdsCommand q ({ e with op := 0x85 })) ∧
  (∀ (q : Fin 65) (e : Sqe) (s : State), q.val ≠ 0 → s.fetches q = true →
     exec (.zoneCodeRate q e) s = .next (s.ioTaken q ({ e with op := 0x86 })) ∧ s.holdsCommand q ({ e with op := 0x86 })) ∧
  (∀ (q : Fin 65) (e : Sqe) (s : State), q.val ≠ 0 → s.fetches q = true →
     exec (.zoneClose q e) s = .next (s.ioTaken q (withAction e 1)) ∧ s.holdsCommand q (withAction e 1)) ∧
  (∀ (q : Fin 65) (e : Sqe) (s : State), q.val ≠ 0 → s.fetches q = true →
     exec (.zoneFinish q e) s = .next (s.ioTaken q (withAction e 2)) ∧ s.holdsCommand q (withAction e 2)) ∧
  (∀ (q : Fin 65) (e : Sqe) (s : State), q.val ≠ 0 → s.fetches q = true →
     exec (.zoneOpen q e) s = .next (s.ioTaken q (withAction e 3)) ∧ s.holdsCommand q (withAction e 3)) ∧
  (∀ (q : Fin 65) (e : Sqe) (s : State), q.val ≠ 0 → s.fetches q = true →
     exec (.zoneReset q e) s = .next (s.ioTaken q (withAction e 4)) ∧ s.holdsCommand q (withAction e 4)) ∧
  (∀ (q : Fin 65) (e : Sqe) (s : State), q.val ≠ 0 → s.fetches q = true →
     exec (.offlineZone q e) s = .next (s.ioTaken q (withAction e 5)) ∧ s.holdsCommand q (withAction e 5)) ∧
  (∀ (q : Fin 65) (e : Sqe) (s : State), q.val ≠ 0 → s.fetches q = true →
     exec (.setZoneDescriptorExtension q e) s = .next (s.ioTaken q (withAction e 0x10)) ∧ s.holdsCommand q (withAction e 0x10)) ∧
  (∀ (q : Fin 65) (e : Sqe) (s : State), q.val ≠ 0 → s.fetches q = true →
     exec (.reportZones q e) s = .next (s.ioTaken q (withReport e 0)) ∧ s.holdsCommand q (withReport e 0)) ∧
  (∀ (q : Fin 65) (e : Sqe) (s : State), q.val ≠ 0 → s.fetches q = true →
     exec (.extendedReportZones q e) s = .next (s.ioTaken q (withReport e 1)) ∧ s.holdsCommand q (withReport e 1)) ∧
  (∀ (q : Fin 65) (e : Sqe) (s : State), q.val ≠ 0 → s.fetches q = true →
     exec (.commandFetch q e) s = .next (s.fetch1 q e) ∧ s.holdsCommand q e)

/-- Each event of the write and read paths answers a next state, which the clause names. While BUF fetches and no power state
holds it, a command that waits alone and is held by no reset gets its grant if its credits are free, a granted write then
holding one landing block for each of its blocks, and if they are not free neither it nor a later one of its kind gets one;
while BUF does not fetch, none is granted. Data lands in a granted write up to its length, at most 64 KiB at a time, and the
write takes its place in the order of sealing; a context that is absent or has all its data takes nothing. With admission open,
writes that have all their data are tried in that order, one that may not be admitted changes nothing, and one of NSID 2 that
may be is admitted. A read with all its tiles is sealed: with its data, or with the status of the tile that failed first. When
the host has consumed entries, a staged record is posted if its queue has room, and waits if not. A record that has waited over
1 ms sets BUF_ERR.cqlong, and otherwise nothing does. A granted Reset of one zone waits while an earlier read of the zone is
outstanding, and otherwise resets the zone and is sealed. A partial tile whose waiting blocks have not changed for BUF_PTILE.ms
is queued and counted, unless BUF_PTILE.ms is 0. A write of BUF_CTL that breaks no rule of R402 takes its value, and one that
would lock pools that break one is ignored. One of BUF_ABORT shows 3 for a command not found, 2 for a Flush or one that is
sealed, and 1 for one that it aborts. -/
def Obligations.BufferSteps : Prop :=
  (∀ s : State, exec .grant s = .next s.grantAll.reclass ∧ (s.fetchOpen = false → s.grantAll = s) ∧
     (s.fetchOpen = true → s.powerHolds = false →
       (∀ c, s.buf.ctxs.filter (fun c => c.stage == 0) = [c] → s.heldByReset c = false →
         s.grantAll = (if s.canGrant c then s.grantCtx c else s).syncBuf) ∧
       (∀ c d, s.buf.ctxs.filter (fun c => c.stage == 0) = [c, d] → s.heldByReset c = false → s.canGrant c = false →
         d.sqe.kind = c.sqe.kind → s.grantAll = s.syncBuf)) ∧
     (∀ c, c.sqe.kind = 0 → (s.grantCtx c).buf.blks.length = s.buf.blks.length + c.sqe.nlb ∧
       (∀ w ∈ (s.grantCtx c).buf.blks.drop s.buf.blks.length, w.st = .landing ∧ w.ctx = c.id) ∧
       (s.grantCtx c).buf.ctxs = s.buf.ctxs.map (fun x => if x.id = c.id then { x with stage := 1 } else x))) ∧
  (∀ (id n : Nat) (s : State), exec (.hostDataTlp id n) s = .next (s.land id (min n 65536)).syncBuf ∧
     (s.ctx? id = none → ∀ k, s.land id k = s) ∧ (∀ c, s.ctx? id = some c → c.landedAll = true → ∀ k, s.land id k = s) ∧
     (∀ c, s.ctx? id = some c → c.stage = 1 → c.sqe.isWrite = true → c.landedAll = false → ∀ k,
       s.land id k = (s.onBuf (fun b => { b with seals := b.seals + 1 })).onCtx id
         (fun c => { c with landed := min (c.sqe.nlb * 4096) (c.landed + k), ord := s.buf.seals + 1 }))) ∧
  (∀ s : State, exec .sealWrites s = .next s.sealAll.postAll.dispatch.syncBuf ∧ (s.buf.closed = true → s.sealAll = s) ∧
     (s.buf.closed = false → s.draining = false →
       let others (u : State) : State := doAll (u.buf.ctxs.filter (fun c => c.sqe.kind == 2)) State.sealOther u
       (∀ c, s.buf.ctxs.filter Ctx.landedAll = [c] → s.sealAll = others (s.sealWrite c)) ∧
       (∀ c d, s.buf.ctxs.filter Ctx.landedAll = [c, d] ∨ s.buf.ctxs.filter Ctx.landedAll = [d, c] → c.ord < d.ord →
         s.sealAll = others ((s.sealWrite c).sealWrite d))) ∧
     (∀ c, s.admission c = none → s.sealWrite c = s) ∧
     (∀ c st, c.sqe.nsid = 2 → s.admission c = some st → (List.range c.sqe.nlb).any (fun i => s.noSpare (c.sqe.slba + i)) = false →
       s.sealWrite c = s.admitWrite c st c.sqe.slba CplRec.ok)) ∧
  (∀ s : State, exec .readSeal s = .next s.sealReads.syncBuf ∧
     (∀ c, s.buf.ctxs = [c] → s.sealReads = s.sealRead c) ∧
     (∀ c, c.stage = 1 → c.sqe.isRead = true → c.tiles.all RTile.final = true →
       let u := s.inc F.BUF_SEALCNT_count
       (c.tiles.filter (fun t => t.st == 3) = [] → s.sealRead c = u.stageRecord c.id (CplRec.good 0 (u.readData c))) ∧
       (∀ t ts, c.tiles.filter (fun t => t.st == 3) = t :: ts → (∀ x ∈ ts, t.at_ ≤ x.at_) →
         s.sealRead c = (u.logError c.sq c.sqe.cid.toNat (codeStatus t.code) (max t.lba c.sqe.slba) c.sqe.nsid.toNat (t.code % 256)).stageRecord c.id
           { codeStatus t.code with data := (u.logError c.sq c.sqe.cid.toNat (codeStatus t.code) (max t.lba c.sqe.slba) c.sqe.nsid.toNat (t.code % 256)).readData c })) ∧
     (∀ c, c.tiles.all RTile.final = false → s.sealRead c = s)) ∧
  (∀ (cq : Fin 65) (n : Nat) (s : State), let u := s.consume cq n
     exec (.completionStage cq n) s = .next (u.postAll.pump) ∧
     (∀ c, u.buf.ctxs = [c] → c.stage = 3 →
       (u.cqRoom (u.cqOf c.sq) = true → u.postAll = (u.postCtx c).endDeletes.syncBuf) ∧
       (u.cqRoom (u.cqOf c.sq) = false → u.postAll = u.endDeletes.syncBuf))) ∧
  (∀ s : State, ((∃ c ∈ s.buf.ctxs, c.stage = 3 ∧ 1000 < s.us - c.since) → exec .cqWaitLong s = .next (s.raise F.BUF_ERR_cqlong)) ∧
     ((∀ c ∈ s.buf.ctxs, c.stage = 3 → s.us - c.since ≤ 1000) → exec .cqWaitLong s = .next s)) ∧
  (∀ s : State, exec .zoneResetSeal s = .next s.pump ∧
     (s.buf.closed = false → s.draining = false → s.buf.ctxs.filter Ctx.landedAll = [] →
       ∀ c, s.buf.ctxs.filter (fun c => c.sqe.kind == 2) = [c] → s.sealAll = s.sealOther c) ∧
     (∀ c, c.stage = 1 → c.sqe.op = 0x79 → c.sqe.dw13.toNat % 256 = 4 → c.sqe.dw13.getLsbD 8 = false →
       let busy := s.buf.ctxs.any (fun r => r.sqe.isRead && r.sqe.nsid == 1 && decide (1 ≤ r.stage) && r.sqe.zones.any c.resets)
       (busy = true → s.sealOther c = s) ∧
       (busy = false → (actionFrom 4).contains (s.zone c.sqe.zone).st = true →
         s.sealOther c = ((s.resetZone c.sqe.zone).inc F.BUF_SEALCNT_count).stageRecord c.id CplRec.ok))) ∧
  (∀ (t : Nat) (s : State), (s.get F.BUF_PTILE_ms = 0 → exec (.partialTileTimeout t) s = .next s) ∧
     (let mine := s.buf.blks.filter (fun w => w.ns == 1 && w.lba / 4 * 4 == t / 4 * 4 && w.waits)
     s.get F.BUF_PTILE_ms ≠ 0 → s.harvesting = false → mine ≠ [] → (∀ w ∈ mine, s.get F.BUF_PTILE_ms * 1000 ≤ s.us - w.born) →
     exec (.partialTileTimeout t) s = .next (doAll allLanes State.feed ((s.queueWrite (t / 4 * 4)).inc F.BUF_PTCNT_count)))) ∧
  (∀ (p : Path) (v : Word) (s : State), s.accepts p R.BUF_CTL v = true →
     (v.getLsbD 31 = true → s.poolsBad = true → exec (.bufCtlLock p v) s = .next (s.ignoreRule p R.BUF_CTL)) ∧
     (s.poolsBad = false → exec (.bufCtlLock p v) s = .next (
     let t := s.take R.BUF_CTL v
     (if t.flag F.BUF_CTL_lock then t.put F.TMR_LSCTL_test 0 else t).syncBuf))) ∧
  (∀ (p : Path) (v : Word) (s : State), s.accepts p R.BUF_ABORT v = true → v.getLsbD 31 = true → (
     let t := s.take R.BUF_ABORT v
     let r := t.abortIo (t.get F.BUF_ABORT_sqid) (t.get F.BUF_ABORT_cid)
     exec (.bufAbortWrite p v) s = .next (r.2.put F.BUF_ABORT_result r.1) ∧
     match t.buf.ctxs.find? (fun c => c.sq == t.get F.BUF_ABORT_sqid && c.sqe.cid.toNat == t.get F.BUF_ABORT_cid) with
     | none => r = (3, t)
     | some c => if 2 ≤ c.stage ∨ c.sqe.op = 0 then r = (2, t) else r = (1, (((t.failWrite c (CplRec.bad 0 7)).inc F.BUF_ABORTCNT_count).withdraw.postAll).pump.reclass)))

/-- A served Create I/O Completion Queue or Submission Queue with a free identifier, a size that the controller supports, a
vector or an existing completion queue, and PC set adds the queue and completes. Delete of a submission queue ends the commands
that are not sealed, and completes as the rest drain; Delete of a completion queue that no submission queue uses removes it.
Abort of an I/O command reports whether it was ended; Abort of an Establish Contract in progress ends it. An Asynchronous Event
Request within the limit of four waits for an event. -/
def Obligations.QueueCommands : Prop :=
  (∀ (e : Sqe) (s : State), s.serves = true → let id := e.dw10.toNat % 65536; let size := e.dw10.toNat / 65536
     1 ≤ id → id ≤ 64 → s.nvme.cqs.any (fun q => q.id == id) = false → 1 ≤ size → size ≤ mqes → e.dw11.toNat / 65536 ≤ 64 →
     e.dw11.getLsbD 0 = true → exec (.createIoCompletionQueue e) s = .next ((s.adminTaken.onNvme (fun v => { v with
       cqs := v.cqs ++ [{ id := id, size := size + 1, vector := e.dw11.toNat / 65536, used := 0 }] })).adminDone e.cid CplRec.ok)) ∧
  (∀ (e : Sqe) (s : State), s.serves = true → let id := e.dw10.toNat % 65536; let size := e.dw10.toNat / 65536; let cq := e.dw11.toNat / 65536
     1 ≤ cq → cq ≤ 64 → 1 ≤ id → id ≤ 64 → s.nvme.sqs.any (fun q => q.id == id) = false → s.nvme.cqs.any (fun q => q.id == cq) = true →
     1 ≤ size → size ≤ mqes → e.dw11.getLsbD 0 = true → exec (.createIoSubmissionQueue e) s = .next ((s.adminTaken.onNvme (fun v => { v with
       sqs := v.sqs ++ [{ id := id, size := size + 1, cq := cq }] })).adminDone e.cid CplRec.ok)) ∧
  (∀ (e : Sqe) (s : State), s.serves = true → s.nvme.sqs.any (fun q => q.id == e.dw10.toNat % 65536) = true →
     s.nvme.deletes.any (fun d => d.1 == e.dw10.toNat % 65536) = false → exec (.deleteIoSubmissionQueue e) s = .next (
     let t := s.adminTaken.onNvme (fun v => { v with deletes := v.deletes ++ [(e.dw10.toNat % 65536, e.cid.toNat)] })
     ((doAll (t.buf.ctxs.filter (fun c => c.sq == e.dw10.toNat % 65536 && decide (c.stage ≤ 1)))
       (fun c s => s.failWrite c (CplRec.bad 0 8)) t).withdraw.postAll).pump.reclass)) ∧
  (∀ (e : Sqe) (s : State), s.serves = true → s.nvme.cqs.any (fun q => q.id == e.dw10.toNat % 65536) = true →
     s.nvme.sqs.any (fun q => q.cq == e.dw10.toNat % 65536) = false → exec (.deleteIoCompletionQueue e) s =
     .next ((s.adminTaken.onNvme (fun v => { v with cqs := v.cqs.filter (fun q => q.id != e.dw10.toNat % 65536) })).adminDone e.cid CplRec.ok)) ∧
  (∀ (e : Sqe) (s : State), s.serves = true → e.dw10.toNat % 65536 ≠ 0 → exec (.abort e) s = .next (
     let t := (s.adminTaken.put F.BUF_ABORT_sqid (e.dw10.toNat % 65536)).put F.BUF_ABORT_cid (e.dw10.toNat / 65536)
     let r := t.abortIo (e.dw10.toNat % 65536) (e.dw10.toNat / 65536)
     (r.2.put F.BUF_ABORT_result r.1).adminDone e.cid (CplRec.good (if r.1 = 1 then 0 else 1) []))) ∧
  (∀ (e : Sqe) (s : State), s.serves = true → e.dw10.toNat % 65536 = 0 → exec (.abort e) s = .next (
     if s.ctr.est.any (fun x => x.cid == e.dw10.toNat / 65536) then (s.adminTaken.dropEst 0 (CplRec.bad 0 7)).adminDone e.cid CplRec.ok
     else s.adminTaken.adminDone e.cid (CplRec.good 1 []))) ∧
  (∀ (e : Sqe) (s : State), s.serves = true → s.nvme.aers.length < 4 → exec (.asynchronousEventRequest e) s =
     .next (s.adminTaken.onNvme (fun v => { v with aers := v.aers ++ [e.cid.toNat] })).sendAen) ∧
  (∀ (q : Fin 65) (e : Sqe) (s : State), (q.val = 0 → s.serves = true → (Instr.unsupportedOpcode q e).wf = true →
       exec (.unsupportedOpcode q e) s = .next (s.adminTaken.adminDone e.cid (CplRec.bad 0 1))) ∧
     (q.val ≠ 0 → s.fetches q = true → s.ioOpcode e.op = false →
       exec (.unsupportedOpcode q e) s = .next (s.ioTaken q e)))

/-- A served Set Features without the Save bit, with a value that its feature permits, completes with the value where the
feature acts: the burst of Arbitration, the power state entered, a temperature threshold and its register of ALR, the numbers of
queues, coalescing and the vectors that do not coalesce, the events reported, the table of autonomous transitions, the acoustic
ceiling. Magazine Energy fails with Feature Not Changeable. -/
def Obligations.FeatureCommands : Prop :=
  (∀ (e : Sqe) (s : State), s.serves = true → e.dw10.getLsbD 31 = false → e.dw10.toNat % 256 = 1 → exec (.setArbitration e) s =
     .next ((s.adminTaken.onFeats (fun f => { f with burst := e.dw11.toNat % 8 })).adminDone e.cid CplRec.ok)) ∧
  (∀ (e : Sqe) (s : State), s.serves = true → e.dw10.getLsbD 31 = false → e.dw10.toNat % 256 = 2 → e.dw11.toNat % 32 ≤ 4 →
     s.adminTaken.psBarred (e.dw11.toNat % 32) = false → exec (.setPowerManagement e) s =
     .next ((s.adminTaken.enterPs (e.dw11.toNat % 32)).adminDone e.cid CplRec.ok)) ∧
  (∀ (e : Sqe) (s : State), s.serves = true → e.dw10.getLsbD 31 = false → e.dw10.toNat % 256 = 4 →
     (natBits e.dw11.toNat 16 4 = 0 ∨ natBits e.dw11.toNat 16 4 = 15) → natBits e.dw11.toNat 20 2 ≤ 1 → let k := e.dw11.toNat % 65536
     exec (.setTemperatureThreshold e) s = .next ((if natBits e.dw11.toNat 20 2 = 0
       then (s.adminTaken.onFeats (fun f => { f with tOver := k })).put F.ALR_TTH_over (celsius k)
       else ((s.adminTaken.onFeats (fun f => { f with tUnder := k })).put F.ALR_TTH_under (celsius k)).put F.ALR_TTH_underen
         (if k = 0 then 0 else 1)).adminDone e.cid CplRec.ok)) ∧
  (∀ (e : Sqe) (s : State), s.serves = true → e.dw10.getLsbD 31 = false → e.dw10.toNat % 256 = 7 → e.dw11.toNat % 65536 ≠ 65535 →
     e.dw11.toNat / 65536 ≠ 65535 → s.nvme.sqs = [] → s.nvme.cqs = [] →
     let sq := min 63 (e.dw11.toNat % 65536); let cq := min 63 (e.dw11.toNat / 65536); exec (.setNumberOfQueues e) s =
     .next ((s.adminTaken.onFeats (fun f => { f with nsq := sq, ncq := cq })).adminDone e.cid (CplRec.good (sq + 65536 * cq) []))) ∧
  (∀ (e : Sqe) (s : State), s.serves = true → e.dw10.getLsbD 31 = false → e.dw10.toNat % 256 = 8 → exec (.setInterruptCoalescing e) s =
     .next ((s.adminTaken.onFeats (fun f => { f with coalThr := e.dw11.toNat % 256, coalTime := e.dw11.toNat / 256 % 256 })).adminDone
       e.cid CplRec.ok)) ∧
  (∀ (e : Sqe) (s : State), s.serves = true → e.dw10.getLsbD 31 = false → e.dw10.toNat % 256 = 9 → e.dw11.toNat % 65536 ≤ 64 →
     exec (.setInterruptVectorConfiguration e) s = .next ((s.adminTaken.onFeats (fun f => { f with
       noCoal := (f.noCoal.filter (fun x => x != e.dw11.toNat % 65536)) ++ (if e.dw11.getLsbD 16 then [e.dw11.toNat % 65536] else [])
       })).adminDone e.cid CplRec.ok)) ∧
  (∀ (e : Sqe) (s : State), s.serves = true → e.dw10.getLsbD 31 = false → e.dw10.toNat % 256 = 0x0B → exec (.setAsyncEventConfiguration e) s =
     .next ((s.adminTaken.onFeats (fun f => { f with aec := e.dw11.toNat })).adminDone e.cid CplRec.ok)) ∧
  (∀ (e : Sqe) (s : State), s.serves = true → e.dw10.getLsbD 31 = false → e.dw10.toNat % 256 = 0x0C → apstBad (apstTable e.data) = false →
     exec (.setApst e) s = .next ((s.adminTaken.onFeats (fun f => { f with apste := e.dw11.getLsbD 0, apst := apstTable e.data })).adminDone
       e.cid CplRec.ok)) ∧
  (∀ (e : Sqe) (s : State), s.serves = true → e.dw10.getLsbD 31 = false → e.dw10.toNat % 256 = 0xC2 → e.dw11.toNat = 7 → s.adminTaken.bound = false →
     exec (.setAcousticCeiling e) s = .next ((s.adminTaken.setAcou 7).adminDone e.cid CplRec.ok)) ∧
  (∀ (e : Sqe) (s : State), s.serves = true → e.dw10.getLsbD 31 = false → e.dw10.toNat % 256 = 0xC2 →
     e.dw11.toNat < min 7 (s.adminTaken.getA F.SPN_CRVHDR_npts) → (s.adminTaken.bound = true → s.adminTaken.neededPoint ≤ e.dw11.toNat) →
     exec (.setAcousticCeiling e) s = .next ((s.adminTaken.setAcou e.dw11.toNat).adminDone e.cid CplRec.ok)) ∧
  (∀ (e : Sqe) (s : State), s.serves = true → e.dw10.getLsbD 31 = false → e.dw10.toNat % 256 = 0xC3 →
     exec (.setMagazineEnergy e) s = .next (s.adminTaken.adminDone e.cid (CplRec.bad 1 0x0E))) ∧
  (∀ (e : Sqe) (s : State) (dw0 : Nat) (d : List Byte), s.serves = true → natBits e.dw10.toNat 8 3 = 0 →
     s.adminTaken.featValue s.nvme.feats s.adminTaken.acou e = some (dw0, d) →
     exec (.getFeatures e) s = .next (s.adminTaken.adminDone e.cid (CplRec.good dw0 d))) ∧
  (∀ (e : Sqe) (s : State) (dw0 : Nat) (d : List Byte), s.serves = true → e.dw10.toNat % 256 = 0xC3 → natBits e.dw10.toNat 8 3 = 0 →
     s.adminTaken.featValue s.nvme.feats s.adminTaken.acou e = some (dw0, d) →
     exec (.getMagazineEnergy e) s = .next (s.adminTaken.adminDone e.cid (CplRec.good dw0 d)))

/-- Set Features with the Save bit set fails with Feature Identifier Not Saveable and has no effect, whatever the feature. Get
Features with SEL 010b returns the default value, and with SEL 011b it reports every supported feature as changeable and not
saveable. -/
def Obligations.SaveAndSelectOfFeatures : Prop :=
  (∀ (e : Sqe) (s : State), s.serves = true → e.dw10.getLsbD 31 = true →
     ∀ c ∈ [Instr.setArbitration e, .setPowerManagement e, .setTemperatureThreshold e, .setNumberOfQueues e, .setInterruptCoalescing e,
       .setInterruptVectorConfiguration e, .setAsyncEventConfiguration e, .setApst e, .setAcousticCeiling e, .setMagazineEnergy e],
       exec c s = .next (s.adminTaken.adminDone e.cid (CplRec.bad 1 0x0D))) ∧
  (∀ (e : Sqe) (s : State) (dw0 : Nat) (d : List Byte), s.serves = true → s.adminTaken.featValue Feats.default 7 e = some (dw0, d) →
     (natBits e.dw10.toNat 8 3 = 2 → exec (.getFeatures e) s = .next (s.adminTaken.adminDone e.cid (CplRec.good dw0 d))) ∧
     (natBits e.dw10.toNat 8 3 = 3 → exec (.getFeatures e) s = .next (s.adminTaken.adminDone e.cid (CplRec.good 4 []))))

/-- A served Identify returns the structure that the entry names, or the status that says why not. A served Get Log Page of a
page of the Gorlo, at an offset of its alignment within the page, returns the page's bytes from there on, as many as were asked
for, and without RAE enables the page's asynchronous events again. -/
def Obligations.IdentifyAndLogPages : Prop :=
  (∀ (e : Sqe) (s : State) (d : List Byte), s.serves = true → s.adminTaken.identify e = .ok d →
     exec (.identify e) s = .next (s.adminTaken.adminDone e.cid (CplRec.good 0 d))) ∧
  (∀ (e : Sqe) (s : State), s.serves = true → s.logReads 1 4 (fun s => bytesAt (s.nvme.errs.flatMap ErrEnt.bytes) 0 4096) e = true →
     exec (.errorInformationLog e) s = .next (s.logRead 1 (fun s => bytesAt (s.nvme.errs.flatMap ErrEnt.bytes) 0 4096) e)) ∧
  (∀ (e : Sqe) (s : State), s.serves = true → (e.nsid = 0 ∨ e.nsid = 0xFFFFFFFF) → s.logReads 2 4 (State.smart) e = true →
     exec (.smartHealthLog e) s = .next (s.logRead 2 (State.smart) e)) ∧
  (∀ (e : Sqe) (s : State), s.serves = true → s.logReads 3 4 (State.fwSlots) e = true →
     exec (.firmwareSlotLog e) s = .next (s.logRead 3 (State.fwSlots) e)) ∧
  (∀ (e : Sqe) (s : State), s.serves = true → s.logReads 5 4 (fun s => page 4096 (adminEffects.map (fun x => (4 * x.1, leBytes 4 x.2)) ++
       s.ioEffects.map (fun x => (1024 + 4 * x.1, leBytes 4 x.2)))) e = true →
     exec (.commandsSupportedLog e) s = .next (s.logRead 5 (fun s => page 4096 (adminEffects.map (fun x => (4 * x.1, leBytes 4 x.2)) ++
       s.ioEffects.map (fun x => (1024 + 4 * x.1, leBytes 4 x.2)))) e)) ∧
  (∀ (e : Sqe) (s : State), s.serves = true → s.logReads 0xc4 4 (fun s => bytesAt (leBytes 4 s.ctr.logged ++ leBytes 2 (s.ctr.log.take 126).length ++
       List.replicate 58 0 ++ (s.ctr.log.take 126).flatMap CtrLog.bytes) 0 4096) e = true →
     exec (.contractLog e) s = .next (s.logRead 0xc4 (fun s => bytesAt (leBytes 4 s.ctr.logged ++ leBytes 2 (s.ctr.log.take 126).length ++
       List.replicate 58 0 ++ (s.ctr.log.take 126).flatMap CtrLog.bytes) 0 4096) e)) ∧
  (∀ (e : Sqe) (s : State), s.serves = true → s.logReads 0xc5 4 (fun s =>
       leBytes 4 s.map.lossHdr.1 ++ leBytes 4 s.map.loss.length ++ leBytes 4 s.map.lossOver ++
       [BitVec.ofNat 8 s.map.lossHdr.2.1, BitVec.ofNat 8 s.map.lossHdr.2.2.1, 0, 0] ++
       leBytes 8 s.map.lossHdr.2.2.2 ++ List.replicate 40 0 ++ s.map.loss.flatMap Loss.bytes) e = true →
     exec (.harvestLossLog e) s = .next (s.logRead 0xc5 (fun s =>
       leBytes 4 s.map.lossHdr.1 ++ leBytes 4 s.map.loss.length ++ leBytes 4 s.map.lossOver ++
       [BitVec.ofNat 8 s.map.lossHdr.2.1, BitVec.ofNat 8 s.map.lossHdr.2.2.1, 0, 0] ++
       leBytes 8 s.map.lossHdr.2.2.2 ++ List.replicate 40 0 ++ s.map.loss.flatMap Loss.bytes) e)) ∧
  (∀ (e : Sqe) (s : State), s.serves = true → s.logReads 0xc7 4 (fun s => leBytes 4 s.meas.log.length ++ leBytes 2 (s.get F.EVT_MEASCFG_period) ++
       List.replicate 58 0 ++ s.meas.log.flatten) e = true →
     exec (.measurementLog e) s = .next (s.logRead 0xc7 (fun s => leBytes 4 s.meas.log.length ++ leBytes 2 (s.get F.EVT_MEASCFG_period) ++
       List.replicate 58 0 ++ s.meas.log.flatten) e)) ∧
  (∀ (e : Sqe) (s : State), s.serves = true → s.logReads 0xc6 64 (fun s =>
       let rs := s.history
       let hd := s.get F.EVT_RINGHD_slot
       let age (k : Nat) : Nat := (hd + 65535 - k) % 65536
       let ring := (s.evt.ring.mergeSort (fun x y => decide (age x.1 ≤ age y.1))).map (·.2)
       leBytes 4 rs.length ++ leBytes 4 ((rs.head?.map (·.seq)).getD 0) ++ leBytes 4 ((rs.getLast?.map (·.seq)).getD 0) ++
         leBytes 4 (s.get F.EVT_DROP_count) ++ leBytes 4 (missing ring) ++ List.replicate 44 0 ++ rs.flatMap EvtRec.bytes) e = true →
     exec (.eventHistoryLog e) s = .next (s.logRead 0xc6 (fun s =>
       let rs := s.history
       let hd := s.get F.EVT_RINGHD_slot
       let age (k : Nat) : Nat := (hd + 65535 - k) % 65536
       let ring := (s.evt.ring.mergeSort (fun x y => decide (age x.1 ≤ age y.1))).map (·.2)
       leBytes 4 rs.length ++ leBytes 4 ((rs.head?.map (·.seq)).getD 0) ++ leBytes 4 ((rs.getLast?.map (·.seq)).getD 0) ++
         leBytes 4 (s.get F.EVT_DROP_count) ++ leBytes 4 (missing ring) ++ List.replicate 44 0 ++ rs.flatMap EvtRec.bytes) e))

/-- A served Enable Directive of the Identify or Streams kind on NSID 1 turns streams on or off; Release Identifier and Release
Resources release what no contract binds; Directive Receive returns its parameters. A Firmware Image Download of whole 4 KiB
pieces within the 24 MiB that overlaps none is staged. A commit of actions 000b to 010b programs or names its slot and
completes; one of action 011b goes on to programming, then to the activation notice with CSTS.PP set and the sequencers asked to
stop, and, once all is quiet, to the reload of the lanes and its completion. -/
def Obligations.DirectivesAndFirmware : Prop :=
  (∀ (e : Sqe) (s : State), s.serves = true → e.nsid = 1 → e.dirOp = (0, 1) → natBits e.dw12.toNat 8 8 = 1 → let on := e.dw12.getLsbD 0
     exec (.enableDirective e) s = .next ((s.adminTaken.onNvme (fun v => { v with
       streams := on, openStreams := if on then v.openStreams else [], nsa := if on then v.nsa else 0 })).adminDone e.cid CplRec.ok)) ∧
  (∀ (e : Sqe) (s : State), s.serves = true → e.nsid = 1 → e.dirOp = (1, 1) → s.nvme.streams = true →
     s.adminTaken.binds (Sqe.dirSpec e) = false → exec (.releaseIdentifier e) s = .next ((s.adminTaken.onNvme (fun v => { v with
       openStreams := v.openStreams.filter (fun x => x != Sqe.dirSpec e) })).adminDone e.cid CplRec.ok)) ∧
  (∀ (e : Sqe) (s : State), s.serves = true → e.nsid = 1 → e.dirOp = (1, 2) → s.nvme.streams = true → s.adminTaken.bound = false →
     exec (.releaseResources e) s = .next ((s.adminTaken.onNvme (fun v => { v with openStreams := [], nsa := 0 })).adminDone e.cid CplRec.ok)) ∧
  (∀ (e : Sqe) (s : State), s.serves = true → e.nsid = 1 → e.dirOp = (0, 1) → exec (.directiveReceive e) s =
     .next (s.adminTaken.adminDone e.cid (CplRec.good 0
       ((page 4096 [(0, [3]), (32, [if s.nvme.streams then 3 else 1])]).take (4 * (e.dw10.toNat + 1)))))) ∧
  (∀ (e : Sqe) (s : State), s.serves = true → e.nsid = 1 → e.dirOp = (1, 2) → s.nvme.streams = true → exec (.directiveReceive e) s =
     .next (s.adminTaken.adminDone e.cid (CplRec.good 0
       ((leBytes 2 s.nvme.openStreams.length ++ s.nvme.openStreams.flatMap (leBytes 2)).take (4 * (e.dw10.toNat + 1)))))) ∧
  (∀ (e : Sqe) (s : State), s.serves = true → let off := 4 * e.dw11.toNat; let len := 4 * (e.dw10.toNat + 1)
     (e.dw10.toNat + 1) % 1024 = 0 → e.dw11.toNat % 1024 = 0 → off + len ≤ 25165824 → len ≤ 2097152 →
     s.fw.staged.any (fun p => decide (p.1 < off + len ∧ off < p.1 + p.2.length)) = false → exec (.firmwareImageDownload e) s =
     .next (({ s.adminTaken with fw := { s.fw with staged := s.fw.staged ++ [(off, bytesAt e.data 0 len)] } } : State).adminDone e.cid CplRec.ok)) ∧
  (∀ (e : Sqe) (s : State), s.serves = true → s.fw.commit = none → e.commitAction = 0 → e.dw10.toNat % 8 ≤ 2 →
     let slot := s.adminTaken.commitSlot e; let v := s.adminTaken.vetStaged; exec (.firmwareCommit000 e) s = .next (
       if v.1 then (v.2.programSlot slot).adminDone e.cid CplRec.ok else v.2.adminDone e.cid (CplRec.bad 1 7))) ∧
  (∀ (e : Sqe) (s : State), s.serves = true → s.fw.commit = none → e.commitAction = 1 → e.dw10.toNat % 8 ≤ 2 →
     let slot := s.adminTaken.commitSlot e; let v := s.adminTaken.vetStaged; exec (.firmwareCommit001 e) s = .next (
       if v.1 then ((v.2.programSlot slot).setBoot slot (imgVersion v.2.stagedImage)).adminDone e.cid (CplRec.bad 1 0x0B)
       else v.2.adminDone e.cid (CplRec.bad 1 7))) ∧
  (∀ (e : Sqe) (s : State), s.serves = true → s.fw.commit = none → e.commitAction = 2 → e.dw10.toNat % 8 ≤ 2 →
     let t := s.adminTaken; let f := t.slotImage (t.commitSlot e); exec (.firmwareCommit010 e) s = .next (
       if t.checkImage true f = 0 then (t.setBoot (t.commitSlot e) (imgVersion f)).adminDone e.cid (CplRec.bad 1 0x0B)
       else t.adminDone e.cid (CplRec.bad 1 7))) ∧
  (∀ (e : Sqe) (s : State), s.serves = true → s.fw.commit = none → e.commitAction = 3 → e.dw10.toNat % 8 ≤ 2 →
     s.adminTaken.bound = false → let v := s.adminTaken.vetStaged; v.1 = true → v.2.boot.phase ≠ 5 → exec (.firmwareCommit011 e) s =
     .next { v.2 with fw := { v.2.fw with commit := some { action := 3, slot := s.adminTaken.commitSlot e, cid := e.cid.toNat, step := 2 } } }) ∧
  (∀ (s : State) (c : FwCommit), s.fw.commit = some c → c.step = 2 → s.draining = false →
     let t := (s.programSlot c.slot).setBoot c.slot (imgVersion s.stagedImage)
     imgSectionBytes s.stagedImage 8 = imgSectionBytes t.hbmImage 8 → imgSectionBytes s.stagedImage 9 = imgSectionBytes t.hbmImage 9 →
     exec .fwSlotProgrammed s = .next (
       let u := (({ t with fw := { t.fw with commit := some { c with step := 3 } } } : State).aen 2 1 3).onNvme (fun v => { v with pp := true })
       doAll (allLanes.filter (fun n => u.executing n)) (fun n s => s.put (F.MCS_STAT_stopreq n) 1) u)) ∧
  (∀ (s : State) (c : FwCommit), s.fw.commit = some c → c.step = 3 → s.draining = false → s.buf.ctxs = [] → s.ctr.est = none →
     (∀ n : Fin 4, s.executing n = false) → s.checkImage true (s.slotImage c.slot) = 0 →
     exec .fwActivationQuiesced s = .next (
       let f := s.slotImage c.slot
       let t := ((s.copyImage f).recordImage f).put F.CFG_BOOT_src c.slot
       (((doAll (allLanes.filter (fun (n : Fin 4) => s.fitted n)) (State.reloadLane f) t).onNvme (fun v => { v with pp := false })).commitDone
         CplRec.ok).pump))

/-- A served Establish Contract whose descriptor passes step 1 and whose set is admitted installs its slot as pending and waits
for the drain or the lock; a refusal completes with its reason in bits 31 to 24. The drain's end leads to the wait for the lock,
and the lock to the active contract, or to a refusal when the budget is too small; thirty seconds without the lock refuse it
with reason 09h. Release Contract of an active or broken slot returns its final query entry and frees it, and fails with Invalid
Field for an empty or pending one; Query Contracts returns 4,096 bytes. A recheck re-admits the set. When its frame is over, a
lane that starts the next one takes the shadow values that wait. A conforming write not admitted 100 µs before its deadline
fails, and a conforming read is ended at its stop time. -/
def Obligations.ContractCommands : Prop :=
  (∀ (e : Sqe) (s : State), s.serves = true → e.nsid = 1 → e.dw10 = 0 → e.dw11 = 0 → e.dw12 = 0 → e.dw13 = 0 → e.dw14 = 0 → e.dw15 = 0 →
     s.fw.commit = none → let t := s.adminTaken; let k := termsOfDesc e.data
     let demand := max (t.get F.CTR_DEMAND_sum + k.rate) (t.get F.CTR_DEMAND_floor); let ts := t.termsOf (t.slotsIn [1, 2]) ++ [k]
     let refuse (r : Nat) : State := (t.ctrLogRec 3 0xFF (ofLe (bytesAt e.data 0 2)) (byteAt e.data 2).toNat r (word4 e.data 4)).adminDone e.cid (refused r)
     (∀ r, t.step1 e.data = some r → exec (.establishContract e) s = .next (refuse r)) ∧
     (t.step1 e.data = none → ∀ r, t.contractReason ts demand = some r → exec (.establishContract e) s = .next (refuse r)) ∧
     (t.step1 e.data = none → t.contractReason ts demand = none → exec (.establishContract e) s = .next ((
       let i := (t.slotsIn [0]).headD 0
       let p := (t.pointOf demand).2
       let w := ((t.plan ts (t.speedOf p)).map (fun pl => Rat.units (reservation ts pl / 1024))).getD 0
       (t.installSlot i e.data).setGuard.onCtr (fun c => { c with
         est := some { cid := e.cid.toNat, desc := bytesAt e.data 0 64, slot := i, step := if k.read then 5 else 4, p := p, w := w } })).pump))) ∧
  (∀ (s : State) (e : Est), s.ctr.est = some e → e.step = 4 →
     s.map.ovl.any (fun x => ovlUse x.2 == 1 && ovlNs x.2 == 1 && s.inZoneSet e.slot (ovlKey x.2 / 16384)) = false →
     s.get F.HRV_DIRTY_kib + e.w ≤ s.get F.HRV_BUDGET_kib →
     exec .establishDrainDone s = .next (s.onCtr (fun c => { c with est := some { e with step := 5 } }))) ∧
  (∀ (s : State) (e : Est), s.ctr.est = some e → e.step = 5 → s.flag F.SPN_STAT_locked = true → e.p ≤ s.get F.SPN_STAT_point →
     exec .establishLocked s = .next (if s.get F.HRV_BUDGET_kib < s.wresAt e.p then s.dropEst 7 (refused 7) else s.step7 e)) ∧
  (∀ (s : State) (e : Est), s.ctr.est = some e → e.step = 5 → exec .establishLockTimeout s = .next (s.dropEst 9 (refused 9))) ∧
  (∀ (e : Sqe) (s : State), s.serves = true → e.nsid = 1 → e.dw10.toNat < 16 → let t := s.adminTaken; let i := e.dw10.toNat
     ((t.slotState i = 2 ∨ t.slotState i = 3) → exec (.releaseContract e) s = .next ((((t.setSlot i 0).logSlot 2 i 0).onContract i
       (fun _ => Contract.none)).afterRelease.adminDone e.cid (CplRec.good 0 (t.queryEntry i)))) ∧
     (¬(t.slotState i = 2 ∨ t.slotState i = 3) → exec (.releaseContract e) s = .next (t.adminDone e.cid CplRec.field))) ∧
  (∀ (e : Sqe) (s : State), s.serves = true → e.nsid = 1 → exec (.queryContracts e) s = .next (s.adminTaken.adminDone e.cid
     (CplRec.good 0 (bytesAt (s.adminTaken.queryHeader ++ (List.range 16).flatMap s.adminTaken.queryEntry) 0 4096)))) ∧
  (∀ (why : RecheckCause) (s : State), let t := (s.readmit (match why with
       | .lane => some 0x10 | .engine => some 0x11 | .link => some 0x13 | .budget => none) s.presentRpm
       (if s.flag F.HRV_STAT_wt then 0 else s.budgetAt s.budgetLanes s.presentRpm)).setGuard
     exec (.contractRecheck why) s = .next (if (t.slotsIn [2]).length < (s.slotsIn [2]).length then t.afterRelease else t)) ∧
  (∀ (n : Fin 4) (s : State), s.get F.CTR_CTL_en ≠ 0 → s.inService n = true → s.inFrame n = false → exec (.frameStart n) s = .next (
     let u := if s.flag F.CTR_GO_pending && s.ctr.take.contains n.val then s.ctrTake n else s
     let t := u.onCtr (fun c => { c with frame := c.frame.set n u.us, bg := c.bg.set n 0, visit := c.visit.set n (0, 0) })
     (doAll ((t.slotsIn [2]).filter (fun i => t.getA (F.CTR_C_CFG_dir i) == 1 && t.getA (F.CTR_C_RA_mib i) != 0)) (State.readAhead n) t).feed n)) ∧
  (∀ (id : Nat) (s : State) (c : Ctx) (d : Nat), s.ctx? id = some c → c.deadline = some d → c.sqe.isWrite = true → c.stage ≤ 1 →
     s.reached ((d + 2 ^ 32 - 100) % 2 ^ 32) = true → exec (.writeDeadlineMiss id) s =
     .next ((s.failWrite c (CplRec.bad 7 0xC1)).postAll).pump.reclass) ∧
  (∀ (id : Nat) (s : State) (c : Ctx) (d : Nat), s.ctx? id = some c → c.deadline = some d → c.sqe.isRead = true → c.stage = 1 →
     s.reached ((d + 2 ^ 32 - 10 * s.get F.CRYS_SCHED_guard) % 2 ^ 32) = true → exec (.contractStopTime id) s = .next (
       let stop (t : RTile) : RTile :=
         if t.final || t.srcs.any (fun x => !x.done && s.inCrys x.surface x.track x.pos x.qtr) then t
         else { t with st := 3, code := if t.st = 0 then 0xFF else 0xF3, at_ := s.us }
       (((s.onCtx id (fun c => { c with tiles := c.tiles.map stop })).sealReads.withdraw).postAll).pump.reclass))

/-- In diapause, with the resident firmware running, every admin command that is fetched, but for Identify and Get Log Page,
completes with Status Code Type 7h, Status Code C0h and DNR, and does nothing else. DNR of that status is set. -/
def Obligations.DiapauseServesIdentifyAndLogs : Prop :=
  (CplRec.bad 7 0xC0).dnr = true ∧ ∀ (e : Sqe) (s : State), s.nvme.en = true → s.nvme.rdy = true → s.nvme.pp = false → s.harvesting = false →
    s.hostDown = false → s.cqRoom 0 = true → s.diapause = true → s.fw.commit = none →
    ∀ c ∈ [Instr.createIoCompletionQueue e, .createIoSubmissionQueue e, .deleteIoCompletionQueue e, .deleteIoSubmissionQueue e, .abort e,
      .asynchronousEventRequest e, .setArbitration e, .setPowerManagement e, .setTemperatureThreshold e, .setNumberOfQueues e,
      .setInterruptCoalescing e, .setInterruptVectorConfiguration e, .setAsyncEventConfiguration e, .setApst e, .setAcousticCeiling e,
      .setMagazineEnergy e, .getFeatures e, .getMagazineEnergy e, .enableDirective e, .releaseIdentifier e, .releaseResources e,
      .directiveReceive e, .firmwareImageDownload e, .firmwareCommit000 e, .firmwareCommit001 e, .firmwareCommit010 e,
      .firmwareCommit011 e, .establishContract e, .releaseContract e, .queryContracts e],
      exec c s = .next (s.adminTaken.adminDone e.cid (CplRec.bad 7 0xC0))

/-- The completion of an admin command posts one entry with its identifier and record, newest first, counts it in the admin
completion queue, and raises vector 0 at once. No register, no other queue and no other part of the state changes. -/
def Obligations.AdminCompletionIsPosted : Prop :=
  ∀ (cid : BitVec 16) (r : CplRec) (s : State), let t := s.adminDone cid r
    t.nvme.out = { sq := 0, cid := cid.toNat, rec_ := r } :: s.nvme.out ∧ t.nvme.adminUsed = s.nvme.adminUsed + 1 ∧
    t.nvme.irqs = 0 :: s.nvme.irqs ∧ t.nvme.cqs = s.nvme.cqs ∧ t.nvme.sqs = s.nvme.sqs ∧ t.nvme.feats = s.nvme.feats ∧
    t = { s with nvme := t.nvme }

/-- On a lane that runs: a loss of synthesizer lock or the assertion of PAFLTn while WGn is high leaves LANEn_STAT.wg 0,
LANEn_ERR.wunsafe 1 and the write-unsafe latch set, and LANEn_ERR records the event itself in lockloss or pafault. A PAFLTn
assertion while WGn is low sets LANEn_ERR.pafault, leaves LANEn_ERR.wunsafe and the latch as they were, and marks the read unit
in progress as one that fails. -/
def Obligations.WriteUnsafeEventsDropTheGate : Prop :=
  (∀ (n : Fin 4) (s : State), s.laneUp n = true → s.flag (F.LANE_STAT_lock n) = true → s.flag (F.LANE_STAT_wg n) = true →
     ∃ t, exec (.synthLockLoss n) s = .next t ∧ t.get (F.LANE_STAT_wg n) = 0 ∧ t.get (F.LANE_ERR_wunsafe n) = 1 ∧
       t.get (F.LANE_ERR_lockloss n) = 1 ∧ (t.lane n).wunsafe = true) ∧
  (∀ (n : Fin 4) (s : State), s.laneUp n = true → (s.lane n).paflt = false → s.flag (F.LANE_STAT_wg n) = true →
     ∃ t, exec (.pafltAssert n true) s = .next t ∧ t.get (F.LANE_STAT_wg n) = 0 ∧ t.get (F.LANE_ERR_wunsafe n) = 1 ∧
       t.get (F.LANE_ERR_pafault n) = 1 ∧ (t.lane n).wunsafe = true ∧ (t.lane n).paflt = true) ∧
  (∀ (n : Fin 4) (s : State), s.laneUp n = true → (s.lane n).paflt = false → s.flag (F.LANE_STAT_wg n) = false →
     ∃ t, exec (.pafltAssert n true) s = .next t ∧ t.get (F.LANE_ERR_pafault n) = 1 ∧ (t.lane n).wunsafe = (s.lane n).wunsafe ∧
       (∀ a, a ≠ R.LANE_ERR n → a / 0x10000 ≠ 2 → a / 0x10000 ≠ 3 → t.reg a = s.reg a) ∧
       (∀ u, (s.lane n).unit = some u → u.begun = true → u.write = false → (t.lane n).unit = some { u with bad := true }))

/-- A write of LANEn_PASCMD that reaches the register while busy is 0 sets busy and makes the transaction wait with the
direction, address and data written. While WGn is high no frame that the port begins takes it from its wait; once WGn is low and
no frame of a strobe or of a set load waits, the next frame is that transaction. The frames of strobes and of a set load are
sent ahead of it, whatever WGn is. A write of LANEn_PASCMD while busy is 1 is ignored and counted with cause 101b. -/
def Obligations.PreampTransactionsWaitForTheGate : Prop :=
  (∀ (p : Path) (n : Fin 4) (v : Word) (s : State), s.accepts p (R.LANE_PASCMD n) v = true → s.flag (F.LANE_PASCMD_busy n) = false →
     ∃ t, exec (.pascmdWrite p n v) s = .next t ∧ t.get (F.LANE_PASCMD_busy n) = 1 ∧ (t.lane n).pheld = some
         { rd := (F.LANE_PASCMD_rd n).of v != 0, addr := (F.LANE_PASCMD_addr n).of v, data := (F.LANE_PASCMD_wdata n).of v, cmd := true } ∧
       (∀ a, a ≠ R.LANE_PASCMD n → t.reg a = s.reg a)) ∧
  (∀ (p : Path) (n : Fin 4) (v : Word) (s : State), s.accepts p (R.LANE_PASCMD n) v = true → s.flag (F.LANE_PASCMD_busy n) = true →
     exec (.pascmdWrite p n v) s = .next (s.ignore p (R.LANE_PASCMD n / 0x10000) (R.LANE_PASCMD n) 5 false)) ∧
  (∀ (n : Fin 4) (f : PaFrame) (s : State), s.laneUp n = true → (s.lane n).pcur = none → (s.lane n).pheld = some f →
     ((s.lane n).pq = [] → (s.lane n).pset = [] → s.flag (F.LANE_STAT_wg n) = false → ∃ t, exec (.pasFrameSend n) s = .next t ∧
       (t.lane n).pcur = some f ∧ (t.lane n).pas = f.bits ∧ (t.lane n).pheld = none) ∧
     ((s.lane n).pq = [] → (s.lane n).pset = [] → s.flag (F.LANE_STAT_wg n) = true → exec (.pasFrameSend n) s = .next s) ∧
     (∀ g rest, (s.lane n).pq ++ (s.lane n).pset = g :: rest → ∃ t, exec (.pasFrameSend n) s = .next t ∧
       (t.lane n).pcur = some g ∧ (t.lane n).pas = g.bits ∧ (t.lane n).pheld = some f ∧ (t.lane n).pq ++ (t.lane n).pset = rest))

/-- A lock that comes back ends the retune and applies the live writes held for it. A set load whose words are good and whose
marker is 0000C4A1h loads the working registers of equaliser, front end, detector and precompensation and the rate from it, sets
LANEn_STAT.setv, and names its head and ring; one whose marker is wrong loads nothing, clears setv, sets LANEn_ERR.setecc and
stays open. LANEn_EQMU.save copies the working taps into the active set's entry at the next moment with RG low; an event that
names another entry changes nothing (the model's, log entry 29). LANEn_CALDATA reads and writes the set RAM at LANEn_CALADDR.
LANEn_BRHW.clr zeroes both marks. The end of a preamp read transaction returns its data and clears busy; a write frame that
names a head selects it. -/
def Obligations.ChannelEventsAndSets : Prop :=
  (∀ (n : Fin 4) (s : State), s.laneUp n = true → s.flag (F.LANE_STAT_lock n) = true → exec (.synthLockLoss n) s = .next (
     let t := (s.put (F.LANE_STAT_lock n) 0).raise (F.LANE_ERR_lockloss n)
     if t.flag (F.LANE_STAT_wg n) then t.writeUnsafe n (some 3) else t)) ∧
  (∀ (n : Fin 4) (s : State), s.laneUp n = true → s.flag (F.LANE_STAT_lock n) = false → s.slice n.val = false →
     let t := (s.put (F.LANE_STAT_lock n) 1).onLane n (fun l => { l with retune := false })
     exec (.synthLockAcquired n) s = .next ((doAll (t.lane n).held (fun w u => u.take w.1 w.2) t).onLane n (fun l => { l with held := [] }))) ∧
  (∀ (n : Fin 4) (s : State), s.laneUp n = true → exec (.pafltAssert n false) s = .next (s.onLane n (fun l => { l with paflt := false }))) ∧
  (∀ (n : Fin 4) (i : Nat) (s : State), s.laneUp n = true → (s.lane n).loading = some i → (s.lane n).setBad = false →
     let u := s.readWords 5 n (64 * i) 64 false none
     let bad := u.1 || decide (128 ≤ i) ||
       cget setRamDefault (u.2.lane n).setRam (128 * i + 127) != 0xC4A1#32;
     (bad = true → exec (.setLoadComplete n false) s = .next
       (((u.2.put (F.LANE_STAT_setv n) 0).onLane n (fun l => { l with setBad := true })).raise (F.LANE_ERR_setecc n))) ∧
     (bad = false → exec (.setLoadComplete n false) s = .next (
       let r := max 1 u.2.geo.rings.length
       let v := u.2.onLane n (fun l => { l with
         setok := true, setIdx := i, loading := none, taps := l.setTaps i, front := l.setFront i, vga := (l.setFront i).vga })
       (((v.put (F.LANE_STAT_setv n) 1).put (F.LANE_STAT_head n) (i / r)).put (F.LANE_STAT_ring n) (i % r)).setReg (R.LANE_RATIO n)
         (cget setRamDefault (v.lane n).setRam (128 * i))))) ∧
  (∀ (p : Path) (n : Fin 4) (v : Word) (s : State), s.accepts p (R.LANE_EQMU n) v = true → 8 ≤ (F.LANE_EQMU_mu 0).of v →
     s.laneHolds n = false →
     exec (.eqmuSave p n v) s = .next (s.take (R.LANE_EQMU n) (v ||| (s.reg (R.LANE_EQMU n) &&& 0x80000000#32)))) ∧
  (∀ (n : Fin 4) (k : Nat) (s : State), s.laneUp n = true → s.flag (F.LANE_EQMU_save n) = true → s.flag (F.LANE_STAT_rg n) = false →
     s.flag (F.LANE_STAT_setv n) = true →
     ((s.lane n).setIdx = k → exec (.eqTapCopy n k) s = .next (
       ((s.wroteWords 5 n (64 * k + 2) 12 none).onLane n (fun l =>
         l.taps.zipIdx.foldl (fun l t => l.putHalf (128 * k + 4 + t.2 / 2) (t.2 % 2) t.1) l)).put (F.LANE_EQMU_save n) 0)) ∧
     ((s.lane n).setIdx ≠ k → exec (.eqTapCopy n k) s = .next s)) ∧
  (∀ (p : Path) (n : Fin 4) (v : Word) (ecc : Bool) (s : State), s.accepts p (R.LANE_CALDATA n) v = true →
     let a := s.get (F.LANE_CALADDR_addr n)
     let t := s.onLane n (fun l => { l with setRam := cset setRamDefault a v l.setRam });
     exec (.caldataAccess p n (some v) ecc) s = .next ((t.wroteWords 5 n (a / 2) 1 (some ((t.lane n).setCode (a / 2)))).calNext n)) ∧
  (∀ (p : Path) (n : Fin 4) (s : State), s.readable p (R.LANE_CALDATA n) = true → let a := s.get (F.LANE_CALADDR_addr n) / 2
     let u := s.readWords 5 n a 1 false (some ((s.lane n).setCode a))
     exec (.caldataAccess p n none false) s = .next ((doIf u.1 (State.raise (F.LANE_ERR_setecc n)) u.2).calNext n)) ∧
  (∀ (p : Path) (n : Fin 4) (v : Word) (s : State), s.accepts p (R.LANE_BRHW n) v = true → v.getLsbD 31 = true →
     ∃ t, exec (.brhwClr p n v) s = .next t ∧ t.get (F.LANE_BRHW_a n) = 0 ∧ t.get (F.LANE_BRHW_b n) = 0 ∧ ∀ a, a ≠ R.LANE_BRHW n → t.reg a = s.reg a) ∧
  (∀ (n : Fin 4) (b : Byte) (f : PaFrame) (s : State), (s.lane n).pcur = some f →
     let t := s.onLane n (fun l => { l with pcur := none, pas := if f.rd then l.pas ||| b.setWidth 16 else l.pas })
     let fin (u : State) : State := if f.cmd then u.put (F.LANE_PASCMD_busy n) 0 else u
     (f.rd = true → exec (.pasFrameDone n b) s = .next
       (if f.cmd then (fin t).put (F.LANE_PASCMD_rdata n) (((s.lane n).pas ||| b.setWidth 16).toNat % 256) else t)) ∧
     (f.rd = false → t.headOfFrame n f = none → exec (.pasFrameDone n b) s = .next (fin t)) ∧
     (∀ h, f.rd = false → t.headOfFrame n f = some h → exec (.pasFrameDone n b) s = .next (fin (t.selectHead n h))))

/-- On a lane that executes, with no retune, the armed unit whose position has passed under the head begins if a set is loaded,
and does not if none is: a read unit is heard and captured, a write unit whose whole data is in the FIFO takes away what lay
there, and one without it is a write miss. At its end mark a begun unit is written, or its read outcome is queued where the read
FIFO has room. The oldest queued outcome updates what the lane learns from it. OK1 or OK2 of the tile wanted delivers its data;
FAIL, MISC and NOSYNC, and a good tile that is another, go to the crystallizer where the brine is complete, and are read again
where it is not. No sync mark found is NOSYNC; no zero syndrome within LANEn_CTL.iterg iterations of LANEn_CTL.iterl is FAIL; a
lane limited to one iteration never has OK2. -/
def Obligations.UnitsAndOutcomes : Prop :=
  (∀ (n : Fin 4) (m : BeginIn) (u : LUnit) (c : MediaCmd) (s : State), (s.lane n).unit = some u → (s.lane n).cur = some c → u.begun = false →
     u.due = true → s.runsMicro n = true → (s.lane n).retune = false → (c.op = 2 → (s.lane n).left = false) →
     let fw := decide ((s.lane n).wfifo = 0 ∨ m.starved = true); let w := { u with fw := fw }; let t := s.headTile n c w
     let v := (s.onLane n (fun l => { l with
       unit := some { w with begun := true }, wd := t.written l.front.precomp (s.fieldsOf n w) })).setGates n
     (s.flag (F.LANE_STAT_setv n) = false → exec (.unitBegin n m) s = .next s) ∧
     (s.flag (F.LANE_STAT_setv n) = true → u.write = false → exec (.unitBegin n m) s = .next (s.beginRead n u c m)) ∧
     (s.flag (F.LANE_STAT_setv n) = true → u.write = true → s.halfNow n = (false, s) → fw = true → (s.lane n).portUnit u.modsel = false →
       exec (.unitBegin n m) s = .next (s.writeMiss n)) ∧
     (s.flag (F.LANE_STAT_setv n) = true → u.write = true → s.halfNow n = (false, s) → (fw = false ∨ (s.lane n).portUnit u.modsel = true) →
       exec (.unitBegin n m) s = .next (if v.flag (F.LANE_STAT_wg n) then v.onMedia (fun d => { d with
         tiles := d.tiles.filter (fun x => x.1 != physKey (v.under n).1 (v.under n).2 u.pos t.place.qtr) }) else v))) ∧
  (∀ (n : Fin 4) (err : List Nat) (u : LUnit) (c : MediaCmd) (s : State), (s.lane n).unit = some u → (s.lane n).cur = some c →
     u.begun = true → u.left = 0 →
     (u.write = true → exec (.unitEndMark n err) s = .next (s.endWrite n u c err)) ∧
     (u.write = false → (u.loop = true ∨ (s.lane n).readRoom u.modsel = true) → exec (.unitEndMark n err) s = .next (s.endRead n u c)) ∧
     (u.write = false → u.loop = false → (s.lane n).readRoom u.modsel = false → exec (.unitEndMark n err) s = .next s)) ∧
  (∀ (n : Fin 4) (its : List (Option Nat)) (words : List Codeword) (p : Machine.PUnit) (rest : List Machine.PUnit) (s : State), (s.lane n).posted = p :: rest →
     let s0 := s.onLane n (fun l => { l with posted := rest })
     let d := s0.decode n p (decoded its words); let whole := p.captured && s0.crysOn && s0.recorded n p
     let o := if d.1 ≤ 1 ∨ whole = true then d.1 else 5
     let s1 := (s0.learn n p o).headRecord n p o; let s2 := doIf (o == 1) (State.inc (F.LANE_OK2CNT_count n)) s1
     (p.loop = true → exec (.tileOutcomePost n its words false) s = .next s1) ∧
     (p.loop = false → 2 ≤ d.1 → whole = false → exec (.tileOutcomePost n its words false) s =
       .next (((s1.inc (F.LANE_INCCNT_count n)).markRead p).reread n p 0xF3).pump) ∧
     (p.loop = false → 2 ≤ d.1 → d.1 ≤ 4 → whole = true → exec (.tileOutcomePost n its words false) s =
       .next (((s1.inc (if d.1 = 4 then F.LANE_NOSYNCCNT_count n else F.LANE_FAILCNT_count n)).markRead p).crysQueue n p)) ∧
     (∀ t, p.loop = false → d.1 ≤ 1 → d.2 = some t → t.wanted p.mu = true → exec (.tileOutcomePost n its words false) s = .next
       (((s2.bufMoved n false (natBits p.modsel 6 2 == 0) p.mu).unitRead p t.data).pump)) ∧
     (∀ t, p.loop = false → d.1 ≤ 1 → d.2 = some t → t.wanted p.mu = false → exec (.tileOutcomePost n its words false) s = .next
       (if whole then (s2.markRead p).crysQueue n p else ((s2.markRead p).reread n p 0xF3).pump))) ∧
  (∀ (n : Fin 4) (dec : List (Option (Nat × Codeword))) (p : Machine.PUnit) (s : State), p.bad = false →
     (p.heard.sync = none → s.decode n p dec = (4, none)) ∧
     (p.heard.sync ≠ none → (∀ x ∈ dec.take (s.get (F.LANE_CTL_iterg n)), ∀ l w, x = some (l, w) → s.get (F.LANE_CTL_iterl n) < l) →
       s.decode n p dec = (2, none)) ∧
     (s.get (F.LANE_CTL_iterg n) = 1 → (s.decode n p dec).1 ≠ 1))

/-- Where the queue holds only entries of the classes 0 to 2, CRYS runs (a cocoon may be asked of it) and an engine in service
is idle, CRYS_DISPATCH takes an entry of the queue of which no queued entry has a lower class, and which, in class 0, has no
more time left to its deadline than any queued class 0 entry. The first such engine holds it, with its start time, and begins
the load phase; the entry leaves the queue. -/
def Obligations.DispatchTakesTheLowestClass : Prop :=
  ∀ (e : Nat) (s : State), (List.range s.variant.lanes).find? (fun e => (s.engine e).ent.isNone && !(s.bit F.CRYS_STAT_offline e)) = some e →
    s.dom 4 ≤ 1 → s.crys.queue ≠ [] → (∀ y ∈ s.crys.queue, y.cls ≤ 2) →
    let left (y : CrysEnt) : Nat := (y.deadline.getD 0 + 2 ^ 32 - s.ctrTime + 2 ^ 31) % 2 ^ 32
    ∃ x ∈ s.crys.queue, (∀ y ∈ s.crys.queue, x.cls ≤ y.cls) ∧ (x.cls = 0 → ∀ y ∈ s.crys.queue, y.cls = 0 → left x ≤ left y) ∧
      exec .crysDispatch s = .next ((((((s.onCrys (fun c => { c with queue := c.queue.filter (fun y => y.ord != x.ord) })).onEngine e (fun _ => {
        Engine.idle with ent := some x, at_ := s.us, itmax := s.get F.CRYS_CTL_itmax, iti := s.flag F.CRYS_CTL_iti && !x.neigh.isEmpty })).put
          (F.CRYS_ENG_phase e) 1).put (F.CRYS_ENG_iter e) 0)).syncCrys)

/-- An engine whose entry meets no error, is not cancelled and has not expired goes from load, whose end takes the records into
the local store and releases the pins, to sync, prepare and iterate; without sync mark A it ends NOSYNC. Each iteration works on
the local store; a zero syndrome leads to the finish, which ends OK where the codeword found is the tile wanted, MISC where it
is another tile, and goes on iterating on a miscorrection, or ends MISC at the last iteration. An iteration that leaves no
iteration over ends FAIL, or MISC after a miscorrection; an expired entry ends EXPIRED. More than 4.5 ms on one entry take the
engine offline. Class 2 entries that waited longer than agems move to class 1, and expired queued class 0 entries end EXPIRED.
CRYS_CMD asks for the test of an offline engine, whose pass puts it back in service, and clears unpinned records; CRYS_MAXUS.clr
zeroes the maximum. -/
def Obligations.EnginePhases : Prop :=
  (∀ (e : Fin 4) (brine : List Nat) (sync : Option Nat) (x : CrysEnt) (s : State), (s.engine e).ent = some x → (s.engine e).cancel = false →
     (s.expired x = false → s.get (F.CRYS_ENG_phase e) = 1 → exec (.enginePhaseEnd e brine false sync) s = .next (s.engineLoad e x brine)) ∧
     (s.expired x = false → s.get (F.CRYS_ENG_phase e) = 2 → exec (.enginePhaseEnd e brine false sync) s = .next
       (if x.nosync = false ∨ (∃ k, sync = some k ∧ k ≤ 12) then s.put (F.CRYS_ENG_phase e) 3 else s.engineEnd e 3 [])) ∧
     (s.expired x = false → s.get (F.CRYS_ENG_phase e) = 3 → exec (.enginePhaseEnd e brine false sync) s = .next
       ((s.onEngine e (fun g => { g with store := g.store.prepare })).put (F.CRYS_ENG_phase e) 4)) ∧
     (s.expired x = true → 1 ≤ s.get (F.CRYS_ENG_phase e) → s.get (F.CRYS_ENG_phase e) ≤ 3 →
       exec (.enginePhaseEnd e brine false sync) s = .next (s.engineEnd e 4 [])) ∧
     (s.get (F.CRYS_ENG_phase e) = 5 → exec (.enginePhaseEnd e brine false sync) s = .next (s.engineFinish e x))) ∧
  (∀ (e : Nat) (x : CrysEnt) (s : State),
     let found := (s.engine e).store.word.bind (fun w => w.tile (s.thereAt x.lane x.unit) (x.unit.slot x.lane))
     (∀ t, found = some t → s.engineFinish e x = if t.wanted x.unit.mu then s.engineEnd e 0 t.data else s.engineEnd e 1 []) ∧
     (found = none → s.expired x = false → s.get (F.CRYS_ENG_iter e) < (s.engine e).itmax → s.engineFinish e x =
       (s.onEngine e (fun g => { g with misc := true, store := { (s.engine e).store with word := none, damp := true } })).put (F.CRYS_ENG_phase e) 4) ∧
     (found = none → (s.expired x = true ∨ (s.engine e).itmax ≤ s.get (F.CRYS_ENG_iter e)) → s.engineFinish e x = s.engineEnd e 1 [])) ∧
  (∀ (e : Fin 4) (x : CrysEnt) (w : Option Codeword) (s : State), (s.engine e).ent = some x → (s.engine e).cancel = false → s.get (F.CRYS_ENG_phase e) = 4 →
     let z := w.filter (fun w => w != .stored || (s.thereAt x.lane x.unit).isSome)
     let t := (s.onEngine e (fun g => { g with store := { (s.engine e).store.iterate (codeIdx (s.fieldsAt x.unit)) (s.engine e).iti
       (s.get (F.CRYS_ENG_iter e)) (s.get (F.LANE_EQMU_mu x.lane)) with word := z } })).inc (F.CRYS_ENG_iter e)
     (z ≠ none → exec (.engineIterationEnd e w false) s = .next (t.put (F.CRYS_ENG_phase e) 5)) ∧
     (z = none → t.expired x = true → exec (.engineIterationEnd e w false) s = .next (t.engineEnd e 4 [])) ∧
     (z = none → t.expired x = false → (t.engine e).itmax ≤ t.get (F.CRYS_ENG_iter e) →
       exec (.engineIterationEnd e w false) s = .next (t.engineEnd e (if (t.engine e).misc then 1 else 2) [])) ∧
     (z = none → t.expired x = false → t.get (F.CRYS_ENG_iter e) < (t.engine e).itmax → exec (.engineIterationEnd e w false) s = .next t)) ∧
  (∀ (e : Fin 4) (s : State), (s.engine e).ent.isSome = true → 4500 < s.us - (s.engine e).at_ →
     exec (.engineWatchdog e) s = .next (s.engineOff e F.CRYS_ERR_wdog)) ∧
  (∀ s : State, s.get F.CRYS_SCHED_agems ≠ 0 → exec .class2Ageing s = .next ((s.onCrys (fun c => { c with queue := c.queue.map (fun x =>
     if x.cls = 2 ∧ s.get F.CRYS_SCHED_agems * 1000 < s.us - x.since then { x with cls := 1, aged := true } else x) })).syncCrys)) ∧
  (∀ s : State, ((∀ x ∈ s.crys.queue, s.expired x = false) → exec .class0ExpireUndispatched s = .next s) ∧
     (∀ x, s.crys.queue.filter s.expired = [x] → exec .class0ExpireUndispatched s = .next (((s.onCrys (fun c => { c with
       queue := c.queue.filter (fun x => !(s.expired x)) })).unpin x).crysEnd x 4 false [])) ∧
     exec .class0ExpireUndispatched s = .next (doAll (s.crys.queue.filter s.expired) (fun x t => (t.unpin x).crysEnd x 4 false [])
       (s.onCrys (fun c => { c with queue := c.queue.filter (fun x => !(s.expired x)) })))) ∧
  (∀ (p : Path) (v : Word) (s : State), s.accepts p R.CRYS_CMD v = true →
     (∀ i : Fin 4, (F.CRYS_CMD_engon.of v).testBit i = true → i < s.variant.lanes ∧ s.bit F.CRYS_STAT_offline i = true ∧ (s.engine i).test = false) →
     (∀ i : Fin 4, (F.CRYS_CMD_dirclr.of v).testBit i = true → i < s.variant.lanes) →
     let t := doAll ((List.range 4).filter (F.CRYS_CMD_engon.of v).testBit) (fun e t => t.onEngine e (fun g => { g with test := true })) s
     let u := doAll ((List.range 4).filter (F.CRYS_CMD_dirclr.of v).testBit) (fun n t => t.onDir n (fun d => d.filter (fun r => decide (0 < r.pins)))) t
     exec (.crysEngon p v) s = .next u ∧ exec (.crysDirclr p v) s = .next u) ∧
  (∀ (e : Fin 4) (s : State), (s.engine e).test = true → let t := s.onEngine e (fun g => { g with test := false })
     exec (.engineReturnTestDone e true) s = .next (t.putBit F.CRYS_STAT_offline e false).syncCrys ∧
     exec (.engineReturnTestDone e false) s = .next (t.raise F.CRYS_ERR_wdog).syncCrys) ∧
  (∀ (p : Path) (v : Word) (s : State), s.accepts p R.CRYS_MAXUS v = true → v.getLsbD 31 = true →
     ∃ t, exec (.crysMaxusClr p v) s = .next t ∧ t.get F.CRYS_MAXUS_max = 0 ∧ ∀ a, a ≠ R.CRYS_MAXUS → t.reg a = s.reg a)

/-- A write of MCSn_CTL that reaches the register with start set, neither stop nor kill, in STOPPED or FAULT, with
MCSn_LDCTL.match 1 or in factory test mode (and wren only there), and with no self-test slice on the lane, leaves the state
RUNNING, the address at MCSn_START.addr, the micro-stack empty and its registers zero, LC0, LC1 and both timers zero and
stopped, no cause pending, and the write-unsafe, write-miss and write-verification latches clear. In any other state, or outside
factory test mode while match is 0, the write is ignored and counted with cause 101b. -/
def Obligations.StartClearsTheSequencer : Prop :=
  ∀ (p : Path) (n : Fin 4) (v : Word) (s : State), s.accepts p (R.MCS_CTL n) v = true → v.getLsbD 0 = true →
    ((s.mcs n = 2 ∨ s.mcs n = 5) → (s.factory = true ∨ s.flag (F.MCS_LDCTL_match n) = true) → s.slice n = false →
      v.getLsbD 1 = false → v.getLsbD 2 = false → (v.getLsbD 3 = true → s.factory = true) →
      ∃ t, exec (.mcsStart p n v) s = .next t ∧ t.mcs n = 3 ∧ t.get (F.MCS_STAT_pc n) = s.get (F.MCS_START_addr n) ∧
        t.get (F.MCS_STAT_sp n) = 0 ∧ t.reg (R.MCS_STK0 n) = 0 ∧ t.reg (R.MCS_STK1 n) = 0 ∧ t.reg (R.MCS_LC n) = 0 ∧ t.reg (R.MCS_TM n) = 0 ∧
        (t.lane n).tm0 = Timer.off ∧ (t.lane n).tm1 = Timer.off ∧ t.get (F.MCS_STAT_pend n) = 0 ∧
        (t.lane n).wunsafe = false ∧ (t.lane n).wmiss = false ∧ (t.lane n).wverify = false) ∧
    ((s.mcs n ≠ 2 ∧ s.mcs n ≠ 5 ∨ s.factory = false ∧ s.flag (F.MCS_LDCTL_match n) = false) →
      exec (.mcsStart p n v) s = .next (s.ignore p (R.MCS_CTL n / 0x10000) (R.MCS_CTL n) 5 false))

/-- On a lane that executes microcode, LD0, LD1 and LDB load LCIMM, CNT0 and CNT1 load the current command's remaining count,
DEC0 and DEC1 subtract one and stop at 0, INC0 and INC1 add one and stop at FFFh. The other counter keeps its value, every
register but MCSn_LC is unchanged, and so is what the state holds beside the registers. -/
def Obligations.LoopCounterOperations : Prop :=
  ∀ (n : Fin 4) (imm : BitVec 12) (s : State), s.runsMicro n = true →
   let lc0 := s.get (F.MCS_LC_lc0 n); let lc1 := s.get (F.MCS_LC_lc1 n); let count := s.get (F.MCS_CC0_count n)
   let gives (c : Instr) (x y : Nat) : Prop := ∃ t, exec c s = .next t ∧ t.get (F.MCS_LC_lc0 n) = x ∧ t.get (F.MCS_LC_lc1 n) = y ∧
     (∀ a, a ≠ R.MCS_LC n → t.reg a = s.reg a) ∧ t = { s with regs := t.regs }
   gives (.ld0 n imm) imm.toNat lc1 ∧ gives (.ld1 n imm) lc0 imm.toNat ∧ gives (.ldb n imm) imm.toNat imm.toNat ∧
   gives (.cnt0 n) count lc1 ∧ gives (.cnt1 n) lc0 count ∧ gives (.dec0 n) (lc0 - 1) lc1 ∧ gives (.dec1 n) lc0 (lc1 - 1) ∧
   gives (.inc0 n) (min (lc0 + 1) 0xFFF) lc1 ∧ gives (.inc1 n) lc0 (min (lc1 + 1) 0xFFF)

/-- For a word about to execute without a fault whose preamp frames fit: after its once-only operations, gates and clocks, CONT
ends at the next address, JUMP at NADDR, JCOND at NADDR if the condition with its polarity is true and else at the next address;
CALL pushes the next address and ends at NADDR; RET pops the address it ends at; LOOP ends at the next address with the counter
as it is when it is zero, else decrements it and ends at NADDR unless it becomes zero; TRAPRET ends at the frame's next address
with LC0 and LC1 of the frame, or with CPOL 1 at NADDR with the stack clear, and leaves TRAP. LCOP is applied after SEQ, and
then the word ends. WAITC waits from its dwell on, testing at once whether a trap or a stop ends it; a true condition ends it at
the next address. -/
def Obligations.SequencingPicksTheNextWord : Prop :=
  (∀ (n : Fin 4) (e : WordEnv) (m : BitVec 160) (s : State), s.startsWord n 0 m = true → let pc := s.get (F.MCS_STAT_pc n)
     exec (.cont n e) s = .next (((s.wordBody n m).wordLc n m).wordEnd n m pc ((pc + 1) % 4096))) ∧
  (∀ (n : Fin 4) (e : WordEnv) (m : BitVec 160) (s : State), s.startsWord n 1 m = true → let pc := s.get (F.MCS_STAT_pc n)
     exec (.jump n e) s = .next (((s.wordBody n m).wordLc n m).wordEnd n m pc (wordBits m 148 12))) ∧
  (∀ (n : Fin 4) (e : WordEnv) (m : BitVec 160) (s : State), s.startsWord n 2 m = true → let pc := s.get (F.MCS_STAT_pc n)
     exec (.jcond n e) s = .next (((s.wordBody n m).wordLc n m).wordEnd n m pc
       (if (s.wordBody n m).condOf n e m then wordBits m 148 12 else (pc + 1) % 4096))) ∧
  (∀ (n : Fin 4) (e : WordEnv) (m : BitVec 160) (s : State), s.startsWord n 3 m = true → let pc := s.get (F.MCS_STAT_pc n)
     let u := s.wordBody n m; let sp := u.get (F.MCS_STAT_sp n)
     exec (.call n e) s = .next (((((u.put (stackField n sp) ((pc + 1) % 4096)).put (F.MCS_STAT_sp n) (sp + 1))).wordLc n m).wordEnd n m pc
       (wordBits m 148 12))) ∧
  (∀ (n : Fin 4) (e : WordEnv) (m : BitVec 160) (s : State), s.startsWord n 4 m = true → let pc := s.get (F.MCS_STAT_pc n)
     let u := s.wordBody n m; let sp := u.get (F.MCS_STAT_sp n)
     exec (.ret n e) s = .next (((((u.put (stackField n (sp - 1)) 0).put (F.MCS_STAT_sp n) (sp - 1))).wordLc n m).wordEnd n m pc
       (u.get (stackField n (sp - 1))))) ∧
  (∀ (n : Fin 4) (e : WordEnv) (m : BitVec 160) (s : State), s.startsWord n 5 m = true → let pc := s.get (F.MCS_STAT_pc n)
     let u := s.wordBody n m; let f := if mbit m 139 then F.MCS_LC_lc1 n else F.MCS_LC_lc0 n
     (u.get f = 0 → exec (.loop n e) s = .next ((u.wordLc n m).wordEnd n m pc ((pc + 1) % 4096))) ∧
     (u.get f = 1 → exec (.loop n e) s = .next (((u.put f 0).wordLc n m).wordEnd n m pc ((pc + 1) % 4096))) ∧
     (2 ≤ u.get f → exec (.loop n e) s = .next (((u.put f (u.get f - 1)).wordLc n m).wordEnd n m pc (wordBits m 148 12)))) ∧
  (∀ (n : Fin 4) (e : WordEnv) (m : BitVec 160) (s : State), s.startsWord n 7 m = true → let pc := s.get (F.MCS_STAT_pc n)
     let u := (s.wordBody n m).put (F.MCS_STAT_state n) 3
     (mbit m 138 = false → exec (.trapret n e) s = .next ((((u.put (F.MCS_LC_lc0 n) (u.get (F.MCS_TF1_lc0 n))).put (F.MCS_LC_lc1 n)
       (u.get (F.MCS_TF1_lc1 n))).wordLc n m).wordEnd n m pc (u.get (F.MCS_TF0_next n)))) ∧
     (mbit m 138 = true → exec (.trapret n e) s = .next (((((u.put (F.MCS_STAT_sp n) 0).setReg (R.MCS_STK0 n) 0).setReg (R.MCS_STK1 n) 0).wordLc
       n m).wordEnd n m pc (wordBits m 148 12)))) ∧
  (∀ (n : Fin 4) (e : WordEnv) (m : BitVec 160) (s : State), s.startsWord n 6 m = true → let pc := s.get (F.MCS_STAT_pc n)
     exec (.waitc n e) s = .next (((s.wordBody n m).onLane n (fun l => { l with waiting := true, last := pc })).waitTest n m pc)) ∧
  (∀ (n : Fin 4) (e : WordEnv) (s : State), s.runsMicro n = true → (s.lane n).waiting = true → s.condOf n e (s.lane n).word = true →
     let m := (s.lane n).word; let pc := s.get (F.MCS_STAT_pc n)
     exec (.waitcEnd n e) s = .next (((((s.condRead n m).clocks n m 1).onLane n (fun l => { l with waiting := false })).opLc n
       (wordBits m 84 4) (wordBits m 72 12)).wordEnd n m pc ((pc + 1) % 4096)))

/-- A forced harvest trap on a lane that executes, not in a WAITC word, with the harvest cause pending, leaves the state TRAP,
the address 001h, the harvest cause no longer pending, and the frame with cause 1h, forced 1, the address of the word last
executed, the address that would have been next, and LC0 and LC1; MCSn_ERR.forced is set. A word that ends with TRAPEN set and
cause c the first due enters vector c with the same frame, unforced. A word that ends with no trap due, no forced harvest trap
and no stop asked for goes to its next address in the state it was in. -/
def Obligations.TrapsEnterTheirVector : Prop :=
  (∀ (n : Fin 4) (s : State), s.executing n = true → s.bit (F.MCS_STAT_pend n) 0 = true → (s.lane n).waiting = false → (s.lane n).last < 4096 →
     ∃ t, exec (.forcedHarvestTrap n) s = .next t ∧ t.mcs n = 4 ∧ t.get (F.MCS_STAT_pc n) = 1 ∧ t.bit (F.MCS_STAT_pend n) 0 = false ∧
       t.get (F.MCS_TF0_cause n) = 1 ∧ t.get (F.MCS_TF0_forced n) = 1 ∧ t.get (F.MCS_TF0_valid n) = 1 ∧ t.get (F.MCS_TF0_taddr n) = (s.lane n).last ∧
       t.get (F.MCS_TF0_next n) = s.get (F.MCS_STAT_pc n) ∧ t.get (F.MCS_TF1_lc0 n) = s.get (F.MCS_LC_lc0 n) ∧
       t.get (F.MCS_TF1_lc1 n) = s.get (F.MCS_LC_lc1 n) ∧ t.get (F.MCS_ERR_forced n) = 1) ∧
  (∀ (n : Fin 4) (m : BitVec 160) (pc next c : Nat) (s : State), mbit m 128 = true → pc < 4096 → next < 4096 →
     ((s.put (F.MCS_STAT_pc n) next).onLane n (fun l => { l with last := pc })).trapDue n = some c →
     let t := s.wordEnd n m pc next
     t.mcs n = 4 ∧ t.get (F.MCS_STAT_pc n) = c ∧ t.bit (F.MCS_STAT_pend n) (c - 1) = false ∧ t.get (F.MCS_TF0_cause n) = c ∧
     t.get (F.MCS_TF0_forced n) = 0 ∧ t.get (F.MCS_TF0_valid n) = 1 ∧ t.get (F.MCS_TF0_taddr n) = pc ∧ t.get (F.MCS_TF0_next n) = next ∧
     t.get (F.MCS_TF1_lc0 n) = s.get (F.MCS_LC_lc0 n) ∧ t.get (F.MCS_TF1_lc1 n) = s.get (F.MCS_LC_lc1 n)) ∧
  (∀ (n : Fin 4) (m : BitVec 160) (pc next : Nat) (s : State), next < 4096 → s.get (F.MCS_STAT_pend n) = 0 → s.flag (F.MCS_STAT_stopreq n) = false →
     (s.wordEnd n m pc next).get (F.MCS_STAT_pc n) = next ∧ (s.wordEnd n m pc next).mcs n = s.mcs n ∧
     ∀ a, a ≠ R.MCS_STAT n → (s.wordEnd n m pc next).reg a = s.reg a)

/-- On a lane that executes microcode: CMDPOP with no command held completes commands of zero count and takes the next, with POS
and the quarter at its start, the tile index and the buffer offset zero. CMDDONE of a command with nothing left retires it.
CMDERR retires the current command: the units left of a read fail with the code in IMM bits 7:0, those of a write return to BUF
to be placed again, and a cancelled command is only retired. REQUEUE returns what is left of the current command to BUF, and
FLUSHQ the queued commands. START clears TDONE and arms one unit at POS in READ, WRITE or LOOPBACK mode, but with the
write-unsafe latch set in WRITE mode only latches cause 2h. SETLOAD makes the staged lane values active and starts the load of
the set of the command's head and ring; NEXT goes to the next quarter or usable position, or sets TRKEND; REWIND goes back to
the frame's values; DEFECT takes POS out of the mask and reports it; ABANDON ends a unit in progress, with both gates low; CLRST
clears the three latches and nothing else. WIDEN and AGCHOLD mark the armed unit and nothing else. -/
def Obligations.BufferAndTileOperations : Prop :=
  (∀ (n : Fin 4) (s : State), s.runsMicro n = true → (s.lane n).cur = none →
     ((s.lane n).queue.dropWhile (fun c => c.count == 0) = [] → exec (.cmdpop n) s = .next (s.setQueue n [])) ∧
     (∀ c rest, (s.lane n).queue.dropWhile (fun c => c.count == 0) = c :: rest → exec (.cmdpop n) s = .next (
       ((((s.setQueue n rest).setCur n (some c)).setPos n c.start c.qtr 0).onLane n (fun l =>
         { l with boff := 0, trkend := false, posDone := false })).feed n))) ∧
  (∀ (n : Fin 4) (code : Byte) (c : MediaCmd) (s : State), s.runsMicro n = true → (s.lane n).cur = some c →
     let u : MediaCmd := { c with start := (s.firstOpen n).1, qtr := (s.firstOpen n).2, units := c.units.drop (s.get (F.MCS_TPOS_tidx n)) }
     (s.get (F.MCS_CC0_count n) = 0 ∨ c.cancelled = true → exec (.cmddone n) s = .next (s.setCur n none)) ∧
     (c.cancelled = true → exec (.cmderr n code) s = .next (s.setCur n none)) ∧
     (c.cancelled = false → (c.op = 0 ∨ c.op = 3) → exec (.cmderr n code) s = .next (doAll u.punits (fun p t => t.unitFailed p (0x100 + code.toNat))
       (s.setCur n none))) ∧
     (c.cancelled = false → ¬(c.op = 0 ∨ c.op = 3) → exec (.cmderr n code) s = .next ((s.setCur n none).unqueue u).pump) ∧
     (c.cancelled = false → exec (.requeue n) s = .next ((s.setCur n none).returnCmds n [u])) ∧
     (c.cancelled = true → exec (.requeue n) s = .next ((s.setCur n none).returnCmds n [])) ∧
     exec (.flushq n) s = .next ((s.setQueue n []).returnCmds n (s.lane n).queue)) ∧
  (∀ (n : Fin 4) (d : BitVec 4) (ms sy : Byte) (c : MediaCmd) (s : State), s.runsMicro n = true → (s.lane n).cur = some c →
     1 ≤ d.toNat → d.toNat ≤ 5 → sy.toNat ≤ 2 → modselBad ms.toNat = false → natBits c.modsel 4 4 = natBits ms.toNat 4 4 →
     ((s.lane n).unit.map (·.begun)).getD false = false → let u := s.onLane n (fun l => { l with tdone := false })
     (d = 2 → (s.lane n).wunsafe = true → exec (.start n d ms sy) s = .next (u.latchTrap n 2 none)) ∧
     ((d = 1 ∨ d = 2 ∨ d = 5) → (d = 2 → (s.lane n).wunsafe = false) → exec (.start n d ms sy) s = .next (u.onLane n (fun l => { l with unit := some {
       write := d == 2, loop := d == 5, modsel := ms.toNat, pos := s.get (F.MCS_TPOS_pos n), qtr := s.get (F.MCS_TPOS_qtr n),
       widen := sy.toNat == 1, agchold := sy.toNat == 2, due := false, left := 0, begun := false, short := false, nocap := false, bad := false,
       heard := Heard.none, fw := false } }))) ∧
     ((d = 3 ∨ d = 4) → exec (.start n d ms sy) s = .next u)) ∧
  (∀ (n : Fin 4) (c : MediaCmd) (s : State), s.runsMicro n = true → (s.lane n).cur = some c →
     let idx := (s.laneActivate n).setIndex n c
     let up := s.onLane n (fun l => { l with posDone := false })
     let back := s.get (F.MCS_TPOS_tidx n) - s.get (F.MCS_TF2_tidx n)
     let i := idx.1 * s.geo.rings.length + idx.2
     exec (.setload n) s = .next ((s.laneActivate n).onLane n (fun l => { l with
       setok := false, loading := some i, setBad := false, pset := l.setFrames i })) ∧
     (c.op = 2 → s.get (F.MCS_TPOS_qtr n) < 3 → exec (.next n) s = .next (up.put (F.MCS_TPOS_qtr n) (s.get (F.MCS_TPOS_qtr n) + 1))) ∧
     (∀ p, (c.op ≠ 2 ∨ s.get (F.MCS_TPOS_qtr n) = 3) → nextGood c.mask 2048 (s.get (F.MCS_TPOS_pos n) + 1) = some p →
       exec (.next n) s = .next ((up.put (F.MCS_TPOS_pos n) p).put (F.MCS_TPOS_qtr n) 0)) ∧
     ((c.op ≠ 2 ∨ s.get (F.MCS_TPOS_qtr n) = 3) → nextGood c.mask 2048 (s.get (F.MCS_TPOS_pos n) + 1) = none →
       exec (.next n) s = .next (up.onLane n (fun l => { l with trkend := true }))) ∧
     exec (.rewind n) s = .next (
       let t := (s.setCur n (some { c with count := c.count + back }))
       let u := t.setPos n (t.get (F.MCS_TF2_pos n)) (t.get (F.MCS_TF2_qtr n)) (t.get (F.MCS_TF2_tidx n))
       u.onLane n (fun l => { l with boff := u.get (F.MCS_TF3_boff n), trkend := false, posDone := false })) ∧
     exec (.defect n) s = .next ((s.onLane n (fun l => { l with
       cur := some { c with mask := withBit c.mask (s.get (F.MCS_TPOS_pos n)) false } })).grownDefect n c.op c.surface c.track (s.get (F.MCS_TPOS_pos n)))) ∧
  (∀ (n : Fin 4) (u : LUnit) (s : State), s.runsMicro n = true → (s.lane n).cur ≠ none → (s.lane n).unit = some u →
     (u.begun = true → ∃ t, exec (.abandon n) s = .next t ∧ t = s.endUnit n ∧ (t.lane n).unit = none ∧ t.get (F.LANE_STAT_wg n) = 0 ∧
       t.get (F.LANE_STAT_rg n) = 0) ∧
     (u.begun = false → exec (.abandon n) s = .next s)) ∧
  (∀ (n : Fin 4) (c : MediaCmd) (s : State), s.runsMicro n = true → (s.lane n).cur = some c → s.wordWg n = false → ∃ t, exec (.clrst n) s = .next t ∧
     t.lane n = { s.lane n with wunsafe := false, wmiss := false, wverify := false } ∧ (∀ m, m ≠ n → t.lane m = s.lane m) ∧ t = { s with lanes := t.lanes }) ∧
  (∀ (n : Fin 4) (u : LUnit) (s : State), s.runsMicro n = true → (s.lane n).unit = some u → u.begun = false →
     exec (.widen n) s = .next (s.onLane n (fun l => { l with unit := some { u with widen := true } })) ∧
     exec (.agchold n) s = .next (s.onLane n (fun l => { l with unit := some { u with agchold := true } })))

/-- On a lane that executes microcode, a timer load starts the selected timers at IMM in their unit, a stop ends them, a restart
begins again from the value last loaded, and a running timer whose count passes has expired. The frames of preamp strobes and of
HSEL that fit enter the port's queue. SEEK goes to the current command's track with its surface's head, SEEKSALT to the saltern
band that HRV names, OFFSET applies IMM and CLROFF removes it, UNLOAD and LOAD begin a move to or from the ramp, which ends any
seek. EVT with a code posts its record and, from 80h on, raises the microcode cause, and code 0 posts none; STAT adds one to
each counter it names. -/
def Obligations.TimersStrobesAndRequests : Prop :=
  (∀ (n : Fin 4) (sel unit : BitVec 2) (imm : BitVec 16) (s : State), s.runsMicro n = true →
     exec (.timerLoad n sel unit imm) s = .next (doAll (timersOf sel.toNat) (fun t u => (u.onTimer n t (fun _ =>
       { unit := unit.toNat, loaded := imm.toNat, running := true, expired := false, pre := 0 })).put (tmField n t) imm.toNat) s) ∧
     exec (.timerStop n sel) s = .next (doAll (timersOf sel.toNat) (fun t u => u.onTimer n t (fun x => { x with running := false, expired := false })) s) ∧
     exec (.timerRestart n sel) s = .next (doAll (timersOf sel.toNat) (fun t u => (u.onTimer n t (fun x =>
       { x with running := true, expired := false, pre := 0 })).put (tmField n t) ((u.lane n).timer t).loaded) s)) ∧
  (∀ (n : Fin 4) (t : Fin 2) (s : State), s.runsMicro n = true → ((s.lane n).timer t).running = true → ((s.lane n).timer t).expired = false →
     ∃ u, exec (.timerExpire n t) s = .next u ∧ ((u.lane n).timer t).expired = true ∧ u.get (tmField n t) = 0) ∧
  (∀ (n : Fin 4) (k : BitVec 7) (s : State), s.runsMicro n = true →
     (s.framesFit n k.toNat = true → exec (.preampStrobe n k) s = .next (doAll (((List.range 7).filter (fun i => k.toNat.testBit i &&
       s.flag (F.MCS_PSTRB_en n i))).map (fun i => { rd := false, addr := s.get (F.MCS_PSTRB_addr n i), data := s.get (F.MCS_PSTRB_data n i), cmd := false }))
       (State.queueFrame n) s)) ∧
     (∀ c, s.wordWg n = false → s.framesFit n 128 = true → (s.lane n).cur = some c → exec (.hsel n) s = .next (if s.flag (F.MCS_PHSEL_en n) then
       s.queueFrame n { rd := false, addr := s.get (F.MCS_PHSEL_addr n), cmd := false, data := (s.get (F.MCS_PHSEL_base n) ||| (s.headOf c.surface * 2 ^ s.get (F.MCS_PHSEL_shift n))) % 256 } else s))) ∧
  (∀ (n : Fin 4) (c : MediaCmd) (s : State), s.runsMicro n = true → s.wordWg n = false →
     let u := s.onAct n (fun a => { a with skReq := true, skdone := false })
     ((s.lane n).cur = some c → exec (.seek n) s = .next (((u.retuneFor n c.track).selectHead n (s.headOf c.surface)).seek n c.track)) ∧
     (∀ sf tr, s.saltBand n = some (sf, tr) → exec (.seeksalt n) s = .next (((u.retuneFor n tr).selectHead n (s.headOf sf)).seekSalt n tr))) ∧
  (∀ (n : Fin 4) (imm : BitVec 16) (s : State), s.runsMicro n = true →
     exec (.offset n imm) s = .next (s.onAct n (fun a => { a with offset := 16 * sInt 16 imm.toNat })) ∧
     exec (.clroff n) s = .next (s.onAct n (fun a => { a with offset := 0 })) ∧
     let move (b : Bool) : State := (s.onAct n (fun x => { x with ramp := some b, seek := none, want := none, next := none, replan := none })).beginMove n
     (s.wordWg n = false → exec (.unload n) s = .next (move true)) ∧ exec (.load n) s = .next (move false)) ∧
  (∀ (n : Fin 4) (code : Byte) (imm : BitVec 16) (s : State), s.runsMicro n = true → code ≠ 0 →
     exec (.microcodeEvent n 0 imm) s = .next s ∧
     let t := s.post (0x14 + n.val) 2 (leBytes 1 code.toNat ++ [0] ++ leBytes 2 (s.get (F.MCS_STAT_pc n)) ++ leBytes 2 imm.toNat)
     exec (.microcodeEvent n code imm) s = .next (if 0x80 ≤ code.toNat then (t.putBit F.ALR_UCODE_lane n true).latchCause (20 + n.val) else t)) ∧
  (∀ (n : Fin 4) (mask : Byte) (s : State), s.runsMicro n = true →
     exec (.statCount n mask) s = .next (doAll ((List.range 8).filter (fun i => mask.toNat.testBit i)) (fun i => State.inc (F.MCS_STATCNT_count n i)) s))

/-- While microcode executes, MCSn_CTL.stop sets HALTREQ and MCSn_CTL.kill ends execution. MCSn_LDCTL.go outside LOADING,
RUNNING and TRAP sets busy and, on a lane that runs, the state LOADING. A load that ends without error stores the words and
takes their digest; an uncorrectable error leaves the sequencer in RESET with match 0 and sets MCSn_ERR.ldecc. In factory test
mode with wren, in RESET, STOPPED or FAULT, a write of words 0 to 3 of a control-store word is held, and the write of word 4
stores all 160 bits and clears match; otherwise it is ignored with cause 101b. -/
def Obligations.ControlStoreCommands : Prop :=
  (∀ (p : Path) (n : Fin 4) (v : Word) (s : State), s.accepts p (R.MCS_CTL n) v = true → s.executing n = true → v.getLsbD 0 = false →
     (v.getLsbD 3 = true → s.factory = true) →
     (v.getLsbD 1 = true → v.getLsbD 2 = false → exec (.mcsStop p n v) s = .next ((s.take (R.MCS_CTL n) v).put (F.MCS_STAT_stopreq n) 1)) ∧
     (v.getLsbD 2 = true → exec (.mcsKill p n v) s = .next ((s.take (R.MCS_CTL n) v).mcsKill n))) ∧
  (∀ (p : Path) (n : Fin 4) (v : Word) (s : State), s.accepts p (R.MCS_LDCTL n) v = true → v.getLsbD 31 = true → s.loadBarred n = false →
     let t := s.put (F.MCS_LDCTL_busy n) 1
     exec (.mcsLoadGo p n v) s = .next (if t.laneUp n then t.put (F.MCS_STAT_state n) 1 else t)) ∧
  (∀ (p : Path) (n : Fin 4) (v : Word) (s : State), s.accepts p (R.MCS_LDCTL n) v = true → v.getLsbD 31 = true →
     (s.mcs n = 1 ∨ s.mcs n = 3 ∨ s.mcs n = 4) → exec (.mcsLoadGo p n v) s = .next (s.ignore p (R.MCS_LDCTL n / 0x10000) (R.MCS_LDCTL n) 5 false)) ∧
  (∀ (n : Fin 4) (ecc : Bool) (s : State), s.mcs n = 1 → s.laneUp n = true → let r := s.readWords 0 0 (s.get (F.MCS_LDSRC_addr n) * 64 / 8) 10248 ecc none
     (r.1 = true → let t := (((r.2.put (F.MCS_LDCTL_busy n) 0).put (F.MCS_LDCTL_match n) 0).put (F.MCS_STAT_state n) 0).raise (F.MCS_ERR_ldecc n)
       exec (.mcsLoadDone n ecc) s = .next (if t.boot.relo.contains n.val then t.reloaded n
         else if t.boot.loading.contains n.val || t.boot.reloads.getD n 0 != 0 then t.startLoad n else t)) ∧
     (r.1 = false → let t := (r.2.loadStore n).autoLane n
       exec (.mcsLoadDone n ecc) s = .next (if t.boot.relo.contains n.val then t.reloaded n
         else if t.boot.loading.contains n.val || t.boot.reloads.getD n 0 != 0 then t.startLoad n else t))) ∧
  (∀ (p : Path) (a v : Word) (n : Fin 4) (w k : Nat) (s : State), csWord a.toNat = some (n, w, k) → s.accepts p a.toNat v = true →
     let ok := s.factory && s.flag (F.MCS_CTL_wren n) && (s.mcs n == 0 || s.mcs n == 2 || s.mcs n == 5) && s.laneUp n && !(s.slice n)
     let h (i : Nat) : Nat := ((s.lane n).csHold.toList.getD i 0).toNat
     let word := BitVec.ofNat 160 (h 0 + h 1 * 2 ^ 32 + h 2 * 2 ^ 64 + h 3 * 2 ^ 96 + v.toNat * 2 ^ 128)
     (ok = false → exec (.csWindowWrite p a v) s = .next (s.ignoreRule p a.toNat)) ∧
     (ok = true → k < 4 → exec (.csWindowWrite p a v) s = .next (s.onLane n (fun l => { l with csHold := l.csHold.set! k v }))) ∧
     (ok = true → 4 ≤ k → exec (.csWindowWrite p a v) s = .next (((s.onLane n (fun l =>
       { l with cs := cset (fun _ => (0 : BitVec 160)) w word l.cs })).put (F.MCS_LDCTL_match n) 0).put
         (F.RAKE_CUR_addr (8 + n)) 0)))

/-- Whatever a loop computes, its output SCA_LOUTn and the value that it sends to its destination lie within ±SCA_LLIMn.lim;
whatever the loops of an actuator send, its voice-coil and microactuator demands lie within ±1.0, which is 65,536 as a signal
word. A computation of a section whose bypass is 1 gives its input as output, leaves its states and their exponent zero, and
changes no other register, so no flag. -/
def Obligations.LoopOutputsAndDemandsAreLimited : Prop :=
  (∀ (n : Fin 16) (s : State), let t := s.runLoop n; let lim : Int := s.get (F.SCA_LLIM_lim n)
     (-lim ≤ t.regInt (R.SCA_LOUT n)) ∧ t.regInt (R.SCA_LOUT n) ≤ lim ∧ -lim ≤ t.servo.dest[n] ∧ t.servo.dest[n] ≤ lim) ∧
  (∀ (a : Fin 4) (s : State), let t := s.demands a
     (-65536 ≤ t.regInt (R.SCA_VDM a)) ∧ t.regInt (R.SCA_VDM a) ≤ 65536 ∧ -65536 ≤ t.regInt (R.SCA_MDM a) ∧ t.regInt (R.SCA_MDM a) ≤ 65536) ∧
  (∀ (i : Fin 128) (x : Int) (s : State), s.flag (F.SCA_SEC_SCTL_bypass i) = true → let r := s.section i x
     r.1 = x ∧ r.2.reg (R.SCA_SEC_S1 i) = 0 ∧ r.2.reg (R.SCA_SEC_S2 i) = 0 ∧ r.2.reg (R.SCA_SEC_S3 i) = 0 ∧ r.2.reg (R.SCA_SEC_SEXP i) = 0 ∧
     ∀ a, a ≠ R.SCA_SEC_S1 i → a ≠ R.SCA_SEC_S2 i → a ≠ R.SCA_SEC_S3 i → a ≠ R.SCA_SEC_SEXP i → r.2.reg a = s.reg a)

/-- A servo sample is taken with all its effects, and in a harvest's coast it also moves the symbol rate and the dealing of
coast tiles. The end of an unload leaves the actuator unloaded and its track invalid, the end of a load leaves it on the track
under the head. SCA_SKCMDa.go and SRV_SETCMD.go begin a seek or an install where none runs; an install that has written every
loop makes its set active, and one that meets an error stops with SRV_ERR.setecc. SRV_SSDATA reads and writes the set store.
SCA_FLCTL begins or aborts a flutter measurement, SCA_STAT.clr zeroes the recorded latency, a vibration frame is shown and may
be a shock, and a period of the coil controller sums its error. -/
def Obligations.MotionCommandsAndEvents : Prop :=
  (∀ (a : Fin 4) (m : SampleIn) (s : State), exec (.servoSample a m) s = .next ((s.sample a m).coastSample a) ∧
     ((s.sample a m).coasting = false → exec (.servoSample a m) s = .next (s.sample a m))) ∧
  (∀ (a : Fin 4) (s : State), (s.act a).ramp = some true → s.bit F.ISST_SENSEST_fail (3 + a) = false → s.spn.stop ≠ 2 → s.hrvState ≠ 6 →
     let t := (((s.onAct a (fun x => { x with ramp := none, free := true, pes := 0 })).putBit F.SRV_STAT_loaded a false).endMove a true).put (F.SRV_POS_valid a) 0
     t.bit F.ISST_SENSEST_fail (3 + a) = false → t.spn.stop ≠ 2 → t.hrvState ≠ 6 → exec (.unloadComplete a) s = .next t) ∧
  (∀ (a : Fin 4) (pos : Int) (s : State), (s.act a).ramp = some false →
     let track := ((pos + 2048) / 4096).toNat; let ref : Int := 4096 * track; let pes := clampI (-0x8000) 0x7FFF (ref - pos)
     let t := s.onAct a (fun x => { x with
       ramp := none, target := track, offset := 0, pos := pos, ref := ref, refAt := ref, pes := pes, free := false, miss := 0, settle := 0, acc := 0 })
     let u := (((t.put (F.SRV_POS_valid a) 1).put (F.SRV_POS_track a) track).put (F.SRV_PES_pes a) (ofInt 16 pes)).putBit F.SRV_STAT_loaded a true
     let v := ((((u.endMove a true).onLane a (fun l => { l with lost := u.bit F.ISST_SENSEST_fail (3 + a) })).onSpn (fun x =>
       { x with fly := x.fly.filter (· != a.val) })).forceOff a)
     exec (.loadComplete a pos) s = .next (match (v.act a).next with
       | some w => ((v.onAct a (fun x => { x with next := none })).wantSeek a w).pump
       | none => v.pump)) ∧
  (∀ (p : Path) (a : Fin 4) (v : Word) (s : State), s.accepts p (R.SCA_SKCMD a) v = true → v.getLsbD 31 = true →
     (s.moving a = true → exec (.scaSkcmdGo p a v) s = .next (s.ignoreRule p (R.SCA_SKCMD a))) ∧
     (s.moving a = false → let t := s.take (R.SCA_SKCMD a) v; let track := t.get (F.SCA_SKCMD_track a)
       exec (.scaSkcmdGo p a v) s = .next (((t.onAct a (fun x => { x with skReq := false })).retuneFor a track).wantSeek a track))) ∧
  (∀ (p : Path) (v : Word) (s : State), s.accepts p R.SRV_SETCMD v = true → v.getLsbD 31 = true →
     (s.flag F.SRV_SETST_busy = true → exec (.srvSetcmdGo p v) s = .next (s.ignoreRule p R.SRV_SETCMD)) ∧
     (s.flag F.SRV_SETST_busy = false → let t := s.take R.SRV_SETCMD v; exec (.srvSetcmdGo p v) s = .next (t.startInstall (t.get F.SRV_SETCMD_set)))) ∧
  (∀ (i : Nat) (left : List Nat) (s : State), s.servo.install = some (i, left) →
     let e := (s.readWords 6 0 (640 * i) 640 true none).2
     exec (.setInstallDone true) s = .next (((e.onServo (fun x => { x with install := none, badSet := some i })).put F.SRV_SETST_busy 0).raise F.SRV_ERR_setecc) ∧
     (left = [] → exec (.setInstallDone false) s = .next ((((s.onServo (fun x => { x with install := none })).put F.SRV_SETST_busy 0).put
       F.SRV_SETST_act i).inc F.SRV_SETST_count))) ∧
  (∀ (p : Path) (v : Word) (ecc : Bool) (s : State), s.accepts p R.SRV_SSDATA v = true → let a := s.get F.SRV_SSADDR_addr
     let t := s.onServo (fun x => { x with store := cset (fun _ => (0 : Word)) a v x.store })
     (a < 10240 → exec (.srvSsdataAccess p (some v) ecc) s = .next (t.wroteWords 6 0 (a / 2) 1 (some (t.storeCode (a / 2)))).ssNext) ∧
     (10240 ≤ a → exec (.srvSsdataAccess p (some v) ecc) s = .next s.ssNext)) ∧
  (∀ (p : Path) (ecc : Bool) (s : State), s.readable p R.SRV_SSDATA = true → let a := s.get F.SRV_SSADDR_addr / 2; a < 5120 →
     let u := s.readWords 6 0 a 1 ecc (some (s.storeCode a))
     exec (.srvSsdataAccess p none ecc) s = .next (doIf u.1 (State.raise F.SRV_ERR_setecc) u.2).ssNext) ∧
  (∀ (p : Path) (v : Word) (s : State), s.accepts p R.SCA_FLCTL v = true →
     let n := F.SCA_FLCTL_loop.of v; let a : Fin 4 := Fin.ofNat 4 (s.getA (F.SCA_LCFG_act n))
     (v.getLsbD 31 = true → v.getLsbD 30 = false → F.SCA_FLCTL_cycles.of v ≠ 0 → s.loopOn n = true →
       (s.getA (F.SCA_LCFG_dst n) = 1 ∨ s.getA (F.SCA_LCFG_dst n) = 2) → s.moving a = false → s.servoLost a = false → s.contracted = false →
       s.servo.flutter = none → exec (.flutterGo p v) s = .next (
         let t := (((s.take R.SCA_FLCTL v).put F.SCA_FLST_state 1).put F.SCA_FLST_cause 0).put F.SCA_FLST_cycles 0
         let f : Flut := { loop := n, up := Config.freeInt s.free % 2 == 0, since := 0, switches := 0, samples := 0, hi := 0, lo := 0, ampl := 0 }
         ({ t.onServo (fun x => { x with flutter := some f }) with free := s.free + 1 }).forceOn a)) ∧
     (v.getLsbD 31 = false → v.getLsbD 30 = true → exec (.flutterAbort p v) s = .next ((s.take R.SCA_FLCTL v).flutterFail 3))) ∧
  (∀ (p : Path) (v : Word) (s : State), s.accepts p R.SCA_STAT v = true → v.getLsbD 31 = true →
     ∃ t, exec (.scaStatClr p v) s = .next t ∧ t.get F.SCA_STAT_lat = 0 ∧ ∀ a, a ≠ R.SCA_STAT → t.reg a = s.reg a) ∧
  (∀ (r : BitVec 16) (s : State), s.runs 5 = true → s.flag F.SRV_VIBCFG_en = true → s.get F.SRV_SHOCK_level = 0 → s.get F.EVT_MEASCFG_period = 0 →
     exec (.vibFrame r) s = .next ((s.put F.SRV_VIBRD_val r.toNat).onServo (fun x => { x with vib := r.toInt, shock := false }))) ∧
  (∀ (a : Fin 4) (i : Int) (s : State), s.runs 5 = true → s.fitted a = true →
     (s.loaded a = false → (s.act a).ramp ≠ some false → exec (.vcmPwmPeriod a i) s = .next (s.onAct a (fun x => { x with vcmS := 0, duty := 0 }))) ∧
     (s.loaded a = true → (s.act a).ramp = none → exec (.vcmPwmPeriod a i) s = .next (
       let e := s.regInt (R.SCA_VDM a) - i; let sum := (s.act a).vcmS; let v := gain (s.get (F.SRV_VCMCFG_kp a) * e) 4096 + sum
       let out := clampI (-65536) 65536 v
       let sum' := if v = out then sum + gain (s.get (F.SRV_VCMCFG_ki a) * e) 65536 else sum
       s.onAct a (fun x => { x with vcmS := sum', duty := gain (out * 2000) 65536 }))))

/-- In PROBE, with vector m of the six the first with the largest peak: when that peak is greater than the peak of the opposite
vector and exceeds it by at least SPN_ALIGN.pdiff per cent, PROBE_END enters ALIGN with vector m if no earlier attempt of the
start used it, and otherwise with the next vector forward that no attempt used, and records it as used. Otherwise the attempt
fails, one more probe counted: SPN_ERR.attempt is set, and SPN enters BRAKE with one more attempt while retries remain. -/
def Obligations.ProbeChoosesTheVector : Prop :=
  ∀ (peaks : List Nat) (m : Nat) (s : State), s.spnState = 3 → peaks.length = 6 → m < 6 → (∀ i, i < 6 → peaks.getD i 0 ≤ peaks.getD m 0) →
    (∀ i, i < m → peaks.getD i 0 < peaks.getD m 0) → let top := peaks.getD m 0; let opp := peaks.getD ((m + 3) % 6) 0
    (∀ v, opp < top → opp * (100 + s.get F.SPN_ALIGN_pdiff) ≤ top * 100 → v < 6 → s.spn.used.contains v = false →
      (∀ k, k < (v + 6 - m) % 6 → s.spn.used.contains ((m + k) % 6) = true) →
      ∃ t, exec (.probeEnd peaks) s = .next t ∧ t.spnState = 4 ∧ t.spn.vec = v ∧ t.spn.used = s.spn.used ++ [v]) ∧
    (¬(opp < top ∧ opp * (100 + s.get F.SPN_ALIGN_pdiff) ≤ top * 100) →
      exec (.probeEnd peaks) s = .next (s.onSpn (fun x => { x with probes := x.probes + 1 })).attemptFail)

/-- A write of SPN_CTL that breaks no rule takes its value and starts, stops or retargets the spindle as run, arm and source
ask; one that changes arm against R296 is ignored with cause 101b. A period observes, controls and sets the gates; a tick runs
the source, the ramp, the loops and the lock. An overcurrent turns the gates off, and the sixteenth in a row is a loss of
control in RUN. SENSE ends in RUN with the rotor caught, or in BRAKE; a standstill ends in PROBE or OFF; alignment ends in GO.
The turn-on window ends after upok, the wait for a lower speed when the budget allows, and the first step of a stop when nothing
is dirty. -/
def Obligations.SpindleDriveEvents : Prop :=
  (∀ (p : Path) (v : Word) (s : State), s.accepts p R.SPN_CTL v = true →
     let take := State.take R.SPN_CTL v; let t := take s; let want := s.wantsSpin && s.flag F.SPN_CTL_arm
     let r := if s.flag F.SPN_CTL_run && !(t.flag F.SPN_CTL_run) && t.get F.SPN_CTL_src == 1 then t.stopSpin
       else if t.get F.SPN_CTL_src != s.get F.SPN_CTL_src && t.get F.SPN_CTL_src == 2 && t.flag F.SPN_SPDV_stop then t.stopSpin
       else if t.wantsSpin && !want then t.startSpin
       else if t.get F.SPN_CTL_src != s.get F.SPN_CTL_src && t.spnState == 6 && t.spn.stop == 0 then t.sourceTarget else t
     (s.spnCtlBad v = false → exec (.spnCtlArm p v) s = .next r ∧ exec (.spnCtlRun p v) s = .next r ∧ exec (.spnCtlSrc p v) s = .next r) ∧
     (s.spnCtlBad v = true → exec (.spnCtlArm p v) s = .next (s.ignoreRule p R.SPN_CTL) ∧ exec (.spnCtlRun p v) s = .next (s.ignoreRule p R.SPN_CTL) ∧
       exec (.spnCtlSrc p v) s = .next (s.ignoreRule p R.SPN_CTL))) ∧
  (∀ (m : PwmIn) (s : State), s.runs 5 = true →
     let t := (s.onSpn (fun x => { x with ocRow := if x.oc then x.ocRow else 0, oc := false })).observe m
     (t.spnState = 5 → exec (.pwmPeriod m) s = .next ((t.openLoop m).periodGates m)) ∧
     (t.spnState = 6 ∨ t.spnState = 7 → t.flag F.SPN_STAT_obslock = false → exec (.pwmPeriod m) s = .next ((t.loseControl F.SPN_ERR_obslost).periodGates m)) ∧
     (t.spnState ≠ 5 → (t.spnState ≠ 6 ∧ t.spnState ≠ 7 ∨ t.flag F.SPN_STAT_obslock = true) → exec (.pwmPeriod m) s = .next (t.periodGates m))) ∧
  (∀ s : State, s.runs 5 = true → s.spn.oc = false → let t := s.onSpn (fun x => { x with gates := .off, oc := true, ocRow := x.ocRow + 1 })
     (s.spn.ocRow ≠ 15 → exec .phaseOvercurrent s = .next t) ∧
     (s.spn.ocRow = 15 → exec .phaseOvercurrent s = .next (if t.spnState = 6 ∨ t.spnState = 7 then t.loseControl F.SPN_ERR_ocur else t.raise F.SPN_ERR_ocur))) ∧
  (∀ (m : SpdIn) (s : State), s.runs 5 = true → let t := ((s.curveActivate.takeSpd m).sourceTick s.pinRuns).rampStep.spindleLoops.lockStep.flyCheck
     exec (.spindleTick m) s = .next (if t.spnState = 7 ∧ t.rpm < t.get F.SPN_FLY_zvrpm then
       ((t.onSpn (fun x => { x with stop := 4, startPend := false })).spnTo 2).autoset else t.autoset)) ∧
  (∀ s : State, s.flag F.SPN_STAT_upok = true → exec .turnOnWindowEnd s = .next (s.onSpn (fun x => { x with window := false }))) ∧
  (∀ (rpm pt : Nat) (s : State), s.spn.wait = some (rpm, pt) →
     (s.get F.HRV_DIRTY_kib = 0 ∨ s.spn.tbFresh = true ∧ s.get F.HRV_DIRTY_kib < s.get F.HRV_TBUDGET_kib) →
     exec .lowerTargetRelease s = .next (s.passTarget rpm pt)) ∧
  (∀ s : State, s.spnState = 1 → let c := s.flag F.SPN_STAT_obslock = true ∧ s.flag F.SPN_STAT_rev = false ∧ s.get F.SPN_CATCH_rpm ≤ s.get F.SPN_STAT_obsrpm
     (c → let t := ((s.put F.SPN_STAT_caught 1).inc F.SPN_STARTCNT_catch).enterRun; exec .senseEnd s = .next (if t.wantsSpin then t else t.stopSpin)) ∧
     (¬c → exec .senseEnd s = .next (s.spnTo 2))) ∧
  (∀ s : State, s.spnState = 2 → exec .standstill s = .next (if s.spn.startPend then
       (s.onSpn (fun x => { x with pw := quot (s.get F.SPN_ALIGN_pw * 3 ^ x.probes) (2 ^ x.probes) })).spnTo 3
     else (s.onSpn (fun x => { x with stop := 0, wait := none })).spnTo 0)) ∧
  (∀ s : State, s.spnState = 4 → exec .alignEnd s = .next ((s.onSpn (fun x => { x with ol := 0 })).spnTo 5)) ∧
  (∀ s : State, s.spn.stop = 1 → s.get F.HRV_DIRTY_kib = 0 → s.get F.HRV_WTDIRTY_kib = 0 → exec .stopDrainDone s = .next s.stopUnload)

/-- Once the closing ramp has ended for the first time: in ARMED or DISARMED each cause sets its bit of HRV_STAT.trig and
triggers the harvest; from ISOLATE on it sets its bit and nothing else, except that a connector break and a reverse current also
deassert ISO_N, and a reverse current sets HRV_ERR.rev. A forced trigger is one of these causes in factory test mode, and
outside it the write is ignored with cause 101b. Before that ramp has ended, a connector break, a reverse current and a supply
loss trigger nothing and restart the qualification of the supply while it goes on. -/
def Obligations.LaterCausesAreOnlyRecorded : Prop :=
  (∀ s : State, s.hrv.ramped = true →
     (2 ≤ s.hrvState → exec .connDetBreak s = .next ((s.setIso false).putBit F.HRV_STAT_trig 0 true) ∧
       exec .reverseCurrent s = .next (((s.setIso false).raise F.HRV_ERR_rev).putBit F.HRV_STAT_trig 1 true) ∧
       exec .supplyLoss s = .next (s.putBit F.HRV_STAT_trig 2 true)) ∧
     (s.hrvState ≤ 1 → exec .connDetBreak s = .next (((s.setIso false).putBit F.HRV_STAT_trig 0 true).harvest) ∧
       exec .reverseCurrent s = .next ((((s.setIso false).raise F.HRV_ERR_rev).putBit F.HRV_STAT_trig 1 true).harvest) ∧
       exec .supplyLoss s = .next ((s.putBit F.HRV_STAT_trig 2 true).harvest))) ∧
  (∀ (p : Path) (v : Word) (s : State), s.accepts p R.HRV_CMD v = true → v.getLsbD 31 = true → v.getLsbD 30 = false →
     (s.factory = false → exec (.hrvForce p v) s = .next (s.ignoreRule p R.HRV_CMD)) ∧
     (s.factory = true → s.hrv.ramped = true → (2 ≤ s.hrvState → exec (.hrvForce p v) s = .next (s.putBit F.HRV_STAT_trig 3 true)) ∧
       (s.hrvState ≤ 1 → exec (.hrvForce p v) s = .next ((s.putBit F.HRV_STAT_trig 3 true).harvest)))) ∧
  (∀ s : State, s.hrv.ramped = false → let u := s.setIso false; let back (s : State) : State :=
       { (s.setIso false).put F.HRV_STAT_ramp 0 with boot := { s.boot with phase := 0 } }
     (s.boot.phase ≤ 1 → exec .connDetBreak s = .next (back u) ∧ exec .reverseCurrent s = .next (back (u.raise F.HRV_ERR_rev)) ∧ exec .supplyLoss s = .next (back s)) ∧
     (1 < s.boot.phase → exec .connDetBreak s = .next u ∧ exec .reverseCurrent s = .next (u.raise F.HRV_ERR_rev) ∧ exec .supplyLoss s = .next s))

/-- Where diapause is active, THERMAL_CRITICAL after 100 ms above tcrit posts a record and changes no register outside ALR and
EVT, and DOUBLE_FAULT with a faulty chopper leaves HRV_DIAP as it is, keeps ISO_N deasserted, sets HRV_ERR.double and applies
the zero vector. Without diapause they enter it with cause 05h and 06h. THERMAL_CRITICAL without the 100 ms, and DOUBLE_FAULT
with a sound chopper, change nothing. DIAPAUSE_COMMIT_DONE ends the commit: the covered and write-through blocks leave the pool,
and the controlled stop, except for cause 06h, and the flush of the event recorder follow; after the commit of a warm reset the
heads unload. -/
def Obligations.DiapauseKeepsItsFirstCause : Prop :=
  (∀ s : State, (s.hrv.critSince = none → exec .thermalCritical s = .next s) ∧ (s.hrv.critSince.isSome = true → ∃ t, exec .thermalCritical s = .next t ∧
     (s.diapause = false → t = s.diapauseFor 5) ∧
     (s.diapause = true → t = s.post 1 0x12 [5] ∧ ∀ a, a / 0x10000 ≠ 2 → a / 0x10000 ≠ 3 → t.reg a = s.reg a))) ∧
  (∀ s : State, (s.chopFaulty = false → exec .doubleFault s = .next s) ∧ (s.chopFaulty = true → ∃ t, exec .doubleFault s = .next t ∧
     (s.diapause = false → t = (((s.setIso false).raise F.HRV_ERR_double).onSpn (fun x => { x with zv := true })).diapauseFor 6) ∧
     (s.diapause = true → t.get F.HRV_DIAP_active = s.get F.HRV_DIAP_active ∧ t.get F.HRV_DIAP_cause = s.get F.HRV_DIAP_cause ∧
       t.get F.HRV_STAT_iso = 0 ∧ t.spn.zv = true))) ∧
  (∀ s : State, s.hrv.commit ≠ 0 → s.hrv.phase = 6 →
     let a := if s.get F.HRV_HRES_result = 0 then s.put F.HRV_HRES_result (s.harvestResult s.lostNow) else s
     let safe (w : WBlk) : Bool := w.st == .dirty || w.st == .wt
     let b := ((a.onHrv (fun h => { h with commit := 0, phase := 0, dealt := [] })).onBuf (fun x => { x with blks := x.blks.filter (fun w => !(safe w)) })).syncDirty
     (s.hrv.commit = 1 → let u := b.unloadAll; exec .diapauseCommitDone s = .next { u with boot := { b.boot with warm := 2 } }) ∧
     (s.hrv.commit ≠ 1 → let c := b.fwEvent 6
       (c.get F.HRV_DIAP_cause = 6 → exec .diapauseCommitDone s = .next c.askFlush) ∧
       (c.get F.HRV_DIAP_cause ≠ 6 → exec .diapauseCommitDone s = .next c.stopSpin.askFlush)))

/-- HRV_BUDGET_COMPUTE computes the budget with HRV_CTL.arm at 1 and sets it to zero with arm at 0. A write of HRV_CTL takes its
value: outside a harvest and DONE it moves DISARMED to ARMED, and disarming sets the budget to zero; arming in diapause is
ignored with cause 101b. CHOP is driven above chon unless the chopper is short, and released below choff. Out of range current
sets chopopen or chopshort; a test pulse outside a harvest drives CHOP and is checked as it ends. HOLD below 10.0 V ends coast
writing with the move to COMMIT. Parking that has not ended in time ends with the actuators then loaded. -/
def Obligations.BudgetArmingAndChopper : Prop :=
  (∀ s : State, (s.flag F.HRV_CTL_arm = true → exec .hrvBudgetCompute s = .next s.computeBudget) ∧
     (s.flag F.HRV_CTL_arm = false → exec .hrvBudgetCompute s = .next (s.setBudget 0))) ∧
  (∀ (p : Path) (v : Word) (s : State), s.accepts p R.HRV_CTL v = true → let t := s.take R.HRV_CTL v
     (v.getLsbD 0 = true → s.diapause = true → exec (.hrvCtlArm p v) s = .next (s.ignoreRule p R.HRV_CTL)) ∧
     (¬(v.getLsbD 0 = true ∧ s.diapause = true) →
       (t.harvesting = true ∨ t.hrvState = 7 → exec (.hrvCtlArm p v) s = .next t) ∧
       (t.hrvState ≤ 1 → t.flag F.HRV_CTL_arm = true → exec (.hrvCtlArm p v) s = .next (if t.hrvState = 0 then t.put F.HRV_STAT_state 1 else t)) ∧
       (t.hrvState ≤ 1 → t.flag F.HRV_CTL_arm = false → exec (.hrvCtlArm p v) s = .next ((t.put F.HRV_STAT_state 0).setBudget 0)))) ∧
  (∀ (mbus : Nat) (s : State), let t := s.put F.HRV_MSNS_mbus (mbus / 10)
     (s.hrv.chopShort = false → t.get F.HRV_BUS_chon * 100 < mbus → exec (.chopperOn mbus) s = .next (t.onHrv (fun h => { h with chop := true }))) ∧
     (s.hrv.chopShort = true ∨ mbus ≤ t.get F.HRV_BUS_chon * 100 → exec (.chopperOn mbus) s = .next t) ∧
     (mbus < t.get F.HRV_BUS_choff * 100 → exec (.chopperOff mbus) s = .next (t.onHrv (fun h => { h with chop := false }))) ∧
     (t.get F.HRV_BUS_choff * 100 ≤ mbus → exec (.chopperOff mbus) s = .next t)) ∧
  (∀ (isns : Byte) (s : State), let t := s.put F.HRV_MSNS_chop isns.toNat
     (s.hrv.chop = true → isns.toNat < t.get F.HRV_CHOP_imin → exec (.chopperFault isns) s = .next ((t.raise F.HRV_ERR_chopopen).onHrv (fun h => { h with chopOpen := true }))) ∧
     (s.hrv.chop = false → t.get F.HRV_CHOP_ileak < isns.toNat → exec (.chopperFault isns) s = .next ((t.raise F.HRV_ERR_chopshort).onHrv (fun h => { h with chopShort := true })))) ∧
  (∀ (p : Path) (v : Word) (s : State), s.accepts p R.HRV_CMD v = true → v.getLsbD 31 = false → v.getLsbD 30 = true → s.harvesting = false →
     exec (.chopTest p v) s = .next (if s.hrv.chopTest then s else s.onHrv (fun h => { h with chopTest := true, chop := !h.chopShort }))) ∧
  (∀ (isns : Byte) (s : State), s.hrv.chopTest = true → let t := s.chopCheck isns
     let on := decide (t.get F.HRV_BUS_chon * 10 < t.get F.HRV_MSNS_mbus) && !t.hrv.chopShort
     exec (.chopTestEnd isns) s = .next (t.onHrv (fun h => { h with chopTest := false, chop := on }))) ∧
  (∀ (hold : Nat) (s : State), let u := s.put F.HRV_VSNS_hold (hold / 10)
     (10000 ≤ hold ∨ u.coasting = false ∨ s.hrv.holdLow = true → exec (.holdLow hold) s = .next u) ∧
     (hold < 10000 → u.coasting = true → s.hrv.holdLow = false → let v := u.onHrv (fun h => { h with holdLow := true })
       v.hstep = 3 ∨ v.hstep = 4 → let w := v.onHrv (fun h => { h with dealt := [] })
       (w.coastLanes ≠ [] → exec (.holdLow hold) s = .next w.beginCommit) ∧
       (w.coastLanes = [] → exec (.holdLow hold) s = .next (if w.harvesting then w.beginPark else w.onHrv (fun h => { h with phase := 6 }))))) ∧
  (∀ s : State, s.hrvState = 6 → s.hrv.parked = false → exec .parkTimeout s = .next (s.endPark (s.get F.SRV_STAT_loaded)))

/-- For a channel in RUN with no move in progress whose next 16 bytes lie in HBM: an instruction with a reserved opcode or a
reserved byte that is not zero is a fault of code Dh. Otherwise END latches its address and halts the channel, or with the
doorbell flag set clears it and stays; LOOP opens a loop at the next instruction, skips its body for count 0, and at a third
level is a fault of code Ah; ENDL returns to the body or leaves the loop, and without one is a fault of code Bh; WAIT goes on
with its signal set, clearing it with consume, and else waits; SIG sets its signal, and the channel's interrupt where asked;
JUMP goes to its target, or is a fault of code Ch; MOVE and MOVS begin their move. -/
def Obligations.InstructionsOfAChannel : Prop :=
  (∀ (n : Fin 16) (s : State), s.chState n = 1 → s.dma[n].mv = none → s.dma[n].pc + 16 ≤ s.variant.hbmBytes →
     let pc := s.dma[n].pc; let i := s.insAt pc; let op := byteAt i 0
     (insReserved i = true →
       (op = 0x00 → exec (.dmaEnd n) s = .next (let t := s.latchEnd n pc
         if t.flag (F.DMA_CH_STAT_db n) then t.put (F.DMA_CH_STAT_db n) 0 else t.put (F.DMA_CH_STAT_state n) 3)) ∧
       (op = 0x01 → exec (.dmaMove n) s = .next (State.beginDma n false i s)) ∧
       (op = 0x02 → exec (.movs n) s = .next (State.beginDma n true i s)) ∧
       (op = 0x10 → let count := insField i 2 4
         (2 ≤ s.dma[n].loops.length → exec (.dmaLoop n) s = .next (s.chFault n 0xA)) ∧
         (s.dma[n].loops.length < 2 → (count = 0 → exec (.dmaLoop n) s = .next (s.goTo n (s.skipLoop (s.variant.hbmBytes / 16) (pc + 16) 0))) ∧
           (count ≠ 0 → let l : DmaLoop := ⟨pc + 16, count, 0, sInt 32 (insField i 6 4), sInt 32 (insField i 10 4)⟩
             exec (.dmaLoop n) s = .next ((s.setLoops n (l :: s.dma[n].loops)).goTo n (pc + 16))))) ∧
       (op = 0x11 → (s.dma[n].loops = [] → exec (.endl n) s = .next (s.chFault n 0xB)) ∧
         (∀ l rest, s.dma[n].loops = l :: rest →
           (1 < l.left → exec (.endl n) s = .next ((s.setLoops n ({ l with left := l.left - 1, i := l.i + 1 } :: rest)).goTo n l.body)) ∧
           (l.left ≤ 1 → exec (.endl n) s = .next ((s.setLoops n rest).goTo n (pc + 16))))) ∧
       (op = 0x20 → let g := insField i 2 1; let eat := insField i 1 1 == 1
         (s.sig g = true → exec (.dmaWait n) s = .next ((if eat then s.setSig g false else s).goTo n (pc + 16))) ∧
         (s.sig g = false → exec (.dmaWait n) s = .next ((s.onDma n (fun c => { c with wait := some (g, eat) })).put (F.DMA_CH_STAT_state n) 2))) ∧
       (op = 0x30 → let t := s.setSig (insField i 2 1) true
         (insField i 1 1 = 1 → let u := t.raiseAt F.DMA_INT_ch n; exec (.sig n) s = .next (u.goTo n (u.dma[n].pc + 16))) ∧
         (insField i 1 1 ≠ 1 → exec (.sig n) s = .next (t.goTo n (pc + 16)))) ∧
       (op = 0x40 → let tgt := insField i 6 5
         (tgt % 16 = 0 → exec (.dmaJump n) s = .next (s.goTo n tgt)) ∧ (tgt % 16 ≠ 0 → exec (.dmaJump n) s = .next (s.chFault n 0xC))))) ∧
  (∀ (n : Fin 16) (s : State), s.chState n = 1 → s.dma[n].mv = none → s.dma[n].pc + 16 ≤ s.variant.hbmBytes →
     let i := s.insAt s.dma[n].pc; let op := byteAt i 0
     (op ∉ [0x00#8, 0x01#8, 0x02#8, 0x10#8, 0x11#8, 0x20#8, 0x30#8, 0x40#8] →
       ∀ c ∈ [Instr.dmaEnd n, .dmaMove n, .movs n, .dmaLoop n, .endl n, .dmaWait n, .sig n, .dmaJump n], exec c s = .next (s.chFault n 0xD)) ∧
     (insReserved i = false → (op = 0x01 → exec (.dmaMove n) s = .next (s.chFault n 0xD)) ∧ (op = 0x10 → exec (.dmaLoop n) s = .next (s.chFault n 0xD)) ∧
       (op = 0x20 → exec (.dmaWait n) s = .next (s.chFault n 0xD)) ∧ (op = 0x40 → exec (.dmaJump n) s = .next (s.chFault n 0xD))))

/-- A write of DMA_CHn_CTL, or of DMA_CHn_DB, for a BUF channel is ignored with cause 101b. For a firmware channel start, in
IDLE or FAULT, runs it at DMA_CHn_PC with the doorbell flag clear, and else is ignored with cause 101b; resume in ERROR repeats
the failing beat; abort puts it in IDLE. A doorbell in ENDHALT fetches again at the END, and else sets the flag. DMA_SIGSET and
DMA_SIGCLR set and clear the signals written 1. A satisfied wait goes on unless a lower channel consumes the signal. A burst
whose port does not ask waits; else it moves, and the last one retires the move. A slot of a descriptor without a reserved value
becomes valid as its second word is written. -/
def Obligations.ChannelsSignalsAndBursts : Prop :=
  (∀ (p : Path) (n : Fin 16) (v : Word) (s : State), s.accepts p (R.DMA_CH_CTL n) v = true →
     (n.val < 8 → exec (.dmaChStart p n v) s = .next (s.ignoreRule p (R.DMA_CH_CTL n)) ∧ exec (.dmaChAbort p n v) s = .next (s.ignoreRule p (R.DMA_CH_CTL n))) ∧
     (8 ≤ n.val →
       (v.getLsbD 31 = true → 1 ≤ s.chState n → s.chState n ≤ 4 → exec (.dmaChStart p n v) s = .next (s.ignoreRule p (R.DMA_CH_CTL n))) ∧
       (v = 0x80000000 → s.chState n = 0 ∨ s.chState n = 5 → exec (.dmaChStart p n v) s = .next ((((s.setLoops n []).goTo n
         (s.get (F.DMA_CH_PCLO_a n) * 16 + s.get (F.DMA_CH_PCHI_a n) * 2 ^ 32)).put (F.DMA_CH_STAT_db n) 0).put (F.DMA_CH_STAT_state n) 1)) ∧
       (v = 0x40000000 → s.chState n = 4 → exec (.dmaChResume p n v) s = .next (s.put (F.DMA_CH_STAT_state n) 1)) ∧
       (v = 0x40000000 → s.chState n ≠ 4 → exec (.dmaChResume p n v) s = .next (s.ignoreRule p (R.DMA_CH_CTL n))) ∧
       (v = 0x20000000 → exec (.dmaChAbort p n v) s = .next (((s.setLoops n []).goTo n 0).put (F.DMA_CH_STAT_state n) 0)))) ∧
  (∀ (p : Path) (n : Fin 16) (v : Word) (s : State), s.accepts p (R.DMA_CH_DB n) v = true → v.getLsbD 0 = true →
     (n.val < 8 → exec (.dmaDoorbell p n v) s = .next (s.ignoreRule p (R.DMA_CH_DB n))) ∧
     (8 ≤ n.val → (s.chState n = 3 → exec (.dmaDoorbell p n v) s = .next (((s.goTo n (s.get (F.DMA_CH_ENDALO_a n) * 16 +
         s.get (F.DMA_CH_ENDAHI_a n) * 2 ^ 32)).put (F.DMA_CH_STAT_db n) 0).put (F.DMA_CH_STAT_state n) 1)) ∧
       (s.chState n ≠ 3 → exec (.dmaDoorbell p n v) s = .next (s.put (F.DMA_CH_STAT_db n) 1)))) ∧
  (∀ (p : Path) (v : Word) (s : State),
     (s.accepts p R.DMA_SIGSET0 v = true → exec (.dmaSigset p 0 v) s = .next (s.setReg R.DMA_SIG0 (s.reg R.DMA_SIG0 ||| v))) ∧
     (s.accepts p R.DMA_SIGSET1 v = true → exec (.dmaSigset p 1 v) s = .next (s.setReg R.DMA_SIG1 (s.reg R.DMA_SIG1 ||| v))) ∧
     (s.accepts p R.DMA_SIGCLR0 v = true → exec (.dmaSigclr p 0 v) s = .next (s.setReg R.DMA_SIG0 (s.reg R.DMA_SIG0 &&& ~~~v))) ∧
     (s.accepts p R.DMA_SIGCLR1 v = true → exec (.dmaSigclr p 1 v) s = .next (s.setReg R.DMA_SIG1 (s.reg R.DMA_SIG1 &&& ~~~v)))) ∧
  (∀ (n : Fin 16) (g : Nat) (eat : Bool) (s : State), s.dma[n].wait = some (g, eat) → s.sig g = true →
     let ahead := (List.range n).any (fun k => (s.dma[Fin.ofNat 16 k]).wait == some (g, true))
     (eat = false ∨ ahead = false → exec (.dmaWaitSatisfied n) s = .next ((if eat then s.setSig g false else s).goTo n (s.dma[n].pc + 16) |>.put (F.DMA_CH_STAT_state n) 1)) ∧
     (eat = true → ahead = true → exec (.dmaWaitSatisfied n) s = .next s)) ∧
  (∀ (n : Fin 16) (rest : Bool) (bad : Option Nat) (inp : List Byte) (m : DmaMove) (s : State), s.dma[n].mv = some m → s.chState n = 1 ∨ s.chState n = 2 →
     (s.portWaits rest m.src = true ∨ s.portWaits rest m.dst = true → exec (.dmaBurst n rest bad inp) s = .next (s.put (F.DMA_CH_STAT_state n) 2)) ∧
     (s.portWaits rest m.src = false → s.portWaits rest m.dst = false → let a := s.put (F.DMA_CH_STAT_state n) 1
       let t := if byteAt m.bytes 0 = 2 then a.moveTile n m bad inp else a.beats n m bad inp 65 0 0
       (t.dma[n].mv = none → exec (.dmaBurst n rest bad inp) s = .next t) ∧
       (∀ m, t.dma[n].mv = some m → exec (.dmaBurst n rest bad inp) s = .next (if t.chState n = 1 ∧ m.len ≤ m.off then t.retire n m else t)))) ∧
  (∀ (p : Path) (k : Fin 16) (v : Word) (s : State),
     (s.accepts p (R.SHF_SLOT_D0 k) v = true → (k.val < 12 → exec (.shfSlotWrite p k false v) s = .next (s.ignoreRule p (R.SHF_SLOT_D0 k))) ∧
       (12 ≤ k.val → exec (.shfSlotWrite p k false v) s = .next (s.setReg (R.SHF_SLOT_D0 k) v))) ∧
     (s.accepts p (R.SHF_SLOT_D1 k) v = true → 12 ≤ k.val → let t := s.setReg (R.SHF_SLOT_D1 k) v
       (t.descOk (t.slotDesc k) = true → exec (.shfSlotWrite p k true v) s = .next (t.putBit F.SHF_STAT_valid k true)) ∧
       (t.descOk (t.slotDesc k) = false → exec (.shfSlotWrite p k true v) s = .next ((t.putBit F.SHF_STAT_valid k false).raise F.SHF_ERR_desc))))

/-- A write of MAP_CTL with ckpt_mib from 4 to 32 takes its value: en enables a disabled cache, and en at 0 starts the drain of
an enabled or invalidating one, with its fills stale. MAP_CMD.inv invalidates an enabled cache and is else ignored with cause
101b; ckpt starts a checkpoint unless one is busy. A stale fill is counted, another installed. A clean cache is disabled or
enabled again. An open journal tile closes 100 ms after its first record, and one on media in both copies adds to MAP_JFILL and
lands its records. A checkpoint whose lanes are all in service has its two copies on media, and the keel update that names it
begins; where a lane left it has failed, with a new request. A return home in the background time of its lane reads the tile
that is next in its stripe, or a group of NSID 2; when it has been read and merged it is queued to its home slot; and when it is
there, the extent is journalled as home once nothing of it is left in the saltern, before the slots are released and the overlay
entries deleted. -/
def Obligations.MapCacheJournalAndReturnHome : Prop :=
  (∀ (p : Path) (v : Word) (s : State), s.accepts p R.MAP_CTL v = true → 4 ≤ F.MAP_CTL_ckpt_mib.of v → F.MAP_CTL_ckpt_mib.of v ≤ 32 →
     let st := s.get F.MAP_CSTAT_state; let t := s.take R.MAP_CTL v
     (v.getLsbD 0 = true → (st = 0 → exec (.mapCtlEn p v) s = .next (t.put F.MAP_CSTAT_state 1)) ∧ (st = 2 → exec (.mapCtlEn p v) s = .next (s.ignoreRule p R.MAP_CTL)) ∧
       (st = 1 ∨ st = 3 → exec (.mapCtlEn p v) s = .next t)) ∧
     (v.getLsbD 0 = false → (st = 1 → exec (.mapCtlEn p v) s = .next ((t.put F.MAP_CSTAT_state 2).staleFills)) ∧
       (st = 3 → exec (.mapCtlEn p v) s = .next (t.put F.MAP_CSTAT_state 2)) ∧ (st = 0 ∨ st = 2 → exec (.mapCtlEn p v) s = .next t))) ∧
  (∀ (p : Path) (s : State),
     (s.accepts p R.MAP_CMD 1 = true → (s.get F.MAP_CSTAT_state = 1 → exec (.mapCmdInv p 1) s = .next ((s.put F.MAP_CSTAT_state 3).staleFills)) ∧
       (s.get F.MAP_CSTAT_state ≠ 1 → exec (.mapCmdInv p 1) s = .next (s.ignoreRule p R.MAP_CMD))) ∧
     (s.accepts p R.MAP_CMD 2 = true → (s.flag F.MAP_CKSTAT_busy = false → 4 ≤ s.boot.ready → exec (.mapCmdCkpt p 2) s = .next s.ckptStart) ∧
       (s.flag F.MAP_CKSTAT_busy = true → exec (.mapCmdCkpt p 2) s = .next (s.ignoreRule p R.MAP_CMD)))) ∧
  (∀ (line : Nat) (stale : Bool) (rest : List (Nat × Bool)) (s : State), s.map.fills = (line, stale) :: rest →
     let left := rest.filter (fun f => f.1 != line)
     let t := (s.onMap (fun m => { m with fills := left })).put F.MAP_CSTAT_fill (if left.isEmpty then 0 else 1)
     exec .mapFillLand s = .next (if stale then t.inc F.MAP_STALECNT_count else t.install line)) ∧
  (∀ s : State, (s.get F.MAP_CSTAT_state = 2 → exec .mapCacheCleanDone s = .next (s.cleanCache.put F.MAP_CSTAT_state 0)) ∧
     (s.get F.MAP_CSTAT_state = 3 → exec .mapCacheCleanDone s = .next (s.cleanCache.put F.MAP_CSTAT_state 1))) ∧
  (∀ s : State, s.openRecs ≠ [] → 100000 ≤ s.us - s.map.jsince → s.draining = false → exec .journalTileTimeout s = .next s.closeJournal.pump) ∧
  (∀ (t : JTile) (rest : List JTile) (s : State), s.draining = false → s.map.jout = t :: rest →
     let u := ((s.onMap (fun m => { m with jout := rest })).add F.MAP_JFILL_kib 16).landRecords t.last
     (2 ≤ t.done → exec .journalTileOnMedia s = .next (if u.get F.MAP_CTL_ckpt_mib * 1024 ≤ u.get F.MAP_JFILL_kib then
       (if u.flag F.MAP_CKSTAT_busy then u else u.put F.MAP_CKSTAT_req 1) else u).pump) ∧
     (t.done < 2 → exec .journalTileOnMedia s = .next s.pump)) ∧
  (∀ (retried : Bool) (j : CkJob) (s : State), s.map.ckpt = some j → j.copied = false → s.draining = false →
     ((∃ n ∈ j.lanes, n ∉ s.lanesIn) → exec (.checkpointDone retried) s = .next
       ((((s.onMap (fun m => { m with ckpt := none })).put F.MAP_CKSTAT_busy 0).put F.MAP_CKSTAT_last 3).put F.MAP_CKSTAT_req 1)) ∧
     ((∀ n ∈ j.lanes, n ∈ s.lanesIn) → let c := s.ckptNow j.seq; let ls := ckptLanes j.lanes
       let a := s.onMedia (fun d => { d with ck := d.ck.filter (fun x => x.area != j.area) ++
         [{ area := j.area, copy := 0, lanes := ls.1, ckpt := c }, { area := j.area, copy := 1, lanes := ls.2, ckpt := c }] })
       let b := a.onMap (fun m => { m with ckpt := some { j with copied := true, retried := retried } })
       exec (.checkpointDone retried) s = .next (b.keelBegin (b.newKeel j.area j.seq ls)).pump)) ∧
  (∀ (key : Nat) (srcs : List RSrc) (s : State), s.draining = false → 4 ≤ s.boot.ready → let z := key / 16384; let home := entLane (s.entry (key / 128))
     let es := s.overlay 1 key (s.zone z).gen
     let tile : RTile := { lba := 4 * key, st := 0, code := 0, at_ := s.us, srcs := srcs, data := List.replicate 16384 0 }
     s.returnBusy 1 z home = false → s.returnNext z home = some key → s.backgroundFits home = true → es ≠ [] → s.resolve1 key 15 = some srcs →
     srcs ≠ [] → (∀ y ∈ srcs, y.lane ∈ s.lanesIn ∧ s.runs y.lane = true) → home ∈ s.lanesIn → s.runs home = true →
     exec (.returnHome 1 key) s = .next (doAll srcs (fun x u => u.addWork (Fin.ofNat 4 x.lane) (u.readCmd 0 1 (4 * key) none x)) (s.onMap (fun m => { m with
       ret := m.ret ++ [{ ns := 1, key := key, gen := (s.zone z).gen, tile := tile, left := 0, ents := es.map (·.1), urgent := false, lane := home, since := s.us }] }))).pump) ∧
  (∀ (key l : Nat) (pl : Nat × Nat × Nat) (found : List RSrc) (s : State), s.draining = false → 4 ≤ s.boot.ready → s.sectorOf key = some (l, pl) →
     let es := s.overlay 2 key 0; let srcs := found.filter (·.coast)
     let tile : RTile := { lba := key, st := 0, code := 0, at_ := s.us, srcs := srcs, data := List.replicate 16384 0 }
     s.returnBusy 2 0 0 = false → s.backgroundFits l = true → es ≠ [] → s.resolve2 key 15 = some found → srcs ≠ [] →
     (∀ y ∈ srcs, y.lane ∈ s.lanesIn ∧ s.runs y.lane = true) → l ∈ s.lanesIn → s.runs l = true → (∀ k < 4, s.poolBlk 2 (key + k) = none) →
     exec (.returnHome 2 key) s = .next (doAll srcs (fun x u => u.addWork (Fin.ofNat 4 x.lane) (u.readCmd 0 2 key none x)) (s.onMap (fun m => { m with
       ret := m.ret ++ [{ ns := 2, key := key, gen := 0, tile := tile, left := 0, ents := es.map (·.1), urgent := false, lane := (srcs.head?.map (·.lane)).getD l, since := s.us }] }))).pump) ∧
  (∀ (r : RetJob) (s : State), r.ns = 1 → r.urgent = true → let v := s.entry (r.key / 128); let d := s.zone (r.key / 16384)
     let u := s.onMap (fun m => { m with ret := m.ret.filter (fun x => x != r) })
     let es := (r.ents.map (fun i => (i, u.ovlAt i))).filter (fun e => ovlUse e.2 == 1)
     let more := u.map.ovl.any (fun e => ovlUse e.2 == 1 && ovlNs e.2 == 1 && ovlKey e.2 / 128 == r.key / 128 && ovlGen e.2 == r.gen && !(r.ents.contains e.1))
     let w := s.onMap (fun m => { m with ret := m.ret.map (fun x => if x = r then { x with left := 1 } else x) })
     (∀ tr sl, s.tileSlot v d.rate (r.key % 128) = some (tr, sl) → s.returnWrite r = w.addWork (Fin.ofNat 4 (entLane v)) {
       op := 1, surface := entSurface v, track := tr, start := sl, qtr := 0, count := 1, modsel := tileModsel d.rate,
       mask := w.goodMask (entSurface v) tr (w.slotsAt tr d.rate), tag := 0, deadline := none, cancelled := false,
       units := [MUnit.mk 0 (4 * r.key) d.gen 0 d.shuf 0 (w.homeOrder (4 * r.key) false r.tile.data)] }) ∧
     (more = false → s.returnDone r = (u.journalEntry (r.key / 128) (withState (u.entry (r.key / 128)) 1)).deleteEntries es) ∧
     (more = true → s.returnDone r = u.deleteEntries es))

/-- Where two copies of a word agree, a bit that changes in the third, and an injection of TMR_INJD into it by an accepted write
of TMR_INJ, leave all three copies equal to those two; TMR_FIXCNT is one higher and TMR_FIX names the copy and the word where
the third differed then. A change of a bit that leaves the three copies pairwise different enters diapause with cause 02h. An
injection that names copy 3 is ignored with cause 101b. In any other memory a change of a stored bit is kept with the word until
it is read or written. -/
def Obligations.VoterCorrectsACopy : Prop :=
  (∀ (p : Path) (v : Word) (s : State), s.accepts p R.TMR_INJ v = true → v.getLsbD 31 = true →
     (F.TMR_INJ_copy.of v = 3 → exec (.tmrInj p v) s = .next (s.ignoreRule p R.TMR_INJ)) ∧
     ∀ (w : Fin 8) (k : Fin 3) (x : Word), F.TMR_INJ_word.of v = w → F.TMR_INJ_copy.of v = k → (∀ c : Fin 3, c ≠ k → s.reg (copyReg w c) = x) →
       ∃ t, exec (.tmrInj p v) s = .next t ∧ (∀ c : Fin 3, t.reg (copyReg w c) = x) ∧
         (s.reg R.TMR_INJD ≠ x → t.get F.TMR_FIXCNT_count = (s.get F.TMR_FIXCNT_count + 1) % 2 ^ 32 ∧ t.get F.TMR_FIX_valid = 1 ∧
           t.get F.TMR_FIX_copy = k ∧ t.get F.TMR_FIX_word = w)) ∧
  (∀ (w : Fin 8) (k : Fin 3) (b : Fin 32) (s : State), let y := s.reg (copyReg w k) ^^^ BitVec.ofNat 32 (2 ^ b.val)
     (∀ x, (∀ c : Fin 3, c ≠ k → s.reg (copyReg w c) = x) → ∃ t, exec (.memoryBitError (.changeTmr w k b)) s = .next t ∧ (∀ c : Fin 3, t.reg (copyReg w c) = x) ∧
       (y ≠ x → t.get F.TMR_FIXCNT_count = (s.get F.TMR_FIXCNT_count + 1) % 2 ^ 32 ∧ t.get F.TMR_FIX_valid = 1 ∧
         t.get F.TMR_FIX_copy = k ∧ t.get F.TMR_FIX_word = w)) ∧
     (let u := s.setReg (copyReg w k) y; (∀ c d : Fin 3, c ≠ d → u.reg (copyReg w c) ≠ u.reg (copyReg w d)) →
       exec (.memoryBitError (.changeTmr w k b)) s = .next (u.diapauseFor 2))) ∧
  (∀ (m : Fin 12) (i : Fin 8) (a : BitVec 31) (b : Fin 72) (place : HbmPlace) (n : Fin 4) (w : Fin 4096) (c : Fin 160) (s : State),
     let new (l : Lane) : BitVec 160 := cget (fun _ => (0 : BitVec 160)) l.cs w.val ^^^ BitVec.ofNat 160 (2 ^ c.val)
     (s.instOk m i = true → let p := s.poisonAt m i a.toNat
       let q := if b.val < 64 then { p with data := p.data ^^^ 2 ^ b.val } else { p with check := p.check ^^^ 2 ^ (b.val - 64) }
       exec (.memoryBitError (.change m i a b)) s = .next (s.setPoison q)) ∧
     (s.instOk m i = true → s.memDown m i = false → exec (.memoryBitError (.read m i a place)) s = .next (s.readAt m i a.toNat place) ∧
       exec (.memoryBitError (.write m i a)) s = .next (s.wroteWords m i a.toNat 1 none)) ∧
     exec (.memoryBitError (.changeStore n w c)) s = .next (s.onLane n (fun l => { l with cs := cset (fun _ => (0 : BitVec 160)) w.val (new l) l.cs })))

/-- A flip is armed, and split mode entered, by a write that R567 and R568 allow, and else the write is ignored with cause 101b;
clr zeroes the counters. A mismatch is recorded with its group and cycle and enters diapause with cause 01h, but is only noted
where the comparator is diverted; a failed test of the comparator enters it too. The rake reads the word at a cursor that it
serves, repairs it and counts that, handles an uncorrectable one, and ends or overruns its laps. A slice starts where R586
allows, and ends with its last block or its first failure. An ADC whose check fails sets its bit, and ADC 0 disarms HRV. -/
def Obligations.CheckersRakeAndSelfTest : Prop :=
  (∀ (p : Path) (v : Word) (s : State), s.accepts p R.ECC_FLIPCTL v = true → let m := F.ECC_FLIPCTL_mem.of v; let i := F.ECC_FLIPCTL_inst.of v
     let bad := s.flag F.ECC_FLIPCTL_arm = true ∨ s.flipWeight = 0 ∨ 12 ≤ m ∨ s.instOk m i = false ∨ s.memDown m i = true ∨
       s.factory = false ∧ 1 < s.flipWeight ∧ m ≤ 3
     (v.getLsbD 31 = true → (bad → exec (.eccFlipArm p v) s = .next (s.ignoreRule p R.ECC_FLIPCTL)) ∧
       (¬bad → exec (.eccFlipArm p v) s = .next (s.take R.ECC_FLIPCTL v))) ∧
     (v.getLsbD 31 = false → exec (.eccFlipArm p v) s = .next (s.take R.ECC_FLIPCTL v))) ∧
  (∀ (p : Path) (v : Word) (s : State), s.accepts p R.ECC_SPLITCTL v = true → v.getLsbD 31 = true → let m := F.ECC_SPLITCTL_mem.of v
     (s.factory = true → 4 ≤ m → m ≤ 9 → ¬(s.flag F.ECC_FLIPCTL_arm = true ∧ s.get F.ECC_FLIPCTL_mem = m) → exec (.eccSplitEn p v) s = .next (s.take R.ECC_SPLITCTL v)) ∧
     (s.factory = false ∨ m < 4 ∨ 9 < m ∨ s.flag F.ECC_FLIPCTL_arm = true ∧ s.get F.ECC_FLIPCTL_mem = m → exec (.eccSplitEn p v) s = .next (s.ignoreRule p R.ECC_SPLITCTL))) ∧
  (∀ (p : Path) (v : Word) (s : State), s.accepts p R.ECC_CTL v = true → v.getLsbD 31 = true →
     exec (.eccCtlClr p v) s = .next (doAll (List.range 12) (fun m s => (s.put (F.ECC_CE_count m) 0).put (F.ECC_UE_count m) 0) s)) ∧
  (∀ (p : Path) (v : Word) (s : State), s.accepts p R.TMR_LSCTL v = true → v.getLsbD 30 = true →
     (¬(s.factory = true ∧ s.flag F.BUF_CTL_lock = false) → exec (.tmrLsctlInj p v) s = .next (s.ignoreRule p R.TMR_LSCTL)) ∧
     (s.factory = true ∧ s.flag F.BUF_CTL_lock = false → let f := (s.take R.TMR_LSCTL v).fresh
       exec (.tmrLsctlInj p v) s = .next (f.2.mismatch (f.2.get F.TMR_LSCTL_group) (ofInt 32 f.1)))) ∧
  (∀ (cyc : Word) (s : State), s.coreUp = true ∨ 3 ≤ s.boot.phase →
     (s.flag F.BUF_CTL_lock = false → exec (.lockstepMismatch none cyc) s = .next ((s.put F.TMR_LSSTAT_stfail 1).diapauseFor 1)) ∧
     ∀ g : Fin 8, s.flag F.TMR_LSSTAT_mism = false → (s.diverted = true → exec (.lockstepMismatch (some g) cyc) s = .next (s.put F.TMR_LSSTAT_tested 1)) ∧
       (s.diverted = false → exec (.lockstepMismatch (some g) cyc) s = .next ((((s.put F.TMR_LSSTAT_mism 1).put F.TMR_LSSTAT_group g).put
         F.TMR_LSCYC_cyc cyc.toNat).diapauseFor 1))) ∧
  (∀ (t : Fin 12) (place : HbmPlace) (ms : Word) (s : State), s.raking t = true →
     let cur := s.get (F.RAKE_CUR_addr t); let b := ((s.inc (F.RAKE_LAPCNT_count t)).put (F.RAKE_LAPTIME_ms t) ms.toNat).put (F.RAKE_CUR_addr t) 0
     (8 ≤ t.val → exec (.rakeScrub t place) s = .next (s.put (F.RAKE_CUR_addr t) ((cur + 1) % 4096))) ∧
     (t.val < 8 → let at_ := if t.val = 0 then s.afterBrine cur else cur; let w := rakeWord t at_
       let a := s.put (F.RAKE_CUR_addr t) (if t.val = 0 then s.afterBrine (at_ + 1) else at_ + 1)
       let r := a.readWords w.1 w.2.1 w.2.2 1 false none
       (r.1 = true → exec (.rakeScrub t place) s = .next (r.2.memBad w.1 w.2.1 w.2.2 place)) ∧
       (r.1 = false → exec (.rakeScrub t place) s = .next (if (s.poisonAt w.1 w.2.1 w.2.2).weight = 0 ∨ r.2.split w.1 w.2.1 then r.2
         else (r.2.wroteWords w.1 w.2.1 w.2.2 1 none).inc (F.RAKE_FIX_count t)))) ∧
     (exec (.rakeLapEnd t ms) s = .next (if 8 ≤ t.val then b.digestCheck (Fin.ofNat 4 (t.val - 8)) else b)) ∧
     exec (.rakeLapSlow t) s = .next (s.raiseAt F.RAKE_ERR_slow t)) ∧
  (∀ (p : Path) (v : Word) (s : State), s.accepts p R.ISST_CMD v = true → v.getLsbD 31 = true → let n := Fin.ofNat 4 (F.ISST_CMD_lane.of v)
     let part := F.ISST_CMD_part.of v
     let ok := F.ISST_CMD_len.of v ≠ 0 ∧ part ≤ 5 ∧ s.get F.ISST_STAT_state = 0 ∧ s.laneUp n = true ∧ (s.mcs n = 0 ∨ s.mcs n = 2 ∨ s.mcs n = 5) ∧
       (s.lane n).wfifo = 0 ∧ (s.lane n).port = [] ∧ s.flag (F.LANE_STAT_wg n) = false ∧ s.flag (F.LANE_STAT_rg n) = false ∧ s.harvesting = false ∧ s.diapause = false
     (ok → let a := (((s.take R.ISST_CMD v).put F.ISST_STAT_state 1).put F.ISST_STAT_lane (F.ISST_CMD_lane.of v)).put F.ISST_STAT_part part
       let b := a.put F.ISST_STAT_block (if part = 5 then 0 else a.get (F.ISST_POS_block n part))
       exec (.isstCmdGo p v) s = .next { b with integ := { b.integ with left := (s.take R.ISST_CMD v).get F.ISST_CMD_len, done := 0, again := false } }) ∧
     (¬ok → exec (.isstCmdGo p v) s = .next (s.ignoreRule p R.ISST_CMD))) ∧
  (∀ s : State, s.get F.ISST_STAT_state = 1 → exec (.isstBlockEnd false) s = .next (s.sliceOver false) ∧
     let part := s.get F.ISST_STAT_part; let next := s.get F.ISST_STAT_block + 1
     let a := s.put F.ISST_STAT_block (if part = 5 then next else next % partBlocks part)
     let b : State := { a with integ := { a.integ with left := a.integ.left - 1, done := a.integ.done + 1 } }
     exec (.isstBlockEnd true) s = .next (if b.integ.left = 0 then b.sliceOver true else b)) ∧
  (∀ (a : Fin 7) (s : State), s.flag F.ISST_SENSECFG_en = true → (a.val < 3 ∨ s.fitted (a.val - 3) = true) → 3 ≤ s.boot.phase →
     let t := (s.putBit F.ISST_SENSEST_fail a.val true).raise F.ISST_ERR_sense
     exec (.senseAdcCheck a true) s = .next (s.putBit F.ISST_SENSEST_fail a.val false) ∧
     exec (.senseAdcCheck a false) s = .next (if a.val = 0 ∧ t.boot.phase = 4 ∧ t.flag F.HRV_CTL_arm then t.writeHrvCtl .core 0 else t))

/-- An accepted write of ALR_CAUSE leaves each latch 0 to 23 as it was, but for those written 1 whose source bits all read 0,
which clear, and changes no other register. A temperature update shows the temperatures and sets the thermal bits as the
thresholds are crossed. A firmware post with a source other than 20h from cores 0 to 2 is ignored with cause 101b, one from core
3 has source 21h. tlock sets once and rewrites the early records. A flush writes its records page by page, skips a page after a
flash error, and ends or begins the one asked for meanwhile. An erase that ends empties its sector. A measurement interval
latches what it gathered and restarts; with period 0 nothing is gathered. -/
def Obligations.CausesEventsAndMeasurements : Prop :=
  (∀ (p : Path) (v : Word) (s : State), s.accepts p R.ALR_CAUSE v = true → ∃ t, exec (.alrCauseWrite p v) s = .next t ∧ (∀ a, a ≠ R.ALR_CAUSE → t.reg a = s.reg a) ∧
     ∀ c, c < 24 → t.bit F.ALR_CAUSE_c c = (s.bit F.ALR_CAUSE_c c && !(v.getLsbD c && s.sourcesClear c))) ∧
  (∀ (tj td hbm : Byte) (s : State), let old := sInt 8 (s.get F.ALR_TEMP_tj); let new := tj.toInt; let above := sInt 8 (s.get F.ALR_TTH_over)
     let under := sInt 8 (s.get F.ALR_TTH_under); let crit := sInt 8 (s.get F.HRV_DIAPCFG_tcrit)
     let a := (((s.put F.ALR_TEMP_tj tj.toNat).put F.ALR_TEMP_td td.toNat).put F.HBM_STAT_temp hbm.toNat).put F.HBM_STAT_hot (if 85 < hbm.toInt then 1 else 0)
     let high (o : Option Byte) (b : Byte) : Option Byte := match o with
       | some x => if x.toInt < b.toInt then some b else some x
       | none => some b
     let b : State := if a.get F.EVT_MEASCFG_period = 0 then a else { a with meas := { a.meas with tj := high a.meas.tj tj, td := high a.meas.td td } }
     let c : State := { b with hrv := { b.hrv with critSince := if crit < new then some (b.hrv.critSince.getD b.us) else none } }
     let d := if old < above ∧ above ≤ new then (c.raiseAt F.ALR_THERM_e 0).aen 1 1 2 else c
     let e := if d.flag F.ALR_TTH_underen = true ∧ under ≤ old ∧ new < under then (d.raiseAt F.ALR_THERM_e 1).aen 1 1 2 else d
     exec (.tempSensorUpdate tj td hbm) s = .next (if old ≤ crit ∧ crit < new then e.raiseAt F.ALR_THERM_e 2 else e)) ∧
  (∀ (p : Path) (c : Fin 4) (v : Word) (s : State), s.accepts p (R.EVT_SW_HDR c) v = true →
     let src := (F.EVT_SW_HDR_src c).of v; let t := s.take (R.EVT_SW_HDR c) v
     let rec_ := (List.range 8).flatMap (fun w => leBytes 4 (t.reg (R.EVT_SW_P c w)).toNat)
     (v.getLsbD 31 = false → exec (.evtSwPost p c v) s = .next t) ∧
     (v.getLsbD 31 = true → (c ≠ 3 → src ≠ 0x20 → exec (.evtSwPost p c v) s = .next (s.ignoreRule p (R.EVT_SW_HDR c))) ∧
       (c = 3 → exec (.evtSwPost p c v) s = .next (t.post 0x21 ((F.EVT_SW_HDR_code c).of v) rec_)) ∧
       (c ≠ 3 → src = 0x20 → exec (.evtSwPost p c v) s = .next (t.post 0x20 ((F.EVT_SW_HDR_code c).of v) rec_)))) ∧
  (∀ (p : Path) (v : Word) (s : State),
     (s.accepts p R.EVT_CTL v = true → let t := s.put F.EVT_CTL_fold (F.EVT_CTL_fold.of v)
       exec (.evtTlock p v) s = .next (if v.getLsbD 31 = true ∧ t.flag F.EVT_CTL_tlock = false then t.lockTime else t)) ∧
     (s.accepts p R.EVT_CMD v = true → exec (.evtCmdFlush p v) s = .next (if v.getLsbD 31 then s.askFlush else s))) ∧
  (∀ s : State, s.flag F.EVT_STAT_flush = true → s.flushBlocked = false → s.flushLeft ≠ [] → exec (.evtFlushPageDone true) s = .next s.flushPage ∧
     let hd := s.get F.EVT_RINGHD_slot; let t := (s.raiseAt F.EVT_ERR_e 2).put F.EVT_RINGHD_slot (hd + (4 - hd % 4))
     exec (.evtFlushPageDone false) s = .next { t with evt := { t.evt with left := 0 } }) ∧
  (∀ s : State, s.flag F.EVT_STAT_flush = true → s.flushLeft = [] ∨ s.harvesting = true ∧ s.flushBlocked = true →
     let t : State := { s.put F.EVT_STAT_flush 0 with evt := { s.evt with left := 0 } }; let last : State := { t with evt := { t.evt with again := false } }
     (t.evt.again = true → ¬(t.harvesting = true ∧ t.flushBlocked = true) → exec .evtFlushDone s = .next last.askFlush) ∧
     (t.evt.again = false ∨ t.harvesting = true ∧ t.flushBlocked = true → (t.hrvState = 6 ∧ t.hrv.parked = true → exec .evtFlushDone s = .next (last.put F.HRV_STAT_state 7)) ∧
       (¬(t.hrvState = 6 ∧ t.hrv.parked = true) → exec .evtFlushDone s = .next t))) ∧
  (∀ (k : Nat) (s : State), s.evt.erase = some k → let t := s.put F.EVT_STAT_erase 0
     exec .evtSectorEraseDone s = .next { t with evt := { t.evt with erase := none, ring := t.evt.ring.filter (fun x => x.1 / 1024 != k) } }) ∧
  (∀ (vin hold mbus : BitVec 16) (s : State), (s.get F.EVT_MEASCFG_period = 0 → exec (.measurementIntervalEnd vin hold mbus) s = .next s) ∧
     (s.get F.EVT_MEASCFG_period ≠ 0 → let m := s.meas; let z (x : Nat) : Nat := if s.runs 5 then x else 0
       let a := (s.put F.EVT_MTEMP_tj ((m.tj.map (·.toNat)).getD 0)).put F.EVT_MTEMP_td ((m.td.map (·.toNat)).getD 0)
       let b := ((a.put F.EVT_MVOLT0_vin vin.toNat).put F.EVT_MVOLT0_hold hold.toNat).put F.EVT_MVOLT1_mbus mbus.toNat
       let c := ((b.put F.EVT_MDIRTY_kib m.dirty).put F.EVT_MVIB_peak (z m.vibPeak)).put F.EVT_MVIB_rms (z (rmsOf m.vibSq m.vibN))
       let d := doAll (List.range 4) (fun k => State.put (F.EVT_MPES_rms k) (z (rmsOf (m.pesSq.toList.getD k 0) (m.pesN.toList.getD k 0))))
         (c.put F.EVT_MSHOCK_count m.shocks)
       let e := d.inc F.EVT_MSTAT_seq; let log := if e.hrv.coresHalted then m.log else (e.measEntry :: m.log).take 256
       exec (.measurementIntervalEnd vin hold mbus) s = .next { e with meas := { MeasState.empty with log := log } }))

/-- While VDD_3V3 is present and a transaction names ALR_SMB.addr: F0h sets the register address, F1h answers the register
there, F2h writes a register, a write with a wrong PEC changes nothing, and code 00h answers the management data; at another
address nothing changes. The Alert Response Address, while ALR_CTL.ara is 1 and ALERT_N is driven and arbitration is won, is
answered with the own address, counts in aracnt and releases ALERT_N; otherwise nothing changes. A timeout drops the answer in
progress. Outside factory test mode every TAP instruction but IDCODE and SAMPLE/PRELOAD selects BYPASS. A PCIe error on a live
link sets its source bit and fails the data transfer that it hits. -/
def Obligations.SidebandAnswersAndAddresses : Prop :=
  (∀ (tgt : BitVec 7) (off : BitVec 6) (len : BitVec 7) (a v : Word) (pec : PecIn) (s : State),
     (tgt.toNat = s.get F.ALR_SMB_addr → s.boot.phase ≠ 6 →
       exec (.nvmeMiBasicManagement tgt off len) s = .next (s.answer (off.setWidth 8) (s.miBytes off.toNat (min len.toNat (64 - off.toNat)))) ∧
       exec (.smbusRegisterRead tgt) s = .next ((s.answer 0xF1 (4 :: leBytes 4 (s.readOut .smbus s.smb.addr).toNat)).readOne .smbus s.smb.addr) ∧
       (pec ≠ .bad → exec (.smbusSetAddress tgt a pec) s = .next { s with smb := { s.smb with addr := a.toNat } } ∧
         exec (.smbusRegisterWrite tgt a v pec) s = .next (s.writeAccess .smbus a.toNat .word (v.setWidth 64))) ∧
       (pec = .bad → exec (.smbusSetAddress tgt a pec) s = .next s ∧ exec (.smbusRegisterWrite tgt a v pec) s = .next s)) ∧
     (tgt.toNat ≠ s.get F.ALR_SMB_addr → exec (.nvmeMiBasicManagement tgt off len) s = .next s ∧ exec (.smbusRegisterRead tgt) s = .next s ∧
       exec (.smbusSetAddress tgt a pec) s = .next s ∧ exec (.smbusRegisterWrite tgt a v pec) s = .next s)) ∧
  (∀ (won : Bool) (s : State), s.boot.phase ≠ 6 →
     (s.flag F.ALR_CTL_ara = true → s.alert = true → won = true → ∃ t, exec (.alertResponse won) s = .next t ∧ t.smb.resp = [s.smbByte, pec [0x19, s.smbByte]] ∧
       t.alert = false ∧ t.get F.ALR_CTL_aracnt = (s.get F.ALR_CTL_aracnt + 1) % 2 ^ F.ALR_CTL_aracnt.width) ∧
     (s.flag F.ALR_CTL_ara = false ∨ s.alert = false ∨ won = false → exec (.alertResponse won) s = .next s)) ∧
  (∀ s : State, exec .smbusTimeout s = .next { s with smb := { s.smb with resp := [] } }) ∧
  (∀ (ir : TapInstr) (s : State), (s.factory = true → exec (.tapInstruction ir) s = .next { s with tap := ir }) ∧
     (s.factory = false → exec (.tapInstruction ir) s = .next { s with tap := if ir = .idcode ∨ ir = .samplePreload then ir else .bypass })) ∧
  (∀ (xfer : Option Nat) (s : State), s.nvme.linkUp = true → s.nvme.perst = false → s.hostDown = false →
     exec (.pcieError true xfer) s = .next (s.raise F.HST_ERR_corr) ∧
     exec (.pcieError false none) s = .next (s.raise F.HST_ERR_uncorr) ∧ ∀ id, exec (.pcieError false (some id)) s = .next ((s.raise F.HST_ERR_uncorr).transferFails id))
end

