-- ==== Sys2Proof/Laws/Tables.lean ====
section
/-! SUPPORT. The laws of sparse tables: a read after a write, and the canonical form that every write and every filter
keeps. -/

namespace Sys2Proof.Machine
open Sys2Proof

variable {α : Type}

theorem cget_cput_self (d : Nat → α) (a : Nat) (v : α) (m : List (Nat × α)) : cget d (cput a v m) a = v := by
  induction m with
  | nil => simp [cput, cget]
  | cons p m ih =>
    obtain ⟨k, w⟩ := p
    simp only [cput]
    split
    · rename_i h; simp only [cget, if_neg (Nat.ne_of_lt h), ih]
    · split <;> simp [cget]

theorem cget_cput_ne (d : Nat → α) {a b : Nat} (v : α) (m : List (Nat × α)) (h : b ≠ a) :
    cget d (cput a v m) b = cget d m b := by
  induction m with
  | nil => simp [cput, cget, Ne.symm h]
  | cons p m ih =>
    obtain ⟨k, w⟩ := p
    simp only [cput]
    split
    · simp only [cget, ih]
    · split
      · rename_i h1 h2; subst h2; simp [cget, Ne.symm h]
      · simp [cget, Ne.symm h]

theorem cget_filter_ne (d : Nat → α) {a b : Nat} (m : List (Nat × α)) (h : b ≠ a) :
    cget d (m.filter (fun p => p.1 != a)) b = cget d m b := by
  induction m with
  | nil => rfl
  | cons p m ih =>
    obtain ⟨k, w⟩ := p
    by_cases hk : k = a
    · subst hk; simp [cget, Ne.symm h]; exact ih
    · simp [List.filter_cons, hk, cget, ih]

theorem cget_filter_self (d : Nat → α) (a : Nat) (m : List (Nat × α)) :
    cget d (m.filter (fun p => p.1 != a)) a = d a := by
  induction m with
  | nil => rfl
  | cons p m ih =>
    obtain ⟨k, w⟩ := p
    by_cases hk : k = a
    · subst hk; simpa using ih
    · simp [List.filter_cons, hk, cget, ih]

theorem cget_filter_of (d : Nat → α) (f : Nat × α → Bool) (m : List (Nat × α)) (b : Nat) (h : ∀ v, f (b, v) = true) :
    cget d (m.filter f) b = cget d m b := by
  induction m with
  | nil => rfl
  | cons p m ih =>
    obtain ⟨k, w⟩ := p
    by_cases hk : k = b
    · subst hk; simp [List.filter_cons, h w, cget]
    · by_cases hf : f (k, w) = true <;> simp [List.filter_cons, hf, cget, hk, ih]

variable [DecidableEq α]

/-- A read after a write of the same key gives the value written. -/
theorem cget_cset_self (d : Nat → α) (a : Nat) (v : α) (m : List (Nat × α)) : cget d (cset d a v m) a = v := by
  unfold cset
  split
  · rename_i h; rw [cget_filter_self, h]
  · exact cget_cput_self d a v m

/-- A write leaves every other key alone. -/
theorem cget_cset_ne (d : Nat → α) {a b : Nat} (v : α) (m : List (Nat × α)) (h : b ≠ a) :
    cget d (cset d a v m) b = cget d m b := by
  unfold cset
  split
  · exact cget_filter_ne d m h
  · exact cget_cput_ne d v m h

theorem cget_cset (d : Nat → α) (a b : Nat) (v : α) (m : List (Nat × α)) :
    cget d (cset d a v m) b = if b = a then v else cget d m b := by
  split
  · rename_i h; rw [h, cget_cset_self]
  · rename_i h; exact cget_cset_ne d v m h

theorem cput_keys (a : Nat) (v : α) (m : List (Nat × α)) (p : Nat × α) (h : p ∈ cput a v m) : p = (a, v) ∨ p ∈ m := by
  induction m with
  | nil => simpa [cput] using h
  | cons q m ih =>
    obtain ⟨k, w⟩ := q
    simp only [cput] at h
    split at h
    · rcases List.mem_cons.1 h with h | h
      · exact .inr (h ▸ List.mem_cons_self ..)
      · exact (ih h).imp id (List.mem_cons_of_mem _)
    · split at h
      · rcases List.mem_cons.1 h with h | h
        · exact .inl h
        · exact .inr (List.mem_cons_of_mem _ h)
      · rcases List.mem_cons.1 h with h | h
        · exact .inl h
        · exact .inr h

theorem cput_sorted (a : Nat) (v : α) (m : List (Nat × α)) (h : m.Pairwise (fun p q => p.1 < q.1)) :
    (cput a v m).Pairwise (fun p q => p.1 < q.1) := by
  induction m with
  | nil => simp [cput]
  | cons q m ih =>
    obtain ⟨k, w⟩ := q
    rw [List.pairwise_cons] at h
    simp only [cput]
    split
    · rename_i hk
      refine List.pairwise_cons.2 ⟨fun p hp => ?_, ih h.2⟩
      rcases cput_keys a v m p hp with rfl | hp
      · exact hk
      · exact h.1 p hp
    · split
      · rename_i hk; subst hk; exact List.pairwise_cons.2 ⟨h.1, h.2⟩
      · rename_i h1 h2
        have hlt : a < k := by omega
        refine List.pairwise_cons.2 ⟨fun p hp => ?_, List.pairwise_cons.2 h⟩
        rcases List.mem_cons.1 hp with rfl | hp
        · exact hlt
        · exact Nat.lt_trans hlt (h.1 p hp)

theorem cwf_iff (d : Nat → α) (m : List (Nat × α)) :
    cwf d m = true ↔ m.Pairwise (fun p q => p.1 < q.1) ∧ ∀ p ∈ m, p.2 ≠ d p.1 := by
  simp [cwf]

@[simp] theorem cwf_nil (d : Nat → α) : cwf d ([] : List (Nat × α)) = true := by simp [cwf]

/-- Dropping entries keeps the canonical form. -/
theorem cwf_filter (d : Nat → α) (f : Nat × α → Bool) (m : List (Nat × α)) (h : cwf d m = true) : cwf d (m.filter f) = true := by
  rw [cwf_iff] at *
  exact ⟨h.1.filter _, fun p hp => h.2 p (List.mem_of_mem_filter hp)⟩

/-- A write keeps the canonical form. -/
theorem cwf_cset (d : Nat → α) (a : Nat) (v : α) (m : List (Nat × α)) (h : cwf d m = true) : cwf d (cset d a v m) = true := by
  unfold cset
  split
  · exact cwf_filter d _ m h
  · rename_i hv
    rw [cwf_iff] at *
    refine ⟨cput_sorted a v m h.1, fun p hp => ?_⟩
    rcases cput_keys a v m p hp with rfl | hp
    · exact hv
    · exact h.2 p hp

/-- A fold of writes keeps the canonical form. -/
theorem cwf_foldl {β : Type} (d : Nat → α) (f : List (Nat × α) → β → List (Nat × α)) (l : List β) (m : List (Nat × α))
    (hf : ∀ m b, cwf d m = true → cwf d (f m b) = true) (h : cwf d m = true) : cwf d (l.foldl f m) = true := by
  induction l generalizing m with
  | nil => exact h
  | cons b l ih => exact ih _ (hf m b h)

/-- Two tables in canonical form that read alike at every key are equal. -/
theorem cwf_ext (d : Nat → α) (m n : List (Nat × α)) (hm : cwf d m = true) (hn : cwf d n = true)
    (h : ∀ a, cget d m a = cget d n a) : m = n := by
  rw [cwf_iff] at hm hn
  have low : ∀ (l : List (Nat × α)) (a : Nat), (∀ p ∈ l, a < p.1) → cget d l a = d a := by
    intro l a
    induction l with
    | nil => intro _; rfl
    | cons p l ih =>
      intro hp
      have := hp p (List.mem_cons_self ..)
      simp only [cget, if_neg (Nat.ne_of_gt this)]
      exact ih (fun q hq => hp q (List.mem_cons_of_mem _ hq))
  induction m generalizing n with
  | nil =>
    cases n with
    | nil => rfl
    | cons q n =>
      have := h q.1
      simp [cget] at this
      exact absurd this.symm (hn.2 q (List.mem_cons_self ..))
  | cons p m ih =>
    cases n with
    | nil =>
      have := h p.1
      simp [cget] at this
      exact absurd this (hm.2 p (List.mem_cons_self ..))
    | cons q n =>
      have hp := (List.pairwise_cons.1 hm.1).1
      have hq := (List.pairwise_cons.1 hn.1).1
      have hk : p.1 = q.1 := by
        rcases Nat.lt_trichotomy p.1 q.1 with hlt | heq | hgt
        · have e := h p.1
          rw [show cget d (p :: m) p.1 = p.2 by simp [cget]] at e
          rw [low (q :: n) p.1 (fun r hr => by
            rcases List.mem_cons.1 hr with rfl | hr
            · exact hlt
            · exact Nat.lt_trans hlt (hq r hr))] at e
          exact absurd e (hm.2 p (List.mem_cons_self ..))
        · exact heq
        · have e := h q.1
          rw [show cget d (q :: n) q.1 = q.2 by simp [cget]] at e
          rw [low (p :: m) q.1 (fun r hr => by
            rcases List.mem_cons.1 hr with rfl | hr
            · exact hgt
            · exact Nat.lt_trans hgt (hp r hr))] at e
          exact absurd e.symm (hn.2 q (List.mem_cons_self ..))
      have hv : p.2 = q.2 := by
        have e := h p.1
        rw [show cget d (p :: m) p.1 = p.2 by simp [cget], hk, show cget d (q :: n) q.1 = q.2 by simp [cget]] at e
        exact e
      have hpq : p = q := Prod.ext hk hv
      subst hpq
      congr 1
      refine ih n ⟨(List.pairwise_cons.1 hm.1).2, fun r hr => hm.2 r (List.mem_cons_of_mem _ hr)⟩
        ⟨(List.pairwise_cons.1 hn.1).2, fun r hr => hn.2 r (List.mem_cons_of_mem _ hr)⟩ (fun a => ?_)
      by_cases ha : p.1 = a
      · subst ha
        rw [low m p.1 hp, low n p.1 hq]
      · have := h a
        simpa [cget, ha] using this

end Sys2Proof.Machine
end

