-- ==== Sys2Proof/Laws/Keeps.lean ====
section
/-! SUPPORT. What every command keeps, as one relation between a state and a later one: the variant, the queue, the blown
fuses, and the canonical form of the memories and of the register tables. The lemmas of this file are its rules; the files
beside it say it of each operation. -/

namespace Sys2Proof.Machine
open Sys2Proof

/-- `t` keeps what every command keeps of `s`. -/
structure Keeps (s t : State) : Prop where
  variant : t.variant = s.variant
  pending : t.pending = s.pending
  fuses : s.fusesStay t
  hbm : cwf hbmDefault s.hbm = true → cwf hbmDefault t.hbm = true
  flash : cwf flashDefault s.flash = true → cwf flashDefault t.flash = true
  regs : cwf (resetVal s.variant) s.regs = true → cwf (resetVal s.variant) t.regs = true
  active : cwf (resetVal s.variant) s.active = true → cwf (resetVal s.variant) t.active = true

/-- An outcome that, where it is a next state, keeps what every command keeps. -/
def KeepsOut (s : State) (o : Host.Outcome State Fault Refusal) : Prop := ∀ t, o = .next t → Keeps s t

/-- A register write that, where there is one, keeps what every command keeps. -/
def OwnKeeps (s0 : State) (o : Option (Path → Word → State → State)) : Prop :=
  ∀ f, o = some f → ∀ p v s, Keeps s0 s → Keeps s0 (f p v s)

namespace Keeps

variable {s0 : State}

theorem refl (s : State) : Keeps s s := ⟨rfl, rfl, fun _ h => h, id, id, id, id⟩

theorem trans {a b c : State} (h : Keeps a b) (k : Keeps b c) : Keeps a c :=
  ⟨k.variant.trans h.variant, k.pending.trans h.pending, fun i hi => k.fuses i (h.fuses i hi), fun x => k.hbm (h.hbm x),
    fun x => k.flash (h.flash x), fun x => by have := k.regs; rw [h.variant] at this; exact this (h.regs x),
    fun x => by have := k.active; rw [h.variant] at this; exact this (h.active x)⟩

theorem next {s : State} (h : Keeps s0 s) : KeepsOut s0 (.next s) := fun t e => by cases e; exact h

/-- A state that differs in other fields only. -/
theorem same {s t : State} (h : Keeps s0 s) (e : t.variant = s.variant ∧ t.pending = s.pending ∧ t.fuses = s.fuses ∧
    t.hbm = s.hbm ∧ t.flash = s.flash ∧ t.regs = s.regs ∧ t.active = s.active) : Keeps s0 t := by
  obtain ⟨a, b, c, d, f, g, i⟩ := e
  refine h.trans ⟨a, b, fun k hk => by rw [c]; exact hk, fun x => by rw [d]; exact x, fun x => by rw [f]; exact x,
    fun x => by rw [g]; exact x, fun x => by rw [i]; exact x⟩

/-- A record update of other fields. -/
theorem upd {s : State} {us ctrBase coreUp evt meas smb lanes acts servo geo buf nvme map media ctr dma crys fw pwr boot integ
    hrv spn hostDown tap free} (h : Keeps s0 s) :
    Keeps s0 ⟨s.variant, us, ctrBase, s.regs, s.active, coreUp, evt, meas, smb, lanes, acts, servo, geo, buf, nvme, map, media,
      ctr, dma, crys, fw, pwr, boot, integ, s.flash, s.fuses, s.hbm, hrv, spn, hostDown, tap, free, s.pending⟩ :=
  h.same ⟨rfl, rfl, rfl, rfl, rfl, rfl, rfl⟩

theorem ite {c : Prop} [Decidable c] {a b : State} (ha : Keeps s0 a) (hb : Keeps s0 b) : Keeps s0 (if c then a else b) := by
  split
  · exact ha
  · exact hb

theorem pair {α : Type} {p : α × State} {a : α} {s : State} (e : p = (a, s)) (h : Keeps s0 p.2) : Keeps s0 s := by
  subst e; exact h

theorem opt {α : Type} {o : Option (α × State)} {a : α} {s : State} (e : o = some (a, s)) (h : ∀ x, o = some x → Keeps s0 x.2) :
    Keeps s0 s := h _ e

theorem optS {o : Option State} {s : State} (e : o = some s) (h : ∀ x, o = some x → Keeps s0 x) : Keeps s0 s := h _ e

theorem okS {ε : Type} {o : Except ε State} {s : State} (e : o = .ok s) (h : ∀ x, o = .ok x → Keeps s0 x) : Keeps s0 s := h _ e

theorem foldl {α : Type} {f : State → α → State} {l : List α} {s : State} (hf : ∀ t x, Keeps s0 t → Keeps s0 (f t x))
    (h : Keeps s0 s) : Keeps s0 (l.foldl f s) := by
  induction l generalizing s with
  | nil => exact h
  | cons x l ih => exact ih (hf s x h)

theorem foldlP {α β : Type} {f : β × State → α → β × State} {l : List α} {p : β × State}
    (hf : ∀ q x, Keeps s0 q.2 → Keeps s0 (f q x).2) (h : Keeps s0 p.2) : Keeps s0 (l.foldl f p).2 := by
  induction l generalizing p with
  | nil => exact h
  | cons x l ih => exact ih (hf p x h)

theorem doAll {α : Type} {f : α → State → State} {l : List α} {s : State} (hf : ∀ x t, Keeps s0 t → Keeps s0 (f x t))
    (h : Keeps s0 s) : Keeps s0 (Machine.doAll l f s) := foldl (fun t x => hf x t) h

theorem doIf {c : Bool} {f : State → State} {s : State} (hf : ∀ t, Keeps s0 t → Keeps s0 (f t)) (h : Keeps s0 s) :
    Keeps s0 (Machine.doIf c f s) := ite (hf s h) h

theorem setReg {a : Nat} {v : Word} {s : State} (h : Keeps s0 s) : Keeps s0 (s.setReg a v) :=
  h.trans ⟨rfl, rfl, fun _ h => h, id, id, cwf_cset _ _ _ _, id⟩

theorem activate {a : Nat} {s : State} (h : Keeps s0 s) : Keeps s0 (s.activate a) :=
  h.trans ⟨rfl, rfl, fun _ h => h, id, id, id, cwf_cset _ _ _ _⟩

theorem resetRegs {k : ResetKind} {s : State} (h : Keeps s0 s) : Keeps s0 (s.resetRegs k) :=
  h.trans ⟨rfl, rfl, fun _ h => h, id, id, cwf_filter _ _ _, cwf_filter _ _ _⟩

theorem resetBlocks {b : List Nat} {s : State} (h : Keeps s0 s) : Keeps s0 (s.resetBlocks b) :=
  h.trans ⟨rfl, rfl, fun _ h => h, id, id, cwf_filter _ _ _, cwf_filter _ _ _⟩

theorem setHbm {a : Nat} {b : Byte} {s : State} (h : Keeps s0 s) : Keeps s0 (s.setHbm a b) :=
  h.trans ⟨rfl, rfl, fun _ h => h, cwf_cset _ _ _ _, id, id, id⟩

theorem program {a : Nat} {bs : List Byte} {s : State} (h : Keeps s0 s) : Keeps s0 (s.program a bs) :=
  h.trans ⟨rfl, rfl, fun _ h => h, id, fun x => cwf_foldl _ _ _ _ (fun _ _ => cwf_cset _ _ _ _) x, id, id⟩

theorem eraseFlash {a n : Nat} {s : State} (h : Keeps s0 s) : Keeps s0 (s.eraseFlash a n) :=
  h.trans ⟨rfl, rfl, fun _ h => h, id, cwf_filter _ _ _, id, id⟩

end Keeps

end Sys2Proof.Machine
end

