-- ==== Sys2Proof/Laws/KeepsOps.lean ====
section
/-! SUPPORT. That what every command keeps (`Keeps`) is kept by the register, host, lane, map, servo and energy operations. -/

namespace Sys2Proof.Machine
open Sys2Proof

theorem State.onBuf_keeps {s0 : State} (f : Buf → Buf) {s : Machine.State} (h : Keeps s0 s) :
    Keeps s0 (State.onBuf f s) := by
  unfold State.onBuf
  try dsimp only
  repeat' (first
    | with_reducible assumption | intro _ | with_reducible apply Keeps.next | with_reducible apply Keeps.ite | split
    | fail_if_no_progress (with_reducible apply Keeps.upd))

theorem State.put_keeps {s0 : State} (f : Machine.Field) (v : ℕ) {s : Machine.State} (h : Keeps s0 s) :
    Keeps s0 (State.put f v s) := by
  unfold State.put
  try dsimp only
  repeat' (first
    | with_reducible assumption | intro _ | with_reducible apply Keeps.setReg)

theorem State.inc_keeps {s0 : State} (f : Machine.Field) {s : Machine.State} (h : Keeps s0 s) :
    Keeps s0 (State.inc f s) := by
  unfold State.inc
  try dsimp only
  repeat' (first
    | with_reducible assumption | intro _ | with_reducible apply State.put_keeps)

theorem State.incStop_keeps {s0 : State} (f : Machine.Field) {s : Machine.State} (h : Keeps s0 s) :
    Keeps s0 (State.incStop f s) := by
  unfold State.incStop
  try dsimp only
  repeat' (first
    | with_reducible assumption | intro _ | with_reducible apply State.inc_keeps | with_reducible apply Keeps.next
    | with_reducible apply Keeps.ite)

theorem State.ignore_keeps {s0 : State} (p : Sys2Proof.Path) (blk : ℕ) (a : ℕ) (c : ℕ) (rd : Bool) {s : Machine.State} (h : Keeps s0 s) :
    Keeps s0 (State.ignore p blk a c rd s) := by
  unfold State.ignore
  try dsimp only
  repeat' (first
    | with_reducible assumption | intro _ | with_reducible apply State.incStop_keeps | with_reducible apply Keeps.setReg)

theorem State.ignoreRule_keeps {s0 : State} (p : Sys2Proof.Path) (a : ℕ) {s : Machine.State} (h : Keeps s0 s) :
    Keeps s0 (State.ignoreRule p a s) := by
  unfold State.ignoreRule
  try dsimp only
  repeat' (first
    | with_reducible assumption | intro _ | with_reducible apply State.ignore_keeps)

theorem State.gated_keeps {s0 : State} (p : Sys2Proof.Path) (a : ℕ) (v : Word) (bad : Bool) (eff : Machine.State → Machine.State) {s : Machine.State} (hfeff : ∀ y0, Keeps s0 y0 → Keeps s0 (eff y0)) (h : Keeps s0 s) :
    Keeps s0 (State.gated p a v bad eff s) := by
  unfold State.gated
  try dsimp only
  repeat' (first
    | with_reducible assumption | intro _ | with_reducible apply State.ignore_keeps | with_reducible apply State.ignoreRule_keeps
    | with_reducible apply hfeff | with_reducible apply Keeps.next | with_reducible apply Keeps.ite | split)

theorem State.onLane_keeps {s0 : State} (n : Fin 4) (f : Lane → Lane) {s : Machine.State} (h : Keeps s0 s) :
    Keeps s0 (State.onLane n f s) := by
  unfold State.onLane
  try dsimp only
  repeat' (first
    | with_reducible assumption | intro _ | with_reducible apply Keeps.next | with_reducible apply Keeps.ite | split
    | fail_if_no_progress (with_reducible apply Keeps.upd))

theorem State.take_keeps {s0 : State} (a : ℕ) (v : Word) {s : Machine.State} (h : Keeps s0 s) :
    Keeps s0 (State.take a v s) := by
  unfold State.take
  try dsimp only
  repeat' (first
    | with_reducible assumption | intro _ | with_reducible apply Keeps.setReg | with_reducible apply Keeps.next
    | with_reducible apply Keeps.ite | split)

theorem State.putBit_keeps {s0 : State} (f : Machine.Field) (i : ℕ) (b : Bool) {s : Machine.State} (h : Keeps s0 s) :
    Keeps s0 (State.putBit f i b s) := by
  unfold State.putBit
  try dsimp only
  repeat' (first
    | with_reducible assumption | intro _ | with_reducible apply State.put_keeps)

theorem State.setDom_keeps {s0 : State} (d : ℕ) (v : ℕ) {s : Machine.State} (h : Keeps s0 s) :
    Keeps s0 (State.setDom d v s) := by
  unfold State.setDom
  try dsimp only
  repeat' (first
    | with_reducible assumption | intro _ | with_reducible apply State.put_keeps)

theorem State.onPwr_keeps {s0 : State} (f : Pwr → Pwr) {s : Machine.State} (h : Keeps s0 s) :
    Keeps s0 (State.onPwr f s) := by
  unfold State.onPwr
  try dsimp only
  repeat' (first
    | with_reducible assumption | intro _ | with_reducible apply Keeps.next | with_reducible apply Keeps.ite | split
    | fail_if_no_progress (with_reducible apply Keeps.upd))

theorem State.queueFrame_keeps {s0 : State} (n : Fin 4) (f : PaFrame) {s : Machine.State} (h : Keeps s0 s) :
    Keeps s0 (State.queueFrame n f s) := by
  unfold State.queueFrame
  try dsimp only
  repeat' (first
    | with_reducible assumption | intro _ | with_reducible apply State.onLane_keeps)

theorem State.onAct_keeps {s0 : State} (a : Fin 4) (f : Act → Act) {s : Machine.State} (h : Keeps s0 s) :
    Keeps s0 (State.onAct a f s) := by
  unfold State.onAct
  try dsimp only
  repeat' (first
    | with_reducible assumption | intro _ | with_reducible apply Keeps.next | with_reducible apply Keeps.ite | split
    | fail_if_no_progress (with_reducible apply Keeps.upd))

theorem State.storeRec_keeps {s0 : State} {s : Machine.State} (src : ℕ) (code : ℕ) (payload : List Byte) (h : Keeps s0 s) :
    ∀ res, (State.storeRec s src code payload) = some res → Keeps s0 res := by
  intro x hx
  unfold State.storeRec at hx
  dsimp only at hx
  split at hx
  · cases hx; exact h.same ⟨rfl, rfl, rfl, rfl, rfl, rfl, rfl⟩
  · split at hx
    · cases hx
      exact State.put_keeps _ _ (Keeps.ite (State.inc_keeps _ (Keeps.upd h)) (Keeps.upd h))
    · cases hx

theorem State.askFlush_keeps {s0 : State} {s : Machine.State} (h : Keeps s0 s) :
    Keeps s0 (State.askFlush s) := by
  unfold State.askFlush
  try dsimp only
  repeat' (first
    | with_reducible assumption | intro _ | with_reducible apply State.put_keeps | with_reducible apply Keeps.next
    | with_reducible apply Keeps.ite | split | fail_if_no_progress (with_reducible apply Keeps.upd))

theorem State.latchCause_keeps {s0 : State} (c : ℕ) {s : Machine.State} (h : Keeps s0 s) :
    Keeps s0 (State.latchCause c s) := by
  unfold State.latchCause
  try dsimp only
  repeat' (first
    | with_reducible assumption | intro _ | with_reducible apply State.putBit_keeps | with_reducible apply State.put_keeps
    | with_reducible apply State.askFlush_keeps | with_reducible apply Keeps.next | with_reducible apply Keeps.ite)

theorem State.dropRec_keeps {s0 : State} {s : Machine.State} (h : Keeps s0 s) :
    Keeps s0 (State.dropRec s) := by
  unfold State.dropRec
  dsimp only
  apply State.latchCause_keeps
  have k : Keeps s0 (State.putBit F.EVT_ERR_e 0 true { State.inc F.EVT_DROP_count s with
      evt := { (State.inc F.EVT_DROP_count s).evt with dropMark := true } }) :=
    State.putBit_keeps _ _ _ (Keeps.upd (State.inc_keeps _ h))
  split
  · exact Keeps.optS ‹_› (State.storeRec_keeps _ _ _ k)
  · exact State.inc_keeps _ k

theorem State.post_keeps {s0 : State} (src : ℕ) (code : ℕ) (payload : List Byte) {s : Machine.State} (h : Keeps s0 s) :
    Keeps s0 (State.post src code payload s) := by
  unfold State.post
  dsimp only
  split
  · have k := Keeps.optS ‹_› (State.storeRec_keeps _ _ _ h)
    exact Keeps.ite (State.askFlush_keeps k) k
  · exact Keeps.ite (State.askFlush_keeps (State.dropRec_keeps h)) (State.dropRec_keeps h)

theorem State.onNvme_keeps {s0 : State} (f : Nvme → Nvme) {s : Machine.State} (h : Keeps s0 s) :
    Keeps s0 (State.onNvme f s) := by
  unfold State.onNvme
  try dsimp only
  repeat' (first
    | with_reducible assumption | intro _ | with_reducible apply Keeps.next | with_reducible apply Keeps.ite | split
    | fail_if_no_progress (with_reducible apply Keeps.upd))

theorem State.signal_keeps {s0 : State} (cq : ℕ) (contracted : Bool) {s : Machine.State} (h : Keeps s0 s) :
    Keeps s0 (State.signal cq contracted s) := by
  unfold State.signal
  try dsimp only
  repeat' (first
    | with_reducible assumption | intro _ | with_reducible apply State.onNvme_keeps | with_reducible apply Keeps.next
    | with_reducible apply Keeps.ite)

theorem State.postCqe_keeps {s0 : State} (sq : ℕ) (cid : ℕ) (r : CplRec) (contracted : Bool) {s : Machine.State} (h : Keeps s0 s) :
    Keeps s0 (State.postCqe sq cid r contracted s) := by
  unfold State.postCqe
  try dsimp only
  repeat' (first
    | with_reducible assumption | intro _ | with_reducible apply State.onNvme_keeps | with_reducible apply State.signal_keeps
    | with_reducible apply Keeps.next | with_reducible apply Keeps.ite)

theorem State.sendAen_keeps {s0 : State} {s : Machine.State} (h : Keeps s0 s) :
    Keeps s0 (State.sendAen s) := by
  unfold State.sendAen
  try dsimp only
  repeat' (first
    | with_reducible assumption | intro _ | with_reducible apply State.onNvme_keeps | with_reducible apply State.postCqe_keeps
    | with_reducible apply Keeps.next | with_reducible apply Keeps.ite | split)

theorem State.aen_keeps {s0 : State} (type : ℕ) (info : ℕ) (page : ℕ) {s : Machine.State} (h : Keeps s0 s) :
    Keeps s0 (State.aen type info page s) := by
  unfold State.aen
  try dsimp only
  repeat' (first
    | with_reducible assumption | intro _ | with_reducible apply State.sendAen_keeps | with_reducible apply State.onNvme_keeps
    | with_reducible apply Keeps.next | with_reducible apply Keeps.ite)

theorem State.raiseBit_keeps {s0 : State} (c : ℕ) (a : ℕ) (b : ℕ) {s : Machine.State} (h : Keeps s0 s) :
    Keeps s0 (State.raiseBit c a b s) := by
  unfold State.raiseBit
  try dsimp only
  repeat' (first
    | with_reducible assumption | intro _ | with_reducible apply Keeps.setReg | with_reducible apply State.latchCause_keeps
    | with_reducible apply State.post_keeps)

theorem State.raise_keeps {s0 : State} (f : Machine.Field) {s : Machine.State} (h : Keeps s0 s) :
    Keeps s0 (State.raise f s) := by
  unfold State.raise
  try dsimp only
  repeat' (first
    | with_reducible assumption | intro _ | with_reducible apply State.raiseBit_keeps)

theorem State.checkOver_keeps {s0 : State} {s : Machine.State} (h : Keeps s0 s) :
    Keeps s0 (State.checkOver s) := by
  unfold State.checkOver
  try dsimp only
  repeat' (first
    | with_reducible assumption | intro _ | with_reducible apply State.raise_keeps | with_reducible apply Keeps.next
    | with_reducible apply Keeps.ite)

theorem State.setBudget_keeps {s0 : State} (kib : ℕ) {s : Machine.State} (h : Keeps s0 s) :
    Keeps s0 (State.setBudget kib s) := by
  unfold State.setBudget
  try dsimp only
  repeat' (first
    | with_reducible assumption | intro _ | with_reducible apply State.put_keeps | with_reducible apply State.post_keeps
    | with_reducible apply State.aen_keeps | with_reducible apply State.checkOver_keeps | with_reducible apply Keeps.next
    | with_reducible apply Keeps.ite)

theorem State.onSpn_keeps {s0 : State} (f : Spn → Spn) {s : Machine.State} (h : Keeps s0 s) :
    Keeps s0 (State.onSpn f s) := by
  unfold State.onSpn
  try dsimp only
  repeat' (first
    | with_reducible assumption | intro _ | with_reducible apply Keeps.next | with_reducible apply Keeps.ite | split
    | fail_if_no_progress (with_reducible apply Keeps.upd))

theorem State.spnTo_keeps {s0 : State} (k : ℕ) {s : Machine.State} (h : Keeps s0 s) :
    Keeps s0 (State.spnTo k s) := by
  unfold State.spnTo
  try dsimp only
  repeat' (first
    | with_reducible assumption | intro _ | with_reducible apply State.setBudget_keeps | with_reducible apply State.put_keeps
    | with_reducible apply State.onSpn_keeps | with_reducible apply Keeps.next | with_reducible apply Keeps.ite)

theorem State.passTarget_keeps {s0 : State} (rpm : ℕ) (pt : ℕ) {s : Machine.State} (h : Keeps s0 s) :
    Keeps s0 (State.passTarget rpm pt s) := by
  unfold State.passTarget
  try dsimp only
  repeat' (first
    | with_reducible assumption | intro _ | with_reducible apply State.put_keeps | with_reducible apply State.onSpn_keeps
    | with_reducible apply State.setBudget_keeps | with_reducible apply Keeps.next | with_reducible apply Keeps.ite)

theorem State.setTarget_keeps {s0 : State} (rpm : ℕ) (pt : ℕ) {s : Machine.State} (h : Keeps s0 s) :
    Keeps s0 (State.setTarget rpm pt s) := by
  unfold State.setTarget
  try dsimp only
  repeat' (first
    | with_reducible assumption | intro _ | with_reducible apply State.onSpn_keeps | with_reducible apply State.put_keeps
    | with_reducible apply State.passTarget_keeps | with_reducible apply Keeps.next | with_reducible apply Keeps.ite)

theorem State.evalCurve_keeps {s0 : State} {s : Machine.State} (h : Keeps s0 s) :
    Keeps s0 (State.evalCurve s) := by
  unfold State.evalCurve
  try dsimp only
  repeat' (first
    | with_reducible assumption | intro _ | with_reducible apply State.put_keeps | with_reducible apply State.setTarget_keeps)

theorem State.sourceTarget_keeps {s0 : State} {s : Machine.State} (h : Keeps s0 s) :
    Keeps s0 (State.sourceTarget s) := by
  unfold State.sourceTarget
  try dsimp only
  repeat' (first
    | with_reducible assumption | intro _ | with_reducible apply State.evalCurve_keeps | with_reducible apply State.setTarget_keeps
    | with_reducible apply Keeps.next | with_reducible apply Keeps.ite)

theorem State.startSpin_keeps {s0 : State} {s : Machine.State} (h : Keeps s0 s) :
    Keeps s0 (State.startSpin s) := by
  unfold State.startSpin
  try dsimp only
  repeat' (first
    | with_reducible assumption | intro _ | with_reducible apply State.spnTo_keeps | with_reducible apply State.sourceTarget_keeps
    | with_reducible apply State.onSpn_keeps | with_reducible apply State.put_keeps | with_reducible apply Keeps.next
    | with_reducible apply Keeps.ite | split | fail_if_no_progress (with_reducible apply Keeps.upd))

theorem State.endUnit_keeps {s0 : State} (n : Fin 4) {s : Machine.State} (h : Keeps s0 s) :
    Keeps s0 (State.endUnit n s) := by
  unfold State.endUnit
  try dsimp only
  repeat' (first
    | with_reducible assumption | intro _ | with_reducible apply State.onLane_keeps | with_reducible apply State.put_keeps
    | with_reducible apply State.inc_keeps | with_reducible apply Keeps.next | with_reducible apply Keeps.ite | split)

theorem State.latchTrap_keeps {s0 : State} (n : Fin 4) (c : ℕ) (m : Option ℕ) {s : Machine.State} (h : Keeps s0 s) :
    Keeps s0 (State.latchTrap n c m s) := by
  unfold State.latchTrap
  try dsimp only
  repeat' (first
    | with_reducible assumption | intro _ | with_reducible apply State.putBit_keeps | with_reducible apply Keeps.next
    | with_reducible apply Keeps.ite)

theorem State.writeUnsafe_keeps {s0 : State} (n : Fin 4) (m : Option ℕ) {s : Machine.State} (h : Keeps s0 s) :
    Keeps s0 (State.writeUnsafe n m s) := by
  unfold State.writeUnsafe
  try dsimp only
  repeat' (first
    | with_reducible assumption | intro _ | with_reducible apply State.onLane_keeps | with_reducible apply State.raise_keeps
    | with_reducible apply State.put_keeps | with_reducible apply State.endUnit_keeps | with_reducible apply State.latchTrap_keeps
    | with_reducible apply Keeps.next | with_reducible apply Keeps.ite)

theorem State.forceOn_keeps {s0 : State} (a : Fin 4) {s : Machine.State} (h : Keeps s0 s) :
    Keeps s0 (State.forceOn a s) := by
  unfold State.forceOn
  try dsimp only
  repeat' (first
    | with_reducible assumption | intro _ | with_reducible apply State.onLane_keeps | with_reducible apply State.writeUnsafe_keeps
    | with_reducible apply State.putBit_keeps | with_reducible apply Keeps.next | with_reducible apply Keeps.ite | split)

theorem State.beginMove_keeps {s0 : State} (a : Fin 4) {s : Machine.State} (h : Keeps s0 s) :
    Keeps s0 (State.beginMove a s) := by
  unfold State.beginMove
  try dsimp only
  repeat' (first
    | with_reducible assumption | intro _ | with_reducible apply State.forceOn_keeps | with_reducible apply State.putBit_keeps
    | with_reducible apply State.put_keeps | with_reducible apply State.onAct_keeps)

theorem State.rampMove_keeps {s0 : State} (a : Fin 4) (unload : Bool) {s : Machine.State} (h : Keeps s0 s) :
    Keeps s0 (State.rampMove a unload s) := by
  unfold State.rampMove
  try dsimp only
  repeat' (first
    | with_reducible assumption | intro _ | with_reducible apply State.beginMove_keeps | with_reducible apply State.onAct_keeps)

theorem State.onMap_keeps {s0 : State} (f : MapSt → MapSt) {s : Machine.State} (h : Keeps s0 s) :
    Keeps s0 (State.onMap f s) := by
  unfold State.onMap
  try dsimp only
  repeat' (first
    | with_reducible assumption | intro _ | with_reducible apply Keeps.next | with_reducible apply Keeps.ite | split
    | fail_if_no_progress (with_reducible apply Keeps.upd))

theorem State.addWork_keeps {s0 : State} (n : Fin 4) (c : MediaCmd) {s : Machine.State} (h : Keeps s0 s) :
    Keeps s0 (State.addWork n c s) := by
  unfold State.addWork
  try dsimp only
  repeat' (first
    | with_reducible assumption | intro _ | with_reducible apply State.onBuf_keeps)

theorem State.setQueue_keeps {s0 : State} (n : Fin 4) (q : List MediaCmd) {s : Machine.State} (h : Keeps s0 s) :
    Keeps s0 (State.setQueue n q s) := by
  unfold State.setQueue
  try dsimp only
  repeat' (first
    | with_reducible assumption | intro _ | with_reducible apply State.put_keeps | with_reducible apply State.onLane_keeps)

theorem State.onCtr_keeps {s0 : State} (f : CtrSt → CtrSt) {s : Machine.State} (h : Keeps s0 s) :
    Keeps s0 (State.onCtr f s) := by
  unfold State.onCtr
  try dsimp only
  repeat' (first
    | with_reducible assumption | intro _ | with_reducible apply Keeps.next | with_reducible apply Keeps.ite | split
    | fail_if_no_progress (with_reducible apply Keeps.upd))

theorem State.unloadAll_keeps {s0 : State} {s : Machine.State} (h : Keeps s0 s) :
    Keeps s0 (State.unloadAll s) := by
  unfold State.unloadAll
  try dsimp only
  repeat' (first
    | with_reducible assumption | (intro _; try dsimp only) | with_reducible apply State.rampMove_keeps
    | (with_reducible refine Keeps.doAll (fun _ _ _ => ?_) ?_) <;> try dsimp only | with_reducible apply Keeps.doIf)

theorem State.stopSpin_keeps {s0 : State} {s : Machine.State} (h : Keeps s0 s) :
    Keeps s0 (State.stopSpin s) := by
  unfold State.stopSpin
  try dsimp only
  repeat' (first
    | with_reducible assumption | intro _ | with_reducible apply State.spnTo_keeps | with_reducible apply State.onSpn_keeps
    | with_reducible apply Keeps.next | with_reducible apply Keeps.ite | split)

theorem State.logError_keeps {s0 : State} (sq : ℕ) (cid : ℕ) (r : CplRec) (lba : ℕ) (ns : ℕ) (code : ℕ) {s : Machine.State} (h : Keeps s0 s) :
    Keeps s0 (State.logError sq cid r lba ns code s) := by
  unfold State.logError
  try dsimp only
  repeat' (first
    | with_reducible assumption | intro _ | with_reducible apply State.onNvme_keeps)

theorem State.fresh_keeps {s0 : State} {s : Machine.State} (h : Keeps s0 s) :
    Keeps s0 (State.fresh s).2 := by
  unfold State.fresh
  try dsimp only
  repeat' (first
    | with_reducible assumption | intro _ | with_reducible apply Keeps.next | with_reducible apply Keeps.ite | split
    | fail_if_no_progress (with_reducible apply Keeps.upd))

theorem State.raiseAt_keeps {s0 : State} (f : Machine.Field) (i : ℕ) {s : Machine.State} (h : Keeps s0 s) :
    Keeps s0 (State.raiseAt f i s) := by
  unfold State.raiseAt
  try dsimp only
  repeat' (first
    | with_reducible assumption | intro _ | with_reducible apply State.raiseBit_keeps)

theorem State.eccSeen_keeps {s0 : State} (mem : ℕ) (inst : ℕ) (addr : ℕ) (ue : Bool) {s : Machine.State} (h : Keeps s0 s) :
    Keeps s0 (State.eccSeen mem inst addr ue s) := by
  unfold State.eccSeen
  try dsimp only
  repeat' (first
    | with_reducible assumption | intro _ | with_reducible apply State.inc_keeps | with_reducible apply State.put_keeps
    | with_reducible apply State.raiseAt_keeps | with_reducible apply Keeps.next | with_reducible apply Keeps.ite)

theorem State.meet_keeps {s0 : State} (p : Poison) (x : Bool × State) (h : Keeps s0 x.2) : Keeps s0 (State.meet p x).2 := by
  unfold State.meet
  split
  · exact State.eccSeen_keeps _ _ _ _ h
  · exact State.eccSeen_keeps _ _ _ _ (State.fresh_keeps h)

theorem State.readWords_keeps {s0 : State} (mem : ℕ) (inst : ℕ) (addr : ℕ) (n : ℕ) (ue : Bool) (content : Option (BitVec 64)) {s : Machine.State} (h : Keeps s0 s) :
    Keeps s0 (State.readWords mem inst addr n ue content s).2 := by
  unfold State.readWords
  try dsimp only
  repeat' (first
    | with_reducible assumption | intro _ | with_reducible apply State.fresh_keeps | with_reducible apply State.put_keeps
    | with_reducible apply State.meet_keeps | with_reducible apply State.eccSeen_keeps
    | (with_reducible refine Keeps.foldlP (fun _ _ _ => ?_) ?_) <;> try dsimp only | with_reducible apply Keeps.next
    | with_reducible apply Keeps.ite | split)

theorem State.place_keeps {s0 : State} (x : ℕ) {s : Machine.State} (h : Keeps s0 s) :
    ∀ res, (State.place x s) = some res → Keeps s0 res := by
  intro r hr
  unfold State.place at hr
  obtain ⟨_, _, rfl⟩ := Option.map_eq_some_iff.1 hr
  exact State.onMap_keeps _ h

theorem State.adminDone_keeps {s0 : State} (cid : BitVec 16) (r : CplRec) {s : Machine.State} (h : Keeps s0 s) :
    Keeps s0 (State.adminDone cid r s) := by
  unfold State.adminDone
  try dsimp only
  repeat' (first
    | with_reducible assumption | intro _ | with_reducible apply State.postCqe_keeps)

theorem State.onContract_keeps {s0 : State} (i : ℕ) (f : Contract → Contract) {s : Machine.State} (h : Keeps s0 s) :
    Keeps s0 (State.onContract i f s) := by
  unfold State.onContract
  try dsimp only
  repeat' (first
    | with_reducible assumption | intro _ | with_reducible apply State.onCtr_keeps)

theorem State.ctrLogRec_keeps {s0 : State} (event : ℕ) (handle : ℕ) (stream : ℕ) (dir : ℕ) (reason : ℕ) (rate : ℕ) {s : Machine.State} (h : Keeps s0 s) :
    Keeps s0 (State.ctrLogRec event handle stream dir reason rate s) := by
  unfold State.ctrLogRec
  try dsimp only
  repeat' (first
    | with_reducible assumption | intro _ | with_reducible apply State.onCtr_keeps)

theorem State.logSlot_keeps {s0 : State} (event : ℕ) (i : ℕ) (reason : ℕ) {s : Machine.State} (h : Keeps s0 s) :
    Keeps s0 (State.logSlot event i reason s) := by
  unfold State.logSlot
  try dsimp only
  repeat' (first
    | with_reducible assumption | intro _ | with_reducible apply State.ctrLogRec_keeps)

theorem State.account_keeps {s0 : State} (i : ℕ) (arrival : ℕ) (deadline : ℕ) (bytes : ℕ) (r : CplRec) {s : Machine.State} (h : Keeps s0 s) :
    Keeps s0 (State.account i arrival deadline bytes r s) := by
  unfold State.account
  try dsimp only
  repeat' (first
    | with_reducible assumption | (intro _; try dsimp only) | with_reducible apply State.put_keeps
    | with_reducible apply State.inc_keeps | with_reducible apply State.onContract_keeps | with_reducible apply State.raise_keeps
    | with_reducible apply State.logSlot_keeps | with_reducible apply Keeps.doIf | with_reducible apply Keeps.next
    | with_reducible apply Keeps.ite)

theorem State.queueJournal_keeps {s0 : State} (lane : ℕ) (copy : ℕ) (t : JTile) {s : Machine.State} (h : Keeps s0 s) :
    Keeps s0 (State.queueJournal lane copy t s) := by
  unfold State.queueJournal
  try dsimp only
  repeat' (first
    | with_reducible assumption | intro _ | with_reducible apply State.addWork_keeps | with_reducible apply Keeps.next
    | with_reducible apply Keeps.ite | split)

theorem State.onZone_keeps {s0 : State} (z : ℕ) (f : Zone → Zone) {s : Machine.State} (h : Keeps s0 s) :
    Keeps s0 (State.onZone z f s) := by
  unfold State.onZone
  try dsimp only
  repeat' (first
    | with_reducible assumption | intro _ | with_reducible apply State.onMap_keeps)

theorem State.mirror_keeps {s0 : State} (i : ℕ) (v : Word) {s : Machine.State} (h : Keeps s0 s) :
    Keeps s0 (State.mirror i v s) := by
  unfold State.mirror
  try dsimp only
  repeat' (first
    | with_reducible assumption | intro _ | with_reducible apply Keeps.setReg | with_reducible apply State.put_keeps
    | with_reducible apply Keeps.next | with_reducible apply Keeps.ite | split)

theorem State.setWord_keeps {s0 : State} (i : ℕ) (v : ℕ) {s : Machine.State} (h : Keeps s0 s) :
    Keeps s0 (State.setWord i v s) := by
  unfold State.setWord
  try dsimp only
  repeat' (first
    | with_reducible assumption | intro _ | with_reducible apply State.mirror_keeps | with_reducible apply Keeps.setReg)

theorem State.syncDirty_keeps {s0 : State} {s : Machine.State} (h : Keeps s0 s) :
    Keeps s0 (State.syncDirty s) := by
  unfold State.syncDirty
  try dsimp only
  repeat' (first
    | with_reducible assumption | intro _ | with_reducible apply State.setWord_keeps | with_reducible apply State.checkOver_keeps
    | with_reducible apply Keeps.next | with_reducible apply Keeps.ite | split | fail_if_no_progress (with_reducible apply Keeps.upd))

theorem State.closeJournal_keeps {s0 : State} {s : Machine.State} (h : Keeps s0 s) :
    Keeps s0 (State.closeJournal s) := by
  unfold State.closeJournal
  try dsimp only
  repeat' (first
    | with_reducible assumption | intro _ | with_reducible apply State.onMap_keeps | with_reducible apply State.queueJournal_keeps
    | (with_reducible refine Keeps.doAll (fun _ _ _ => ?_) ?_) <;> try dsimp only | with_reducible apply Keeps.next
    | with_reducible apply Keeps.ite | split)

theorem State.journal_keeps {s0 : State} (type : ℕ) (key : ℕ) (val : ℕ) {s : Machine.State} (h : Keeps s0 s) :
    Keeps s0 (State.journal type key val s) := by
  unfold State.journal
  try dsimp only
  repeat' (first
    | with_reducible assumption | (intro _; try dsimp only) | with_reducible apply State.onMap_keeps
    | with_reducible apply State.setWord_keeps | with_reducible apply State.syncDirty_keeps
    | with_reducible apply State.closeJournal_keeps | with_reducible apply Keeps.doIf)

theorem State.journalZone_keeps {s0 : State} (z : ℕ) (f : Zone → Zone) {s : Machine.State} (h : Keeps s0 s) :
    Keeps s0 (State.journalZone z f s) := by
  unfold State.journalZone
  try dsimp only
  repeat' (first
    | with_reducible assumption | intro _ | with_reducible apply State.onZone_keeps | with_reducible apply State.journal_keeps)

theorem State.setHbmEntry_keeps {s0 : State} (x : ℕ) (v : BitVec 64) {s : Machine.State} (h : Keeps s0 s) :
    Keeps s0 (State.setHbmEntry x v s) := by
  unfold State.setHbmEntry
  try dsimp only
  repeat' (first
    | with_reducible assumption | intro _ | with_reducible apply State.onMap_keeps)

theorem State.setHbmLine_keeps {s0 : State} (line : ℕ) (es : List (BitVec 64)) {s : Machine.State} (h : Keeps s0 s) :
    Keeps s0 (State.setHbmLine line es s) := by
  unfold State.setHbmLine
  try dsimp only
  repeat' (first
    | with_reducible assumption | intro _ | with_reducible apply State.setHbmEntry_keeps
    | (with_reducible refine Keeps.doAll (fun _ _ _ => ?_) ?_) <;> try dsimp only)

theorem State.writeBack_keeps {s0 : State} (line : ℕ) (es : List (BitVec 64)) {s : Machine.State} (h : Keeps s0 s) :
    Keeps s0 (State.writeBack line es s) := by
  unfold State.writeBack
  try dsimp only
  repeat' (first
    | with_reducible assumption | intro _ | with_reducible apply State.onMap_keeps | with_reducible apply State.setHbmLine_keeps
    | with_reducible apply Keeps.next | with_reducible apply Keeps.ite | split)

theorem State.onMset_keeps {s0 : State} (i : ℕ) (f : MSet → MSet) {s : Machine.State} (h : Keeps s0 s) :
    Keeps s0 (State.onMset i f s) := by
  unfold State.onMset
  try dsimp only
  repeat' (first
    | with_reducible assumption | intro _ | with_reducible apply State.onMap_keeps)

theorem State.install_keeps {s0 : State} (line : ℕ) {s : Machine.State} (h : Keeps s0 s) :
    Keeps s0 (State.install line s) := by
  unfold State.install
  try dsimp only
  repeat' (first
    | with_reducible assumption | intro _ | with_reducible apply State.put_keeps | with_reducible apply State.writeBack_keeps
    | with_reducible apply State.onMset_keeps | with_reducible apply Keeps.next | with_reducible apply Keeps.ite | split)

theorem State.landLine_keeps {s0 : State} (line : ℕ) {s : Machine.State} (h : Keeps s0 s) :
    Keeps s0 (State.landLine line s) := by
  unfold State.landLine
  try dsimp only
  repeat' (first
    | with_reducible assumption | intro _ | with_reducible apply State.put_keeps | with_reducible apply State.onMap_keeps
    | with_reducible apply State.inc_keeps | with_reducible apply State.install_keeps | with_reducible apply Keeps.next
    | with_reducible apply Keeps.ite | split)

theorem State.drainBack_keeps {s0 : State} {s : Machine.State} (h : Keeps s0 s) :
    Keeps s0 (State.drainBack s) := by
  unfold State.drainBack
  try dsimp only
  repeat' (first
    | with_reducible assumption | intro _ | with_reducible apply State.onMap_keeps | with_reducible apply State.setHbmLine_keeps
    | (with_reducible refine Keeps.doAll (fun _ _ _ => ?_) ?_) <;> try dsimp only)

theorem State.setEntry_keeps {s0 : State} (x : ℕ) (v : BitVec 64) {s : Machine.State} (h : Keeps s0 s) :
    Keeps s0 (State.setEntry x v s) := by
  unfold State.setEntry
  try dsimp only
  repeat' (first
    | with_reducible assumption | intro _ | with_reducible apply State.landLine_keeps | with_reducible apply State.install_keeps
    | with_reducible apply State.setHbmEntry_keeps | with_reducible apply State.drainBack_keeps
    | with_reducible apply State.onMset_keeps | with_reducible apply State.setHbmLine_keeps | with_reducible apply State.inc_keeps
    | with_reducible apply State.put_keeps | with_reducible apply Keeps.next | with_reducible apply Keeps.ite | split)

theorem State.syncSalt_keeps {s0 : State} {s : Machine.State} (h : Keeps s0 s) :
    Keeps s0 (State.syncSalt s) := by
  unfold State.syncSalt
  try dsimp only
  repeat' (first
    | with_reducible assumption | intro _ | with_reducible apply State.put_keeps
    | (with_reducible refine Keeps.doAll (fun _ _ _ => ?_) ?_) <;> try dsimp only)

theorem State.freeSlot_keeps {s0 : State} (w1 : BitVec 64) {s : Machine.State} (h : Keeps s0 s) :
    Keeps s0 (State.freeSlot w1 s) := by
  unfold State.freeSlot
  try dsimp only
  repeat' (first
    | with_reducible assumption | intro _ | with_reducible apply State.journal_keeps | with_reducible apply State.onMap_keeps)

theorem State.tidyMans_keeps {s0 : State} {s : Machine.State} (h : Keeps s0 s) :
    Keeps s0 (State.tidyMans s) := by
  unfold State.tidyMans
  try dsimp only
  repeat' (first
    | with_reducible assumption | intro _ | with_reducible apply State.onMap_keeps | with_reducible apply State.freeSlot_keeps
    | (with_reducible refine Keeps.doAll (fun _ _ _ => ?_) ?_) <;> try dsimp only)

theorem State.setOvl_keeps {s0 : State} (i : ℕ) (v : BitVec 64 × BitVec 64) {s : Machine.State} (h : Keeps s0 s) :
    Keeps s0 (State.setOvl i v s) := by
  unfold State.setOvl
  try dsimp only
  repeat' (first
    | with_reducible assumption | intro _ | with_reducible apply State.onMap_keeps)

theorem State.deleteEntries_keeps {s0 : State} (es : List (ℕ × BitVec 64 × BitVec 64)) {s : Machine.State} (h : Keeps s0 s) :
    Keeps s0 (State.deleteEntries es s) := by
  unfold State.deleteEntries
  try dsimp only
  repeat' (first
    | with_reducible assumption | intro _ | with_reducible apply State.syncSalt_keeps | with_reducible apply State.tidyMans_keeps
    | with_reducible apply State.setOvl_keeps | with_reducible apply State.freeSlot_keeps
    | (with_reducible refine Keeps.doAll (fun _ _ _ => ?_) ?_) <;> try dsimp only)

theorem State.dropOverlay_keeps {s0 : State} (z : ℕ) {s : Machine.State} (h : Keeps s0 s) :
    Keeps s0 (State.dropOverlay z s) := by
  unfold State.dropOverlay
  try dsimp only
  repeat' (first
    | with_reducible assumption | intro _ | with_reducible apply State.onMap_keeps | with_reducible apply State.deleteEntries_keeps)

theorem State.startFill_keeps {s0 : State} (line : ℕ) {s : Machine.State} (h : Keeps s0 s) :
    Keeps s0 (State.startFill line s) := by
  unfold State.startFill
  try dsimp only
  repeat' (first
    | with_reducible assumption | intro _ | with_reducible apply State.put_keeps | with_reducible apply State.onMap_keeps
    | with_reducible apply Keeps.next | with_reducible apply Keeps.ite)

theorem State.lookup_keeps {s0 : State} (x : ℕ) {s : Machine.State} (h : Keeps s0 s) :
    Keeps s0 (State.lookup x s) := by
  unfold State.lookup
  try dsimp only
  repeat' (first
    | with_reducible assumption | intro _ | with_reducible apply State.landLine_keeps | with_reducible apply State.inc_keeps
    | with_reducible apply State.onMset_keeps | with_reducible apply State.startFill_keeps | with_reducible apply Keeps.next
    | with_reducible apply Keeps.ite | split)

theorem State.laneLeft_keeps {s0 : State} {s : Machine.State} (h : Keeps s0 s) :
    Keeps s0 (State.laneLeft s) := by
  unfold State.laneLeft
  try dsimp only
  repeat' (first
    | with_reducible assumption | intro _ | with_reducible apply State.aen_keeps)

theorem State.ctrTotals_keeps {s0 : State} {s : Machine.State} (h : Keeps s0 s) :
    Keeps s0 (State.ctrTotals s) := by
  unfold State.ctrTotals
  try dsimp only
  repeat' (first
    | with_reducible assumption | intro _ | with_reducible apply State.put_keeps)

theorem State.setSlot_keeps {s0 : State} (i : ℕ) (st : ℕ) {s : Machine.State} (h : Keeps s0 s) :
    Keeps s0 (State.setSlot i st s) := by
  unfold State.setSlot
  try dsimp only
  repeat' (first
    | with_reducible assumption | intro _ | with_reducible apply State.ctrTotals_keeps | with_reducible apply Keeps.activate
    | with_reducible apply State.put_keeps)

theorem State.fwEvent_keeps {s0 : State} (code : ℕ) {s : Machine.State} (h : Keeps s0 s) :
    Keeps s0 (State.fwEvent code s) := by
  unfold State.fwEvent
  try dsimp only
  repeat' (first
    | with_reducible assumption | intro _ | with_reducible apply State.post_keeps)

theorem State.breakSlot_keeps {s0 : State} (i : ℕ) (why : ℕ) {s : Machine.State} (h : Keeps s0 s) :
    Keeps s0 (State.breakSlot i why s) := by
  unfold State.breakSlot
  try dsimp only
  repeat' (first
    | with_reducible assumption | intro _ | with_reducible apply State.setSlot_keeps | with_reducible apply State.onContract_keeps
    | with_reducible apply State.fwEvent_keeps | with_reducible apply State.raise_keeps | with_reducible apply State.aen_keeps
    | with_reducible apply State.logSlot_keeps)

theorem State.releaseSlot_keeps {s0 : State} (w1 : BitVec 64) {s : Machine.State} (h : Keeps s0 s) :
    Keeps s0 (State.releaseSlot w1 s) := by
  unfold State.releaseSlot
  try dsimp only
  repeat' (first
    | with_reducible assumption | intro _ | with_reducible apply State.syncSalt_keeps | with_reducible apply State.onMap_keeps)

theorem State.landRecords_keeps {s0 : State} (last : ℕ) {s : Machine.State} (h : Keeps s0 s) :
    Keeps s0 (State.landRecords last s) := by
  unfold State.landRecords
  try dsimp only
  repeat' (first
    | with_reducible assumption | intro _ | with_reducible apply State.setWord_keeps | with_reducible apply State.onMap_keeps
    | with_reducible apply State.syncDirty_keeps | with_reducible apply State.releaseSlot_keeps
    | (with_reducible refine Keeps.doAll (fun _ _ _ => ?_) ?_) <;> try dsimp only)

theorem State.setCur_keeps {s0 : State} (n : Fin 4) (c : Option MediaCmd) {s : Machine.State} (h : Keeps s0 s) :
    Keeps s0 (State.setCur n c s) := by
  unfold State.setCur
  try dsimp only
  repeat' (first
    | with_reducible assumption | intro _ | with_reducible apply State.onLane_keeps | with_reducible apply Keeps.setReg
    | with_reducible apply State.put_keeps | with_reducible apply Keeps.next | with_reducible apply Keeps.ite | split)

theorem State.returnCmds_keeps {s0 : State} (n : Fin 4) (cs : List MediaCmd) {s : Machine.State} (h : Keeps s0 s) :
    Keeps s0 (State.returnCmds n cs s) := by
  unfold State.returnCmds
  try dsimp only
  repeat' (first
    | with_reducible assumption | intro _ | with_reducible apply Keeps.next | with_reducible apply Keeps.ite | split
    | fail_if_no_progress (with_reducible apply Keeps.upd))

theorem State.installLoop_keeps {s0 : State} (i : ℕ) (n : ℕ) {s : Machine.State} (h : Keeps s0 s) :
    Keeps s0 (State.installLoop i n s) := by
  unfold State.installLoop
  try dsimp only
  repeat' (first
    | with_reducible assumption | intro _ | with_reducible apply State.take_keeps
    | (with_reducible refine Keeps.doAll (fun _ _ _ => ?_) ?_) <;> try dsimp only | with_reducible apply Keeps.next
    | with_reducible apply Keeps.ite | split | fail_if_no_progress (with_reducible apply Keeps.upd))

theorem State.installOr_keeps {s0 : State} (i : ℕ) (n : ℕ) {s : Machine.State} (h : Keeps s0 s) :
    Keeps s0 (State.installOr i n s) := by
  unfold State.installOr
  try dsimp only
  repeat' (first
    | with_reducible assumption | intro _ | with_reducible apply State.readWords_keeps | with_reducible apply State.raise_keeps
    | with_reducible apply State.put_keeps | with_reducible apply State.installLoop_keeps
    | (with_reducible refine Keeps.foldlP (fun _ _ _ => ?_) ?_) <;> try dsimp only | with_reducible apply Keeps.next
    | with_reducible apply Keeps.ite | split | (refine Keeps.pair ‹_ = (_, _)› ?_)
    | fail_if_no_progress (with_reducible apply Keeps.upd))

theorem State.afterLoop_keeps {s0 : State} (n : ℕ) {s : Machine.State} (h : Keeps s0 s) :
    Keeps s0 (State.afterLoop n s) := by
  unfold State.afterLoop
  try dsimp only
  repeat' (first
    | with_reducible assumption | intro _ | with_reducible apply State.installOr_keeps | with_reducible apply Keeps.next
    | with_reducible apply Keeps.ite | split | fail_if_no_progress (with_reducible apply Keeps.upd))

theorem State.zeroSection_keeps {s0 : State} (i : ℕ) {s : Machine.State} (h : Keeps s0 s) :
    Keeps s0 (State.zeroSection i s) := by
  unfold State.zeroSection
  try dsimp only
  repeat' (first
    | with_reducible assumption | intro _ | with_reducible apply Keeps.setReg)

theorem State.putStates_keeps {s0 : State} (i : ℕ) (r : ℕ × ℤ × ℤ × ℤ × Bool) {s : Machine.State} (h : Keeps s0 s) :
    Keeps s0 (State.putStates i r s) := by
  unfold State.putStates
  try dsimp only
  repeat' (first
    | with_reducible assumption | intro _ | with_reducible apply State.put_keeps | with_reducible apply Keeps.setReg)

theorem State.section_keeps {s0 : State} (i : ℕ) (x : ℤ) {s : Machine.State} (h : Keeps s0 s) :
    Keeps s0 (State.section i x s).2 := by
  unfold State.section
  try dsimp only
  repeat' (first
    | with_reducible assumption | (intro _; try dsimp only) | with_reducible apply State.zeroSection_keeps
    | with_reducible apply State.putStates_keeps | with_reducible apply State.put_keeps | with_reducible apply State.raiseAt_keeps
    | with_reducible apply Keeps.doIf | with_reducible apply Keeps.next | with_reducible apply Keeps.ite | split)

theorem State.cascade_keeps {s0 : State} (n : Nat) : ∀ (c k : Nat) (x : Int) (l : List Int) {s : State}, Keeps s0 s →
    Keeps s0 (State.cascade n c k x l s).2.2 := by
  intro c
  induction c with
  | zero => intro _ _ _ _ h; exact h
  | succ c ih => intro k x l s h; exact ih _ _ _ (State.section_keeps _ _ h)

theorem State.runLoop_keeps {s0 : State} (n : ℕ) {s : Machine.State} (h : Keeps s0 s) :
    Keeps s0 (State.runLoop n s) := by
  unfold State.runLoop
  try dsimp only
  repeat' (first
    | with_reducible assumption | intro _ | with_reducible apply State.cascade_keeps | with_reducible apply Keeps.setReg
    | with_reducible apply Keeps.next | with_reducible apply Keeps.ite | split | fail_if_no_progress (with_reducible apply Keeps.upd))

theorem State.demands_keeps {s0 : State} (a : Fin 4) {s : Machine.State} (h : Keeps s0 s) :
    Keeps s0 (State.demands a s) := by
  unfold State.demands
  try dsimp only
  repeat' (first
    | with_reducible assumption | intro _ | with_reducible apply Keeps.setReg)

theorem State.wantSeek_keeps {s0 : State} (a : Fin 4) (track : ℕ) {s : Machine.State} (h : Keeps s0 s) :
    Keeps s0 (State.wantSeek a track s) := by
  unfold State.wantSeek
  try dsimp only
  repeat' (first
    | with_reducible assumption | intro _ | with_reducible apply State.beginMove_keeps | with_reducible apply State.put_keeps
    | with_reducible apply State.onAct_keeps)

theorem State.seek_keeps {s0 : State} (a : Fin 4) (track : ℕ) {s : Machine.State} (h : Keeps s0 s) :
    Keeps s0 (State.seek a track s) := by
  unfold State.seek
  try dsimp only
  repeat' (first
    | with_reducible assumption | intro _ | with_reducible apply State.onAct_keeps | with_reducible apply State.wantSeek_keeps
    | with_reducible apply Keeps.next | with_reducible apply Keeps.ite)

theorem State.add_keeps {s0 : State} (f : Machine.Field) (n : ℕ) {s : Machine.State} (h : Keeps s0 s) :
    Keeps s0 (State.add f n s) := by
  unfold State.add
  try dsimp only
  repeat' (first
    | with_reducible assumption | intro _ | with_reducible apply State.put_keeps)

theorem State.admin_keeps {s0 : State} (diapauseOk : Bool) (f : Machine.State → Machine.State) (e : Sqe) {s : Machine.State} (hff : ∀ y0, Keeps s0 y0 → Keeps s0 (f y0)) (h : Keeps s0 s) :
    Keeps s0 (State.admin diapauseOk f e s) := by
  unfold State.admin
  try dsimp only
  repeat' (first
    | with_reducible assumption | intro _ | with_reducible apply State.put_keeps | with_reducible apply State.inc_keeps
    | with_reducible apply State.adminDone_keeps | with_reducible apply hff | with_reducible apply Keeps.next
    | with_reducible apply Keeps.ite | split)

theorem State.leavePs_keeps {s0 : State} {s : Machine.State} (h : Keeps s0 s) :
    Keeps s0 (State.leavePs s) := by
  unfold State.leavePs
  try dsimp only
  repeat' (first
    | with_reducible assumption | intro _ | with_reducible apply State.onPwr_keeps | with_reducible apply State.put_keeps
    | with_reducible apply Keeps.next | with_reducible apply Keeps.ite | split | fail_if_no_progress (with_reducible apply Keeps.upd))

theorem State.conform_keeps {s0 : State} (stream : ℕ) (dir : ℕ) (bytes : ℕ) (zones : List ℕ) {s : Machine.State} (h : Keeps s0 s) :
    Keeps s0 (State.conform stream dir bytes zones s).2 := by
  unfold State.conform
  try dsimp only
  repeat' (first
    | with_reducible assumption | intro _ | with_reducible apply State.onContract_keeps | with_reducible apply State.inc_keeps
    | with_reducible apply Keeps.next | with_reducible apply Keeps.ite | split)

theorem State.ckptFinish_keeps {s0 : State} (c : CkJob) {s : Machine.State} (h : Keeps s0 s) :
    Keeps s0 (State.ckptFinish c s) := by
  unfold State.ckptFinish
  try dsimp only
  repeat' (first
    | with_reducible assumption | intro _ | with_reducible apply State.put_keeps | with_reducible apply State.onMap_keeps
    | with_reducible apply State.freeSlot_keeps | (with_reducible refine Keeps.doAll (fun _ _ _ => ?_) ?_) <;> try dsimp only)

theorem State.landJournal_keeps {s0 : State} {s : Machine.State} (h : Keeps s0 s) :
    Keeps s0 (State.landJournal s) := by
  unfold State.landJournal
  try dsimp only
  repeat' (first
    | with_reducible assumption | intro _ | with_reducible apply State.landRecords_keeps | with_reducible apply State.add_keeps
    | with_reducible apply State.onMap_keeps | with_reducible apply State.put_keeps | with_reducible apply Keeps.next
    | with_reducible apply Keeps.ite | split)

theorem State.observerSpeed_keeps {s0 : State} {s : Machine.State} (h : Keeps s0 s) :
    Keeps s0 (State.observerSpeed s) := by
  unfold State.observerSpeed
  try dsimp only
  repeat' (first
    | with_reducible assumption | intro _ | with_reducible apply State.put_keeps | with_reducible apply Keeps.next
    | with_reducible apply Keeps.ite)

theorem State.endMove_keeps {s0 : State} (a : Fin 4) (done : Bool) {s : Machine.State} (h : Keeps s0 s) :
    Keeps s0 (State.endMove a done s) := by
  unfold State.endMove
  try dsimp only
  repeat' (first
    | with_reducible assumption | intro _ | with_reducible apply State.putBit_keeps | with_reducible apply State.put_keeps)

theorem State.forceOff_keeps {s0 : State} (a : Fin 4) {s : Machine.State} (h : Keeps s0 s) :
    Keeps s0 (State.forceOff a s) := by
  unfold State.forceOff
  try dsimp only
  repeat' (first
    | with_reducible assumption | intro _ | with_reducible apply State.putBit_keeps | with_reducible apply Keeps.next
    | with_reducible apply Keeps.ite)

theorem State.noDemand_keeps {s0 : State} (a : Fin 4) {s : Machine.State} (h : Keeps s0 s) :
    Keeps s0 (State.noDemand a s) := by
  unfold State.noDemand
  try dsimp only
  repeat' (first
    | with_reducible assumption | intro _ | with_reducible apply Keeps.setReg)

theorem State.stopLoop_keeps {s0 : State} (n : ℕ) {s : Machine.State} (h : Keeps s0 s) :
    Keeps s0 (State.stopLoop n s) := by
  unfold State.stopLoop
  try dsimp only
  repeat' (first
    | with_reducible assumption | intro _ | with_reducible apply State.zeroSection_keeps | with_reducible apply Keeps.setReg
    | (with_reducible refine Keeps.doAll (fun _ _ _ => ?_) ?_) <;> try dsimp only | with_reducible apply Keeps.next
    | with_reducible apply Keeps.ite | split | fail_if_no_progress (with_reducible apply Keeps.upd))

theorem State.flyCheck_keeps {s0 : State} {s : Machine.State} (h : Keeps s0 s) :
    Keeps s0 (State.flyCheck s) := by
  unfold State.flyCheck
  try dsimp only
  repeat' (first
    | with_reducible assumption | intro _ | with_reducible apply State.rampMove_keeps | with_reducible apply State.onSpn_keeps
    | with_reducible apply State.laneLeft_keeps | with_reducible apply State.raise_keeps
    | (with_reducible refine Keeps.doAll (fun _ _ _ => ?_) ?_) <;> try dsimp only | with_reducible apply Keeps.next
    | with_reducible apply Keeps.ite)

theorem State.cleanWords_keeps {s0 : State} (mem : ℕ) (inst : ℕ) (addr : ℕ) (n : ℕ) {s : Machine.State} (h : Keeps s0 s) :
    Keeps s0 (State.cleanWords mem inst addr n s) := by
  unfold State.cleanWords
  try dsimp only
  repeat' (first
    | with_reducible assumption | intro _ | with_reducible apply Keeps.next | with_reducible apply Keeps.ite | split
    | fail_if_no_progress (with_reducible apply Keeps.upd))

theorem State.setPoison_keeps {s0 : State} (p : Poison) {s : Machine.State} (h : Keeps s0 s) :
    Keeps s0 (State.setPoison p s) := by
  unfold State.setPoison
  try dsimp only
  repeat' (first
    | with_reducible assumption | intro _ | with_reducible apply Keeps.next | with_reducible apply Keeps.ite | split
    | fail_if_no_progress (with_reducible apply Keeps.upd))

theorem State.wroteWords_keeps {s0 : State} (mem : ℕ) (inst : ℕ) (addr : ℕ) (n : ℕ) (content : Option (BitVec 64)) {s : Machine.State} (h : Keeps s0 s) :
    Keeps s0 (State.wroteWords mem inst addr n content s) := by
  unfold State.wroteWords
  try dsimp only
  repeat' (first
    | with_reducible assumption | intro _ | with_reducible apply State.cleanWords_keeps | with_reducible apply State.fresh_keeps
    | with_reducible apply State.setPoison_keeps | with_reducible apply State.put_keeps
    | (with_reducible refine Keeps.doAll (fun _ _ _ => ?_) ?_) <;> try dsimp only | with_reducible apply Keeps.next
    | with_reducible apply Keeps.ite)

theorem State.clearMask_keeps {s0 : State} (ns : ℕ) (lba : ℕ) (gen : ℕ) {s : Machine.State} (h : Keeps s0 s) :
    Keeps s0 (State.clearMask ns lba gen s) := by
  unfold State.clearMask
  try dsimp only
  repeat' (first
    | with_reducible assumption | intro _ | with_reducible apply State.journal_keeps | with_reducible apply State.setOvl_keeps
    | with_reducible apply State.tidyMans_keeps | with_reducible apply State.freeSlot_keeps
    | (with_reducible refine Keeps.doAll (fun _ _ _ => ?_) ?_) <;> try dsimp only | with_reducible apply Keeps.next
    | with_reducible apply Keeps.ite)

theorem State.onMedia_keeps {s0 : State} (f : Media → Media) {s : Machine.State} (h : Keeps s0 s) :
    Keeps s0 (State.onMedia f s) := by
  unfold State.onMedia
  try dsimp only
  repeat' (first
    | with_reducible assumption | intro _ | with_reducible apply Keeps.next | with_reducible apply Keeps.ite | split
    | fail_if_no_progress (with_reducible apply Keeps.upd))

theorem State.journalMan_keeps {s0 : State} (r : ManRef) {s : Machine.State} (h : Keeps s0 s) :
    Keeps s0 (State.journalMan r s) := by
  unfold State.journalMan
  try dsimp only
  repeat' (first
    | with_reducible assumption | intro _ | with_reducible apply State.journal_keeps | with_reducible apply Keeps.next
    | with_reducible apply Keeps.ite | split)

theorem State.restate_keeps {s0 : State} {s : Machine.State} (h : Keeps s0 s) :
    Keeps s0 (State.restate s) := by
  unfold State.restate
  try dsimp only
  repeat' (first
    | with_reducible assumption | intro _ | with_reducible apply State.journalMan_keeps | with_reducible apply State.journal_keeps
    | (with_reducible refine Keeps.doAll (fun _ _ _ => ?_) ?_) <;> try dsimp only)

theorem State.ckptStart_keeps {s0 : State} {s : Machine.State} (h : Keeps s0 s) :
    Keeps s0 (State.ckptStart s) := by
  unfold State.ckptStart
  try dsimp only
  repeat' (first
    | with_reducible assumption | intro _ | with_reducible apply State.put_keeps | with_reducible apply State.journal_keeps
    | with_reducible apply State.onMap_keeps | with_reducible apply State.onMedia_keeps | with_reducible apply State.restate_keeps)

theorem State.clearIgn_keeps {s0 : State} (b : ℕ) (v : Word) {s : Machine.State} (h : Keeps s0 s) :
    Keeps s0 (State.clearIgn b v s) := by
  unfold State.clearIgn
  try dsimp only
  repeat' (first
    | with_reducible assumption | intro _ | with_reducible apply State.put_keeps | with_reducible apply Keeps.next
    | with_reducible apply Keeps.ite)

theorem State.roll_keeps {s0 : State} (n : Fin 4) (k : ℕ) {s : Machine.State} (h : Keeps s0 s) :
    Keeps s0 (State.roll n k s) := by
  unfold State.roll
  try dsimp only
  repeat' (first
    | with_reducible assumption | intro _ | with_reducible apply State.onLane_keeps | with_reducible apply Keeps.next
    | with_reducible apply Keeps.ite)

theorem State.retuneNow_keeps {s0 : State} (n : Fin 4) {s : Machine.State} (h : Keeps s0 s) :
    Keeps s0 (State.retuneNow n s) := by
  unfold State.retuneNow
  try dsimp only
  repeat' (first
    | with_reducible assumption | intro _ | with_reducible apply State.put_keeps | with_reducible apply State.onLane_keeps)

theorem State.returnAll_keeps {s0 : State} (n : Fin 4) {s : Machine.State} (h : Keeps s0 s) :
    Keeps s0 (State.returnAll n s) := by
  unfold State.returnAll
  try dsimp only
  repeat' (first
    | with_reducible assumption | intro _ | with_reducible apply State.setCur_keeps | with_reducible apply State.setQueue_keeps
    | with_reducible apply State.returnCmds_keeps)

theorem State.setHbmBytes_keeps {s0 : State} (a : ℕ) (bs : List Byte) {s : Machine.State} (h : Keeps s0 s) :
    Keeps s0 (State.setHbmBytes a bs s) := by
  unfold State.setHbmBytes
  try dsimp only
  repeat' (first
    | with_reducible assumption | intro _ | with_reducible apply State.wroteWords_keeps | with_reducible apply Keeps.setHbm
    | (with_reducible refine Keeps.doAll (fun _ _ _ => ?_) ?_) <;> try dsimp only)

theorem State.installIdle_keeps {s0 : State} (i : ℕ) (l : List ℕ) {s : Machine.State} (h : Keeps s0 s) :
    Keeps s0 (State.installIdle i l s) := by
  unfold State.installIdle
  try dsimp only
  repeat' (first
    | with_reducible assumption | intro _ | with_reducible apply State.installOr_keeps
    | (with_reducible refine Keeps.doAll (fun _ _ _ => ?_) ?_) <;> try dsimp only | with_reducible apply Keeps.next
    | with_reducible apply Keeps.ite)

theorem State.startInstall_keeps {s0 : State} (i : ℕ) {s : Machine.State} (h : Keeps s0 s) :
    Keeps s0 (State.startInstall i s) := by
  unfold State.startInstall
  try dsimp only
  repeat' (first
    | with_reducible assumption | intro _ | with_reducible apply State.raise_keeps | with_reducible apply State.put_keeps
    | with_reducible apply State.installIdle_keeps | with_reducible apply Keeps.next | with_reducible apply Keeps.ite | split
    | fail_if_no_progress (with_reducible apply Keeps.upd))

theorem State.autoset_keeps {s0 : State} {s : Machine.State} (h : Keeps s0 s) :
    Keeps s0 (State.autoset s) := by
  unfold State.autoset
  try dsimp only
  repeat' (first
    | with_reducible assumption | intro _ | with_reducible apply State.startInstall_keeps | with_reducible apply Keeps.next
    | with_reducible apply Keeps.ite | split)

theorem State.staleFills_keeps {s0 : State} {s : Machine.State} (h : Keeps s0 s) :
    Keeps s0 (State.staleFills s) := by
  unfold State.staleFills
  try dsimp only
  repeat' (first
    | with_reducible assumption | intro _ | with_reducible apply State.onMap_keeps)

theorem State.clearAen_keeps {s0 : State} (page : ℕ) {s : Machine.State} (h : Keeps s0 s) :
    Keeps s0 (State.clearAen page s) := by
  unfold State.clearAen
  try dsimp only
  repeat' (first
    | with_reducible assumption | intro _ | with_reducible apply State.onNvme_keeps)

theorem State.enterRun_keeps {s0 : State} {s : Machine.State} (h : Keeps s0 s) :
    Keeps s0 (State.enterRun s) := by
  unfold State.enterRun
  try dsimp only
  repeat' (first
    | with_reducible assumption | intro _ | with_reducible apply State.onSpn_keeps | with_reducible apply State.put_keeps
    | with_reducible apply State.sourceTarget_keeps | with_reducible apply State.spnTo_keeps | with_reducible apply Keeps.next
    | with_reducible apply Keeps.ite | split | fail_if_no_progress (with_reducible apply Keeps.upd))

theorem State.attemptFail_keeps {s0 : State} {s : Machine.State} (h : Keeps s0 s) :
    Keeps s0 (State.attemptFail s) := by
  unfold State.attemptFail
  try dsimp only
  repeat' (first
    | with_reducible assumption | intro _ | with_reducible apply State.raise_keeps | with_reducible apply State.spnTo_keeps
    | with_reducible apply State.onSpn_keeps | with_reducible apply State.inc_keeps | with_reducible apply Keeps.next
    | with_reducible apply Keeps.ite)

theorem State.loseControl_keeps {s0 : State} (f : Machine.Field) {s : Machine.State} (h : Keeps s0 s) :
    Keeps s0 (State.loseControl f s) := by
  unfold State.loseControl
  try dsimp only
  repeat' (first
    | with_reducible assumption | intro _ | with_reducible apply State.spnTo_keeps | with_reducible apply State.put_keeps
    | with_reducible apply State.onSpn_keeps | with_reducible apply State.raise_keeps)

theorem State.reassign_keeps {s0 : State} (b : ℕ) {s : Machine.State} (h : Keeps s0 s) :
    Keeps s0 (State.reassign b s) := by
  unfold State.reassign
  try dsimp only
  repeat' (first
    | with_reducible assumption | intro _ | with_reducible apply State.onMap_keeps | with_reducible apply State.journal_keeps
    | (with_reducible refine Keeps.doAll (fun _ _ _ => ?_) ?_) <;> try dsimp only | with_reducible apply Keeps.next
    | with_reducible apply Keeps.ite | split)

theorem State.landFill_keeps {s0 : State} {s : Machine.State} (h : Keeps s0 s) :
    Keeps s0 (State.landFill s) := by
  unfold State.landFill
  try dsimp only
  repeat' (first
    | with_reducible assumption | intro _ | with_reducible apply State.landLine_keeps | with_reducible apply Keeps.next
    | with_reducible apply Keeps.ite | split)

theorem State.spnHarvest_keeps {s0 : State} {s : Machine.State} (h : Keeps s0 s) :
    Keeps s0 (State.spnHarvest s) := by
  unfold State.spnHarvest
  try dsimp only
  repeat' (first
    | with_reducible assumption | intro _ | with_reducible apply State.spnTo_keeps | with_reducible apply State.onSpn_keeps
    | with_reducible apply Keeps.next | with_reducible apply Keeps.ite | split)

theorem State.releaseByReset_keeps {s0 : State} {s : Machine.State} (h : Keeps s0 s) :
    Keeps s0 (State.releaseByReset s) := by
  unfold State.releaseByReset
  try dsimp only
  repeat' (first
    | with_reducible assumption | intro _ | with_reducible apply State.logSlot_keeps | with_reducible apply State.setSlot_keeps
    | (with_reducible refine Keeps.doAll (fun _ _ _ => ?_) ?_) <;> try dsimp only)

theorem State.putFloor_keeps {s0 : State} (v : ℕ) {s : Machine.State} (h : Keeps s0 s) :
    Keeps s0 (State.putFloor v s) := by
  unfold State.putFloor
  try dsimp only
  repeat' (first
    | with_reducible assumption | intro _ | with_reducible apply State.ctrTotals_keeps | with_reducible apply State.put_keeps)

theorem State.readmit_keeps {s0 : State} (why : Option ℕ) (rpm : ℕ) (budget : ℕ) {s : Machine.State} (h : Keeps s0 s) :
    Keeps s0 (State.readmit why rpm budget s) := by
  unfold State.readmit
  try dsimp only
  repeat' (first
    | with_reducible assumption | intro _ | with_reducible apply State.breakSlot_keeps
    | (with_reducible refine Keeps.doAll (fun _ _ _ => ?_) ?_) <;> try dsimp only)

theorem State.setFloor_keeps {s0 : State} {s : Machine.State} (h : Keeps s0 s) :
    Keeps s0 (State.setFloor s) := by
  unfold State.setFloor
  try dsimp only
  repeat' (first
    | with_reducible assumption | intro _ | with_reducible apply State.putFloor_keeps | with_reducible apply State.readmit_keeps
    | with_reducible apply Keeps.next | with_reducible apply Keeps.ite | split)

theorem State.gatedRead_keeps {s0 : State} (p : Sys2Proof.Path) (a : ℕ) (eff : Machine.State → Machine.State) {s : Machine.State} (hfeff : ∀ y0, Keeps s0 y0 → Keeps s0 (eff y0)) (h : Keeps s0 s) :
    Keeps s0 (State.gatedRead p a eff s) := by
  unfold State.gatedRead
  try dsimp only
  repeat' (first
    | with_reducible assumption | intro _ | with_reducible apply State.ignore_keeps | with_reducible apply hfeff
    | with_reducible apply Keeps.next | with_reducible apply Keeps.ite | split)

theorem State.setGuard_keeps {s0 : State} {s : Machine.State} (h : Keeps s0 s) :
    Keeps s0 (State.setGuard s) := by
  unfold State.setGuard
  try dsimp only
  repeat' (first
    | with_reducible assumption | intro _ | with_reducible apply State.put_keeps | with_reducible apply Keeps.next
    | with_reducible apply Keeps.ite | split)

theorem State.setWres_keeps {s0 : State} {s : Machine.State} (h : Keeps s0 s) :
    Keeps s0 (State.setWres s) := by
  unfold State.setWres
  try dsimp only
  repeat' (first
    | with_reducible assumption | intro _ | with_reducible apply State.put_keeps | with_reducible apply Keeps.next
    | with_reducible apply Keeps.ite | split)

theorem State.afterRelease_keeps {s0 : State} {s : Machine.State} (h : Keeps s0 s) :
    Keeps s0 (State.afterRelease s) := by
  unfold State.afterRelease
  try dsimp only
  repeat' (first
    | with_reducible assumption | intro _ | with_reducible apply State.setGuard_keeps | with_reducible apply State.setWres_keeps
    | with_reducible apply State.setFloor_keeps | with_reducible apply State.ctrTotals_keeps)

theorem State.selectHead_keeps {s0 : State} (n : Fin 4) (h' : ℕ) {s : Machine.State} (h : Keeps s0 s) :
    Keeps s0 (State.selectHead n h' s) := by
  unfold State.selectHead
  try dsimp only
  repeat' (first
    | with_reducible assumption | intro _ | with_reducible apply State.onAct_keeps | with_reducible apply State.onLane_keeps
    | with_reducible apply Keeps.next | with_reducible apply Keeps.ite)

theorem State.seekSalt_keeps {s0 : State} (a : Fin 4) (track : ℕ) {s : Machine.State} (h : Keeps s0 s) :
    Keeps s0 (State.seekSalt a track s) := by
  unfold State.seekSalt
  try dsimp only
  repeat' (first
    | with_reducible assumption | intro _ | with_reducible apply State.put_keeps | with_reducible apply State.onAct_keeps
    | with_reducible apply State.wantSeek_keeps | with_reducible apply Keeps.next | with_reducible apply Keeps.ite)

theorem State.setPos_keeps {s0 : State} (n : Fin 4) (pos : ℕ) (qtr : ℕ) (tidx : ℕ) {s : Machine.State} (h : Keeps s0 s) :
    Keeps s0 (State.setPos n pos qtr tidx s) := by
  unfold State.setPos
  try dsimp only
  repeat' (first
    | with_reducible assumption | intro _ | with_reducible apply State.put_keeps)

theorem State.cleanCache_keeps {s0 : State} {s : Machine.State} (h : Keeps s0 s) :
    Keeps s0 (State.cleanCache s) := by
  unfold State.cleanCache
  try dsimp only
  repeat' (first
    | with_reducible assumption | intro _ | with_reducible apply State.setHbmLine_keeps | with_reducible apply State.drainBack_keeps
    | with_reducible apply State.put_keeps | with_reducible apply State.onMap_keeps
    | (with_reducible refine Keeps.doAll (fun _ _ _ => ?_) ?_) <;> try dsimp only | with_reducible apply Keeps.next
    | with_reducible apply Keeps.ite)

theorem State.consume_keeps {s0 : State} (cq : ℕ) (n : ℕ) {s : Machine.State} (h : Keeps s0 s) :
    Keeps s0 (State.consume cq n s) := by
  unfold State.consume
  try dsimp only
  repeat' (first
    | with_reducible assumption | intro _ | with_reducible apply State.onNvme_keeps | with_reducible apply Keeps.next
    | with_reducible apply Keeps.ite)

theorem State.install2_keeps {s0 : State} (a : ℕ) (v : ℕ) {s : Machine.State} (h : Keeps s0 s) :
    Keeps s0 (State.install2 a v s) := by
  unfold State.install2
  try dsimp only
  repeat' (first
    | with_reducible assumption | intro _ | with_reducible apply Keeps.activate | with_reducible apply Keeps.setReg)

theorem State.journalMark_keeps {s0 : State} (num : ℕ) {s : Machine.State} (h : Keeps s0 s) :
    Keeps s0 (State.journalMark num s) := by
  unfold State.journalMark
  try dsimp only
  repeat' (first
    | with_reducible assumption | intro _ | with_reducible apply State.onMap_keeps)

theorem State.keelCommit_keeps {s0 : State} (k : Keel) {s : Machine.State} (h : Keeps s0 s) :
    Keeps s0 (State.keelCommit k s) := by
  unfold State.keelCommit
  try dsimp only
  repeat' (first
    | with_reducible assumption | intro _ | with_reducible apply State.setWord_keeps | with_reducible apply State.onMap_keeps
    | with_reducible apply State.ckptFinish_keeps | with_reducible apply Keeps.next | with_reducible apply Keeps.ite | split)

theorem State.keelMark_keeps {s0 : State} (seq : ℕ) {s : Machine.State} (h : Keeps s0 s) :
    Keeps s0 (State.keelMark seq s) := by
  unfold State.keelMark
  try dsimp only
  repeat' (first
    | with_reducible assumption | intro _ | with_reducible apply State.onMap_keeps | with_reducible apply State.keelCommit_keeps
    | with_reducible apply Keeps.next | with_reducible apply Keeps.ite | split)

theorem State.journalEntry_keeps {s0 : State} (x : ℕ) (v : BitVec 64) {s : Machine.State} (h : Keeps s0 s) :
    Keeps s0 (State.journalEntry x v s) := by
  unfold State.journalEntry
  try dsimp only
  repeat' (first
    | with_reducible assumption | intro _ | with_reducible apply State.journal_keeps | with_reducible apply State.setEntry_keeps)

theorem State.stopUnload_keeps {s0 : State} {s : Machine.State} (h : Keeps s0 s) :
    Keeps s0 (State.stopUnload s) := by
  unfold State.stopUnload
  try dsimp only
  repeat' (first
    | with_reducible assumption | intro _ | with_reducible apply State.unloadAll_keeps | with_reducible apply State.onSpn_keeps
    | with_reducible apply State.spnTo_keeps | with_reducible apply State.put_keeps | with_reducible apply Keeps.next
    | with_reducible apply Keeps.ite)

theorem State.keelBegin_keeps {s0 : State} (k : Keel) {s : Machine.State} (h : Keeps s0 s) :
    Keeps s0 (State.keelBegin k s) := by
  unfold State.keelBegin
  try dsimp only
  repeat' (first
    | with_reducible assumption | intro _ | with_reducible apply State.onMap_keeps | with_reducible apply State.addWork_keeps
    | (with_reducible refine Keeps.doAll (fun _ _ _ => ?_) ?_) <;> try dsimp only)

theorem State.raiseAll_keeps {s0 : State} (l : List (Machine.Field × ℕ)) {s : Machine.State} (h : Keeps s0 s) :
    Keeps s0 (State.raiseAll l s) := by
  unfold State.raiseAll
  try dsimp only
  repeat' (first
    | with_reducible assumption | intro _ | with_reducible apply State.raiseAt_keeps | with_reducible apply State.latchCause_keeps
    | with_reducible apply State.dropRec_keeps | with_reducible apply State.putBit_keeps
    | (with_reducible refine Keeps.doAll (fun _ _ _ => ?_) ?_) <;> try dsimp only)

theorem State.ckptFail_keeps {s0 : State} {s : Machine.State} (h : Keeps s0 s) :
    Keeps s0 (State.ckptFail s) := by
  unfold State.ckptFail
  try dsimp only
  repeat' (first
    | with_reducible assumption | intro _ | with_reducible apply State.put_keeps | with_reducible apply State.onMap_keeps)

end Sys2Proof.Machine
end

