-- ==== Sys2Proof/Laws/KeepsBuffer.lean ====
section
/-! SUPPORT. That what every command keeps (`Keeps`) is kept by the reads, the writes, the queues of the buffer, and the read-data recovery. -/

namespace Sys2Proof.Machine
open Sys2Proof

theorem State.onWaiting_keeps {s0 : State} (surface : ℕ) (track : ℕ) (pos : ℕ) (qtr : ℕ) (f : RTile → RTile) {s : Machine.State} (h : Keeps s0 s) :
    Keeps s0 (State.onWaiting surface track pos qtr f s) := by
  unfold State.onWaiting
  try dsimp only
  repeat' (first
    | with_reducible assumption | intro _ | with_reducible apply State.onBuf_keeps)

theorem State.markRead_keeps {s0 : State} (p : Machine.PUnit) {s : Machine.State} (h : Keeps s0 s) :
    Keeps s0 (State.markRead p s) := by
  unfold State.markRead
  try dsimp only
  repeat' (first
    | with_reducible assumption | intro _ | with_reducible apply State.onWaiting_keeps)

theorem State.syncCrys_keeps {s0 : State} {s : Machine.State} (h : Keeps s0 s) :
    Keeps s0 (State.syncCrys s) := by
  unfold State.syncCrys
  try dsimp only
  repeat' (first
    | with_reducible assumption | intro _ | with_reducible apply State.put_keeps | with_reducible apply State.putBit_keeps
    | (with_reducible refine Keeps.doAll (fun _ _ _ => ?_) ?_) <;> try dsimp only | with_reducible apply Keeps.next
    | with_reducible apply Keeps.ite | split)

theorem State.onCrys_keeps {s0 : State} (f : CrysSt → CrysSt) {s : Machine.State} (h : Keeps s0 s) :
    Keeps s0 (State.onCrys f s) := by
  unfold State.onCrys
  try dsimp only
  repeat' (first
    | with_reducible assumption | intro _ | with_reducible apply Keeps.next | with_reducible apply Keeps.ite | split
    | fail_if_no_progress (with_reducible apply Keeps.upd))

theorem State.crysDrop_keeps {s0 : State} {s : Machine.State} (h : Keeps s0 s) :
    Keeps s0 (State.crysDrop s) := by
  unfold State.crysDrop
  try dsimp only
  repeat' (first
    | with_reducible assumption | intro _ | with_reducible apply State.syncCrys_keeps | with_reducible apply State.onCrys_keeps)

theorem State.syncBuf_keeps {s0 : State} {s : Machine.State} (h : Keeps s0 s) :
    Keeps s0 (State.syncBuf s) := by
  unfold State.syncBuf
  try dsimp only
  repeat' (first
    | with_reducible assumption | intro _ | with_reducible apply State.put_keeps)

theorem State.returnStart_keeps {s0 : State} (ns : ℕ) (key : ℕ) (urgent : Bool) {s : Machine.State} (h : Keeps s0 s) :
    Keeps s0 (State.returnStart ns key urgent s) := by
  unfold State.returnStart
  try dsimp only
  repeat' (first
    | with_reducible assumption | intro _ | with_reducible apply State.onMap_keeps | with_reducible apply State.addWork_keeps
    | (with_reducible refine Keeps.doAll (fun _ _ _ => ?_) ?_) <;> try dsimp only | with_reducible apply Keeps.next
    | with_reducible apply Keeps.ite | split)

theorem State.returnAllUrgent_keeps {s0 : State} {s : Machine.State} (h : Keeps s0 s) :
    Keeps s0 (State.returnAllUrgent s) := by
  unfold State.returnAllUrgent
  try dsimp only
  repeat' (first
    | with_reducible assumption | intro _ | with_reducible apply State.returnStart_keeps
    | (with_reducible refine Keeps.doAll (fun _ _ _ => ?_) ?_) <;> try dsimp only | with_reducible apply Keeps.next
    | with_reducible apply Keeps.ite | split)

theorem State.queueWrite_keeps {s0 : State} (t : ℕ) {s : Machine.State} (h : Keeps s0 s) :
    Keeps s0 (State.queueWrite t s) := by
  unfold State.queueWrite
  try dsimp only
  repeat' (first
    | with_reducible assumption | intro _ | with_reducible apply State.onBuf_keeps | with_reducible apply State.addWork_keeps
    | with_reducible apply Keeps.next | with_reducible apply Keeps.ite | split)

theorem State.writePartial_keeps {s0 : State} (t : ℕ) {s : Machine.State} (h : Keeps s0 s) :
    Keeps s0 (State.writePartial t s) := by
  unfold State.writePartial
  try dsimp only
  repeat' (first
    | with_reducible assumption | intro _ | with_reducible apply State.inc_keeps | with_reducible apply State.queueWrite_keeps)

theorem State.queueSector_keeps {s0 : State} (w : WBlk) {s : Machine.State} (h : Keeps s0 s) :
    Keeps s0 (State.queueSector w s) := by
  unfold State.queueSector
  try dsimp only
  repeat' (first
    | with_reducible assumption | intro _ | with_reducible apply State.onBuf_keeps | with_reducible apply State.addWork_keeps
    | with_reducible apply Keeps.next | with_reducible apply Keeps.ite | split)

theorem State.feed_keeps {s0 : State} (n : Fin 4) {s : Machine.State} (h : Keeps s0 s) :
    Keeps s0 (State.feed n s) := by
  unfold State.feed
  try dsimp only
  repeat' (first
    | with_reducible assumption | intro _ | with_reducible apply State.setQueue_keeps | with_reducible apply State.onCtr_keeps
    | with_reducible apply State.onBuf_keeps | with_reducible apply Keeps.next | with_reducible apply Keeps.ite)

theorem State.dispatch_keeps {s0 : State} {s : Machine.State} (h : Keeps s0 s) :
    Keeps s0 (State.dispatch s) := by
  unfold State.dispatch
  try dsimp only
  repeat' (first
    | with_reducible assumption | intro _ | with_reducible apply State.returnAllUrgent_keeps
    | with_reducible apply State.queueWrite_keeps | with_reducible apply State.writePartial_keeps
    | with_reducible apply State.queueSector_keeps | with_reducible apply State.feed_keeps
    | (with_reducible refine Keeps.doAll (fun _ _ _ => ?_) ?_) <;> try dsimp only | with_reducible apply Keeps.next
    | with_reducible apply Keeps.ite)

theorem State.onCtx_keeps {s0 : State} (id : ℕ) (f : Ctx → Ctx) {s : Machine.State} (h : Keeps s0 s) :
    Keeps s0 (State.onCtx id f s) := by
  unfold State.onCtx
  try dsimp only
  repeat' (first
    | with_reducible assumption | intro _ | with_reducible apply State.onBuf_keeps)

theorem State.stageRecord_keeps {s0 : State} (id : ℕ) (r : CplRec) {s : Machine.State} (h : Keeps s0 s) :
    Keeps s0 (State.stageRecord id r s) := by
  unfold State.stageRecord
  try dsimp only
  repeat' (first
    | with_reducible assumption | intro _ | with_reducible apply State.onCtx_keeps)

theorem State.sealRead_keeps {s0 : State} (c : Ctx) {s : Machine.State} (h : Keeps s0 s) :
    Keeps s0 (State.sealRead c s) := by
  unfold State.sealRead
  try dsimp only
  repeat' (first
    | with_reducible assumption | intro _ | with_reducible apply State.inc_keeps | with_reducible apply State.stageRecord_keeps
    | with_reducible apply State.logError_keeps | with_reducible apply Keeps.next | with_reducible apply Keeps.ite | split)

theorem State.sealReads_keeps {s0 : State} {s : Machine.State} (h : Keeps s0 s) :
    Keeps s0 (State.sealReads s) := by
  unfold State.sealReads
  try dsimp only
  repeat' (first
    | with_reducible assumption | intro _ | with_reducible apply State.sealRead_keeps
    | (with_reducible refine Keeps.doAll (fun _ _ _ => ?_) ?_) <;> try dsimp only)

theorem State.onEngine_keeps {s0 : State} (e : ℕ) (f : Engine → Engine) {s : Machine.State} (h : Keeps s0 s) :
    Keeps s0 (State.onEngine e f s) := by
  unfold State.onEngine
  try dsimp only
  repeat' (first
    | with_reducible assumption | intro _ | with_reducible apply State.onCrys_keeps)

theorem State.onDir_keeps {s0 : State} (n : ℕ) (f : List BrRec → List BrRec) {s : Machine.State} (h : Keeps s0 s) :
    Keeps s0 (State.onDir n f s) := by
  unfold State.onDir
  try dsimp only
  repeat' (first
    | with_reducible assumption | intro _ | with_reducible apply State.onCrys_keeps | with_reducible apply State.put_keeps
    | with_reducible apply Keeps.next | with_reducible apply Keeps.ite | split)

theorem State.unpin_keeps {s0 : State} (x : CrysEnt) {s : Machine.State} (h : Keeps s0 s) :
    Keeps s0 (State.unpin x s) := by
  unfold State.unpin
  try dsimp only
  repeat' (first
    | with_reducible assumption | intro _ | with_reducible apply State.onDir_keeps)

theorem State.replace_keeps {s0 : State} {s : Machine.State} (h : Keeps s0 s) :
    Keeps s0 (State.replace s) := by
  unfold State.replace
  dsimp only
  refine Keeps.doAll (fun x t ht => ?_) h
  cases e : t.place x with
  | none => exact ht
  | some u => exact State.place_keeps _ ht u e

theorem State.settle_keeps {s0 : State} (p : Machine.PUnit) {s : Machine.State} (h : Keeps s0 s) :
    Keeps s0 (State.settle p s) := by
  unfold State.settle
  try dsimp only
  repeat' (first
    | with_reducible assumption | intro _ | with_reducible apply State.onBuf_keeps)

theorem State.onReturning_keeps {s0 : State} (surface : ℕ) (track : ℕ) (pos : ℕ) (qtr : ℕ) (f : RTile → RTile) {s : Machine.State} (h : Keeps s0 s) :
    Keeps s0 (State.onReturning surface track pos qtr f s) := by
  unfold State.onReturning
  try dsimp only
  repeat' (first
    | with_reducible assumption | intro _ | with_reducible apply State.onMap_keeps)

theorem State.endDeletes_keeps {s0 : State} {s : Machine.State} (h : Keeps s0 s) :
    Keeps s0 (State.endDeletes s) := by
  unfold State.endDeletes
  try dsimp only
  repeat' (first
    | with_reducible assumption | intro _ | with_reducible apply State.adminDone_keeps | with_reducible apply State.onNvme_keeps
    | (with_reducible refine Keeps.doAll (fun _ _ _ => ?_) ?_) <;> try dsimp only | with_reducible apply Keeps.next
    | with_reducible apply Keeps.ite)

theorem State.postCtx_keeps {s0 : State} (c : Ctx) {s : Machine.State} (h : Keeps s0 s) :
    Keeps s0 (State.postCtx c s) := by
  unfold State.postCtx
  try dsimp only
  repeat' (first
    | with_reducible assumption | intro _ | with_reducible apply State.postCqe_keeps | with_reducible apply State.account_keeps
    | with_reducible apply State.onNvme_keeps | with_reducible apply State.onBuf_keeps | with_reducible apply Keeps.next
    | with_reducible apply Keeps.ite | split)

theorem State.postAll_keeps {s0 : State} {s : Machine.State} (h : Keeps s0 s) :
    Keeps s0 (State.postAll s) := by
  unfold State.postAll
  try dsimp only
  repeat' (first
    | with_reducible assumption | intro _ | with_reducible apply State.syncBuf_keeps | with_reducible apply State.endDeletes_keeps
    | with_reducible apply State.postCtx_keeps | with_reducible apply State.onCtx_keeps
    | (with_reducible refine Keeps.doAll (fun _ _ _ => ?_) ?_) <;> try dsimp only | with_reducible apply Keeps.next
    | with_reducible apply Keeps.ite)

theorem State.unitFailed_keeps {s0 : State} (p : Machine.PUnit) (code : ℕ) {s : Machine.State} (h : Keeps s0 s) :
    Keeps s0 (State.unitFailed p code s) := by
  unfold State.unitFailed
  try dsimp only
  repeat' (first
    | with_reducible assumption | intro _ | with_reducible apply State.onWaiting_keeps | with_reducible apply State.settle_keeps
    | with_reducible apply State.onReturning_keeps | with_reducible apply State.onMap_keeps | with_reducible apply State.onBuf_keeps
    | with_reducible apply State.postAll_keeps | with_reducible apply State.sealReads_keeps)

theorem State.unqueueSystem_keeps {s0 : State} (u : MUnit) {s : Machine.State} (h : Keeps s0 s) :
    Keeps s0 (State.unqueueSystem u s) := by
  unfold State.unqueueSystem
  try dsimp only
  repeat' (first
    | with_reducible assumption | intro _ | with_reducible apply State.queueJournal_keeps | with_reducible apply State.addWork_keeps
    | with_reducible apply Keeps.next | with_reducible apply Keeps.ite | split)

theorem State.unqueue_keeps {s0 : State} (c : MediaCmd) {s : Machine.State} (h : Keeps s0 s) :
    Keeps s0 (State.unqueue c s) := by
  unfold State.unqueue
  try dsimp only
  repeat' (first
    | with_reducible assumption | intro _ | with_reducible apply State.onBuf_keeps | with_reducible apply State.onMap_keeps
    | with_reducible apply State.unqueueSystem_keeps | (with_reducible refine Keeps.doAll (fun _ _ _ => ?_) ?_) <;> try dsimp only)

theorem State.purge_keeps {s0 : State} (n : Fin 4) {s : Machine.State} (h : Keeps s0 s) :
    Keeps s0 (State.purge n s) := by
  unfold State.purge
  try dsimp only
  repeat' (first
    | with_reducible assumption | intro _ | with_reducible apply State.onBuf_keeps | with_reducible apply State.unitFailed_keeps
    | with_reducible apply State.unqueue_keeps | (with_reducible refine Keeps.doAll (fun _ _ _ => ?_) ?_) <;> try dsimp only
    | with_reducible apply Keeps.next | with_reducible apply Keeps.ite)

theorem State.failWrite_keeps {s0 : State} (c : Ctx) (r : CplRec) {s : Machine.State} (h : Keeps s0 s) :
    Keeps s0 (State.failWrite c r s) := by
  unfold State.failWrite
  try dsimp only
  repeat' (first
    | with_reducible assumption | intro _ | with_reducible apply State.stageRecord_keeps | with_reducible apply State.onBuf_keeps)

theorem State.openZone_keeps {s0 : State} {s : Machine.State} (z : ℕ) (st : ℕ) (h : Keeps s0 s) :
    ∀ res, (State.openZone s z st) = .ok res → Keeps s0 res := by
  unfold State.openZone
  dsimp only
  intro x hx
  split at hx
  · cases hx
    refine Keeps.ite h (State.journalZone_keeps _ _ h)
  · split at hx
    · cases hx
    · split at hx
      · cases hx; exact State.journalZone_keeps _ _ h
      · split at hx
        · cases hx
        · cases hx; exact State.journalZone_keeps _ _ (State.journalZone_keeps _ _ h)

theorem State.placeFor_keeps {s0 : State} {s : Machine.State} (lba : ℕ) (n : ℕ) (h : Keeps s0 s) :
    ∀ res, (State.placeFor s lba n) = some res → Keeps s0 res := by
  unfold State.placeFor
  generalize List.map _ _ = l
  have go : ∀ (l : List Nat) (o : Option State), (∀ t, o = some t → Keeps s0 t) → ∀ x, l.foldl (fun o x =>
      o.bind (fun s =>
        let s := doIf (s.lookupBad x) (State.raise F.MAP_ERR_entry) s
        if (s.located x).isSome && !(s.lookupBad x) then some s else s.place x)) o = some x → Keeps s0 x := by
    intro l
    induction l with
    | nil => intro o ho x hx; exact ho x hx
    | cons a l ih =>
      intro o ho x hx
      refine ih _ ?_ x hx
      intro t ht
      obtain ⟨u, hu, ht⟩ := Option.bind_eq_some_iff.1 ht
      dsimp only at ht
      have k := Keeps.doIf (c := u.lookupBad a) (fun _ h => State.raise_keeps F.MAP_ERR_entry h) (ho _ hu)
      split at ht
      · cases ht; exact k
      · exact State.place_keeps _ k _ ht
  exact go l _ (fun t ht => by cases ht; exact h)

theorem State.admitWrite_keeps {s0 : State} (c : Ctx) (st : BlkSt) (lba : ℕ) (r : CplRec) {s : Machine.State} (h : Keeps s0 s) :
    Keeps s0 (State.admitWrite c st lba r s) := by
  unfold State.admitWrite
  try dsimp only
  repeat' (first
    | with_reducible assumption | intro _ | with_reducible apply State.onBuf_keeps | with_reducible apply State.onMap_keeps
    | with_reducible apply State.syncDirty_keeps | with_reducible apply State.inc_keeps | with_reducible apply State.onCtx_keeps
    | with_reducible apply State.stageRecord_keeps | with_reducible apply Keeps.next | with_reducible apply Keeps.ite)

theorem State.sealZone_rest {s0 : State} (c : Ctx) (st : BlkSt) {s : State} (h : Keeps s0 s) (z n at_ : Nat) (d : Zone) :
    Keeps s0 (match d.writeBad with
      | some r => s.failWrite c r
      | none =>
        if c.sqe.op = 1 ∧ c.sqe.slba ≠ at_ then s.failWrite c (CplRec.bad 1 0xBC)
        else if 65536 < d.wp + n then s.failWrite c (CplRec.bad 1 0xB8)
        else match s.openZone z 2 with
          | .error r => s.failWrite c r
          | .ok s2 =>
            match s2.placeFor at_ n with
            | none => (s.journalZone z (fun d => { d with st := 0xD })).failWrite c (CplRec.bad 1 0xBA)
            | some s =>
              let s := s.journalZone z (fun d => { d with
                wp := d.wp + n, st := if d.wp + n = 65536 then 0xE else d.st, last := s.buf.seals + 1 })
              s.admitWrite c st at_ (if c.sqe.op = 0x7D then { CplRec.ok with dw0 := at_ } else CplRec.ok)) := by
  split
  · exact State.failWrite_keeps _ _ h
  · refine Keeps.ite (State.failWrite_keeps _ _ h) (Keeps.ite (State.failWrite_keeps _ _ h) ?_)
    split
    · exact State.failWrite_keeps _ _ h
    · split
      · exact State.failWrite_keeps _ _ (State.journalZone_keeps _ _ h)
      · exact State.admitWrite_keeps _ _ _ _ (State.journalZone_keeps _ _
          (Keeps.optS ‹_› (State.placeFor_keeps _ _ (Keeps.okS ‹_› (State.openZone_keeps _ _ h)))))

theorem State.sealZone_keeps {s0 : State} (c : Ctx) (st : BlkSt) {s : State} (h : Keeps s0 s) : Keeps s0 (s.sealZone c st) :=
  State.sealZone_rest c st h _ _ _ _

theorem State.sealWrite_keeps {s0 : State} (c : Ctx) {s : Machine.State} (h : Keeps s0 s) :
    Keeps s0 (State.sealWrite c s) := by
  unfold State.sealWrite
  try dsimp only
  repeat' (first
    | with_reducible assumption | intro _ | with_reducible apply State.sealZone_keeps | with_reducible apply State.raise_keeps
    | with_reducible apply State.failWrite_keeps | with_reducible apply State.admitWrite_keeps | with_reducible apply Keeps.next
    | with_reducible apply Keeps.ite | split)

theorem State.dropBlks_keeps {s0 : State} (z : ℕ) (all : Bool) {s : Machine.State} (h : Keeps s0 s) :
    Keeps s0 (State.dropBlks z all s) := by
  unfold State.dropBlks
  try dsimp only
  repeat' (first
    | with_reducible assumption | intro _ | with_reducible apply State.syncDirty_keeps | with_reducible apply State.onBuf_keeps)

theorem State.freeHeld_keeps {s0 : State} (z : ℕ) {s : Machine.State} (h : Keeps s0 s) :
    Keeps s0 (State.freeHeld z s) := by
  unfold State.freeHeld
  try dsimp only
  repeat' (first
    | with_reducible assumption | intro _ | with_reducible apply State.dropBlks_keeps | with_reducible apply Keeps.next
    | with_reducible apply Keeps.ite)

theorem State.unmapFrom_keeps {s0 : State} (z : ℕ) (e : ℕ) {s : Machine.State} (h : Keeps s0 s) :
    Keeps s0 (State.unmapFrom z e s) := by
  unfold State.unmapFrom
  try dsimp only
  repeat' (first
    | with_reducible assumption | intro _ | with_reducible apply State.setEntry_keeps | with_reducible apply State.onMap_keeps
    | (with_reducible refine Keeps.doAll (fun _ _ _ => ?_) ?_) <;> try dsimp only)

theorem State.resetZone_keeps {s0 : State} (z : ℕ) {s : Machine.State} (h : Keeps s0 s) :
    Keeps s0 (State.resetZone z s) := by
  unfold State.resetZone
  try dsimp only
  repeat' (first
    | with_reducible assumption | intro _ | with_reducible apply State.journalZone_keeps | with_reducible apply State.dropBlks_keeps
    | with_reducible apply State.dropOverlay_keeps | with_reducible apply State.unmapFrom_keeps)

theorem State.zoneAct_keeps {s0 : State} (act : ℕ) (z : ℕ) (desc : List Byte) {s : Machine.State} (h : Keeps s0 s) :
    Keeps s0 (State.zoneAct act z desc s) := by
  unfold State.zoneAct
  try dsimp only
  repeat' (first
    | with_reducible assumption | intro _ | with_reducible apply State.freeHeld_keeps | with_reducible apply State.journalZone_keeps
    | with_reducible apply State.unmapFrom_keeps | with_reducible apply State.resetZone_keeps
    | with_reducible apply State.dropBlks_keeps | with_reducible apply State.dropOverlay_keeps | with_reducible apply Keeps.next
    | with_reducible apply Keeps.ite | split)

theorem State.sealSend_keeps {s0 : State} (c : Ctx) {s : Machine.State} (h : Keeps s0 s) :
    Keeps s0 (State.sealSend c s) := by
  unfold State.sealSend
  try dsimp only
  repeat' (first
    | with_reducible assumption | intro _ | with_reducible apply State.stageRecord_keeps | with_reducible apply State.inc_keeps
    | with_reducible apply State.zoneAct_keeps | (with_reducible refine Keeps.doAll (fun _ _ _ => ?_) ?_) <;> try dsimp only
    | with_reducible apply Keeps.next | with_reducible apply Keeps.ite | split
    | refine Keeps.okS ‹_ = Except.ok _› (State.openZone_keeps _ _ ?_))

theorem State.sealRate_keeps {s0 : State} (c : Ctx) {s : Machine.State} (h : Keeps s0 s) :
    Keeps s0 (State.sealRate c s) := by
  unfold State.sealRate
  try dsimp only
  repeat' (first
    | with_reducible assumption | intro _ | with_reducible apply State.stageRecord_keeps | with_reducible apply State.inc_keeps
    | with_reducible apply State.journalZone_keeps | with_reducible apply Keeps.next | with_reducible apply Keeps.ite)

theorem State.sealOther_keeps {s0 : State} (c : Ctx) {s : Machine.State} (h : Keeps s0 s) :
    Keeps s0 (State.sealOther c s) := by
  unfold State.sealOther
  try dsimp only
  repeat' (first
    | with_reducible assumption | intro _ | with_reducible apply State.stageRecord_keeps | with_reducible apply State.inc_keeps
    | with_reducible apply State.sealSend_keeps | with_reducible apply State.sealRate_keeps | with_reducible apply Keeps.next
    | with_reducible apply Keeps.ite)

theorem State.sealAll_keeps {s0 : State} {s : Machine.State} (h : Keeps s0 s) :
    Keeps s0 (State.sealAll s) := by
  unfold State.sealAll
  try dsimp only
  repeat' (first
    | with_reducible assumption | intro _ | with_reducible apply State.sealWrite_keeps | with_reducible apply State.sealOther_keeps
    | (with_reducible refine Keeps.doAll (fun _ _ _ => ?_) ?_) <;> try dsimp only | with_reducible apply Keeps.next
    | with_reducible apply Keeps.ite)

theorem State.queueTile_keeps {s0 : State} (c : Ctx) (t : RTile) {s : Machine.State} (h : Keeps s0 s) :
    Keeps s0 (State.queueTile c t s) := by
  unfold State.queueTile
  try dsimp only
  repeat' (first
    | with_reducible assumption | intro _ | with_reducible apply State.addWork_keeps
    | (with_reducible refine Keeps.doAll (fun _ _ _ => ?_) ?_) <;> try dsimp only)

theorem State.grantCtx_keeps {s0 : State} (c : Ctx) {s : Machine.State} (h : Keeps s0 s) :
    Keeps s0 (State.grantCtx c s) := by
  unfold State.grantCtx
  try dsimp only
  repeat' (first
    | with_reducible assumption | (intro _; try dsimp only) | with_reducible apply State.onCtx_keeps
    | with_reducible apply State.onBuf_keeps | with_reducible apply State.stageRecord_keeps | with_reducible apply State.raise_keeps
    | with_reducible apply State.lookup_keeps | with_reducible apply State.onContract_keeps
    | with_reducible apply State.queueTile_keeps | (with_reducible refine Keeps.doAll (fun _ _ _ => ?_) ?_) <;> try dsimp only
    | with_reducible apply Keeps.doIf | with_reducible apply Keeps.next | with_reducible apply Keeps.ite | split)

theorem State.grantAll_keeps {s0 : State} {s : Machine.State} (h : Keeps s0 s) :
    Keeps s0 (State.grantAll s) := by
  unfold State.grantAll
  try dsimp only
  repeat' (first
    | with_reducible assumption | intro _ | with_reducible apply State.syncBuf_keeps | with_reducible apply State.grantCtx_keeps
    | (with_reducible refine Keeps.foldlP (fun _ _ _ => ?_) ?_) <;> try dsimp only | with_reducible apply Keeps.next
    | with_reducible apply Keeps.ite | split)

theorem State.pump_keeps {s0 : State} {s : Machine.State} (h : Keeps s0 s) :
    Keeps s0 (State.pump s) := by
  unfold State.pump
  try dsimp only
  repeat' (first
    | with_reducible assumption | intro _ | with_reducible apply State.replace_keeps | with_reducible apply State.purge_keeps
    | with_reducible apply State.syncBuf_keeps | with_reducible apply State.dispatch_keeps | with_reducible apply State.postAll_keeps
    | with_reducible apply State.sealReads_keeps | with_reducible apply State.sealAll_keeps | with_reducible apply State.grantAll_keeps
    | (with_reducible refine Keeps.doAll (fun _ _ _ => ?_) ?_) <;> try dsimp only)

theorem State.reclass_keeps {s0 : State} {s : Machine.State} (h : Keeps s0 s) :
    Keeps s0 (State.reclass s) := by
  unfold State.reclass
  try dsimp only
  repeat' (first
    | with_reducible assumption | intro _ | with_reducible apply State.unpin_keeps | with_reducible apply State.syncCrys_keeps
    | with_reducible apply State.onCrys_keeps | (with_reducible refine Keeps.doAll (fun _ _ _ => ?_) ?_) <;> try dsimp only)

theorem State.withdraw_keeps {s0 : State} {s : Machine.State} (h : Keeps s0 s) :
    Keeps s0 (State.withdraw s) := by
  unfold State.withdraw
  try dsimp only
  repeat' (first
    | with_reducible assumption | intro _ | with_reducible apply State.onBuf_keeps | with_reducible apply State.setQueue_keeps
    | with_reducible apply State.latchTrap_keeps | with_reducible apply State.onLane_keeps
    | (with_reducible refine Keeps.doAll (fun _ _ _ => ?_) ?_) <;> try dsimp only | with_reducible apply Keeps.next
    | with_reducible apply Keeps.ite | split)

theorem State.fetch1_keeps {s0 : State} (q : ℕ) (e : Sqe) {s : Machine.State} (h : Keeps s0 s) :
    Keeps s0 (State.fetch1 q e s) := by
  unfold State.fetch1
  try dsimp only
  repeat' (first
    | with_reducible assumption | intro _ | with_reducible apply State.syncBuf_keeps | with_reducible apply State.leavePs_keeps
    | with_reducible apply State.put_keeps | with_reducible apply State.inc_keeps | with_reducible apply State.conform_keeps
    | with_reducible apply State.onBuf_keeps | with_reducible apply Keeps.next | with_reducible apply Keeps.ite | split
    | (refine Keeps.pair ‹_ = (_, _)› ?_) | fail_if_no_progress (with_reducible apply Keeps.upd))

theorem State.land_keeps {s0 : State} (id : ℕ) (n : ℕ) {s : Machine.State} (h : Keeps s0 s) :
    Keeps s0 (State.land id n s) := by
  unfold State.land
  try dsimp only
  repeat' (first
    | with_reducible assumption | intro _ | with_reducible apply State.onBuf_keeps | with_reducible apply State.onCtx_keeps
    | with_reducible apply Keeps.next | with_reducible apply Keeps.ite | split)

theorem State.ioCommand_keeps {s0 : State} (q : ℕ) (e : Sqe) {s : Machine.State} (h : Keeps s0 s) :
    Keeps s0 (State.ioCommand q e s) := by
  unfold State.ioCommand
  try dsimp only
  repeat' (first
    | with_reducible assumption | intro _ | with_reducible apply State.fetch1_keeps | with_reducible apply State.grantAll_keeps
    | with_reducible apply State.reclass_keeps | with_reducible apply State.pump_keeps | with_reducible apply State.land_keeps
    | with_reducible apply Keeps.next | with_reducible apply Keeps.ite)

theorem execZoneAppend_keeps {s0 : State} (q : Fin 65) (e : Sqe) {s : Machine.State} (h : Keeps s0 s) :
    KeepsOut s0 (execZoneAppend q e s) := by
  unfold execZoneAppend
  try dsimp only
  repeat' (first
    | with_reducible assumption | with_reducible apply State.ioCommand_keeps | with_reducible apply Keeps.next)

theorem State.discardAll_keeps {s0 : State} {s : Machine.State} (h : Keeps s0 s) :
    Keeps s0 (State.discardAll s) := by
  unfold State.discardAll
  try dsimp only
  repeat' (first
    | with_reducible assumption | intro _ | with_reducible apply State.onBuf_keeps | with_reducible apply State.syncBuf_keeps
    | with_reducible apply State.withdraw_keeps)

theorem State.returnWrite_keeps {s0 : State} (r : RetJob) {s : Machine.State} (h : Keeps s0 s) :
    Keeps s0 (State.returnWrite r s) := by
  unfold State.returnWrite
  try dsimp only
  repeat' (first
    | with_reducible assumption | intro _ | with_reducible apply State.onMap_keeps | with_reducible apply State.addWork_keeps
    | (with_reducible refine Keeps.doAll (fun _ _ _ => ?_) ?_) <;> try dsimp only | with_reducible apply Keeps.next
    | with_reducible apply Keeps.ite | split)

theorem State.unitRead_keeps {s0 : State} (p : Machine.PUnit) (data : List Byte) {s : Machine.State} (h : Keeps s0 s) :
    Keeps s0 (State.unitRead p data s) := by
  unfold State.unitRead
  try dsimp only
  repeat' (first
    | with_reducible assumption | intro _ | with_reducible apply State.onReturning_keeps | with_reducible apply State.onWaiting_keeps
    | with_reducible apply State.settle_keeps | with_reducible apply State.onBuf_keeps | with_reducible apply State.returnWrite_keeps
    | with_reducible apply State.postAll_keeps | with_reducible apply State.sealReads_keeps
    | (with_reducible refine Keeps.doAll (fun _ _ _ => ?_) ?_) <;> try dsimp only)

theorem State.reread_keeps {s0 : State} (n : Fin 4) (p : Machine.PUnit) (code : ℕ) {s : Machine.State} (h : Keeps s0 s) :
    Keeps s0 (State.reread n p code s) := by
  unfold State.reread
  try dsimp only
  repeat' (first
    | with_reducible assumption | intro _ | with_reducible apply State.unitFailed_keeps | with_reducible apply State.onBuf_keeps
    | with_reducible apply State.postAll_keeps | with_reducible apply State.sealReads_keeps | with_reducible apply State.settle_keeps
    | with_reducible apply State.feed_keeps | with_reducible apply State.addWork_keeps | with_reducible apply State.inc_keeps
    | with_reducible apply Keeps.next | with_reducible apply Keeps.ite)

theorem State.crysEnd_keeps {s0 : State} (x : CrysEnt) (outcome : ℕ) (iti : Bool) (data : List Byte) {s : Machine.State} (h : Keeps s0 s) :
    Keeps s0 (State.crysEnd x outcome iti data s) := by
  unfold State.crysEnd
  try dsimp only
  repeat' (first
    | with_reducible assumption | (intro _; try dsimp only) | with_reducible apply State.inc_keeps
    | with_reducible apply State.unitRead_keeps | with_reducible apply State.unitFailed_keeps | with_reducible apply State.reread_keeps
    | with_reducible apply State.syncCrys_keeps | with_reducible apply Keeps.doIf | with_reducible apply Keeps.next
    | with_reducible apply Keeps.ite | split)

theorem execFlush_keeps {s0 : State} (q : Fin 65) (e : Sqe) {s : Machine.State} (h : Keeps s0 s) :
    KeepsOut s0 (execFlush q e s) := by
  unfold execFlush
  try dsimp only
  repeat' (first
    | with_reducible assumption | with_reducible apply State.ioCommand_keeps | with_reducible apply Keeps.next)

theorem execCommandFetch_keeps {s0 : State} (q : Fin 65) (e : Sqe) {s : Machine.State} (h : Keeps s0 s) :
    KeepsOut s0 (execCommandFetch q e s) := by
  unfold execCommandFetch
  try dsimp only
  repeat' (first
    | with_reducible assumption | with_reducible apply State.fetch1_keeps | with_reducible apply Keeps.next
    | with_reducible apply Keeps.ite)

theorem State.headRecord_keeps {s0 : State} (n : Fin 4) (u : Machine.PUnit) (outcome : ℕ) {s : Machine.State} (h : Keeps s0 s) :
    Keeps s0 (State.headRecord n u outcome s) := by
  unfold State.headRecord
  try dsimp only
  repeat' (first
    | with_reducible assumption | intro _ | with_reducible apply State.onDir_keeps | with_reducible apply State.setHbmBytes_keeps
    | with_reducible apply Keeps.next | with_reducible apply Keeps.ite | split)

theorem State.pin_keeps {s0 : State} (x : CrysEnt) {s : Machine.State} (h : Keeps s0 s) :
    Keeps s0 (State.pin x s).1 := by
  unfold State.pin
  exact State.onDir_keeps _ _ h

theorem State.crysQueue_keeps {s0 : State} (n : Fin 4) (u : Machine.PUnit) {s : Machine.State} (h : Keeps s0 s) :
    Keeps s0 (State.crysQueue n u s) := by
  unfold State.crysQueue
  try dsimp only
  repeat' (first
    | with_reducible assumption | intro _ | with_reducible apply State.pin_keeps | with_reducible apply State.unpin_keeps
    | with_reducible apply State.reclass_keeps | with_reducible apply State.onCrys_keeps | with_reducible apply State.crysEnd_keeps
    | with_reducible apply State.raise_keeps | with_reducible apply State.inc_keeps | with_reducible apply Keeps.next
    | with_reducible apply Keeps.ite | split)

theorem State.placeAnew_keeps {s0 : State} (xs : List ℕ) {s : Machine.State} (h : Keeps s0 s) :
    Keeps s0 (State.placeAnew xs s) := by
  unfold State.placeAnew
  dsimp only
  refine Keeps.doAll (fun x t ht => ?_) (State.onMap_keeps _ h)
  cases e : t.place x with
  | none => exact ht
  | some u => exact State.place_keeps _ ht u e

theorem State.grownDefect_keeps {s0 : State} (n : Fin 4) (op : ℕ) (surface : ℕ) (track : ℕ) (pos : ℕ) {s : Machine.State} (h : Keeps s0 s) :
    Keeps s0 (State.grownDefect n op surface track pos s) := by
  unfold State.grownDefect
  try dsimp only
  repeat' (first
    | with_reducible assumption | intro _ | with_reducible apply State.journal_keeps | with_reducible apply State.onMap_keeps
    | with_reducible apply State.setQueue_keeps | with_reducible apply State.onBuf_keeps | with_reducible apply State.unqueue_keeps
    | with_reducible apply State.reassign_keeps | with_reducible apply State.placeAnew_keeps
    | (with_reducible refine Keeps.doAll (fun _ _ _ => ?_) ?_) <;> try dsimp only | with_reducible apply Keeps.next
    | with_reducible apply Keeps.ite)

theorem State.closeZones_keeps {s0 : State} {s : Machine.State} (h : Keeps s0 s) :
    Keeps s0 (State.closeZones s) := by
  unfold State.closeZones
  try dsimp only
  repeat' (first
    | with_reducible assumption | intro _ | with_reducible apply State.journalZone_keeps
    | (with_reducible refine Keeps.doAll (fun _ _ _ => ?_) ?_) <;> try dsimp only)

theorem execCqWaitLong_keeps {s0 : State} {s : Machine.State} (h : Keeps s0 s) :
    KeepsOut s0 (execCqWaitLong s) := by
  unfold execCqWaitLong
  try dsimp only
  repeat' (first
    | with_reducible assumption | with_reducible apply State.raise_keeps | with_reducible apply Keeps.next
    | with_reducible apply Keeps.ite)

theorem State.ctrApply_keeps {s0 : State} {s : Machine.State} (h : Keeps s0 s) :
    Keeps s0 (State.ctrApply s) := by
  unfold State.ctrApply
  try dsimp only
  repeat' (first
    | with_reducible assumption | intro _ | with_reducible apply Keeps.activate | with_reducible apply State.ctrTotals_keeps
    | with_reducible apply State.put_keeps | (with_reducible refine Keeps.doAll (fun _ _ _ => ?_) ?_) <;> try dsimp only)

theorem State.writeCtrGo_keeps {s0 : State} (p : Sys2Proof.Path) (v : Word) {s : Machine.State} (h : Keeps s0 s) :
    Keeps s0 (State.writeCtrGo p v s) := by
  unfold State.writeCtrGo
  try dsimp only
  repeat' (first
    | with_reducible assumption | (intro _; try dsimp only) | with_reducible apply State.gated_keeps
    | with_reducible apply State.put_keeps | with_reducible apply State.onCtr_keeps | with_reducible apply State.ctrApply_keeps
    | with_reducible apply Keeps.next | with_reducible apply Keeps.ite)

theorem State.overwrite_keeps {s0 : State} (n : ℕ) (at_ : ℕ) (len : ℕ) {s : Machine.State} (h : Keeps s0 s) :
    Keeps s0 (State.overwrite n at_ len s) := by
  unfold State.overwrite
  try dsimp only
  repeat' (first
    | with_reducible assumption | (intro _; try dsimp only) | with_reducible apply State.onDir_keeps
    | with_reducible apply State.onCrys_keeps | with_reducible apply State.onEngine_keeps | with_reducible apply State.raise_keeps
    | with_reducible apply State.crysEnd_keeps | with_reducible apply State.unpin_keeps
    | (with_reducible refine Keeps.doAll (fun _ _ _ => ?_) ?_) <;> try dsimp only | with_reducible apply Keeps.doIf)

theorem State.capture_keeps {s0 : State} (n : Fin 4) (p : Place) (a : List ℤ) (b : List ℤ) {s : Machine.State} (h : Keeps s0 s) :
    Keeps s0 (State.capture n p a b s) := by
  unfold State.capture
  try dsimp only
  repeat' (first
    | with_reducible assumption | intro _ | with_reducible apply State.overwrite_keeps | with_reducible apply State.setHbmBytes_keeps
    | with_reducible apply State.onDir_keeps | with_reducible apply State.put_keeps
    | (with_reducible refine Keeps.doAll (fun _ _ _ => ?_) ?_) <;> try dsimp only)

theorem execWriteDeadlineMiss_keeps {s0 : State} (id : ℕ) {s : Machine.State} (h : Keeps s0 s) :
    KeepsOut s0 (execWriteDeadlineMiss id s) := by
  unfold execWriteDeadlineMiss
  try dsimp only
  repeat' (first
    | with_reducible assumption | with_reducible apply State.reclass_keeps | with_reducible apply State.pump_keeps
    | with_reducible apply State.postAll_keeps | with_reducible apply State.failWrite_keeps | with_reducible apply Keeps.next
    | with_reducible apply Keeps.ite | split)

theorem execSetZoneDescriptorExtension_keeps {s0 : State} (q : Fin 65) (e : Sqe) {s : Machine.State} (h : Keeps s0 s) :
    KeepsOut s0 (execSetZoneDescriptorExtension q e s) := by
  unfold execSetZoneDescriptorExtension
  try dsimp only
  repeat' (first
    | with_reducible assumption | with_reducible apply State.ioCommand_keeps | with_reducible apply Keeps.next)

theorem execCtrGo_keeps {s0 : State} (p : Sys2Proof.Path) (v : Word) {s : Machine.State} (h : Keeps s0 s) :
    KeepsOut s0 (execCtrGo p v s) := by
  unfold execCtrGo
  try dsimp only
  repeat' (first
    | with_reducible assumption | with_reducible apply State.writeCtrGo_keeps | with_reducible apply Keeps.next)

theorem State.laneError_keeps {s0 : State} (c : MediaCmd) (code : ℕ) {s : Machine.State} (h : Keeps s0 s) :
    Keeps s0 (State.laneError c code s) := by
  unfold State.laneError
  try dsimp only
  repeat' (first
    | with_reducible assumption | intro _ | with_reducible apply State.unitFailed_keeps
    | (with_reducible refine Keeps.doAll (fun _ _ _ => ?_) ?_) <;> try dsimp only)

theorem State.abortIo_keeps {s0 : State} (sq : ℕ) (cid : ℕ) {s : Machine.State} (h : Keeps s0 s) :
    Keeps s0 (State.abortIo sq cid s).2 := by
  unfold State.abortIo
  try dsimp only
  repeat' (first
    | with_reducible assumption | intro _ | with_reducible apply State.inc_keeps | with_reducible apply State.failWrite_keeps
    | with_reducible apply State.reclass_keeps | with_reducible apply State.pump_keeps | with_reducible apply State.postAll_keeps
    | with_reducible apply State.withdraw_keeps | with_reducible apply Keeps.next | with_reducible apply Keeps.ite | split)

theorem State.writeBufAbort_keeps {s0 : State} (p : Sys2Proof.Path) (v : Word) {s : Machine.State} (h : Keeps s0 s) :
    Keeps s0 (State.writeBufAbort p v s) := by
  unfold State.writeBufAbort
  try dsimp only
  repeat' (first
    | with_reducible assumption | (intro _; try dsimp only) | with_reducible apply State.gated_keeps
    | with_reducible apply State.take_keeps | with_reducible apply State.abortIo_keeps | with_reducible apply State.put_keeps
    | with_reducible apply Keeps.next | with_reducible apply Keeps.ite)

theorem execOfflineZone_keeps {s0 : State} (q : Fin 65) (e : Sqe) {s : Machine.State} (h : Keeps s0 s) :
    KeepsOut s0 (execOfflineZone q e s) := by
  unfold execOfflineZone
  try dsimp only
  repeat' (first
    | with_reducible assumption | with_reducible apply State.ioCommand_keeps | with_reducible apply Keeps.next)

theorem execSealWrites_keeps {s0 : State} {s : Machine.State} (h : Keeps s0 s) :
    KeepsOut s0 (execSealWrites s) := by
  unfold execSealWrites
  try dsimp only
  repeat' (first
    | with_reducible assumption | with_reducible apply State.syncBuf_keeps | with_reducible apply State.dispatch_keeps
    | with_reducible apply State.postAll_keeps | with_reducible apply State.sealAll_keeps | with_reducible apply Keeps.next)

theorem State.returnDone_keeps {s0 : State} (r : RetJob) {s : Machine.State} (h : Keeps s0 s) :
    Keeps s0 (State.returnDone r s) := by
  unfold State.returnDone
  try dsimp only
  repeat' (first
    | with_reducible assumption | intro _ | with_reducible apply State.onMap_keeps | with_reducible apply State.journalEntry_keeps
    | with_reducible apply State.deleteEntries_keeps | with_reducible apply State.onCtr_keeps | with_reducible apply Keeps.next
    | with_reducible apply Keeps.ite)

theorem State.returnMark_keeps {s0 : State} (u : MUnit) {s : Machine.State} (h : Keeps s0 s) :
    Keeps s0 (State.returnMark u s) := by
  unfold State.returnMark
  try dsimp only
  repeat' (first
    | with_reducible assumption | intro _ | with_reducible apply State.returnDone_keeps | with_reducible apply State.onMap_keeps
    | with_reducible apply Keeps.next | with_reducible apply Keeps.ite | split)

theorem State.extentDone_keeps {s0 : State} (x : ℕ) {s : Machine.State} (h : Keeps s0 s) :
    Keeps s0 (State.extentDone x s) := by
  unfold State.extentDone
  try dsimp only
  repeat' (first
    | with_reducible assumption | intro _ | with_reducible apply State.onMap_keeps | with_reducible apply State.journalEntry_keeps
    | with_reducible apply State.onBuf_keeps | with_reducible apply State.freeHeld_keeps | with_reducible apply State.syncDirty_keeps
    | (with_reducible refine Keeps.doAll (fun _ _ _ => ?_) ?_) <;> try dsimp only | with_reducible apply Keeps.next
    | with_reducible apply Keeps.ite | split)

theorem State.unitWritten_keeps {s0 : State} (c : MediaCmd) (u : MUnit) (t : Tile) (key : ℕ) {s : Machine.State} (h : Keeps s0 s) :
    Keeps s0 (State.unitWritten c u t key s) := by
  unfold State.unitWritten
  try dsimp only
  repeat' (first
    | with_reducible assumption | intro _ | with_reducible apply State.onMedia_keeps | with_reducible apply State.journalMark_keeps
    | with_reducible apply State.keelMark_keeps | with_reducible apply State.returnMark_keeps | with_reducible apply State.onBuf_keeps
    | with_reducible apply State.postAll_keeps | with_reducible apply State.extentDone_keeps
    | with_reducible apply State.clearMask_keeps | with_reducible apply State.syncDirty_keeps | with_reducible apply Keeps.next
    | with_reducible apply Keeps.ite)

theorem execZoneCodeRate_keeps {s0 : State} (q : Fin 65) (e : Sqe) {s : Machine.State} (h : Keeps s0 s) :
    KeepsOut s0 (execZoneCodeRate q e s) := by
  unfold execZoneCodeRate
  try dsimp only
  repeat' (first
    | with_reducible assumption | with_reducible apply State.ioCommand_keeps | with_reducible apply Keeps.next)

theorem execZoneClose_keeps {s0 : State} (q : Fin 65) (e : Sqe) {s : Machine.State} (h : Keeps s0 s) :
    KeepsOut s0 (execZoneClose q e s) := by
  unfold execZoneClose
  try dsimp only
  repeat' (first
    | with_reducible assumption | with_reducible apply State.ioCommand_keeps | with_reducible apply Keeps.next)

theorem execZoneFinish_keeps {s0 : State} (q : Fin 65) (e : Sqe) {s : Machine.State} (h : Keeps s0 s) :
    KeepsOut s0 (execZoneFinish q e s) := by
  unfold execZoneFinish
  try dsimp only
  repeat' (first
    | with_reducible assumption | with_reducible apply State.ioCommand_keeps | with_reducible apply Keeps.next)

theorem execZoneOpen_keeps {s0 : State} (q : Fin 65) (e : Sqe) {s : Machine.State} (h : Keeps s0 s) :
    KeepsOut s0 (execZoneOpen q e s) := by
  unfold execZoneOpen
  try dsimp only
  repeat' (first
    | with_reducible assumption | with_reducible apply State.ioCommand_keeps | with_reducible apply Keeps.next)

theorem execReadSeal_keeps {s0 : State} {s : Machine.State} (h : Keeps s0 s) :
    KeepsOut s0 (execReadSeal s) := by
  unfold execReadSeal
  try dsimp only
  repeat' (first
    | with_reducible assumption | with_reducible apply State.syncBuf_keeps | with_reducible apply State.sealReads_keeps
    | with_reducible apply Keeps.next)

theorem State.writeBufCtl_keeps {s0 : State} (p : Sys2Proof.Path) (v : Word) {s : Machine.State} (h : Keeps s0 s) :
    Keeps s0 (State.writeBufCtl p v s) := by
  unfold State.writeBufCtl
  try dsimp only
  repeat' (first
    | with_reducible assumption | (intro _; try dsimp only) | with_reducible apply State.gated_keeps
    | with_reducible apply State.take_keeps | with_reducible apply State.syncBuf_keeps | with_reducible apply State.put_keeps
    | with_reducible apply Keeps.next | with_reducible apply Keeps.ite)

theorem State.ctrTake_keeps {s0 : State} (n : Fin 4) {s : Machine.State} (h : Keeps s0 s) :
    Keeps s0 (State.ctrTake n s) := by
  unfold State.ctrTake
  try dsimp only
  repeat' (first
    | with_reducible assumption | intro _ | with_reducible apply State.onCtr_keeps | with_reducible apply State.ctrApply_keeps
    | with_reducible apply Keeps.next | with_reducible apply Keeps.ite)

theorem State.readAhead_keeps {s0 : State} (n : Fin 4) (i : ℕ) {s : Machine.State} (h : Keeps s0 s) :
    Keeps s0 (State.readAhead n i s) := by
  unfold State.readAhead
  try dsimp only
  repeat' (first
    | with_reducible assumption | (intro _; try dsimp only) | with_reducible apply State.raise_keeps
    | with_reducible apply State.lookup_keeps | with_reducible apply State.onBuf_keeps | with_reducible apply State.addWork_keeps
    | (with_reducible refine Keeps.doAll (fun _ _ _ => ?_) ?_) <;> try dsimp only | with_reducible apply Keeps.doIf
    | with_reducible apply Keeps.next | with_reducible apply Keeps.ite | split)

theorem execFrameStart_keeps {s0 : State} (n : Fin 4) {s : Machine.State} (h : Keeps s0 s) :
    KeepsOut s0 (execFrameStart n s) := by
  unfold execFrameStart
  try dsimp only
  repeat' (first
    | with_reducible assumption | with_reducible apply State.ctrTake_keeps | with_reducible apply State.onCtr_keeps
    | with_reducible apply State.feed_keeps | with_reducible apply State.readAhead_keeps
    | (with_reducible refine Keeps.doAll (fun _ _ _ => ?_) ?_) <;> try dsimp only | with_reducible apply Keeps.next
    | with_reducible apply Keeps.ite)

theorem execPlaneRead_keeps {s0 : State} (q : Fin 65) (e : Sqe) {s : Machine.State} (h : Keeps s0 s) :
    KeepsOut s0 (execPlaneRead q e s) := by
  unfold execPlaneRead
  try dsimp only
  repeat' (first
    | with_reducible assumption | with_reducible apply State.ioCommand_keeps | with_reducible apply Keeps.next)

theorem execWrite_keeps {s0 : State} (q : Fin 65) (e : Sqe) {s : Machine.State} (h : Keeps s0 s) :
    KeepsOut s0 (execWrite q e s) := by
  unfold execWrite
  try dsimp only
  repeat' (first
    | with_reducible assumption | with_reducible apply State.ioCommand_keeps | with_reducible apply Keeps.next)

theorem execGrant_keeps {s0 : State} {s : Machine.State} (h : Keeps s0 s) :
    KeepsOut s0 (execGrant s) := by
  unfold execGrant
  try dsimp only
  repeat' (first
    | with_reducible assumption | with_reducible apply State.reclass_keeps | with_reducible apply State.grantAll_keeps
    | with_reducible apply Keeps.next)

theorem execContractStopTime_keeps {s0 : State} (id : ℕ) {s : Machine.State} (h : Keeps s0 s) :
    KeepsOut s0 (execContractStopTime id s) := by
  unfold execContractStopTime
  try dsimp only
  repeat' (first
    | with_reducible assumption | with_reducible apply State.reclass_keeps | with_reducible apply State.pump_keeps
    | with_reducible apply State.postAll_keeps | with_reducible apply State.withdraw_keeps | with_reducible apply State.sealReads_keeps
    | with_reducible apply State.onCtx_keeps | with_reducible apply Keeps.next | with_reducible apply Keeps.ite | split)

theorem execHostDataTlp_keeps {s0 : State} (id : ℕ) (n : ℕ) {s : Machine.State} (h : Keeps s0 s) :
    KeepsOut s0 (execHostDataTlp id n s) := by
  unfold execHostDataTlp
  try dsimp only
  repeat' (first
    | with_reducible assumption | with_reducible apply State.syncBuf_keeps | with_reducible apply State.land_keeps
    | with_reducible apply Keeps.next)

theorem State.writeZonePartials_keeps {s0 : State} (z : ℕ) {s : Machine.State} (h : Keeps s0 s) :
    Keeps s0 (State.writeZonePartials z s) := by
  unfold State.writeZonePartials
  try dsimp only
  repeat' (first
    | with_reducible assumption | intro _ | with_reducible apply State.writePartial_keeps
    | (with_reducible refine Keeps.doAll (fun _ _ _ => ?_) ?_) <;> try dsimp only)

theorem execUnsupportedOpcode_keeps {s0 : State} (q : Fin 65) (e : Sqe) {s : Machine.State} (h : Keeps s0 s) :
    KeepsOut s0 (execUnsupportedOpcode q e s) := by
  unfold execUnsupportedOpcode
  try dsimp only
  repeat' (first
    | with_reducible assumption | with_reducible apply State.admin_keeps | with_reducible apply State.adminDone_keeps
    | with_reducible apply State.ioCommand_keeps | with_reducible apply Keeps.next | with_reducible apply Keeps.ite)

theorem execCompletionStage_keeps {s0 : State} (cq : Fin 65) (n : ℕ) {s : Machine.State} (h : Keeps s0 s) :
    KeepsOut s0 (execCompletionStage cq n s) := by
  unfold execCompletionStage
  try dsimp only
  repeat' (first
    | with_reducible assumption | with_reducible apply State.pump_keeps | with_reducible apply State.postAll_keeps
    | with_reducible apply State.consume_keeps | with_reducible apply Keeps.next)

theorem execBufAbortWrite_keeps {s0 : State} (p : Sys2Proof.Path) (v : Word) {s : Machine.State} (h : Keeps s0 s) :
    KeepsOut s0 (execBufAbortWrite p v s) := by
  unfold execBufAbortWrite
  try dsimp only
  repeat' (first
    | with_reducible assumption | with_reducible apply State.writeBufAbort_keeps | with_reducible apply Keeps.next)

theorem execZoneReset_keeps {s0 : State} (q : Fin 65) (e : Sqe) {s : Machine.State} (h : Keeps s0 s) :
    KeepsOut s0 (execZoneReset q e s) := by
  unfold execZoneReset
  try dsimp only
  repeat' (first
    | with_reducible assumption | with_reducible apply State.ioCommand_keeps | with_reducible apply Keeps.next)

theorem execBufCtlLock_keeps {s0 : State} (p : Sys2Proof.Path) (v : Word) {s : Machine.State} (h : Keeps s0 s) :
    KeepsOut s0 (execBufCtlLock p v s) := by
  unfold execBufCtlLock
  try dsimp only
  repeat' (first
    | with_reducible assumption | with_reducible apply State.writeBufCtl_keeps | with_reducible apply Keeps.next)

theorem execZoneResetSeal_keeps {s0 : State} {s : Machine.State} (h : Keeps s0 s) :
    KeepsOut s0 (execZoneResetSeal s) := by
  unfold execZoneResetSeal
  try dsimp only
  repeat' (first
    | with_reducible assumption | with_reducible apply State.pump_keeps | with_reducible apply Keeps.next)

theorem execPartialTileTimeout_keeps {s0 : State} (t : ℕ) {s : Machine.State} (h : Keeps s0 s) :
    KeepsOut s0 (execPartialTileTimeout t s) := by
  unfold execPartialTileTimeout
  try dsimp only
  repeat' (first
    | with_reducible assumption | with_reducible apply State.feed_keeps | with_reducible apply State.writePartial_keeps
    | (with_reducible refine Keeps.doAll (fun _ _ _ => ?_) ?_) <;> try dsimp only | with_reducible apply Keeps.next
    | with_reducible apply Keeps.ite)

theorem execExtendedReportZones_keeps {s0 : State} (q : Fin 65) (e : Sqe) {s : Machine.State} (h : Keeps s0 s) :
    KeepsOut s0 (execExtendedReportZones q e s) := by
  unfold execExtendedReportZones
  try dsimp only
  repeat' (first
    | with_reducible assumption | with_reducible apply State.ioCommand_keeps | with_reducible apply Keeps.next)

theorem execRead_keeps {s0 : State} (q : Fin 65) (e : Sqe) {s : Machine.State} (h : Keeps s0 s) :
    KeepsOut s0 (execRead q e s) := by
  unfold execRead
  try dsimp only
  repeat' (first
    | with_reducible assumption | with_reducible apply State.ioCommand_keeps | with_reducible apply Keeps.next)

theorem execReportZones_keeps {s0 : State} (q : Fin 65) (e : Sqe) {s : Machine.State} (h : Keeps s0 s) :
    KeepsOut s0 (execReportZones q e s) := by
  unfold execReportZones
  try dsimp only
  repeat' (first
    | with_reducible assumption | with_reducible apply State.ioCommand_keeps | with_reducible apply Keeps.next)

end Sys2Proof.Machine
end

