-- ==== Sys2Proof/Laws/KeepsUnits.lean ====
section
/-! SUPPORT. That what every command keeps (`Keeps`) is kept by the sequencers, the sampled loops, the power, event, flash, harvest and spindle operations. -/

namespace Sys2Proof.Machine
open Sys2Proof

theorem State.loseState_keeps {s0 : State} (d : ℕ) {s : Machine.State} (h : Keeps s0 s) :
    Keeps s0 (State.loseState d s) := by
  unfold State.loseState
  try dsimp only
  repeat' (first
    | with_reducible assumption | intro _ | with_reducible apply State.put_keeps | with_reducible apply State.onLane_keeps
    | with_reducible apply State.crysDrop_keeps | with_reducible apply Keeps.next | with_reducible apply Keeps.ite)

theorem State.holdPads_keeps {s0 : State} (d : ℕ) {s : Machine.State} (h : Keeps s0 s) :
    Keeps s0 (State.holdPads d s) := by
  unfold State.holdPads
  try dsimp only
  repeat' (first
    | with_reducible assumption | intro _ | with_reducible apply State.putBit_keeps | with_reducible apply State.put_keeps
    | with_reducible apply Keeps.next | with_reducible apply Keeps.ite)

theorem State.cocoon_keeps {s0 : State} (d : ℕ) {s : Machine.State} (h : Keeps s0 s) :
    Keeps s0 (State.cocoon d s) := by
  unfold State.cocoon
  try dsimp only
  repeat' (first
    | with_reducible assumption | intro _ | with_reducible apply State.loseState_keeps | with_reducible apply State.holdPads_keeps
    | with_reducible apply State.setDom_keeps)

theorem State.afterWake_keeps {s0 : State} (d : ℕ) {s : Machine.State} (h : Keeps s0 s) :
    Keeps s0 (State.afterWake d s) := by
  unfold State.afterWake
  try dsimp only
  repeat' (first
    | with_reducible assumption | intro _ | with_reducible apply State.cocoon_keeps | with_reducible apply Keeps.next
    | with_reducible apply Keeps.ite)

theorem State.requestNext_keeps {s0 : State} {s : Machine.State} (h : Keeps s0 s) :
    Keeps s0 (State.requestNext s) := by
  unfold State.requestNext
  try dsimp only
  repeat' (first
    | with_reducible assumption | intro _ | with_reducible apply State.onPwr_keeps | with_reducible apply State.setDom_keeps
    | with_reducible apply State.queueFrame_keeps | with_reducible apply Keeps.next | with_reducible apply Keeps.ite | split)

theorem State.startEntry_keeps {s0 : State} {s : Machine.State} (h : Keeps s0 s) :
    Keeps s0 (State.startEntry s) := by
  unfold State.startEntry
  try dsimp only
  repeat' (first
    | with_reducible assumption | intro _ | with_reducible apply State.put_keeps | with_reducible apply State.onPwr_keeps
    | with_reducible apply State.requestNext_keeps | with_reducible apply State.incStop_keeps | with_reducible apply Keeps.next
    | with_reducible apply Keeps.ite)

theorem State.emergeHead_keeps {s0 : State} {s : Machine.State} (h : Keeps s0 s) :
    Keeps s0 (State.emergeHead s) := by
  unfold State.emergeHead
  try dsimp only
  repeat' (first
    | with_reducible assumption | intro _ | with_reducible apply State.onPwr_keeps | with_reducible apply State.setDom_keeps
    | with_reducible apply Keeps.next | with_reducible apply Keeps.ite | split)

theorem State.startEmergence_keeps {s0 : State} (ds : List ℕ) (after : ℕ) {s : Machine.State} (h : Keeps s0 s) :
    Keeps s0 (State.startEmergence ds after s) := by
  unfold State.startEmergence
  try dsimp only
  repeat' (first
    | with_reducible assumption | intro _ | with_reducible apply State.emergeHead_keeps | with_reducible apply State.put_keeps
    | with_reducible apply State.onPwr_keeps)

theorem State.pwrGo_keeps {s0 : State} (wake : List ℕ) (stop : List ℕ) {s : Machine.State} (h : Keeps s0 s) :
    Keeps s0 (State.pwrGo wake stop s) := by
  unfold State.pwrGo
  try dsimp only
  repeat' (first
    | with_reducible assumption | intro _ | with_reducible apply State.onPwr_keeps | with_reducible apply State.put_keeps
    | with_reducible apply State.startEntry_keeps | with_reducible apply State.startEmergence_keeps | with_reducible apply Keeps.next
    | with_reducible apply Keeps.ite)

theorem State.releasePads_keeps {s0 : State} (d : ℕ) {s : Machine.State} (h : Keeps s0 s) :
    Keeps s0 (State.releasePads d s) := by
  unfold State.releasePads
  try dsimp only
  repeat' (first
    | with_reducible assumption | intro _ | with_reducible apply State.putBit_keeps | with_reducible apply State.queueFrame_keeps
    | with_reducible apply State.onAct_keeps | with_reducible apply State.put_keeps | with_reducible apply Keeps.next
    | with_reducible apply Keeps.ite)

theorem State.restoreMotion_keeps {s0 : State} {s : Machine.State} (h : Keeps s0 s) :
    Keeps s0 (State.restoreMotion s) := by
  unfold State.restoreMotion
  dsimp only
  split
  · exact h
  · split
    · exact h
    · have k : ∀ rs : List (Nat × Word), Keeps s0 (doAll rs (fun (x : Nat × Word) s =>
          State.setReg x.1 ((s.reg x.1 &&& ~~~(ownBits x.1)) ||| (x.2 &&& ownBits x.1)) s) s) :=
        fun _ => Keeps.doAll (fun _ _ h => Keeps.setReg h) h
      have k2 : ∀ (act : List (Nat × Word)) (t : State) (sv : Servo), Keeps s0 t → Keeps s0 { t with
          active := act.foldl (fun m (x : Nat × Word) => cset (resetVal t.variant) x.1 x.2 m) (t.active.filter (fun (x : Nat × Word) => !(motionReg x.1)))
          servo := sv } := fun act t sv ht => ht.trans ⟨rfl, rfl, fun _ h => h, id, id, id,
            fun x => cwf_foldl _ _ _ _ (fun _ _ => cwf_cset _ _ _ _) (cwf_filter _ _ _ x)⟩
      refine Keeps.ite (State.startSpin_keeps ?_) ?_ <;>
        exact State.onPwr_keeps _ (State.releasePads_keeps _ (k2 _ _ _ (k _)))

theorem State.mcsStart_keeps {s0 : State} (n : Fin 4) {s : Machine.State} (h : Keeps s0 s) :
    Keeps s0 (State.mcsStart n s) := by
  unfold State.mcsStart
  try dsimp only
  repeat' (first
    | with_reducible assumption | intro _ | with_reducible apply State.put_keeps | with_reducible apply Keeps.setReg
    | with_reducible apply State.onLane_keeps)

theorem State.wakeLane_keeps {s0 : State} (n : Fin 4) {s : Machine.State} (h : Keeps s0 s) :
    Keeps s0 (State.wakeLane n s) := by
  unfold State.wakeLane
  try dsimp only
  repeat' (first
    | with_reducible assumption | intro _ | with_reducible apply State.put_keeps | with_reducible apply State.mcsStart_keeps
    | with_reducible apply State.releasePads_keeps | with_reducible apply Keeps.next | with_reducible apply Keeps.ite)

theorem State.loadHeads_keeps {s0 : State} {s : Machine.State} (h : Keeps s0 s) :
    Keeps s0 (State.loadHeads s) := by
  unfold State.loadHeads
  try dsimp only
  repeat' (first
    | with_reducible assumption | intro _ | with_reducible apply State.rampMove_keeps
    | (with_reducible refine Keeps.doAll (fun _ _ _ => ?_) ?_) <;> try dsimp only)

theorem State.goUp_keeps {s0 : State} (k : ℕ) {s : Machine.State} (h : Keeps s0 s) :
    Keeps s0 (State.goUp k s).2 := by
  unfold State.goUp
  try dsimp only
  repeat' (first
    | with_reducible assumption | intro _ | with_reducible apply State.restoreMotion_keeps | with_reducible apply State.wakeLane_keeps
    | with_reducible apply State.put_keeps | with_reducible apply State.loadHeads_keeps
    | (with_reducible refine Keeps.doAll (fun _ _ _ => ?_) ?_) <;> try dsimp only | with_reducible apply Keeps.next
    | with_reducible apply Keeps.ite | split)

theorem State.saveMotion_keeps {s0 : State} {s : Machine.State} (h : Keeps s0 s) :
    Keeps s0 (State.saveMotion s) := by
  unfold State.saveMotion
  try dsimp only
  repeat' (first
    | with_reducible assumption | intro _ | with_reducible apply State.onPwr_keeps | with_reducible apply Keeps.next
    | with_reducible apply Keeps.ite)

theorem State.goDown_keeps {s0 : State} (k : ℕ) {s : Machine.State} (h : Keeps s0 s) :
    Keeps s0 (State.goDown k s).2 := by
  unfold State.goDown
  try dsimp only
  repeat' (first
    | with_reducible assumption | intro _ | with_reducible apply State.syncBuf_keeps | with_reducible apply State.dispatch_keeps
    | with_reducible apply State.put_keeps | with_reducible apply State.unloadAll_keeps | with_reducible apply State.saveMotion_keeps
    | with_reducible apply State.stopSpin_keeps | (with_reducible refine Keeps.doAll (fun _ _ _ => ?_) ?_) <;> try dsimp only
    | with_reducible apply Keeps.next | with_reducible apply Keeps.ite | split)

theorem State.pmStep_keeps {s0 : State} {s : Machine.State} (h : Keeps s0 s) :
    Keeps s0 (State.pmStep s) := by
  unfold State.pmStep
  try dsimp only
  repeat' (first
    | with_reducible assumption | intro _ | with_reducible apply State.onPwr_keeps | with_reducible apply State.pwrGo_keeps
    | with_reducible apply State.goUp_keeps | with_reducible apply State.put_keeps | with_reducible apply State.goDown_keeps
    | with_reducible apply Keeps.next | with_reducible apply Keeps.ite | split)

theorem State.realign_keeps {s0 : State} (a : Fin 4) (w : ℕ) {s : Machine.State} (h : Keeps s0 s) :
    Keeps s0 (State.realign a w s) := by
  unfold State.realign
  try dsimp only
  repeat' (first
    | with_reducible assumption | intro _ | with_reducible apply State.onLane_keeps | with_reducible apply Keeps.next
    | with_reducible apply Keeps.ite)

theorem State.emergenceOver_keeps {s0 : State} {s : Machine.State} (h : Keeps s0 s) :
    Keeps s0 (State.emergenceOver s) := by
  unfold State.emergenceOver
  try dsimp only
  repeat' (first
    | with_reducible assumption | intro _ | with_reducible apply State.startEntry_keeps | with_reducible apply State.onPwr_keeps
    | with_reducible apply State.put_keeps | with_reducible apply Keeps.next | with_reducible apply Keeps.ite | split)

theorem State.undoEntry_keeps {s0 : State} (after : ℕ) {s : Machine.State} (h : Keeps s0 s) :
    Keeps s0 (State.undoEntry after s) := by
  unfold State.undoEntry
  try dsimp only
  repeat' (first
    | with_reducible assumption | intro _ | with_reducible apply State.setDom_keeps | with_reducible apply State.onPwr_keeps
    | with_reducible apply State.emergenceOver_keeps | with_reducible apply State.startEmergence_keeps
    | with_reducible apply Keeps.next | with_reducible apply Keeps.ite | split)

theorem State.pwrDiapause_keeps {s0 : State} {s : Machine.State} (h : Keeps s0 s) :
    Keeps s0 (State.pwrDiapause s) := by
  unfold State.pwrDiapause
  try dsimp only
  repeat' (first
    | with_reducible assumption | intro _ | with_reducible apply State.onPwr_keeps | with_reducible apply State.undoEntry_keeps
    | with_reducible apply State.put_keeps | with_reducible apply State.startEmergence_keeps | with_reducible apply Keeps.next
    | with_reducible apply Keeps.ite)

theorem State.onHrv_keeps {s0 : State} (f : HrvSt → HrvSt) {s : Machine.State} (h : Keeps s0 s) :
    Keeps s0 (State.onHrv f s) := by
  unfold State.onHrv
  try dsimp only
  repeat' (first
    | with_reducible assumption | intro _ | with_reducible apply Keeps.next | with_reducible apply Keeps.ite | split
    | fail_if_no_progress (with_reducible apply Keeps.upd))

theorem State.nextHseq_keeps {s0 : State} {s : Machine.State} (h : Keeps s0 s) :
    Keeps s0 (State.nextHseq s) := by
  unfold State.nextHseq
  try dsimp only
  repeat' (first
    | with_reducible assumption | intro _ | with_reducible apply State.setWord_keeps)

theorem State.addCounter_keeps {s0 : State} (pot : ℕ) (pcyc : ℕ) {s : Machine.State} (h : Keeps s0 s) :
    Keeps s0 (State.addCounter pot pcyc s) := by
  unfold State.addCounter
  try dsimp only
  repeat' (first
    | with_reducible assumption | intro _ | with_reducible apply Keeps.eraseFlash | with_reducible apply Keeps.program
    | with_reducible apply Keeps.next | with_reducible apply Keeps.ite)

theorem State.countersRecord_keeps {s0 : State} {s : Machine.State} (h : Keeps s0 s) :
    Keeps s0 (State.countersRecord s) := by
  unfold State.countersRecord
  try dsimp only
  repeat' (first
    | with_reducible assumption | intro _ | with_reducible apply State.addCounter_keeps | with_reducible apply Keeps.next
    | with_reducible apply Keeps.ite)

theorem State.endPark_keeps {s0 : State} (late : ℕ) {s : Machine.State} (h : Keeps s0 s) :
    Keeps s0 (State.endPark late s) := by
  unfold State.endPark
  try dsimp only
  repeat' (first
    | with_reducible assumption | intro _ | with_reducible apply State.spnTo_keeps | with_reducible apply State.onHrv_keeps
    | with_reducible apply State.post_keeps | with_reducible apply State.countersRecord_keeps
    | with_reducible apply State.askFlush_keeps | with_reducible apply State.put_keeps | with_reducible apply Keeps.next
    | with_reducible apply Keeps.ite)

theorem State.beginPark_keeps {s0 : State} {s : Machine.State} (h : Keeps s0 s) :
    Keeps s0 (State.beginPark s) := by
  unfold State.beginPark
  try dsimp only
  repeat' (first
    | with_reducible assumption | intro _ | with_reducible apply State.put_keeps | with_reducible apply State.onHrv_keeps
    | with_reducible apply State.unloadAll_keeps | with_reducible apply State.endPark_keeps | with_reducible apply Keeps.next
    | with_reducible apply Keeps.ite)

theorem State.endCommit_keeps {s0 : State} (result : ℕ) {s : Machine.State} (h : Keeps s0 s) :
    Keeps s0 (State.endCommit result s) := by
  unfold State.endCommit
  try dsimp only
  repeat' (first
    | with_reducible assumption | intro _ | with_reducible apply State.put_keeps | with_reducible apply State.onHrv_keeps
    | with_reducible apply State.beginPark_keeps | with_reducible apply Keeps.next | with_reducible apply Keeps.ite)

theorem State.give_keeps {s0 : State} (n : ℕ) (cs : List MediaCmd) {s : Machine.State} (h : Keeps s0 s) :
    Keeps s0 (State.give n cs s) := by
  unfold State.give
  try dsimp only
  repeat' (first
    | with_reducible assumption | intro _ | with_reducible apply State.setQueue_keeps)

theorem State.takeSlot_keeps {s0 : State} (n : ℕ) (data : Bool) {s : Machine.State} (h : Keeps s0 s) :
    ∀ res, (State.takeSlot n data s) = some res → Keeps s0 res.2 := by
  intro x hx
  unfold State.takeSlot at hx
  dsimp only at hx
  repeat' split at hx
  all_goals first
    | (cases hx; exact State.syncSalt_keeps (State.onMap_keeps _ h))
    | cases hx

theorem State.giveSystem_keeps {s0 : State} (n : Nat) : ∀ (l : List (List MUnit)) {s : State}, Keeps s0 s →
    Keeps s0 (State.giveSystem n l s).2 := by
  intro l
  induction l with
  | nil => intro _ h; exact h
  | cons us rest ih =>
    intro s h
    unfold State.giveSystem
    split
    · exact h
    · exact ih (State.give_keeps _ _ (Keeps.opt ‹_› (State.takeSlot_keeps _ _ h)))

theorem State.giveCopy_keeps {s0 : State} (n : ℕ) {s : Machine.State} (h : Keeps s0 s) :
    Keeps s0 (State.giveCopy n s) := by
  unfold State.giveCopy
  try dsimp only
  repeat' (first
    | with_reducible assumption | intro _ | with_reducible apply State.giveSystem_keeps | with_reducible apply State.onHrv_keeps)

theorem State.copyAnew_keeps {s0 : State} {s : Machine.State} (h : Keeps s0 s) :
    Keeps s0 (State.copyAnew s) := by
  unfold State.copyAnew
  try dsimp only
  repeat' (first
    | with_reducible assumption | intro _ | with_reducible apply State.endCommit_keeps | with_reducible apply State.onHrv_keeps
    | with_reducible apply State.giveCopy_keeps | with_reducible apply State.give_keeps
    | (with_reducible refine Keeps.doAll (fun _ _ _ => ?_) ?_) <;> try dsimp only | with_reducible apply Keeps.next
    | with_reducible apply Keeps.ite | split)

theorem State.dropLeft_keeps {s0 : State} {s : Machine.State} (h : Keeps s0 s) :
    Keeps s0 (State.dropLeft s) := by
  unfold State.dropLeft
  try dsimp only
  repeat' (first
    | with_reducible assumption | intro _ | with_reducible apply State.setQueue_keeps
    | (with_reducible refine Keeps.doAll (fun _ _ _ => ?_) ?_) <;> try dsimp only | with_reducible apply Keeps.next
    | with_reducible apply Keeps.ite)

theorem State.dealSlot_keeps {s0 : State} (n : ℕ) {s : Machine.State} (h : Keeps s0 s) :
    Keeps s0 (State.dealSlot n s) := by
  unfold State.dealSlot
  try dsimp only
  repeat' (first
    | with_reducible assumption | intro _ | with_reducible apply State.onHrv_keeps | with_reducible apply State.give_keeps
    | with_reducible apply Keeps.next | with_reducible apply Keeps.ite | split
    | refine Keeps.opt ‹_ = some (_, _)› (State.takeSlot_keeps _ _ ?_))

theorem State.dealAll_keeps {s0 : State} {s : Machine.State} (h : Keeps s0 s) :
    Keeps s0 (State.dealAll s) := by
  unfold State.dealAll
  try dsimp only
  repeat' (first
    | with_reducible assumption | intro _ | with_reducible apply State.dealSlot_keeps
    | (with_reducible refine Keeps.doAll (fun _ _ _ => ?_) ?_) <;> try dsimp only | with_reducible apply Keeps.next
    | with_reducible apply Keeps.ite)

theorem State.toStep_keeps {s0 : State} (k : ℕ) {s : Machine.State} (h : Keeps s0 s) :
    Keeps s0 (State.toStep k s) := by
  unfold State.toStep
  try dsimp only
  repeat' (first
    | with_reducible assumption | intro _ | with_reducible apply State.put_keeps | with_reducible apply State.onHrv_keeps
    | with_reducible apply Keeps.next | with_reducible apply Keeps.ite)

theorem State.beginKeel_keeps {s0 : State} {s : Machine.State} (h : Keeps s0 s) :
    Keeps s0 (State.beginKeel s) := by
  unfold State.beginKeel
  try dsimp only
  repeat' (first
    | with_reducible assumption | intro _ | with_reducible apply State.landRecords_keeps | with_reducible apply State.onMap_keeps
    | with_reducible apply State.onHrv_keeps | with_reducible apply State.give_keeps
    | (with_reducible refine Keeps.doAll (fun _ _ _ => ?_) ?_) <;> try dsimp only)

theorem State.beginCommit_keeps {s0 : State} {s : Machine.State} (h : Keeps s0 s) :
    Keeps s0 (State.beginCommit s) := by
  unfold State.beginCommit
  try dsimp only
  repeat' (first
    | with_reducible assumption | intro _ | with_reducible apply State.onHrv_keeps | with_reducible apply State.toStep_keeps
    | with_reducible apply State.endCommit_keeps | with_reducible apply State.giveCopy_keeps
    | with_reducible apply State.beginKeel_keeps | (with_reducible refine Keeps.doAll (fun _ _ _ => ?_) ?_) <;> try dsimp only
    | with_reducible apply Keeps.next | with_reducible apply Keeps.ite)

theorem State.coastGo_keeps {s0 : State} {s : Machine.State} (h : Keeps s0 s) :
    Keeps s0 (State.coastGo s) := by
  unfold State.coastGo
  try dsimp only
  repeat' (first
    | with_reducible assumption | intro _ | with_reducible apply State.copyAnew_keeps | with_reducible apply State.dropLeft_keeps
    | with_reducible apply State.onHrv_keeps | with_reducible apply State.beginPark_keeps | with_reducible apply State.dealAll_keeps
    | with_reducible apply State.toStep_keeps | with_reducible apply State.beginCommit_keeps | with_reducible apply Keeps.next
    | with_reducible apply Keeps.ite)

theorem State.frame_keeps {s0 : State} (n : Fin 4) (cause : ℕ) (forced : Bool) (at_ : ℕ) (next : ℕ) {s : Machine.State} (h : Keeps s0 s) :
    Keeps s0 (State.frame n cause forced at_ next s) := by
  unfold State.frame
  try dsimp only
  repeat' (first
    | with_reducible assumption | intro _ | with_reducible apply State.put_keeps)

theorem State.harvestStart_keeps {s0 : State} (n : Fin 4) {s : Machine.State} (h : Keeps s0 s) :
    Keeps s0 (State.harvestStart n s) := by
  unfold State.harvestStart
  try dsimp only
  repeat' (first
    | with_reducible assumption | intro _ | with_reducible apply State.frame_keeps | with_reducible apply State.setCur_keeps
    | with_reducible apply State.returnCmds_keeps | with_reducible apply State.put_keeps | with_reducible apply State.inc_keeps
    | with_reducible apply Keeps.next | with_reducible apply Keeps.ite | split | fail_if_no_progress (with_reducible apply Keeps.upd))

theorem State.trapLanes_keeps {s0 : State} {s : Machine.State} (h : Keeps s0 s) :
    Keeps s0 (State.trapLanes s) := by
  unfold State.trapLanes
  try dsimp only
  repeat' (first
    | with_reducible assumption | intro _ | with_reducible apply State.onHrv_keeps | with_reducible apply State.onLane_keeps
    | with_reducible apply State.latchTrap_keeps | with_reducible apply State.harvestStart_keeps
    | (with_reducible refine Keeps.doAll (fun _ _ _ => ?_) ?_) <;> try dsimp only | with_reducible apply Keeps.next
    | with_reducible apply Keeps.ite)

theorem State.beginSwitchCommit_keeps {s0 : State} (k : ℕ) {s : Machine.State} (h : Keeps s0 s) :
    Keeps s0 (State.beginSwitchCommit k s) := by
  unfold State.beginSwitchCommit
  try dsimp only
  repeat' (first
    | with_reducible assumption | intro _ | with_reducible apply State.nextHseq_keeps | with_reducible apply State.put_keeps
    | with_reducible apply State.onHrv_keeps | with_reducible apply State.coastGo_keeps | with_reducible apply State.trapLanes_keeps)

theorem State.diapauseFor_keeps {s0 : State} (cause : ℕ) {s : Machine.State} (h : Keeps s0 s) :
    Keeps s0 (State.diapauseFor cause s) := by
  unfold State.diapauseFor
  try dsimp only
  repeat' (first
    | with_reducible assumption | intro _ | with_reducible apply State.post_keeps | with_reducible apply State.put_keeps
    | with_reducible apply State.aen_keeps | with_reducible apply State.latchCause_keeps | with_reducible apply State.setBudget_keeps
    | with_reducible apply State.breakSlot_keeps | with_reducible apply State.failWrite_keeps
    | with_reducible apply State.reclass_keeps | with_reducible apply State.postAll_keeps | with_reducible apply State.withdraw_keeps
    | with_reducible apply State.onBuf_keeps | with_reducible apply State.pwrDiapause_keeps | with_reducible apply State.askFlush_keeps
    | with_reducible apply State.onHrv_keeps | with_reducible apply State.stopSpin_keeps
    | with_reducible apply State.beginSwitchCommit_keeps | (with_reducible refine Keeps.doAll (fun _ _ _ => ?_) ?_) <;> try dsimp only
    | with_reducible apply Keeps.next | with_reducible apply Keeps.ite | split | fail_if_no_progress (with_reducible apply Keeps.upd))

theorem State.emergeNext_keeps {s0 : State} {s : Machine.State} (h : Keeps s0 s) :
    Keeps s0 (State.emergeNext s) := by
  unfold State.emergeNext
  try dsimp only
  repeat' (first
    | with_reducible assumption | intro _ | with_reducible apply State.onPwr_keeps | with_reducible apply State.emergenceOver_keeps
    | with_reducible apply State.emergeHead_keeps | with_reducible apply Keeps.next | with_reducible apply Keeps.ite | split)

theorem State.onServo_keeps {s0 : State} (f : Servo → Servo) {s : Machine.State} (h : Keeps s0 s) :
    Keeps s0 (State.onServo f s) := by
  unfold State.onServo
  try dsimp only
  repeat' (first
    | with_reducible assumption | intro _ | with_reducible apply Keeps.next | with_reducible apply Keeps.ite | split
    | fail_if_no_progress (with_reducible apply Keeps.upd))

theorem State.flutterFail_keeps {s0 : State} (cause : ℕ) {s : Machine.State} (h : Keeps s0 s) :
    Keeps s0 (State.flutterFail cause s) := by
  unfold State.flutterFail
  try dsimp only
  repeat' (first
    | with_reducible assumption | intro _ | with_reducible apply State.onServo_keeps | with_reducible apply State.put_keeps
    | with_reducible apply Keeps.next | with_reducible apply Keeps.ite | split)

theorem State.flutterCycle_keeps {s0 : State} (f : Flut) {s : Machine.State} (h : Keeps s0 s) :
    Keeps s0 (State.flutterCycle f s) := by
  unfold State.flutterCycle
  try dsimp only
  repeat' (first
    | with_reducible assumption | intro _ | with_reducible apply State.put_keeps | with_reducible apply State.onServo_keeps
    | with_reducible apply Keeps.next | with_reducible apply Keeps.ite)

theorem State.flutterStep_keeps {s0 : State} (a : Fin 4) {s : Machine.State} (h : Keeps s0 s) :
    Keeps s0 (State.flutterStep a s) := by
  unfold State.flutterStep
  try dsimp only
  repeat' (first
    | with_reducible assumption | intro _ | with_reducible apply State.flutterFail_keeps
    | with_reducible apply State.flutterCycle_keeps | with_reducible apply State.onServo_keeps | with_reducible apply Keeps.next
    | with_reducible apply Keeps.ite | split)

theorem State.computeLoops_keeps {s0 : State} (a : Fin 4) {s : Machine.State} (h : Keeps s0 s) :
    Keeps s0 (State.computeLoops a s) := by
  unfold State.computeLoops
  try dsimp only
  repeat' (first
    | with_reducible assumption | intro _ | with_reducible apply State.onAct_keeps | with_reducible apply State.afterLoop_keeps
    | with_reducible apply State.runLoop_keeps | with_reducible apply State.demands_keeps
    | with_reducible apply State.flutterStep_keeps | (with_reducible refine Keeps.doAll (fun _ _ _ => ?_) ?_) <;> try dsimp only
    | with_reducible apply Keeps.next | with_reducible apply Keeps.ite)

theorem State.setIso_keeps {s0 : State} (b : Bool) {s : Machine.State} (h : Keeps s0 s) :
    Keeps s0 (State.setIso b s) := by
  unfold State.setIso
  try dsimp only
  repeat' (first
    | with_reducible assumption | intro _ | with_reducible apply State.put_keeps)

theorem State.enterPs_keeps {s0 : State} (k : ℕ) {s : Machine.State} (h : Keeps s0 s) :
    Keeps s0 (State.enterPs k s) := by
  unfold State.enterPs
  try dsimp only
  repeat' (first
    | with_reducible assumption | intro _ | with_reducible apply State.pmStep_keeps | with_reducible apply State.onPwr_keeps
    | with_reducible apply Keeps.next | with_reducible apply Keeps.ite | split | fail_if_no_progress (with_reducible apply Keeps.upd))

theorem State.systemWritten_keeps {s0 : State} (n : ℕ) (u : MUnit) {s : Machine.State} (h : Keeps s0 s) :
    Keeps s0 (State.systemWritten n u s) := by
  unfold State.systemWritten
  try dsimp only
  repeat' (first
    | with_reducible assumption | intro _ | with_reducible apply State.endCommit_keeps | with_reducible apply State.onHrv_keeps
    | with_reducible apply State.beginKeel_keeps | with_reducible apply Keeps.next | with_reducible apply Keeps.ite)

theorem State.onTimer_keeps {s0 : State} (n : Fin 4) (t : ℕ) (f : Timer → Timer) {s : Machine.State} (h : Keeps s0 s) :
    Keeps s0 (State.onTimer n t f s) := by
  unfold State.onTimer
  try dsimp only
  repeat' (first
    | with_reducible assumption | intro _ | with_reducible apply State.onLane_keeps)

theorem State.tickTimer_keeps {s0 : State} (n : Fin 4) (t : ℕ) (k : ℕ) {s : Machine.State} (h : Keeps s0 s) :
    Keeps s0 (State.tickTimer n t k s) := by
  unfold State.tickTimer
  try dsimp only
  repeat' (first
    | with_reducible assumption | intro _ | with_reducible apply State.put_keeps | with_reducible apply State.onTimer_keeps
    | with_reducible apply Keeps.next | with_reducible apply Keeps.ite)

theorem State.tickUnit_keeps {s0 : State} (n : Fin 4) (u : ℕ) {s : Machine.State} (h : Keeps s0 s) :
    Keeps s0 (State.tickUnit n u s) := by
  unfold State.tickUnit
  try dsimp only
  repeat' (first
    | with_reducible assumption | intro _ | with_reducible apply State.tickTimer_keeps
    | (with_reducible refine Keeps.doAll (fun _ _ _ => ?_) ?_) <;> try dsimp only | with_reducible apply Keeps.next
    | with_reducible apply Keeps.ite)

theorem State.wedge_keeps {s0 : State} (a : Fin 4) (m : SampleIn) (gate : Bool) {s : Machine.State} (h : Keeps s0 s) :
    Keeps s0 (State.wedge a m gate s) := by
  unfold State.wedge
  try dsimp only
  repeat' (first
    | with_reducible assumption | intro _ | with_reducible apply State.put_keeps | with_reducible apply State.realign_keeps
    | with_reducible apply State.tickUnit_keeps | with_reducible apply State.onLane_keeps | with_reducible apply State.onAct_keeps
    | with_reducible apply Keeps.next | with_reducible apply Keeps.ite)

theorem State.measureSpeed_keeps {s0 : State} (a : Fin 4) {s : Machine.State} (h : Keeps s0 s) :
    Keeps s0 (State.measureSpeed a s) := by
  unfold State.measureSpeed
  try dsimp only
  repeat' (first
    | with_reducible assumption | intro _ | with_reducible apply State.observerSpeed_keeps | with_reducible apply State.put_keeps
    | with_reducible apply Keeps.next | with_reducible apply Keeps.ite | split)

theorem State.advanceSeek_keeps {s0 : State} (a : Fin 4) {s : Machine.State} (h : Keeps s0 s) :
    Keeps s0 (State.advanceSeek a s) := by
  unfold State.advanceSeek
  try dsimp only
  repeat' (first
    | with_reducible assumption | intro _ | with_reducible apply State.onAct_keeps | with_reducible apply State.put_keeps
    | with_reducible apply Keeps.next | with_reducible apply Keeps.ite | split)

theorem State.beginSeek_keeps {s0 : State} (a : Fin 4) (pos : ℤ) {s : Machine.State} (h : Keeps s0 s) :
    Keeps s0 (State.beginSeek a pos s) := by
  unfold State.beginSeek
  try dsimp only
  repeat' (first
    | with_reducible assumption | intro _ | with_reducible apply State.put_keeps | with_reducible apply State.onAct_keeps
    | with_reducible apply Keeps.next | with_reducible apply Keeps.ite | split)

theorem State.settleSeek_keeps {s0 : State} (a : Fin 4) {s : Machine.State} (h : Keeps s0 s) :
    Keeps s0 (State.settleSeek a s) := by
  unfold State.settleSeek
  try dsimp only
  repeat' (first
    | with_reducible assumption | intro _ | with_reducible apply State.onAct_keeps | with_reducible apply State.endMove_keeps
    | with_reducible apply State.wantSeek_keeps | with_reducible apply Keeps.next | with_reducible apply Keeps.ite | split)

theorem State.validSample_keeps {s0 : State} (a : Fin 4) (pos : ℤ) {s : Machine.State} (h : Keeps s0 s) :
    Keeps s0 (State.validSample a pos s) := by
  unfold State.validSample
  try dsimp only
  repeat' (first
    | with_reducible assumption | intro _ | with_reducible apply State.onAct_keeps | with_reducible apply State.beginSeek_keeps
    | with_reducible apply State.put_keeps | with_reducible apply State.forceOn_keeps | with_reducible apply State.computeLoops_keeps
    | with_reducible apply State.settleSeek_keeps | with_reducible apply State.forceOff_keeps
    | with_reducible apply State.endUnit_keeps | with_reducible apply State.latchTrap_keeps | with_reducible apply Keeps.next
    | with_reducible apply Keeps.ite | split | fail_if_no_progress (with_reducible apply Keeps.upd))

theorem State.loseServo_keeps {s0 : State} (a : Fin 4) {s : Machine.State} (h : Keeps s0 s) :
    Keeps s0 (State.loseServo a s) := by
  unfold State.loseServo
  try dsimp only
  repeat' (first
    | with_reducible assumption | intro _ | with_reducible apply State.onLane_keeps | with_reducible apply State.noDemand_keeps
    | with_reducible apply State.stopLoop_keeps | with_reducible apply State.laneLeft_keeps | with_reducible apply State.raiseAt_keeps
    | with_reducible apply State.rampMove_keeps | (with_reducible refine Keeps.doAll (fun _ _ _ => ?_) ?_) <;> try dsimp only)

theorem State.missedSample_keeps {s0 : State} (a : Fin 4) {s : Machine.State} (h : Keeps s0 s) :
    Keeps s0 (State.missedSample a s) := by
  unfold State.missedSample
  try dsimp only
  repeat' (first
    | with_reducible assumption | intro _ | with_reducible apply State.put_keeps | with_reducible apply State.onAct_keeps
    | with_reducible apply State.forceOn_keeps | with_reducible apply State.computeLoops_keeps | with_reducible apply State.inc_keeps
    | with_reducible apply State.loseServo_keeps | with_reducible apply Keeps.next | with_reducible apply Keeps.ite)

theorem State.sample_keeps {s0 : State} (a : Fin 4) (m : SampleIn) {s : Machine.State} (h : Keeps s0 s) :
    Keeps s0 (State.sample a m s) := by
  unfold State.sample
  try dsimp only
  repeat' (first
    | with_reducible assumption | intro _ | with_reducible apply State.put_keeps | with_reducible apply State.wedge_keeps
    | with_reducible apply State.measureSpeed_keeps | with_reducible apply State.advanceSeek_keeps
    | with_reducible apply State.validSample_keeps | with_reducible apply State.missedSample_keeps
    | with_reducible apply State.flyCheck_keeps | with_reducible apply Keeps.next | with_reducible apply Keeps.ite)

theorem State.writeSpnCtl_keeps {s0 : State} (p : Sys2Proof.Path) (v : Word) {s : Machine.State} (h : Keeps s0 s) :
    Keeps s0 (State.writeSpnCtl p v s) := by
  unfold State.writeSpnCtl
  try dsimp only
  repeat' (first
    | with_reducible assumption | (intro _; try dsimp only) | with_reducible apply State.gated_keeps
    | with_reducible apply State.take_keeps | with_reducible apply State.stopSpin_keeps | with_reducible apply State.startSpin_keeps
    | with_reducible apply State.sourceTarget_keeps | with_reducible apply Keeps.next | with_reducible apply Keeps.ite)

theorem State.curveSource_keeps {s0 : State} {s : Machine.State} (h : Keeps s0 s) :
    Keeps s0 (State.curveSource s) := by
  unfold State.curveSource
  try dsimp only
  repeat' (first
    | with_reducible assumption | intro _ | with_reducible apply State.writeSpnCtl_keeps | with_reducible apply Keeps.next
    | with_reducible apply Keeps.ite | split | fail_if_no_progress (with_reducible apply Keeps.upd))

theorem State.spindleLoops_keeps {s0 : State} {s : Machine.State} (h : Keeps s0 s) :
    Keeps s0 (State.spindleLoops s) := by
  unfold State.spindleLoops
  try dsimp only
  repeat' (first
    | with_reducible assumption | intro _ | with_reducible apply State.afterLoop_keeps | with_reducible apply State.runLoop_keeps
    | with_reducible apply Keeps.setReg | with_reducible apply State.onSpn_keeps
    | (with_reducible refine Keeps.doAll (fun _ _ _ => ?_) ?_) <;> try dsimp only | with_reducible apply Keeps.next
    | with_reducible apply Keeps.ite)

theorem State.flushPage_keeps {s0 : State} {s : Machine.State} (h : Keeps s0 s) :
    Keeps s0 (State.flushPage s) := by
  unfold State.flushPage
  try dsimp only
  repeat' (first
    | with_reducible assumption | intro _ | with_reducible apply State.put_keeps | with_reducible apply Keeps.next
    | with_reducible apply Keeps.ite | split | fail_if_no_progress (with_reducible apply Keeps.upd))

theorem execEvtFlushPageDone_keeps {s0 : State} (ok : Bool) {s : Machine.State} (h : Keeps s0 s) :
    KeepsOut s0 (execEvtFlushPageDone ok s) := by
  unfold execEvtFlushPageDone
  try dsimp only
  repeat' (first
    | with_reducible assumption | with_reducible apply State.flushPage_keeps | with_reducible apply State.put_keeps
    | with_reducible apply State.raiseAt_keeps | with_reducible apply Keeps.next | with_reducible apply Keeps.ite | split | intro _
    | fail_if_no_progress (with_reducible apply Keeps.upd))

theorem State.opCmddone_keeps {s0 : State} (n : Fin 4) {s : Machine.State} (h : Keeps s0 s) :
    Keeps s0 (State.opCmddone n s) := by
  unfold State.opCmddone
  try dsimp only
  repeat' (first
    | with_reducible assumption | intro _ | with_reducible apply State.setCur_keeps)

theorem State.setGates_keeps {s0 : State} (n : Fin 4) {s : Machine.State} (h : Keeps s0 s) :
    Keeps s0 (State.setGates n s) := by
  unfold State.setGates
  try dsimp only
  repeat' (first
    | with_reducible assumption | intro _ | with_reducible apply State.writeUnsafe_keeps | with_reducible apply State.put_keeps
    | with_reducible apply State.onLane_keeps | with_reducible apply State.retuneNow_keeps | with_reducible apply Keeps.next
    | with_reducible apply Keeps.ite | split)

theorem State.writeRaw_keeps {s0 : State} (n : Fin 4) (k : ℕ) {s : Machine.State} (h : Keeps s0 s) :
    Keeps s0 (State.writeRaw n k s) := by
  unfold State.writeRaw
  try dsimp only
  repeat' (first
    | with_reducible assumption | intro _ | with_reducible apply Keeps.next | with_reducible apply Keeps.ite | split
    | fail_if_no_progress (with_reducible apply Keeps.upd))

theorem State.clockTimer_keeps {s0 : State} (n : Fin 4) (t : ℕ) (k : ℕ) {s : Machine.State} (h : Keeps s0 s) :
    Keeps s0 (State.clockTimer n t k s) := by
  unfold State.clockTimer
  try dsimp only
  repeat' (first
    | with_reducible assumption | intro _ | with_reducible apply State.tickTimer_keeps | with_reducible apply State.onTimer_keeps
    | with_reducible apply Keeps.next | with_reducible apply Keeps.ite | split)

theorem State.clocks_keeps {s0 : State} (n : Fin 4) (m : BitVec 160) (k : ℕ) {s : Machine.State} (h : Keeps s0 s) :
    Keeps s0 (State.clocks n m k s) := by
  unfold State.clocks
  try dsimp only
  repeat' (first
    | with_reducible assumption | intro _ | with_reducible apply State.setGates_keeps | with_reducible apply State.roll_keeps
    | with_reducible apply State.writeRaw_keeps | with_reducible apply State.clockTimer_keeps | with_reducible apply State.onLane_keeps
    | (with_reducible refine Keeps.doAll (fun _ _ _ => ?_) ?_) <;> try dsimp only | with_reducible apply Keeps.next
    | with_reducible apply Keeps.ite)

theorem State.condRead_keeps {s0 : State} (n : Fin 4) (m : BitVec 160) {s : Machine.State} (h : Keeps s0 s) :
    Keeps s0 (State.condRead n m s) := by
  unfold State.condRead
  try dsimp only
  repeat' (first
    | with_reducible assumption | intro _ | with_reducible apply State.onLane_keeps | with_reducible apply Keeps.next
    | with_reducible apply Keeps.ite)

theorem State.takeTrap_keeps {s0 : State} (n : Fin 4) (c : ℕ) (forced : Bool) (at_ : ℕ) (next : ℕ) {s : Machine.State} (h : Keeps s0 s) :
    Keeps s0 (State.takeTrap n c forced at_ next s) := by
  unfold State.takeTrap
  try dsimp only
  repeat' (first
    | with_reducible assumption | (intro _; try dsimp only) | with_reducible apply State.endUnit_keeps
    | with_reducible apply State.frame_keeps | with_reducible apply State.inc_keeps | with_reducible apply State.putBit_keeps
    | with_reducible apply State.onLane_keeps | with_reducible apply State.put_keeps | with_reducible apply State.raise_keeps
    | with_reducible apply Keeps.doIf)

theorem State.haltTo_keeps {s0 : State} (n : Fin 4) (st : ℕ) {s : Machine.State} (h : Keeps s0 s) :
    Keeps s0 (State.haltTo n st s) := by
  unfold State.haltTo
  try dsimp only
  repeat' (first
    | with_reducible assumption | intro _ | with_reducible apply State.put_keeps | with_reducible apply State.setGates_keeps
    | with_reducible apply State.onLane_keeps)

theorem State.wordEnd_keeps {s0 : State} (n : Fin 4) (m : BitVec 160) (at_ : ℕ) (next : ℕ) {s : Machine.State} (h : Keeps s0 s) :
    Keeps s0 (State.wordEnd n m at_ next s) := by
  unfold State.wordEnd
  try dsimp only
  repeat' (first
    | with_reducible assumption | intro _ | with_reducible apply State.put_keeps | with_reducible apply State.onLane_keeps
    | with_reducible apply State.takeTrap_keeps | with_reducible apply State.haltTo_keeps | with_reducible apply Keeps.next
    | with_reducible apply Keeps.ite | split)

theorem State.opLc_keeps {s0 : State} (n : Fin 4) (k : ℕ) (imm : ℕ) {s : Machine.State} (h : Keeps s0 s) :
    Keeps s0 (State.opLc n k imm s) := by
  unfold State.opLc
  try dsimp only
  repeat' (first
    | with_reducible assumption | intro _ | with_reducible apply State.put_keeps | with_reducible apply State.incStop_keeps
    | with_reducible apply Keeps.next | with_reducible apply Keeps.ite | split)

theorem State.microFault_keeps {s0 : State} (n : Fin 4) (code : ℕ) {s : Machine.State} (h : Keeps s0 s) :
    Keeps s0 (State.microFault n code s) := by
  unfold State.microFault
  try dsimp only
  repeat' (first
    | with_reducible assumption | (intro _; try dsimp only) | with_reducible apply State.returnAll_keeps
    | with_reducible apply State.endUnit_keeps | with_reducible apply State.put_keeps | with_reducible apply State.raise_keeps
    | with_reducible apply State.laneLeft_keeps | with_reducible apply State.haltTo_keeps | with_reducible apply Keeps.doIf)

theorem State.opPreamp_keeps {s0 : State} (n : Fin 4) (k : ℕ) {s : Machine.State} (h : Keeps s0 s) :
    Keeps s0 (State.opPreamp n k s) := by
  unfold State.opPreamp
  try dsimp only
  repeat' (first
    | with_reducible assumption | intro _ | with_reducible apply State.queueFrame_keeps
    | (with_reducible refine Keeps.doAll (fun _ _ _ => ?_) ?_) <;> try dsimp only)

theorem State.writeWindow_keeps {s0 : State} (p : Sys2Proof.Path) (a : ℕ) (v : Word) {s : Machine.State} (h : Keeps s0 s) :
    Keeps s0 (State.writeWindow p a v s) := by
  unfold State.writeWindow
  try dsimp only
  repeat' (first
    | with_reducible assumption | (intro _; try dsimp only) | with_reducible apply State.ignore_keeps
    | with_reducible apply State.gated_keeps | with_reducible apply State.onLane_keeps | with_reducible apply State.put_keeps
    | with_reducible apply Keeps.next | with_reducible apply Keeps.ite | split)

theorem execCsWindowWrite_keeps {s0 : State} (p : Sys2Proof.Path) (a : Word) (v : Word) {s : Machine.State} (h : Keeps s0 s) :
    KeepsOut s0 (execCsWindowWrite p a v s) := by
  unfold execCsWindowWrite
  try dsimp only
  repeat' (first
    | with_reducible assumption | with_reducible apply State.writeWindow_keeps | with_reducible apply Keeps.next
    | with_reducible apply Keeps.ite | split)

theorem State.endSlice_keeps {s0 : State} {s : Machine.State} (h : Keeps s0 s) :
    Keeps s0 (State.endSlice s) := by
  unfold State.endSlice
  try dsimp only
  repeat' (first
    | with_reducible assumption | intro _ | with_reducible apply State.onLane_keeps | with_reducible apply State.put_keeps
    | with_reducible apply State.take_keeps | (with_reducible refine Keeps.doAll (fun _ _ _ => ?_) ?_) <;> try dsimp only
    | with_reducible apply Keeps.next | with_reducible apply Keeps.ite | split | fail_if_no_progress (with_reducible apply Keeps.upd))

theorem State.observe_keeps {s0 : State} (m : PwmIn) {s : Machine.State} (h : Keeps s0 s) :
    Keeps s0 (State.observe m s) := by
  unfold State.observe
  try dsimp only
  repeat' (first
    | with_reducible assumption | intro _ | with_reducible apply State.onSpn_keeps | with_reducible apply State.put_keeps
    | with_reducible apply State.observerSpeed_keeps)

theorem State.openLoop_keeps {s0 : State} (m : PwmIn) {s : Machine.State} (h : Keeps s0 s) :
    Keeps s0 (State.openLoop m s) := by
  unfold State.openLoop
  try dsimp only
  repeat' (first
    | with_reducible assumption | intro _ | with_reducible apply State.onSpn_keeps | with_reducible apply State.enterRun_keeps
    | with_reducible apply State.inc_keeps | with_reducible apply State.attemptFail_keeps | with_reducible apply Keeps.next
    | with_reducible apply Keeps.ite)

theorem State.phases_keeps {s0 : State} (cur : List ℤ) (iq : ℤ) {s : Machine.State} (h : Keeps s0 s) :
    Keeps s0 (State.phases cur iq s) := by
  unfold State.phases
  try dsimp only
  repeat' (first
    | with_reducible assumption | intro _ | with_reducible apply State.onSpn_keeps)

theorem State.periodGates_keeps {s0 : State} (m : PwmIn) {s : Machine.State} (h : Keeps s0 s) :
    Keeps s0 (State.periodGates m s) := by
  unfold State.periodGates
  try dsimp only
  repeat' (first
    | with_reducible assumption | (intro _; try dsimp only) | with_reducible apply State.put_keeps
    | with_reducible apply State.onSpn_keeps | with_reducible apply State.raise_keeps | with_reducible apply State.phases_keeps
    | with_reducible apply Keeps.doIf | with_reducible apply Keeps.next | with_reducible apply Keeps.ite)

theorem execPwmPeriod_keeps {s0 : State} (m : PwmIn) {s : Machine.State} (h : Keeps s0 s) :
    KeepsOut s0 (execPwmPeriod m s) := by
  unfold execPwmPeriod
  try dsimp only
  repeat' (first
    | with_reducible assumption | with_reducible apply State.onSpn_keeps | with_reducible apply State.observe_keeps
    | with_reducible apply State.openLoop_keeps | with_reducible apply State.loseControl_keeps
    | with_reducible apply State.periodGates_keeps | with_reducible apply Keeps.next | with_reducible apply Keeps.ite)

theorem execProbeEnd_keeps {s0 : State} (peaks : List ℕ) {s : Machine.State} (h : Keeps s0 s) :
    KeepsOut s0 (execProbeEnd peaks s) := by
  unfold execProbeEnd
  try dsimp only
  repeat' (first
    | with_reducible assumption | with_reducible apply State.spnTo_keeps | with_reducible apply State.onSpn_keeps
    | with_reducible apply State.attemptFail_keeps | with_reducible apply Keeps.next | with_reducible apply Keeps.ite)

theorem State.rollback_keeps {s0 : State} (d : ℕ) (reason : ℕ) {s : Machine.State} (h : Keeps s0 s) :
    Keeps s0 (State.rollback d reason s) := by
  unfold State.rollback
  try dsimp only
  repeat' (first
    | with_reducible assumption | intro _ | with_reducible apply State.put_keeps | with_reducible apply State.post_keeps
    | with_reducible apply State.undoEntry_keeps | with_reducible apply State.inc_keeps | with_reducible apply State.raise_keeps)

theorem State.opTimer_keeps {s0 : State} (n : Fin 4) (t : ℕ) (op : ℕ) (unit : ℕ) (imm : ℕ) {s : Machine.State} (h : Keeps s0 s) :
    Keeps s0 (State.opTimer n t op unit imm s) := by
  unfold State.opTimer
  try dsimp only
  repeat' (first
    | with_reducible assumption | intro _ | with_reducible apply State.put_keeps | with_reducible apply State.onTimer_keeps
    | with_reducible apply Keeps.next | with_reducible apply Keeps.ite | split)

theorem State.pwrHarvest_keeps {s0 : State} {s : Machine.State} (h : Keeps s0 s) :
    Keeps s0 (State.pwrHarvest s) := by
  unfold State.pwrHarvest
  try dsimp only
  repeat' (first
    | with_reducible assumption | intro _ | with_reducible apply State.setDom_keeps | with_reducible apply State.onPwr_keeps
    | with_reducible apply State.put_keeps | with_reducible apply Keeps.next | with_reducible apply Keeps.ite | split)

theorem State.isstAbort_keeps {s0 : State} {s : Machine.State} (h : Keeps s0 s) :
    Keeps s0 (State.isstAbort s) := by
  unfold State.isstAbort
  try dsimp only
  repeat' (first
    | with_reducible assumption | intro _ | with_reducible apply State.put_keeps | with_reducible apply State.raise_keeps
    | with_reducible apply State.endSlice_keeps | with_reducible apply Keeps.next | with_reducible apply Keeps.ite)

theorem State.harvest_keeps {s0 : State} {s : Machine.State} (h : Keeps s0 s) :
    Keeps s0 (State.harvest s) := by
  unfold State.harvest
  try dsimp only
  repeat' (first
    | with_reducible assumption | (intro _; try dsimp only) | with_reducible apply State.nextHseq_keeps
    | with_reducible apply State.post_keeps | with_reducible apply State.setBudget_keeps | with_reducible apply State.put_keeps
    | with_reducible apply State.setIso_keeps | with_reducible apply State.onBuf_keeps | with_reducible apply State.discardAll_keeps
    | with_reducible apply State.pwrHarvest_keeps | with_reducible apply State.isstAbort_keeps
    | with_reducible apply State.cocoon_keeps | with_reducible apply State.onHrv_keeps | with_reducible apply State.spnHarvest_keeps
    | with_reducible apply State.flutterFail_keeps | with_reducible apply State.beginPark_keeps
    | with_reducible apply State.coastGo_keeps | with_reducible apply State.raise_keeps | with_reducible apply State.trapLanes_keeps
    | with_reducible apply Keeps.doIf | with_reducible apply Keeps.next | with_reducible apply Keeps.ite | split
    | fail_if_no_progress (with_reducible apply Keeps.upd))

theorem State.trigger_keeps {s0 : State} (c : ℕ) {s : Machine.State} (h : Keeps s0 s) :
    Keeps s0 (State.trigger c s) := by
  unfold State.trigger
  try dsimp only
  repeat' (first
    | with_reducible assumption | intro _ | with_reducible apply State.put_keeps | with_reducible apply State.setIso_keeps
    | with_reducible apply State.putBit_keeps | with_reducible apply State.harvest_keeps | with_reducible apply Keeps.next
    | with_reducible apply Keeps.ite | split | fail_if_no_progress (with_reducible apply Keeps.upd))

theorem execTurnOnWindowEnd_keeps {s0 : State} {s : Machine.State} (h : Keeps s0 s) :
    KeepsOut s0 (execTurnOnWindowEnd s) := by
  unfold execTurnOnWindowEnd
  try dsimp only
  repeat' (first
    | with_reducible assumption | with_reducible apply State.onSpn_keeps | with_reducible apply Keeps.next
    | with_reducible apply Keeps.ite)

theorem State.synthLock_keeps {s0 : State} (n : Fin 4) {s : Machine.State} (h : Keeps s0 s) :
    Keeps s0 (State.synthLock n s) := by
  unfold State.synthLock
  try dsimp only
  repeat' (first
    | with_reducible assumption | intro _ | with_reducible apply State.put_keeps | with_reducible apply Keeps.next
    | with_reducible apply Keeps.ite)

theorem State.wakeNow_keeps {s0 : State} {s : Machine.State} (h : Keeps s0 s) :
    Keeps s0 (State.wakeNow s) := by
  unfold State.wakeNow
  try dsimp only
  repeat' (first
    | with_reducible assumption | intro _ | with_reducible apply State.onPwr_keeps | with_reducible apply State.put_keeps
    | with_reducible apply State.startEmergence_keeps | with_reducible apply Keeps.next | with_reducible apply Keeps.ite)

theorem State.setRewrite_keeps {s0 : State} {s : Machine.State} (h : Keeps s0 s) :
    Keeps s0 (State.setRewrite s) := by
  unfold State.setRewrite
  try dsimp only
  repeat' (first
    | with_reducible assumption | intro _ | with_reducible apply State.onServo_keeps | with_reducible apply State.wroteWords_keeps
    | with_reducible apply Keeps.next | with_reducible apply Keeps.ite | split)

theorem State.idleMs_keeps {s0 : State} {s : Machine.State} (h : Keeps s0 s) :
    Keeps s0 (State.idleMs s) := by
  unfold State.idleMs
  try dsimp only
  repeat' (first
    | with_reducible assumption | intro _ | with_reducible apply State.put_keeps | with_reducible apply State.incStop_keeps
    | with_reducible apply Keeps.next | with_reducible apply Keeps.ite)

theorem State.ps2Step_keeps {s0 : State} {s : Machine.State} (h : Keeps s0 s) :
    Keeps s0 (State.ps2Step s) := by
  unfold State.ps2Step
  try dsimp only
  repeat' (first
    | with_reducible assumption | intro _ | with_reducible apply State.wakeLane_keeps | with_reducible apply State.pwrGo_keeps
    | with_reducible apply Keeps.next | with_reducible apply Keeps.ite | split)

theorem State.senseStop_keeps {s0 : State} {s : Machine.State} (h : Keeps s0 s) :
    Keeps s0 (State.senseStop s) := by
  unfold State.senseStop
  try dsimp only
  repeat' (first
    | with_reducible assumption | intro _ | with_reducible apply State.writeSpnCtl_keeps | with_reducible apply Keeps.next
    | with_reducible apply Keeps.ite)

theorem State.tick_keeps {s0 : State} {s : Machine.State} (h : Keeps s0 s) :
    Keeps s0 (State.tick s) := by
  unfold State.tick
  try dsimp only
  repeat' (first
    | with_reducible assumption | intro _ | with_reducible apply State.setRewrite_keeps | with_reducible apply State.idleMs_keeps
    | with_reducible apply State.ps2Step_keeps | with_reducible apply State.pmStep_keeps | with_reducible apply State.senseStop_keeps
    | with_reducible apply State.curveSource_keeps | with_reducible apply State.syncCrys_keeps
    | with_reducible apply State.drainBack_keeps | with_reducible apply Keeps.next | with_reducible apply Keeps.ite | split
    | fail_if_no_progress (with_reducible apply Keeps.upd))

theorem State.setBoot_keeps {s0 : State} (slot : ℕ) (ver : ℕ) {s : Machine.State} (h : Keeps s0 s) :
    Keeps s0 (State.setBoot slot ver s) := by
  unfold State.setBoot
  try dsimp only
  repeat' (first
    | with_reducible assumption | intro _ | with_reducible apply Keeps.program | with_reducible apply Keeps.eraseFlash)

theorem State.curveActivate_keeps {s0 : State} {s : Machine.State} (h : Keeps s0 s) :
    Keeps s0 (State.curveActivate s) := by
  unfold State.curveActivate
  try dsimp only
  repeat' (first
    | with_reducible assumption | intro _ | with_reducible apply State.put_keeps | with_reducible apply Keeps.activate
    | (with_reducible refine Keeps.doAll (fun _ _ _ => ?_) ?_) <;> try dsimp only | with_reducible apply Keeps.next
    | with_reducible apply Keeps.ite)

theorem State.writeSpnGo_keeps {s0 : State} (p : Sys2Proof.Path) (v : Word) {s : Machine.State} (h : Keeps s0 s) :
    Keeps s0 (State.writeSpnGo p v s) := by
  unfold State.writeSpnGo
  try dsimp only
  repeat' (first
    | with_reducible assumption | (intro _; try dsimp only) | with_reducible apply State.gated_keeps
    | with_reducible apply State.put_keeps | with_reducible apply Keeps.next | with_reducible apply Keeps.ite)

theorem State.chopPulse_keeps {s0 : State} {s : Machine.State} (h : Keeps s0 s) :
    Keeps s0 (State.chopPulse s) := by
  unfold State.chopPulse
  try dsimp only
  repeat' (first
    | with_reducible assumption | intro _ | with_reducible apply Keeps.next | with_reducible apply Keeps.ite | split
    | fail_if_no_progress (with_reducible apply Keeps.upd))

theorem State.lockStep_keeps {s0 : State} {s : Machine.State} (h : Keeps s0 s) :
    Keeps s0 (State.lockStep s) := by
  unfold State.lockStep
  try dsimp only
  repeat' (first
    | with_reducible assumption | intro _ | with_reducible apply State.put_keeps | with_reducible apply State.chopPulse_keeps
    | with_reducible apply Keeps.next | with_reducible apply Keeps.ite | split | fail_if_no_progress (with_reducible apply Keeps.upd))

theorem State.retuneFor_keeps {s0 : State} (n : Fin 4) (track : ℕ) {s : Machine.State} (h : Keeps s0 s) :
    Keeps s0 (State.retuneFor n track s) := by
  unfold State.retuneFor
  try dsimp only
  repeat' (first
    | with_reducible assumption | intro _ | with_reducible apply State.onLane_keeps | with_reducible apply State.retuneNow_keeps
    | with_reducible apply Keeps.next | with_reducible apply Keeps.ite)

theorem State.opServo_keeps {s0 : State} (n : Fin 4) (k : ℕ) (imm : ℕ) {s : Machine.State} (h : Keeps s0 s) :
    Keeps s0 (State.opServo n k imm s) := by
  unfold State.opServo
  try dsimp only
  repeat' (first
    | with_reducible assumption | intro _ | with_reducible apply State.seek_keeps | with_reducible apply State.selectHead_keeps
    | with_reducible apply State.retuneFor_keeps | with_reducible apply State.onAct_keeps | with_reducible apply State.seekSalt_keeps
    | with_reducible apply State.rampMove_keeps | with_reducible apply Keeps.next | with_reducible apply Keeps.ite | split)

theorem State.lockTime_keeps {s0 : State} {s : Machine.State} (h : Keeps s0 s) :
    Keeps s0 (State.lockTime s) := by
  unfold State.lockTime
  try dsimp only
  repeat' (first
    | with_reducible assumption | intro _ | with_reducible apply State.put_keeps | with_reducible apply State.add_keeps
    | with_reducible apply State.askFlush_keeps | with_reducible apply Keeps.next | with_reducible apply Keeps.ite | split
    | fail_if_no_progress (with_reducible apply Keeps.upd))

theorem State.opCmdpop_keeps {s0 : State} (n : Fin 4) {s : Machine.State} (h : Keeps s0 s) :
    Keeps s0 (State.opCmdpop n s) := by
  unfold State.opCmdpop
  try dsimp only
  repeat' (first
    | with_reducible assumption | intro _ | with_reducible apply State.setQueue_keeps | with_reducible apply State.setPos_keeps
    | with_reducible apply State.setCur_keeps | with_reducible apply State.feed_keeps | with_reducible apply State.onLane_keeps
    | with_reducible apply Keeps.next | with_reducible apply Keeps.ite | split)

theorem State.opCmderr_keeps {s0 : State} (n : Fin 4) (code : ℕ) {s : Machine.State} (h : Keeps s0 s) :
    Keeps s0 (State.opCmderr n code s) := by
  unfold State.opCmderr
  try dsimp only
  repeat' (first
    | with_reducible assumption | intro _ | with_reducible apply State.setCur_keeps | with_reducible apply State.laneError_keeps
    | with_reducible apply State.pump_keeps | with_reducible apply State.unqueue_keeps | with_reducible apply Keeps.next
    | with_reducible apply Keeps.ite | split)

theorem State.opRequeue_keeps {s0 : State} (n : Fin 4) {s : Machine.State} (h : Keeps s0 s) :
    Keeps s0 (State.opRequeue n s) := by
  unfold State.opRequeue
  try dsimp only
  repeat' (first
    | with_reducible assumption | intro _ | with_reducible apply State.returnCmds_keeps | with_reducible apply State.setCur_keeps)

theorem State.opFlushq_keeps {s0 : State} (n : Fin 4) {s : Machine.State} (h : Keeps s0 s) :
    Keeps s0 (State.opFlushq n s) := by
  unfold State.opFlushq
  try dsimp only
  repeat' (first
    | with_reducible assumption | intro _ | with_reducible apply State.returnCmds_keeps | with_reducible apply State.setQueue_keeps)

theorem State.opBuf_keeps {s0 : State} (n : Fin 4) (b : ℕ) (imm : ℕ) {s : Machine.State} (h : Keeps s0 s) :
    Keeps s0 (State.opBuf n b imm s) := by
  unfold State.opBuf
  try dsimp only
  repeat' (first
    | with_reducible assumption | intro _ | with_reducible apply State.opCmdpop_keeps | with_reducible apply State.opCmddone_keeps
    | with_reducible apply State.opCmderr_keeps | with_reducible apply State.opRequeue_keeps
    | with_reducible apply State.opFlushq_keeps | with_reducible apply Keeps.next | with_reducible apply Keeps.ite | split)

theorem State.opStart_keeps {s0 : State} (n : Fin 4) (d : ℕ) (modsel : ℕ) (widen : Bool) (agc : Bool) {s : Machine.State} (h : Keeps s0 s) :
    Keeps s0 (State.opStart n d modsel widen agc s) := by
  unfold State.opStart
  try dsimp only
  repeat' (first
    | with_reducible assumption | intro _ | with_reducible apply State.onLane_keeps | with_reducible apply State.latchTrap_keeps
    | with_reducible apply Keeps.next | with_reducible apply Keeps.ite)

theorem State.laneActivate_keeps {s0 : State} (n : Fin 4) {s : Machine.State} (h : Keeps s0 s) :
    Keeps s0 (State.laneActivate n s) := by
  unfold State.laneActivate
  try dsimp only
  repeat' (first
    | with_reducible assumption | intro _ | with_reducible apply State.onLane_keeps | with_reducible apply State.put_keeps
    | with_reducible apply Keeps.activate | with_reducible apply Keeps.next | with_reducible apply Keeps.ite)

theorem State.opSetload_keeps {s0 : State} (n : Fin 4) {s : Machine.State} (h : Keeps s0 s) :
    Keeps s0 (State.opSetload n s) := by
  unfold State.opSetload
  try dsimp only
  repeat' (first
    | with_reducible assumption | intro _ | with_reducible apply State.laneActivate_keeps | with_reducible apply State.onLane_keeps
    | with_reducible apply Keeps.next | with_reducible apply Keeps.ite | split)

theorem State.opNext_keeps {s0 : State} (n : Fin 4) {s : Machine.State} (h : Keeps s0 s) :
    Keeps s0 (State.opNext n s) := by
  unfold State.opNext
  try dsimp only
  repeat' (first
    | with_reducible assumption | intro _ | with_reducible apply State.onLane_keeps | with_reducible apply State.put_keeps
    | with_reducible apply Keeps.next | with_reducible apply Keeps.ite | split)

theorem State.opRewind_keeps {s0 : State} (n : Fin 4) {s : Machine.State} (h : Keeps s0 s) :
    Keeps s0 (State.opRewind n s) := by
  unfold State.opRewind
  try dsimp only
  repeat' (first
    | with_reducible assumption | intro _ | with_reducible apply State.setCur_keeps | with_reducible apply State.setPos_keeps
    | with_reducible apply State.onLane_keeps | with_reducible apply Keeps.next | with_reducible apply Keeps.ite | split)

theorem State.opDefect_keeps {s0 : State} (n : Fin 4) {s : Machine.State} (h : Keeps s0 s) :
    Keeps s0 (State.opDefect n s) := by
  unfold State.opDefect
  try dsimp only
  repeat' (first
    | with_reducible assumption | intro _ | with_reducible apply State.onLane_keeps | with_reducible apply State.grownDefect_keeps
    | with_reducible apply Keeps.next | with_reducible apply Keeps.ite | split)

theorem State.opAbandon_keeps {s0 : State} (n : Fin 4) {s : Machine.State} (h : Keeps s0 s) :
    Keeps s0 (State.opAbandon n s) := by
  unfold State.opAbandon
  try dsimp only
  repeat' (first
    | with_reducible assumption | intro _ | with_reducible apply State.endUnit_keeps | with_reducible apply Keeps.next
    | with_reducible apply Keeps.ite)

theorem State.opClrst_keeps {s0 : State} (n : Fin 4) {s : Machine.State} (h : Keeps s0 s) :
    Keeps s0 (State.opClrst n s) := by
  unfold State.opClrst
  try dsimp only
  repeat' (first
    | with_reducible assumption | intro _ | with_reducible apply State.onLane_keeps)

theorem State.opTile_keeps {s0 : State} (n : Fin 4) (t : ℕ) (d : ℕ) (modsel : ℕ) (sync : ℕ) {s : Machine.State} (h : Keeps s0 s) :
    Keeps s0 (State.opTile n t d modsel sync s) := by
  unfold State.opTile
  try dsimp only
  repeat' (first
    | with_reducible assumption | intro _ | with_reducible apply State.opStart_keeps | with_reducible apply State.opSetload_keeps
    | with_reducible apply State.opNext_keeps | with_reducible apply State.opRewind_keeps | with_reducible apply State.opDefect_keeps
    | with_reducible apply State.opAbandon_keeps | with_reducible apply State.opClrst_keeps | with_reducible apply Keeps.next
    | with_reducible apply Keeps.ite | split)

theorem State.opStat_keeps {s0 : State} (n : Fin 4) (k : ℕ) {s : Machine.State} (h : Keeps s0 s) :
    Keeps s0 (State.opStat n k s) := by
  unfold State.opStat
  try dsimp only
  repeat' (first
    | with_reducible assumption | intro _ | with_reducible apply State.inc_keeps
    | (with_reducible refine Keeps.doAll (fun _ _ _ => ?_) ?_) <;> try dsimp only)

theorem State.opEvt_keeps {s0 : State} (n : Fin 4) (code : ℕ) (imm : ℕ) {s : Machine.State} (h : Keeps s0 s) :
    Keeps s0 (State.opEvt n code imm s) := by
  unfold State.opEvt
  try dsimp only
  repeat' (first
    | with_reducible assumption | intro _ | with_reducible apply State.post_keeps | with_reducible apply State.latchCause_keeps
    | with_reducible apply State.putBit_keeps | with_reducible apply Keeps.next | with_reducible apply Keeps.ite)

theorem State.onceOps_keeps {s0 : State} (n : Fin 4) (m : BitVec 160) {s : Machine.State} (h : Keeps s0 s) :
    Keeps s0 (State.onceOps n m s) := by
  unfold State.onceOps
  try dsimp only
  repeat' (first
    | with_reducible assumption | intro _ | with_reducible apply State.opBuf_keeps | with_reducible apply State.opTile_keeps
    | with_reducible apply State.opPreamp_keeps | with_reducible apply State.opServo_keeps | with_reducible apply State.opTimer_keeps
    | with_reducible apply State.opStat_keeps | with_reducible apply State.opEvt_keeps
    | (with_reducible refine Keeps.doAll (fun _ _ _ => ?_) ?_) <;> try dsimp only)

theorem State.waitTest_keeps {s0 : State} (n : Fin 4) (m : BitVec 160) (pc : ℕ) {s : Machine.State} (h : Keeps s0 s) :
    Keeps s0 (State.waitTest n m pc s) := by
  unfold State.waitTest
  try dsimp only
  repeat' (first
    | with_reducible assumption | intro _ | with_reducible apply State.wordEnd_keeps | with_reducible apply State.opLc_keeps
    | with_reducible apply Keeps.next | with_reducible apply Keeps.ite)

theorem State.seq_keeps {s0 : State} (n : Fin 4) (e : WordEnv) (m : BitVec 160) (pc : ℕ) {s : Machine.State} (h : Keeps s0 s) :
    Keeps s0 (State.seq n e m pc s).2 := by
  unfold State.seq
  try dsimp only
  repeat' (first
    | with_reducible assumption | intro _ | with_reducible apply State.put_keeps | with_reducible apply Keeps.setReg
    | with_reducible apply Keeps.next | with_reducible apply Keeps.ite | split)

theorem State.runWord_keeps {s0 : State} (n : Fin 4) (q : ℕ) (e : WordEnv) {s : Machine.State} (h : Keeps s0 s) :
    Keeps s0 (State.runWord n q e s) := by
  unfold State.runWord
  try dsimp only
  repeat' (first
    | with_reducible assumption | intro _ | with_reducible apply State.microFault_keeps | with_reducible apply State.onLane_keeps
    | with_reducible apply State.setGates_keeps | with_reducible apply State.onceOps_keeps | with_reducible apply State.clocks_keeps
    | with_reducible apply State.waitTest_keeps | with_reducible apply State.seq_keeps | with_reducible apply State.wordEnd_keeps
    | with_reducible apply State.opLc_keeps | with_reducible apply State.condRead_keeps | with_reducible apply Keeps.next
    | with_reducible apply Keeps.ite | split)

theorem State.writeSwHdr_keeps {s0 : State} (p : Sys2Proof.Path) (c : Fin 4) (v : Word) {s : Machine.State} (h : Keeps s0 s) :
    Keeps s0 (State.writeSwHdr p c v s) := by
  unfold State.writeSwHdr
  try dsimp only
  repeat' (first
    | with_reducible assumption | (intro _; try dsimp only) | with_reducible apply State.gated_keeps
    | with_reducible apply State.take_keeps | with_reducible apply State.post_keeps | with_reducible apply Keeps.next
    | with_reducible apply Keeps.ite)

theorem State.mcsKill_keeps {s0 : State} (n : Fin 4) {s : Machine.State} (h : Keeps s0 s) :
    Keeps s0 (State.mcsKill n s) := by
  unfold State.mcsKill
  try dsimp only
  repeat' (first
    | with_reducible assumption | intro _ | with_reducible apply State.returnAll_keeps | with_reducible apply State.endUnit_keeps
    | with_reducible apply State.frame_keeps | with_reducible apply State.haltTo_keeps | with_reducible apply State.put_keeps)

theorem execAlignEnd_keeps {s0 : State} {s : Machine.State} (h : Keeps s0 s) :
    KeepsOut s0 (execAlignEnd s) := by
  unfold execAlignEnd
  try dsimp only
  repeat' (first
    | with_reducible assumption | with_reducible apply State.spnTo_keeps | with_reducible apply State.onSpn_keeps
    | with_reducible apply Keeps.next | with_reducible apply Keeps.ite)

theorem State.slotDone_keeps {s0 : State} (d : Dealt) {s : Machine.State} (h : Keeps s0 s) :
    Keeps s0 (State.slotDone d s) := by
  unfold State.slotDone
  try dsimp only
  repeat' (first
    | with_reducible assumption | intro _ | with_reducible apply State.onHrv_keeps | with_reducible apply State.onMedia_keeps
    | with_reducible apply State.onBuf_keeps | with_reducible apply State.syncDirty_keeps | with_reducible apply State.inc_keeps
    | with_reducible apply Keeps.next | with_reducible apply Keeps.ite | split)

theorem State.coastWritten_keeps {s0 : State} (n : ℕ) (u : MUnit) {s : Machine.State} (h : Keeps s0 s) :
    Keeps s0 (State.coastWritten n u s) := by
  unfold State.coastWritten
  try dsimp only
  repeat' (first
    | with_reducible assumption | intro _ | with_reducible apply State.slotDone_keeps | with_reducible apply State.onHrv_keeps
    | with_reducible apply Keeps.next | with_reducible apply Keeps.ite | split)

theorem execStandstill_keeps {s0 : State} {s : Machine.State} (h : Keeps s0 s) :
    KeepsOut s0 (execStandstill s) := by
  unfold execStandstill
  try dsimp only
  repeat' (first
    | with_reducible assumption | with_reducible apply State.spnTo_keeps | with_reducible apply State.onSpn_keeps
    | with_reducible apply Keeps.next | with_reducible apply Keeps.ite)

theorem execPhaseOvercurrent_keeps {s0 : State} {s : Machine.State} (h : Keeps s0 s) :
    KeepsOut s0 (execPhaseOvercurrent s) := by
  unfold execPhaseOvercurrent
  try dsimp only
  repeat' (first
    | with_reducible assumption | with_reducible apply State.onSpn_keeps | with_reducible apply State.loseControl_keeps
    | with_reducible apply State.raise_keeps | with_reducible apply Keeps.next | with_reducible apply Keeps.ite)

theorem State.wakeState_keeps {s0 : State} (d : ℕ) {s : Machine.State} (h : Keeps s0 s) :
    Keeps s0 (State.wakeState d s) := by
  unfold State.wakeState
  try dsimp only
  repeat' (first
    | with_reducible assumption | intro _ | with_reducible apply State.put_keeps | with_reducible apply State.synthLock_keeps
    | with_reducible apply State.take_keeps | with_reducible apply State.onAct_keeps | with_reducible apply State.onLane_keeps
    | with_reducible apply Keeps.resetBlocks | with_reducible apply Keeps.setReg | with_reducible apply State.syncCrys_keeps
    | (with_reducible refine Keeps.doAll (fun _ _ _ => ?_) ?_) <;> try dsimp only | with_reducible apply Keeps.next
    | with_reducible apply Keeps.ite | split | fail_if_no_progress (with_reducible apply Keeps.upd))

theorem State.emerged_keeps {s0 : State} (d : ℕ) {s : Machine.State} (h : Keeps s0 s) :
    Keeps s0 (State.emerged d s) := by
  unfold State.emerged
  try dsimp only
  repeat' (first
    | with_reducible assumption | intro _ | with_reducible apply State.emergeNext_keeps | with_reducible apply State.afterWake_keeps
    | with_reducible apply State.wakeState_keeps | with_reducible apply State.setDom_keeps)

theorem State.autoLane_keeps {s0 : State} (n : Fin 4) {s : Machine.State} (h : Keeps s0 s) :
    Keeps s0 (State.autoLane n s) := by
  unfold State.autoLane
  try dsimp only
  repeat' (first
    | with_reducible assumption | intro _ | with_reducible apply State.put_keeps | with_reducible apply State.onPwr_keeps
    | with_reducible apply State.harvestStart_keeps | with_reducible apply State.releasePads_keeps | with_reducible apply Keeps.next
    | with_reducible apply Keeps.ite)

theorem execEvtSectorEraseDone_keeps {s0 : State} {s : Machine.State} (h : Keeps s0 s) :
    KeepsOut s0 (execEvtSectorEraseDone s) := by
  unfold execEvtSectorEraseDone
  try dsimp only
  repeat' (first
    | with_reducible assumption | with_reducible apply State.put_keeps | with_reducible apply Keeps.next
    | with_reducible apply Keeps.ite | split | intro _ | fail_if_no_progress (with_reducible apply Keeps.upd))

theorem State.writeEvtCtl_keeps {s0 : State} (p : Sys2Proof.Path) (v : Word) {s : Machine.State} (h : Keeps s0 s) :
    Keeps s0 (State.writeEvtCtl p v s) := by
  unfold State.writeEvtCtl
  try dsimp only
  repeat' (first
    | with_reducible assumption | (intro _; try dsimp only) | with_reducible apply State.gated_keeps
    | with_reducible apply State.put_keeps | with_reducible apply State.lockTime_keeps | with_reducible apply Keeps.next
    | with_reducible apply Keeps.ite)

theorem State.writeEvtCmd_keeps {s0 : State} (p : Sys2Proof.Path) (v : Word) {s : Machine.State} (h : Keeps s0 s) :
    Keeps s0 (State.writeEvtCmd p v s) := by
  unfold State.writeEvtCmd
  try dsimp only
  repeat' (first
    | with_reducible assumption | (intro _; try dsimp only) | with_reducible apply State.gated_keeps
    | with_reducible apply State.askFlush_keeps | with_reducible apply Keeps.next | with_reducible apply Keeps.ite)

theorem State.writeLdctl_keeps {s0 : State} (p : Sys2Proof.Path) (n : Fin 4) (v : Word) {s : Machine.State} (h : Keeps s0 s) :
    Keeps s0 (State.writeLdctl p n v s) := by
  unfold State.writeLdctl
  try dsimp only
  repeat' (first
    | with_reducible assumption | (intro _; try dsimp only) | with_reducible apply State.gated_keeps
    | with_reducible apply State.put_keeps | with_reducible apply Keeps.next | with_reducible apply Keeps.ite)

theorem State.writeMcsCtl_keeps {s0 : State} (p : Sys2Proof.Path) (n : Fin 4) (v : Word) {s : Machine.State} (h : Keeps s0 s) :
    Keeps s0 (State.writeMcsCtl p n v s) := by
  unfold State.writeMcsCtl
  try dsimp only
  repeat' (first
    | with_reducible assumption | (intro _; try dsimp only) | with_reducible apply State.gated_keeps
    | with_reducible apply State.take_keeps | with_reducible apply State.mcsStart_keeps | with_reducible apply State.mcsKill_keeps
    | with_reducible apply State.put_keeps | with_reducible apply Keeps.next | with_reducible apply Keeps.ite)

theorem State.loadStore_keeps {s0 : State} (n : Fin 4) {s : Machine.State} (h : Keeps s0 s) :
    Keeps s0 (State.loadStore n s) := by
  unfold State.loadStore
  try dsimp only
  repeat' (first
    | with_reducible assumption | (intro _; try dsimp only) | with_reducible apply State.onLane_keeps
    | with_reducible apply Keeps.setReg | with_reducible apply State.put_keeps | with_reducible apply State.raise_keeps
    | with_reducible apply State.harvestStart_keeps | (with_reducible refine Keeps.doAll (fun _ _ _ => ?_) ?_) <;> try dsimp only
    | with_reducible apply Keeps.doIf | with_reducible apply Keeps.next | with_reducible apply Keeps.ite)

theorem State.rampStep_keeps {s0 : State} {s : Machine.State} (h : Keeps s0 s) :
    Keeps s0 (State.rampStep s) := by
  unfold State.rampStep
  try dsimp only
  repeat' (first
    | with_reducible assumption | intro _ | with_reducible apply State.put_keeps | with_reducible apply State.onSpn_keeps
    | with_reducible apply Keeps.next | with_reducible apply Keeps.ite | split | fail_if_no_progress (with_reducible apply Keeps.upd))

theorem State.sourceTick_keeps {s0 : State} (wasPin : Bool) {s : Machine.State} (h : Keeps s0 s) :
    Keeps s0 (State.sourceTick wasPin s) := by
  unfold State.sourceTick
  try dsimp only
  repeat' (first
    | with_reducible assumption | intro _ | with_reducible apply State.stopSpin_keeps | with_reducible apply State.startSpin_keeps
    | with_reducible apply State.evalCurve_keeps | with_reducible apply State.setTarget_keeps | with_reducible apply Keeps.next
    | with_reducible apply Keeps.ite)

theorem State.takeSpd_keeps {s0 : State} (m : SpdIn) {s : Machine.State} (h : Keeps s0 s) :
    Keeps s0 (State.takeSpd m s) := by
  unfold State.takeSpd
  try dsimp only
  repeat' (first
    | with_reducible assumption | (intro _; try dsimp only) | with_reducible apply State.put_keeps
    | with_reducible apply State.raise_keeps | with_reducible apply Keeps.doIf | with_reducible apply Keeps.next
    | with_reducible apply Keeps.ite | split)

theorem execSpindleTick_keeps {s0 : State} (m : SpdIn) {s : Machine.State} (h : Keeps s0 s) :
    KeepsOut s0 (execSpindleTick m s) := by
  unfold execSpindleTick
  try dsimp only
  repeat' (first
    | with_reducible assumption | with_reducible apply State.rampStep_keeps | with_reducible apply State.sourceTick_keeps
    | with_reducible apply State.takeSpd_keeps | with_reducible apply State.curveActivate_keeps
    | with_reducible apply State.flyCheck_keeps | with_reducible apply State.lockStep_keeps
    | with_reducible apply State.spindleLoops_keeps | with_reducible apply State.spnTo_keeps | with_reducible apply State.onSpn_keeps
    | with_reducible apply State.autoset_keeps | with_reducible apply Keeps.next | with_reducible apply Keeps.ite)

theorem execMcsStart_keeps {s0 : State} (p : Sys2Proof.Path) (n : Fin 4) (v : Word) {s : Machine.State} (h : Keeps s0 s) :
    KeepsOut s0 (execMcsStart p n v s) := by
  unfold execMcsStart
  try dsimp only
  repeat' (first
    | with_reducible assumption | with_reducible apply State.writeMcsCtl_keeps | with_reducible apply Keeps.next)

theorem execEvtSwPost_keeps {s0 : State} (p : Sys2Proof.Path) (c : Fin 4) (v : Word) {s : Machine.State} (h : Keeps s0 s) :
    KeepsOut s0 (execEvtSwPost p c v s) := by
  unfold execEvtSwPost
  try dsimp only
  repeat' (first
    | with_reducible assumption | with_reducible apply State.writeSwHdr_keeps | with_reducible apply Keeps.next)

theorem execSpnCtlRun_keeps {s0 : State} (p : Sys2Proof.Path) (v : Word) {s : Machine.State} (h : Keeps s0 s) :
    KeepsOut s0 (execSpnCtlRun p v s) := by
  unfold execSpnCtlRun
  try dsimp only
  repeat' (first
    | with_reducible assumption | with_reducible apply State.writeSpnCtl_keeps | with_reducible apply Keeps.next)

theorem execMcsStop_keeps {s0 : State} (p : Sys2Proof.Path) (n : Fin 4) (v : Word) {s : Machine.State} (h : Keeps s0 s) :
    KeepsOut s0 (execMcsStop p n v s) := by
  unfold execMcsStop
  try dsimp only
  repeat' (first
    | with_reducible assumption | with_reducible apply State.writeMcsCtl_keeps | with_reducible apply Keeps.next)

theorem execSpnCtlSrc_keeps {s0 : State} (p : Sys2Proof.Path) (v : Word) {s : Machine.State} (h : Keeps s0 s) :
    KeepsOut s0 (execSpnCtlSrc p v s) := by
  unfold execSpnCtlSrc
  try dsimp only
  repeat' (first
    | with_reducible assumption | with_reducible apply State.writeSpnCtl_keeps | with_reducible apply Keeps.next)

theorem execSpnCtlArm_keeps {s0 : State} (p : Sys2Proof.Path) (v : Word) {s : Machine.State} (h : Keeps s0 s) :
    KeepsOut s0 (execSpnCtlArm p v s) := by
  unfold execSpnCtlArm
  try dsimp only
  repeat' (first
    | with_reducible assumption | with_reducible apply State.writeSpnCtl_keeps | with_reducible apply Keeps.next)

theorem execEvtCmdFlush_keeps {s0 : State} (p : Sys2Proof.Path) (v : Word) {s : Machine.State} (h : Keeps s0 s) :
    KeepsOut s0 (execEvtCmdFlush p v s) := by
  unfold execEvtCmdFlush
  try dsimp only
  repeat' (first
    | with_reducible assumption | with_reducible apply State.writeEvtCmd_keeps | with_reducible apply Keeps.next)

theorem execEvtTlock_keeps {s0 : State} (p : Sys2Proof.Path) (v : Word) {s : Machine.State} (h : Keeps s0 s) :
    KeepsOut s0 (execEvtTlock p v s) := by
  unfold execEvtTlock
  try dsimp only
  repeat' (first
    | with_reducible assumption | with_reducible apply State.writeEvtCtl_keeps | with_reducible apply Keeps.next)

theorem execStopDrainDone_keeps {s0 : State} {s : Machine.State} (h : Keeps s0 s) :
    KeepsOut s0 (execStopDrainDone s) := by
  unfold execStopDrainDone
  try dsimp only
  repeat' (first
    | with_reducible assumption | with_reducible apply State.stopUnload_keeps | with_reducible apply Keeps.next
    | with_reducible apply Keeps.ite)

theorem execSpnGo_keeps {s0 : State} (p : Sys2Proof.Path) (v : Word) {s : Machine.State} (h : Keeps s0 s) :
    KeepsOut s0 (execSpnGo p v s) := by
  unfold execSpnGo
  try dsimp only
  repeat' (first
    | with_reducible assumption | with_reducible apply State.writeSpnGo_keeps | with_reducible apply Keeps.next)

theorem execMeasurementIntervalEnd_keeps {s0 : State} (vin : BitVec 16) (hold : BitVec 16) (mbus : BitVec 16) {s : Machine.State} (h : Keeps s0 s) :
    KeepsOut s0 (execMeasurementIntervalEnd vin hold mbus s) := by
  unfold execMeasurementIntervalEnd
  try dsimp only
  repeat' (first
    | with_reducible assumption | with_reducible apply State.put_keeps | with_reducible apply State.inc_keeps
    | (with_reducible refine Keeps.doAll (fun _ _ _ => ?_) ?_) <;> try dsimp only | with_reducible apply Keeps.next
    | with_reducible apply Keeps.ite | split | intro _ | fail_if_no_progress (with_reducible apply Keeps.upd))

theorem execSenseEnd_keeps {s0 : State} {s : Machine.State} (h : Keeps s0 s) :
    KeepsOut s0 (execSenseEnd s) := by
  unfold execSenseEnd
  try dsimp only
  repeat' (first
    | with_reducible assumption | with_reducible apply State.enterRun_keeps | with_reducible apply State.inc_keeps
    | with_reducible apply State.put_keeps | with_reducible apply State.stopSpin_keeps | with_reducible apply State.spnTo_keeps
    | with_reducible apply Keeps.next | with_reducible apply Keeps.ite)

theorem State.cocoonHead_keeps {s0 : State} {s : Machine.State} (h : Keeps s0 s) :
    Keeps s0 (State.cocoonHead s) := by
  unfold State.cocoonHead
  try dsimp only
  repeat' (first
    | with_reducible assumption | intro _ | with_reducible apply State.onPwr_keeps | with_reducible apply State.cocoon_keeps
    | with_reducible apply State.wakeNow_keeps | with_reducible apply State.inc_keeps | with_reducible apply State.requestNext_keeps
    | with_reducible apply Keeps.next | with_reducible apply Keeps.ite | split)

theorem execLowerTargetRelease_keeps {s0 : State} {s : Machine.State} (h : Keeps s0 s) :
    KeepsOut s0 (execLowerTargetRelease s) := by
  unfold execLowerTargetRelease
  try dsimp only
  repeat' (first
    | with_reducible assumption | with_reducible apply State.passTarget_keeps | with_reducible apply Keeps.next
    | with_reducible apply Keeps.ite | split)

theorem execMcsLoadGo_keeps {s0 : State} (p : Sys2Proof.Path) (n : Fin 4) (v : Word) {s : Machine.State} (h : Keeps s0 s) :
    KeepsOut s0 (execMcsLoadGo p n v s) := by
  unfold execMcsLoadGo
  try dsimp only
  repeat' (first
    | with_reducible assumption | with_reducible apply State.writeLdctl_keeps | with_reducible apply Keeps.next)

theorem execMcsKill_keeps {s0 : State} (p : Sys2Proof.Path) (n : Fin 4) (v : Word) {s : Machine.State} (h : Keeps s0 s) :
    KeepsOut s0 (execMcsKill p n v s) := by
  unfold execMcsKill
  try dsimp only
  repeat' (first
    | with_reducible assumption | with_reducible apply State.writeMcsCtl_keeps | with_reducible apply Keeps.next)

end Sys2Proof.Machine
end

