-- ==== Sys2Proof/Laws/KeepsControl.lean ====
section
/-! SUPPORT. That what every command keeps (`Keeps`) is kept by power, boot, firmware, motion, harvest, loading and adoption commands. -/

namespace Sys2Proof.Machine
open Sys2Proof

theorem State.domFailed_keeps {s0 : State} (d : ℕ) {s : Machine.State} (h : Keeps s0 s) :
    Keeps s0 (State.domFailed d s) := by
  unfold State.domFailed
  try dsimp only
  repeat' (first
    | with_reducible assumption | intro _ | with_reducible apply State.post_keeps | with_reducible apply State.put_keeps
    | with_reducible apply State.setDom_keeps | with_reducible apply State.onPwr_keeps | with_reducible apply State.raiseAt_keeps
    | with_reducible apply State.pump_keeps | with_reducible apply State.laneLeft_keeps | with_reducible apply State.onNvme_keeps
    | with_reducible apply State.diapauseFor_keeps | with_reducible apply State.emergeNext_keeps | with_reducible apply Keeps.next
    | with_reducible apply Keeps.ite)

theorem execRampTimeout_keeps {s0 : State} {s : Machine.State} (h : Keeps s0 s) :
    KeepsOut s0 (execRampTimeout s) := by
  unfold execRampTimeout
  try dsimp only
  repeat' (first
    | with_reducible assumption | with_reducible apply State.raise_keeps | with_reducible apply State.put_keeps
    | with_reducible apply State.setIso_keeps | with_reducible apply Keeps.next | with_reducible apply Keeps.ite)

theorem execApstTransition_keeps {s0 : State} {s : Machine.State} (h : Keeps s0 s) :
    KeepsOut s0 (execApstTransition s) := by
  unfold execApstTransition
  try dsimp only
  repeat' (first
    | with_reducible assumption | with_reducible apply State.enterPs_keeps | with_reducible apply State.put_keeps
    | with_reducible apply Keeps.next | with_reducible apply Keeps.ite | split)

theorem State.programSlot_keeps {s0 : State} (slot : ℕ) {s : Machine.State} (h : Keeps s0 s) :
    Keeps s0 (State.programSlot slot s) := by
  unfold State.programSlot
  try dsimp only
  repeat' (first
    | with_reducible assumption | intro _ | with_reducible apply Keeps.program | with_reducible apply Keeps.eraseFlash)

theorem State.onBoot_keeps {s0 : State} (f : Boot → Boot) {s : Machine.State} (h : Keeps s0 s) :
    Keeps s0 (State.onBoot f s) := by
  unfold State.onBoot
  try dsimp only
  repeat' (first
    | with_reducible assumption | intro _ | with_reducible apply Keeps.next | with_reducible apply Keeps.ite | split
    | fail_if_no_progress (with_reducible apply Keeps.upd))

theorem execDomainIdleCocoon_keeps {s0 : State} (d : Fin 7) {s : Machine.State} (h : Keeps s0 s) :
    KeepsOut s0 (execDomainIdleCocoon d s) := by
  unfold execDomainIdleCocoon
  try dsimp only
  repeat' (first
    | with_reducible assumption | with_reducible apply State.pwrGo_keeps | with_reducible apply State.put_keeps
    | with_reducible apply Keeps.doIf | with_reducible apply Keeps.next | with_reducible apply Keeps.ite)

theorem State.setReady_keeps {s0 : State} {s : Machine.State} (h : Keeps s0 s) :
    Keeps s0 (State.setReady s) := by
  unfold State.setReady
  try dsimp only
  repeat' (first
    | with_reducible assumption | intro _ | with_reducible apply State.onNvme_keeps | with_reducible apply Keeps.next
    | with_reducible apply Keeps.ite)

theorem State.configGo_keeps {s0 : State} {s : Machine.State} (h : Keeps s0 s) :
    Keeps s0 (State.configGo s) := by
  unfold State.configGo
  try dsimp only
  repeat' (first
    | with_reducible assumption | intro _ | with_reducible apply State.onNvme_keeps)

theorem State.minimal_keeps {s0 : State} {s : Machine.State} (h : Keeps s0 s) :
    Keeps s0 (State.minimal s) := by
  unfold State.minimal
  try dsimp only
  repeat' (first
    | with_reducible assumption | intro _ | with_reducible apply State.setReady_keeps | with_reducible apply State.configGo_keeps
    | with_reducible apply State.onBoot_keeps)

theorem State.computeBudget_keeps {s0 : State} {s : Machine.State} (h : Keeps s0 s) :
    Keeps s0 (State.computeBudget s) := by
  unfold State.computeBudget
  try dsimp only
  repeat' (first
    | with_reducible assumption | (intro _; try dsimp only) | with_reducible apply State.put_keeps
    | with_reducible apply Keeps.activate | with_reducible apply State.raise_keeps | with_reducible apply State.setBudget_keeps
    | with_reducible apply State.onSpn_keeps | with_reducible apply State.pump_keeps
    | (with_reducible refine Keeps.doAll (fun _ _ _ => ?_) ?_) <;> try dsimp only | with_reducible apply Keeps.doIf
    | with_reducible apply Keeps.next | with_reducible apply Keeps.ite | split)

theorem execHrvBudgetCompute_keeps {s0 : State} {s : Machine.State} (h : Keeps s0 s) :
    KeepsOut s0 (execHrvBudgetCompute s) := by
  unfold execHrvBudgetCompute
  try dsimp only
  repeat' (first
    | with_reducible assumption | with_reducible apply State.computeBudget_keeps | with_reducible apply State.setBudget_keeps
    | with_reducible apply Keeps.next | with_reducible apply Keeps.ite)

theorem State.fwCommitCmd_keeps {s0 : State} (ca : ℕ) (f : ℕ → Machine.State → Machine.State) (e : Sqe) {s : Machine.State} (hff : ∀ y0 y1, Keeps s0 y1 → Keeps s0 (f y0 y1)) (h : Keeps s0 s) :
    Keeps s0 (State.fwCommitCmd ca f e s) := by
  unfold State.fwCommitCmd
  try dsimp only
  repeat' (first
    | with_reducible assumption | (intro _; try dsimp only) | with_reducible apply State.admin_keeps
    | with_reducible apply State.adminDone_keeps | with_reducible apply hff | with_reducible apply Keeps.next
    | with_reducible apply Keeps.ite)

theorem State.vetStaged_keeps {s0 : State} {s : Machine.State} (h : Keeps s0 s) :
    Keeps s0 (State.vetStaged s).2 := by
  unfold State.vetStaged
  try dsimp only
  repeat' (first
    | with_reducible assumption | intro _ | with_reducible apply State.put_keeps | with_reducible apply State.raiseAt_keeps
    | with_reducible apply Keeps.next | with_reducible apply Keeps.ite)

theorem execFirmwareCommit000_keeps {s0 : State} (e : Sqe) {s : Machine.State} (h : Keeps s0 s) :
    KeepsOut s0 (execFirmwareCommit000 e s) := by
  unfold execFirmwareCommit000
  try dsimp only
  repeat' (first
    | with_reducible assumption | with_reducible apply State.fwCommitCmd_keeps | with_reducible apply State.vetStaged_keeps
    | with_reducible apply State.adminDone_keeps | with_reducible apply State.programSlot_keeps | with_reducible apply Keeps.next
    | with_reducible apply Keeps.ite | split | (intro _; try dsimp only))

theorem State.writePwrCmd_keeps {s0 : State} (p : Sys2Proof.Path) (v : Word) {s : Machine.State} (h : Keeps s0 s) :
    Keeps s0 (State.writePwrCmd p v s) := by
  unfold State.writePwrCmd
  try dsimp only
  repeat' (first
    | with_reducible assumption | (intro _; try dsimp only) | with_reducible apply State.gated_keeps
    | with_reducible apply State.onPwr_keeps | with_reducible apply State.put_keeps | with_reducible apply State.pwrGo_keeps
    | with_reducible apply Keeps.next | with_reducible apply Keeps.ite)

theorem execPwrCmdGo_keeps {s0 : State} (p : Sys2Proof.Path) (v : Word) {s : Machine.State} (h : Keeps s0 s) :
    KeepsOut s0 (execPwrCmdGo p v s) := by
  unfold execPwrCmdGo
  try dsimp only
  repeat' (first
    | with_reducible assumption | with_reducible apply State.writePwrCmd_keeps | with_reducible apply Keeps.next)

theorem State.lcfgActivate_keeps {s0 : State} {s : Machine.State} (h : Keeps s0 s) :
    Keeps s0 (State.lcfgActivate s) := by
  unfold State.lcfgActivate
  try dsimp only
  repeat' (first
    | with_reducible assumption | intro _ | with_reducible apply State.put_keeps | with_reducible apply Keeps.activate
    | with_reducible apply State.stopLoop_keeps | with_reducible apply State.zeroSection_keeps
    | (with_reducible refine Keeps.doAll (fun _ _ _ => ?_) ?_) <;> try dsimp only | with_reducible apply Keeps.next
    | with_reducible apply Keeps.ite)

theorem execScaLcfgActivate_keeps {s0 : State} {s : Machine.State} (h : Keeps s0 s) :
    KeepsOut s0 (execScaLcfgActivate s) := by
  unfold execScaLcfgActivate
  try dsimp only
  repeat' (first
    | with_reducible assumption | with_reducible apply State.lcfgActivate_keeps | with_reducible apply Keeps.next)

theorem State.writeFlctl_keeps {s0 : State} (p : Sys2Proof.Path) (v : Word) {s : Machine.State} (h : Keeps s0 s) :
    Keeps s0 (State.writeFlctl p v s) := by
  unfold State.writeFlctl
  try dsimp only
  repeat' (first
    | with_reducible assumption | (intro _; try dsimp only) | with_reducible apply State.gated_keeps
    | with_reducible apply State.take_keeps | with_reducible apply State.flutterFail_keeps | with_reducible apply State.put_keeps
    | with_reducible apply State.forceOn_keeps | with_reducible apply State.onServo_keeps | with_reducible apply Keeps.next
    | with_reducible apply Keeps.ite | split | fail_if_no_progress (with_reducible apply Keeps.upd))

theorem execFlutterAbort_keeps {s0 : State} (p : Sys2Proof.Path) (v : Word) {s : Machine.State} (h : Keeps s0 s) :
    KeepsOut s0 (execFlutterAbort p v s) := by
  unfold execFlutterAbort
  try dsimp only
  repeat' (first
    | with_reducible assumption | with_reducible apply State.writeFlctl_keeps | with_reducible apply Keeps.next)

theorem State.writeHrvCtl_keeps {s0 : State} (p : Sys2Proof.Path) (v : Word) {s : Machine.State} (h : Keeps s0 s) :
    Keeps s0 (State.writeHrvCtl p v s) := by
  unfold State.writeHrvCtl
  try dsimp only
  repeat' (first
    | with_reducible assumption | (intro _; try dsimp only) | with_reducible apply State.gated_keeps
    | with_reducible apply State.take_keeps | with_reducible apply State.put_keeps | with_reducible apply State.setBudget_keeps
    | with_reducible apply Keeps.next | with_reducible apply Keeps.ite)

theorem execHrvCtlArm_keeps {s0 : State} (p : Sys2Proof.Path) (v : Word) {s : Machine.State} (h : Keeps s0 s) :
    KeepsOut s0 (execHrvCtlArm p v s) := by
  unfold execHrvCtlArm
  try dsimp only
  repeat' (first
    | with_reducible assumption | with_reducible apply State.writeHrvCtl_keeps | with_reducible apply Keeps.next)

theorem execDoubleFault_keeps {s0 : State} {s : Machine.State} (h : Keeps s0 s) :
    KeepsOut s0 (execDoubleFault s) := by
  unfold execDoubleFault
  try dsimp only
  repeat' (first
    | with_reducible assumption | with_reducible apply State.diapauseFor_keeps | with_reducible apply State.onSpn_keeps
    | with_reducible apply State.raise_keeps | with_reducible apply State.setIso_keeps | with_reducible apply Keeps.next
    | with_reducible apply Keeps.ite)

theorem execFirmwareImageDownload_keeps {s0 : State} (e : Sqe) {s : Machine.State} (h : Keeps s0 s) :
    KeepsOut s0 (execFirmwareImageDownload e s) := by
  unfold execFirmwareImageDownload
  try dsimp only
  repeat' (first
    | with_reducible assumption | with_reducible apply State.admin_keeps | with_reducible apply State.adminDone_keeps
    | with_reducible apply Keeps.next | with_reducible apply Keeps.ite | split | (intro _; try dsimp only)
    | fail_if_no_progress (with_reducible apply Keeps.upd))

theorem State.writeHrvCmd_keeps {s0 : State} (p : Sys2Proof.Path) (v : Word) {s : Machine.State} (h : Keeps s0 s) :
    Keeps s0 (State.writeHrvCmd p v s) := by
  unfold State.writeHrvCmd
  try dsimp only
  repeat' (first
    | with_reducible assumption | (intro _; try dsimp only) | with_reducible apply State.gated_keeps
    | with_reducible apply State.onHrv_keeps | with_reducible apply State.trigger_keeps | with_reducible apply Keeps.doIf)

theorem State.linkDown_keeps {s0 : State} {s : Machine.State} (h : Keeps s0 s) :
    Keeps s0 (State.linkDown s) := by
  unfold State.linkDown
  try dsimp only
  repeat' (first
    | with_reducible assumption | intro _ | with_reducible apply State.put_keeps | with_reducible apply State.onNvme_keeps)

theorem State.setAcou_keeps {s0 : State} (k : ℕ) {s : Machine.State} (h : Keeps s0 s) :
    Keeps s0 (State.setAcou k s) := by
  unfold State.setAcou
  try dsimp only
  repeat' (first
    | with_reducible assumption | intro _ | with_reducible apply State.put_keeps | with_reducible apply State.onPwr_keeps
    | with_reducible apply Keeps.next | with_reducible apply Keeps.ite | split)

theorem State.featureDefaults_keeps {s0 : State} {s : Machine.State} (h : Keeps s0 s) :
    Keeps s0 (State.featureDefaults s) := by
  unfold State.featureDefaults
  try dsimp only
  repeat' (first
    | with_reducible assumption | intro _ | with_reducible apply State.onNvme_keeps | with_reducible apply State.put_keeps
    | with_reducible apply State.setAcou_keeps | with_reducible apply State.enterPs_keeps | with_reducible apply Keeps.next
    | with_reducible apply Keeps.ite)

theorem State.controllerOff_keeps {s0 : State} {s : Machine.State} (h : Keeps s0 s) :
    Keeps s0 (State.controllerOff s) := by
  unfold State.controllerOff
  try dsimp only
  repeat' (first
    | with_reducible assumption | intro _ | with_reducible apply State.onCtr_keeps | with_reducible apply State.releaseByReset_keeps
    | with_reducible apply State.discardAll_keeps | with_reducible apply State.featureDefaults_keeps
    | with_reducible apply State.closeZones_keeps | with_reducible apply State.onNvme_keeps | with_reducible apply State.reclass_keeps
    | with_reducible apply State.pump_keeps | with_reducible apply State.ctrTotals_keeps | with_reducible apply Keeps.resetRegs
    | with_reducible apply Keeps.next | with_reducible apply Keeps.ite | split | fail_if_no_progress (with_reducible apply Keeps.upd))

theorem State.hostReset_keeps {s0 : State} {s : Machine.State} (h : Keeps s0 s) :
    Keeps s0 (State.hostReset s) := by
  unfold State.hostReset
  try dsimp only
  repeat' (first
    | with_reducible assumption | intro _ | with_reducible apply State.onNvme_keeps | with_reducible apply State.controllerOff_keeps
    | with_reducible apply Keeps.resetRegs)

theorem execDlDown_keeps {s0 : State} {s : Machine.State} (h : Keeps s0 s) :
    KeepsOut s0 (execDlDown s) := by
  unfold execDlDown
  try dsimp only
  repeat' (first
    | with_reducible assumption | with_reducible apply State.raise_keeps | with_reducible apply State.linkDown_keeps
    | with_reducible apply State.hostReset_keeps | with_reducible apply Keeps.next | with_reducible apply Keeps.ite)

theorem execHoldLow_keeps {s0 : State} (hold : ℕ) {s : Machine.State} (h : Keeps s0 s) :
    KeepsOut s0 (execHoldLow hold s) := by
  unfold execHoldLow
  try dsimp only
  repeat' (first
    | with_reducible assumption | with_reducible apply State.put_keeps | with_reducible apply State.onHrv_keeps
    | with_reducible apply State.beginPark_keeps | with_reducible apply State.beginCommit_keeps | with_reducible apply Keeps.next
    | with_reducible apply Keeps.ite)

theorem State.ssNext_keeps {s0 : State} {s : Machine.State} (h : Keeps s0 s) :
    Keeps s0 (State.ssNext s) := by
  unfold State.ssNext
  try dsimp only
  repeat' (first
    | with_reducible assumption | intro _ | with_reducible apply State.inc_keeps | with_reducible apply Keeps.next
    | with_reducible apply Keeps.ite)

theorem State.writeSsdata_keeps {s0 : State} (p : Sys2Proof.Path) (v : Word) {s : Machine.State} (h : Keeps s0 s) :
    Keeps s0 (State.writeSsdata p v s) := by
  unfold State.writeSsdata
  try dsimp only
  repeat' (first
    | with_reducible assumption | (intro _; try dsimp only) | with_reducible apply State.gated_keeps
    | with_reducible apply State.onServo_keeps | with_reducible apply State.wroteWords_keeps | with_reducible apply State.ssNext_keeps
    | with_reducible apply Keeps.next | with_reducible apply Keeps.ite)

theorem State.chopCheck_keeps {s0 : State} (isns : Byte) {s : Machine.State} (h : Keeps s0 s) :
    Keeps s0 (State.chopCheck isns s) := by
  unfold State.chopCheck
  try dsimp only
  repeat' (first
    | with_reducible assumption | intro _ | with_reducible apply State.put_keeps | with_reducible apply State.onHrv_keeps
    | with_reducible apply State.raise_keeps | with_reducible apply Keeps.next | with_reducible apply Keeps.ite)

theorem State.writeScaStat_keeps {s0 : State} (p : Sys2Proof.Path) (v : Word) {s : Machine.State} (h : Keeps s0 s) :
    Keeps s0 (State.writeScaStat p v s) := by
  unfold State.writeScaStat
  try dsimp only
  repeat' (first
    | with_reducible assumption | (intro _; try dsimp only) | with_reducible apply State.gated_keeps
    | with_reducible apply State.put_keeps | with_reducible apply Keeps.next | with_reducible apply Keeps.ite)

theorem execScaStatClr_keeps {s0 : State} (p : Sys2Proof.Path) (v : Word) {s : Machine.State} (h : Keeps s0 s) :
    KeepsOut s0 (execScaStatClr p v s) := by
  unfold execScaStatClr
  try dsimp only
  repeat' (first
    | with_reducible assumption | with_reducible apply State.writeScaStat_keeps | with_reducible apply Keeps.next)

theorem execVcmPwmPeriod_keeps {s0 : State} (a : Fin 4) (isns : ℤ) {s : Machine.State} (h : Keeps s0 s) :
    KeepsOut s0 (execVcmPwmPeriod a isns s) := by
  unfold execVcmPwmPeriod
  try dsimp only
  repeat' (first
    | with_reducible assumption | with_reducible apply State.onAct_keeps | with_reducible apply Keeps.setReg
    | with_reducible apply Keeps.next | with_reducible apply Keeps.ite | split | intro _
    | fail_if_no_progress (with_reducible apply Keeps.upd))

theorem execEntryRetry_keeps {s0 : State} {s : Machine.State} (h : Keeps s0 s) :
    KeepsOut s0 (execEntryRetry s) := by
  unfold execEntryRetry
  try dsimp only
  repeat' (first
    | with_reducible assumption | with_reducible apply State.wakeNow_keeps | with_reducible apply State.startEntry_keeps
    | with_reducible apply Keeps.next | with_reducible apply Keeps.ite)

theorem execFirmwareCommit010_keeps {s0 : State} (e : Sqe) {s : Machine.State} (h : Keeps s0 s) :
    KeepsOut s0 (execFirmwareCommit010 e s) := by
  unfold execFirmwareCommit010
  try dsimp only
  repeat' (first
    | with_reducible assumption | with_reducible apply State.fwCommitCmd_keeps | with_reducible apply State.adminDone_keeps
    | with_reducible apply State.setBoot_keeps | with_reducible apply Keeps.next | with_reducible apply Keeps.ite | split
    | (intro _; try dsimp only))

theorem execAdoptionStart_keeps {s0 : State} (lost : List ℕ) {s : Machine.State} (h : Keeps s0 s) :
    KeepsOut s0 (execAdoptionStart s lost) := by
  unfold execAdoptionStart
  try dsimp only
  repeat' (first
    | with_reducible assumption | with_reducible apply State.raise_keeps | with_reducible apply State.put_keeps
    | with_reducible apply State.raiseAt_keeps | with_reducible apply State.onMap_keeps | with_reducible apply State.setWord_keeps
    | with_reducible apply State.onBoot_keeps | with_reducible apply Keeps.doIf | with_reducible apply Keeps.next
    | with_reducible apply Keeps.ite | split)

theorem State.installReg_keeps {s0 : State} (x : ℕ × Word) {s : Machine.State} (h : Keeps s0 s) :
    Keeps s0 (State.installReg x s) := by
  unfold State.installReg
  try dsimp only
  repeat' (first
    | with_reducible assumption | intro _ | with_reducible apply Keeps.setReg)

theorem State.writeScaGo_keeps {s0 : State} (p : Sys2Proof.Path) (v : Word) {s : Machine.State} (h : Keeps s0 s) :
    Keeps s0 (State.writeScaGo p v s) := by
  unfold State.writeScaGo
  try dsimp only
  repeat' (first
    | with_reducible assumption | (intro _; try dsimp only) | with_reducible apply State.gated_keeps
    | with_reducible apply State.put_keeps | with_reducible apply Keeps.next | with_reducible apply Keeps.ite)

theorem State.installRow5_keeps {s0 : State} (f : ℕ → Byte) (m : ImageIn) {s : Machine.State} (h : Keeps s0 s) :
    Keeps s0 (State.installRow5 f m s) := by
  unfold State.installRow5
  try dsimp only
  repeat' (first
    | with_reducible assumption | intro _ | with_reducible apply State.onServo_keeps | with_reducible apply State.installReg_keeps
    | with_reducible apply State.lcfgActivate_keeps | with_reducible apply State.writeScaGo_keeps
    | with_reducible apply State.curveActivate_keeps | with_reducible apply State.writeSpnGo_keeps
    | (with_reducible refine Keeps.doAll (fun _ _ _ => ?_) ?_) <;> try dsimp only)

theorem execPerstNDeassert_keeps {s0 : State} {s : Machine.State} (h : Keeps s0 s) :
    KeepsOut s0 (execPerstNDeassert s) := by
  unfold execPerstNDeassert
  try dsimp only
  repeat' (first
    | with_reducible assumption | with_reducible apply State.onNvme_keeps | with_reducible apply Keeps.next)

theorem execIsoRampStep_keeps {s0 : State} (vin : ℕ) (mbus : ℕ) {s : Machine.State} (h : Keeps s0 s) :
    KeepsOut s0 (execIsoRampStep vin mbus s) := by
  unfold execIsoRampStep
  try dsimp only
  repeat' (first
    | with_reducible assumption | with_reducible apply State.put_keeps | with_reducible apply State.onHrv_keeps
    | with_reducible apply State.setIso_keeps | with_reducible apply Keeps.next | with_reducible apply Keeps.ite | split | intro _
    | fail_if_no_progress (with_reducible apply Keeps.upd))

theorem execDiapauseCommitDone_keeps {s0 : State} {s : Machine.State} (h : Keeps s0 s) :
    KeepsOut s0 (execDiapauseCommitDone s) := by
  unfold execDiapauseCommitDone
  try dsimp only
  repeat' (first
    | with_reducible assumption | with_reducible apply State.put_keeps | with_reducible apply State.onHrv_keeps
    | with_reducible apply State.syncDirty_keeps | with_reducible apply State.onBuf_keeps | with_reducible apply State.unloadAll_keeps
    | with_reducible apply State.fwEvent_keeps | with_reducible apply State.askFlush_keeps | with_reducible apply State.stopSpin_keeps
    | with_reducible apply Keeps.next | with_reducible apply Keeps.ite | split | intro _
    | fail_if_no_progress (with_reducible apply Keeps.upd))

theorem State.startTime_keeps {s0 : State} {s : Machine.State} (h : Keeps s0 s) :
    Keeps s0 (State.startTime s) := by
  unfold State.startTime
  try dsimp only
  repeat' (first
    | with_reducible assumption | intro _ | with_reducible apply State.put_keeps | with_reducible apply State.lockTime_keeps
    | with_reducible apply State.addCounter_keeps | with_reducible apply Keeps.next | with_reducible apply Keeps.ite | split)

theorem State.putReason_keeps {s0 : State} (slot : ℕ) (r : ℕ) {s : Machine.State} (h : Keeps s0 s) :
    Keeps s0 (State.putReason slot r s) := by
  unfold State.putReason
  try dsimp only
  repeat' (first
    | with_reducible assumption | intro _ | with_reducible apply State.put_keeps | with_reducible apply Keeps.next
    | with_reducible apply Keeps.ite)

theorem State.trySlot_keeps {s0 : State} (m : ImageIn) (slot : ℕ) {s : Machine.State} (h : Keeps s0 s) :
    Keeps s0 (State.trySlot m slot s).2 := by
  unfold State.trySlot
  try dsimp only
  repeat' (first
    | with_reducible assumption | intro _ | with_reducible apply State.putReason_keeps | with_reducible apply State.raiseAt_keeps
    | with_reducible apply Keeps.next | with_reducible apply Keeps.ite)

theorem State.pickSlot_keeps {s0 : State} (m : ImageIn) (a : ℕ) (fall : Bool) {s : Machine.State} (h : Keeps s0 s) :
    Keeps s0 (State.pickSlot m a fall s).2 := by
  unfold State.pickSlot
  try dsimp only
  repeat' (first
    | with_reducible assumption | intro _ | with_reducible apply State.trySlot_keeps | with_reducible apply State.fwEvent_keeps
    | with_reducible apply State.raiseAt_keeps | with_reducible apply State.put_keeps | with_reducible apply Keeps.next
    | with_reducible apply Keeps.ite | split)

theorem State.coldSlot_keeps {s0 : State} (m : ImageIn) {s : Machine.State} (h : Keeps s0 s) :
    Keeps s0 (State.coldSlot m s).2 := by
  unfold State.coldSlot
  try dsimp only
  repeat' (first
    | with_reducible assumption | intro _ | with_reducible apply State.pickSlot_keeps | with_reducible apply State.put_keeps
    | with_reducible apply Keeps.next | with_reducible apply Keeps.ite | split)

theorem State.readSsdata_keeps {s0 : State} (p : Sys2Proof.Path) (ecc : Bool) {s : Machine.State} (h : Keeps s0 s) :
    Keeps s0 (State.readSsdata p ecc s) := by
  unfold State.readSsdata
  try dsimp only
  repeat' (first
    | with_reducible assumption | (intro _; try dsimp only) | with_reducible apply State.gatedRead_keeps
    | with_reducible apply State.readWords_keeps | with_reducible apply State.ssNext_keeps | with_reducible apply State.raise_keeps
    | with_reducible apply Keeps.doIf | with_reducible apply Keeps.next | with_reducible apply Keeps.ite | split)

theorem execSrvSsdataAccess_keeps {s0 : State} (p : Sys2Proof.Path) (wr : Option Word) (ecc : Bool) {s : Machine.State} (h : Keeps s0 s) :
    KeepsOut s0 (execSrvSsdataAccess p wr ecc s) := by
  unfold execSrvSsdataAccess
  try dsimp only
  repeat' (first
    | with_reducible assumption | with_reducible apply State.writeSsdata_keeps | with_reducible apply State.readSsdata_keeps
    | with_reducible apply Keeps.next | with_reducible apply Keeps.ite | split)

theorem State.reopen_keeps {s0 : State} {s : Machine.State} (h : Keeps s0 s) :
    Keeps s0 (State.reopen s) := by
  unfold State.reopen
  try dsimp only
  repeat' (first
    | with_reducible assumption | intro _ | with_reducible apply State.onZone_keeps
    | (with_reducible refine Keeps.doAll (fun _ _ _ => ?_) ?_) <;> try dsimp only)

theorem execVibFrame_keeps {s0 : State} (reading : BitVec 16) {s : Machine.State} (h : Keeps s0 s) :
    KeepsOut s0 (execVibFrame reading s) := by
  unfold execVibFrame
  try dsimp only
  repeat' (first
    | with_reducible assumption | with_reducible apply State.onServo_keeps | with_reducible apply State.put_keeps
    | with_reducible apply State.forceOn_keeps | with_reducible apply State.onAct_keeps | with_reducible apply State.raise_keeps
    | (with_reducible refine Keeps.doAll (fun _ _ _ => ?_) ?_) <;> try dsimp only | with_reducible apply Keeps.doIf
    | with_reducible apply Keeps.next | with_reducible apply Keeps.ite | split | intro _
    | fail_if_no_progress (with_reducible apply Keeps.upd))

theorem State.loadLane_keeps {s0 : State} (n : Fin 4) {s : Machine.State} (h : Keeps s0 s) :
    Keeps s0 (State.loadLane n s) := by
  unfold State.loadLane
  try dsimp only
  repeat' (first
    | with_reducible assumption | intro _ | with_reducible apply State.put_keeps)

theorem execHrvForce_keeps {s0 : State} (p : Sys2Proof.Path) (v : Word) {s : Machine.State} (h : Keeps s0 s) :
    KeepsOut s0 (execHrvForce p v s) := by
  unfold execHrvForce
  try dsimp only
  repeat' (first
    | with_reducible assumption | with_reducible apply State.writeHrvCmd_keeps | with_reducible apply Keeps.next)

theorem execPgoodCoreLate_keeps {s0 : State} {s : Machine.State} (h : Keeps s0 s) :
    KeepsOut s0 (execPgoodCoreLate s) := by
  unfold execPgoodCoreLate
  try dsimp only
  repeat' (first
    | with_reducible assumption | with_reducible apply State.raise_keeps | with_reducible apply Keeps.next
    | with_reducible apply Keeps.ite)

theorem State.putKeel_keeps {s0 : State} (k : Keel) (surface : ℕ) {s : Machine.State} (h : Keeps s0 s) :
    Keeps s0 (State.putKeel k surface s) := by
  unfold State.putKeel
  try dsimp only
  repeat' (first
    | with_reducible assumption | intro _ | with_reducible apply State.onMedia_keeps | with_reducible apply Keeps.next
    | with_reducible apply Keeps.ite | split)

theorem State.recordImage_keeps {s0 : State} (f : ℕ → Byte) {s : Machine.State} (h : Keeps s0 s) :
    Keeps s0 (State.recordImage f s) := by
  unfold State.recordImage
  try dsimp only
  repeat' (first
    | with_reducible assumption | intro _ | with_reducible apply State.put_keeps)

theorem execReverseCurrent_keeps {s0 : State} {s : Machine.State} (h : Keeps s0 s) :
    KeepsOut s0 (execReverseCurrent s) := by
  unfold execReverseCurrent
  try dsimp only
  repeat' (first
    | with_reducible assumption | with_reducible apply State.trigger_keeps | with_reducible apply State.raise_keeps
    | with_reducible apply State.setIso_keeps | with_reducible apply Keeps.next)

theorem execFirmwareCommit011_keeps {s0 : State} (e : Sqe) {s : Machine.State} (h : Keeps s0 s) :
    KeepsOut s0 (execFirmwareCommit011 e s) := by
  unfold execFirmwareCommit011
  try dsimp only
  repeat' (first
    | with_reducible assumption | with_reducible apply State.fwCommitCmd_keeps | with_reducible apply State.adminDone_keeps
    | with_reducible apply State.vetStaged_keeps | with_reducible apply Keeps.next | with_reducible apply Keeps.ite | split
    | (intro _; try dsimp only) | (refine Keeps.pair ‹_ = (_, _)› ?_) | fail_if_no_progress (with_reducible apply Keeps.upd))

theorem execEmergenceStepDone_keeps {s0 : State} {s : Machine.State} (h : Keeps s0 s) :
    KeepsOut s0 (execEmergenceStepDone s) := by
  unfold execEmergenceStepDone
  try dsimp only
  repeat' (first
    | with_reducible assumption | with_reducible apply State.onPwr_keeps | with_reducible apply State.emerged_keeps
    | with_reducible apply State.autoLane_keeps | with_reducible apply Keeps.next | with_reducible apply Keeps.ite | split)

theorem State.loadCkpt_keeps {s0 : State} (c : Ckpt) {s : Machine.State} (h : Keeps s0 s) :
    Keeps s0 (State.loadCkpt c s) := by
  unfold State.loadCkpt
  try dsimp only
  repeat' (first
    | with_reducible assumption | intro _ | with_reducible apply State.onMap_keeps)

theorem State.replay_keeps {s0 : State} (r : JRec) {s : Machine.State} (h : Keeps s0 s) :
    Keeps s0 (State.replay r s) := by
  unfold State.replay
  try dsimp only
  repeat' (first
    | with_reducible assumption | intro _ | with_reducible apply State.setHbmEntry_keeps | with_reducible apply State.onZone_keeps
    | with_reducible apply State.onMap_keeps | (with_reducible refine Keeps.doAll (fun _ _ _ => ?_) ?_) <;> try dsimp only
    | with_reducible apply Keeps.next | with_reducible apply Keeps.ite | split)

theorem State.logLoss_keeps {s0 : State} (cause : ℕ) (w : BitVec 64 × BitVec 64) {s : Machine.State} (h : Keeps s0 s) :
    Keeps s0 (State.logLoss cause w s) := by
  unfold State.logLoss
  try dsimp only
  repeat' (first
    | with_reducible assumption | intro _ | with_reducible apply State.onMap_keeps
    | (with_reducible refine Keeps.doAll (fun _ _ _ => ?_) ?_) <;> try dsimp only | with_reducible apply Keeps.next
    | with_reducible apply Keeps.ite)

theorem State.overlayExtent_keeps {s0 : State} (x : ℕ) {s : Machine.State} (h : Keeps s0 s) :
    Keeps s0 (State.overlayExtent x s) := by
  unfold State.overlayExtent
  try dsimp only
  repeat' (first
    | with_reducible assumption | intro _ | with_reducible apply State.setHbmEntry_keeps | with_reducible apply Keeps.next
    | with_reducible apply Keeps.ite | split)

theorem State.adoptEnt_keeps {s0 : State} (run : List JRec) (freed : List (ℕ × ℕ)) (e : ManEnt) {s : Machine.State} (h : Keeps s0 s) :
    Keeps s0 (State.adoptEnt run freed e s) := by
  unfold State.adoptEnt
  try dsimp only
  repeat' (first
    | with_reducible assumption | intro _ | with_reducible apply State.logLoss_keeps | with_reducible apply State.raise_keeps
    | with_reducible apply State.inc_keeps | with_reducible apply State.setOvl_keeps | with_reducible apply State.overlayExtent_keeps
    | with_reducible apply Keeps.next | with_reducible apply Keeps.ite | split)

theorem State.adopt_keeps {s0 : State} (k : Keel) (c : Ckpt) (lost : List ℕ) {s : Machine.State} (h : Keeps s0 s) :
    Keeps s0 (State.adopt k c lost s) := by
  unfold State.adopt
  try dsimp only
  repeat' (first
    | with_reducible assumption | (intro _; try dsimp only) | with_reducible apply State.onMap_keeps
    | with_reducible apply State.loadCkpt_keeps | with_reducible apply State.replay_keeps | with_reducible apply State.raise_keeps
    | with_reducible apply State.put_keeps | with_reducible apply State.adoptEnt_keeps | with_reducible apply State.logLoss_keeps
    | with_reducible apply State.setWord_keeps | with_reducible apply State.syncSalt_keeps | with_reducible apply State.reopen_keeps
    | (with_reducible refine Keeps.doAll (fun _ _ _ => ?_) ?_) <;> try dsimp only | with_reducible apply Keeps.doIf
    | with_reducible apply Keeps.next | with_reducible apply Keeps.ite | split)

theorem execAdoptionComplete_keeps {s0 : State} (segs : List (ℕ × ℕ)) (lost : List ℕ) {s : Machine.State} (h : Keeps s0 s) :
    KeepsOut s0 (execAdoptionComplete s segs lost) := by
  unfold execAdoptionComplete
  try dsimp only
  repeat' (first
    | with_reducible assumption | with_reducible apply State.raise_keeps | with_reducible apply State.onMap_keeps
    | with_reducible apply State.adopt_keeps | with_reducible apply State.put_keeps | with_reducible apply State.syncDirty_keeps
    | with_reducible apply State.onBoot_keeps | with_reducible apply Keeps.doIf | with_reducible apply Keeps.next
    | with_reducible apply Keeps.ite | split)

theorem State.writePadrel_keeps {s0 : State} (p : Sys2Proof.Path) (v : Word) {s : Machine.State} (h : Keeps s0 s) :
    Keeps s0 (State.writePadrel p v s) := by
  unfold State.writePadrel
  try dsimp only
  repeat' (first
    | with_reducible assumption | (intro _; try dsimp only) | with_reducible apply State.gated_keeps
    | with_reducible apply State.releasePads_keeps | (with_reducible refine Keeps.doAll (fun _ _ _ => ?_) ?_) <;> try dsimp only)

theorem State.writeHrvGo_keeps {s0 : State} (p : Sys2Proof.Path) (v : Word) {s : Machine.State} (h : Keeps s0 s) :
    Keeps s0 (State.writeHrvGo p v s) := by
  unfold State.writeHrvGo
  try dsimp only
  repeat' (first
    | with_reducible assumption | (intro _; try dsimp only) | with_reducible apply State.gated_keeps
    | with_reducible apply State.put_keeps | with_reducible apply Keeps.next | with_reducible apply Keeps.ite)

theorem State.writeRcvcmd_keeps {s0 : State} (p : Sys2Proof.Path) (v : Word) {s : Machine.State} (h : Keeps s0 s) :
    Keeps s0 (State.writeRcvcmd p v s) := by
  unfold State.writeRcvcmd
  try dsimp only
  repeat' (first
    | with_reducible assumption | (intro _; try dsimp only) | with_reducible apply State.gated_keeps
    | with_reducible apply State.put_keeps | with_reducible apply Keeps.next | with_reducible apply Keeps.ite)

theorem State.writeSetcmd_keeps {s0 : State} (p : Sys2Proof.Path) (v : Word) {s : Machine.State} (h : Keeps s0 s) :
    Keeps s0 (State.writeSetcmd p v s) := by
  unfold State.writeSetcmd
  try dsimp only
  repeat' (first
    | with_reducible assumption | (intro _; try dsimp only) | with_reducible apply State.gated_keeps
    | with_reducible apply State.take_keeps | with_reducible apply State.startInstall_keeps | with_reducible apply Keeps.next
    | with_reducible apply Keeps.ite)

theorem State.writeSkcmd_keeps {s0 : State} (p : Sys2Proof.Path) (a : Fin 4) (v : Word) {s : Machine.State} (h : Keeps s0 s) :
    Keeps s0 (State.writeSkcmd p a v s) := by
  unfold State.writeSkcmd
  try dsimp only
  repeat' (first
    | with_reducible assumption | (intro _; try dsimp only) | with_reducible apply State.gated_keeps
    | with_reducible apply State.take_keeps | with_reducible apply State.wantSeek_keeps | with_reducible apply State.retuneFor_keeps
    | with_reducible apply State.onAct_keeps | with_reducible apply Keeps.next | with_reducible apply Keeps.ite)

theorem State.installRow8_keeps {s0 : State} {s : Machine.State} (h : Keeps s0 s) :
    Keeps s0 (State.installRow8 s) := by
  unfold State.installRow8
  try dsimp only
  repeat' (first
    | with_reducible assumption | intro _ | with_reducible apply State.mcsStart_keeps | with_reducible apply State.releasePads_keeps
    | (with_reducible refine Keeps.doAll (fun _ _ _ => ?_) ?_) <;> try dsimp only)

theorem State.installRow7_keeps {s0 : State} (m : ImageIn) {s : Machine.State} (h : Keeps s0 s) :
    Keeps s0 (State.installRow7 m s) := by
  unfold State.installRow7
  try dsimp only
  repeat' (first
    | with_reducible assumption | intro _ | with_reducible apply State.put_keeps | with_reducible apply State.releasePads_keeps
    | with_reducible apply State.onBoot_keeps | with_reducible apply State.writeSpnCtl_keeps | with_reducible apply Keeps.next
    | with_reducible apply Keeps.ite)

theorem State.installRow6_keeps {s0 : State} {s : Machine.State} (h : Keeps s0 s) :
    Keeps s0 (State.installRow6 s) := by
  unfold State.installRow6
  try dsimp only
  repeat' (first
    | with_reducible assumption | intro _ | with_reducible apply Keeps.setReg | with_reducible apply State.writeHrvCtl_keeps
    | with_reducible apply State.writeHrvGo_keeps | (with_reducible refine Keeps.doAll (fun _ _ _ => ?_) ?_) <;> try dsimp only)

theorem State.installRest_keeps {s0 : State} {s : Machine.State} (h : Keeps s0 s) :
    Keeps s0 (State.installRest s) := by
  unfold State.installRest
  try dsimp only
  repeat' (first
    | with_reducible assumption | intro _ | with_reducible apply State.onBoot_keeps | with_reducible apply State.pump_keeps
    | with_reducible apply State.installRow8_keeps | with_reducible apply State.installRow7_keeps
    | with_reducible apply State.installRow6_keeps | with_reducible apply State.installRow5_keeps | with_reducible apply Keeps.next
    | with_reducible apply Keeps.ite | split)

theorem State.startLoad_keeps {s0 : State} (n : Fin 4) {s : Machine.State} (h : Keeps s0 s) :
    Keeps s0 (State.startLoad n s) := by
  unfold State.startLoad
  try dsimp only
  repeat' (first
    | with_reducible assumption | intro _ | with_reducible apply State.onBoot_keeps | with_reducible apply State.loadLane_keeps
    | with_reducible apply State.installRest_keeps | with_reducible apply Keeps.next | with_reducible apply Keeps.ite)

theorem State.reloaded_keeps {s0 : State} (n : Fin 4) {s : Machine.State} (h : Keeps s0 s) :
    Keeps s0 (State.reloaded n s) := by
  unfold State.reloaded
  try dsimp only
  repeat' (first
    | with_reducible assumption | intro _ | with_reducible apply State.onBoot_keeps | with_reducible apply State.fwEvent_keeps
    | with_reducible apply State.pump_keeps | with_reducible apply State.mcsStart_keeps | with_reducible apply State.loadLane_keeps
    | with_reducible apply Keeps.next | with_reducible apply Keeps.ite)

theorem execMcsLoadDone_keeps {s0 : State} (n : Fin 4) (ecc : Bool) {s : Machine.State} (h : Keeps s0 s) :
    KeepsOut s0 (execMcsLoadDone n ecc s) := by
  unfold execMcsLoadDone
  try dsimp only
  repeat' (first
    | with_reducible assumption | with_reducible apply State.readWords_keeps | with_reducible apply State.put_keeps
    | with_reducible apply State.raise_keeps | with_reducible apply State.autoLane_keeps | with_reducible apply State.loadStore_keeps
    | with_reducible apply State.reloaded_keeps | with_reducible apply State.startLoad_keeps | with_reducible apply Keeps.next
    | with_reducible apply Keeps.ite)

theorem execConnDetBreak_keeps {s0 : State} {s : Machine.State} (h : Keeps s0 s) :
    KeepsOut s0 (execConnDetBreak s) := by
  unfold execConnDetBreak
  try dsimp only
  repeat' (first
    | with_reducible assumption | with_reducible apply State.trigger_keeps | with_reducible apply State.setIso_keeps
    | with_reducible apply Keeps.next)

theorem State.laneSource_keeps {s0 : State} (f : ℕ → Byte) (n : Fin 4) {s : Machine.State} (h : Keeps s0 s) :
    Keeps s0 (State.laneSource f n s) := by
  unfold State.laneSource
  try dsimp only
  repeat' (first
    | with_reducible assumption | intro _ | with_reducible apply State.put_keeps | with_reducible apply Keeps.setReg
    | (with_reducible refine Keeps.doAll (fun _ _ _ => ?_) ?_) <;> try dsimp only)

theorem execLinkRetrain_keeps {s0 : State} (rate : Fin 6) (width : Fin 5) {s : Machine.State} (h : Keeps s0 s) :
    KeepsOut s0 (execLinkRetrain rate width s) := by
  unfold execLinkRetrain
  try dsimp only
  repeat' (first
    | with_reducible assumption | with_reducible apply State.put_keeps | with_reducible apply State.inc_keeps
    | with_reducible apply State.setGuard_keeps | with_reducible apply State.raise_keeps | with_reducible apply Keeps.doIf
    | with_reducible apply Keeps.next | with_reducible apply Keeps.ite)

theorem execFirmwareCommit001_keeps {s0 : State} (e : Sqe) {s : Machine.State} (h : Keeps s0 s) :
    KeepsOut s0 (execFirmwareCommit001 e s) := by
  unfold execFirmwareCommit001
  try dsimp only
  repeat' (first
    | with_reducible assumption | with_reducible apply State.fwCommitCmd_keeps | with_reducible apply State.vetStaged_keeps
    | with_reducible apply State.adminDone_keeps | with_reducible apply State.setBoot_keeps
    | with_reducible apply State.programSlot_keeps | with_reducible apply Keeps.next | with_reducible apply Keeps.ite | split
    | (intro _; try dsimp only))

theorem execPwrPadrel_keeps {s0 : State} (p : Sys2Proof.Path) (v : Word) {s : Machine.State} (h : Keeps s0 s) :
    KeepsOut s0 (execPwrPadrel p v s) := by
  unfold execPwrPadrel
  try dsimp only
  repeat' (first
    | with_reducible assumption | with_reducible apply State.writePadrel_keeps | with_reducible apply Keeps.next)

theorem execControllerReset_keeps {s0 : State} {s : Machine.State} (h : Keeps s0 s) :
    KeepsOut s0 (execControllerReset s) := by
  unfold execControllerReset
  try dsimp only
  repeat' (first
    | with_reducible assumption | with_reducible apply State.controllerOff_keeps | with_reducible apply Keeps.next
    | with_reducible apply Keeps.ite)

theorem execEvtFlushDone_keeps {s0 : State} {s : Machine.State} (h : Keeps s0 s) :
    KeepsOut s0 (execEvtFlushDone s) := by
  unfold execEvtFlushDone
  try dsimp only
  repeat' (first
    | with_reducible assumption | with_reducible apply State.put_keeps | with_reducible apply State.askFlush_keeps
    | with_reducible apply Keeps.next | with_reducible apply Keeps.ite | split | intro _
    | fail_if_no_progress (with_reducible apply Keeps.upd))

theorem execChopTest_keeps {s0 : State} (p : Sys2Proof.Path) (v : Word) {s : Machine.State} (h : Keeps s0 s) :
    KeepsOut s0 (execChopTest p v s) := by
  unfold execChopTest
  try dsimp only
  repeat' (first
    | with_reducible assumption | with_reducible apply State.writeHrvCmd_keeps | with_reducible apply Keeps.next)

theorem execChopperOff_keeps {s0 : State} (mbus : ℕ) {s : Machine.State} (h : Keeps s0 s) :
    KeepsOut s0 (execChopperOff mbus s) := by
  unfold execChopperOff
  try dsimp only
  repeat' (first
    | with_reducible assumption | with_reducible apply State.put_keeps | with_reducible apply State.onHrv_keeps
    | with_reducible apply Keeps.next | with_reducible apply Keeps.ite)

theorem execSrvSetcmdGo_keeps {s0 : State} (p : Sys2Proof.Path) (v : Word) {s : Machine.State} (h : Keeps s0 s) :
    KeepsOut s0 (execSrvSetcmdGo p v s) := by
  unfold execSrvSetcmdGo
  try dsimp only
  repeat' (first
    | with_reducible assumption | with_reducible apply State.writeSetcmd_keeps | with_reducible apply Keeps.next)

theorem State.copyImage_keeps {s0 : State} (f : ℕ → Byte) {s : Machine.State} (h : Keeps s0 s) :
    Keeps s0 (State.copyImage f s) := by
  unfold State.copyImage
  try dsimp only
  repeat' (first
    | with_reducible assumption | intro _ | with_reducible apply State.setHbmBytes_keeps | with_reducible apply Keeps.next
    | with_reducible apply Keeps.ite | split | fail_if_no_progress (with_reducible apply Keeps.upd))

theorem State.installChn_keeps {s0 : State} (f : ℕ → Byte) (n : Fin 4) {s : Machine.State} (h : Keeps s0 s) :
    Keeps s0 (State.installChn f n s) := by
  unfold State.installChn
  try dsimp only
  repeat' (first
    | with_reducible assumption | intro _ | with_reducible apply State.onLane_keeps)

theorem State.startImage_keeps {s0 : State} (f : ℕ → Byte) (m : ImageIn) (src : ℕ) {s : Machine.State} (h : Keeps s0 s) :
    Keeps s0 (State.startImage f m src s) := by
  unfold State.startImage
  try dsimp only
  repeat' (first
    | with_reducible assumption | intro _ | with_reducible apply State.put_keeps | with_reducible apply State.recordImage_keeps
    | with_reducible apply State.copyImage_keeps | with_reducible apply State.onBoot_keeps | with_reducible apply State.setReady_keeps
    | with_reducible apply State.configGo_keeps | with_reducible apply State.startTime_keeps
    | with_reducible apply State.installReg_keeps | with_reducible apply State.ctrTotals_keeps | with_reducible apply Keeps.activate
    | with_reducible apply State.onMap_keeps | with_reducible apply State.installChn_keeps | with_reducible apply State.loadLane_keeps
    | with_reducible apply State.laneSource_keeps | (with_reducible refine Keeps.doAll (fun _ _ _ => ?_) ?_) <;> try dsimp only
    | with_reducible apply Keeps.next | with_reducible apply Keeps.ite | split | fail_if_no_progress (with_reducible apply Keeps.upd))

theorem execShutdownNotificationAbrupt_keeps {s0 : State} {s : Machine.State} (h : Keeps s0 s) :
    KeepsOut s0 (execShutdownNotificationAbrupt s) := by
  unfold execShutdownNotificationAbrupt
  try dsimp only
  repeat' (first
    | with_reducible assumption | with_reducible apply State.onNvme_keeps | with_reducible apply Keeps.next
    | with_reducible apply Keeps.ite)

theorem execSupplyQualified_keeps {s0 : State} {s : Machine.State} (h : Keeps s0 s) :
    KeepsOut s0 (execSupplyQualified s) := by
  unfold execSupplyQualified
  try dsimp only
  repeat' (first
    | with_reducible assumption | with_reducible apply State.onHrv_keeps | with_reducible apply State.put_keeps
    | with_reducible apply Keeps.next | with_reducible apply Keeps.ite | split | intro _
    | fail_if_no_progress (with_reducible apply Keeps.upd))

theorem execShutdownNotificationNormal_keeps {s0 : State} {s : Machine.State} (h : Keeps s0 s) :
    KeepsOut s0 (execShutdownNotificationNormal s) := by
  unfold execShutdownNotificationNormal
  try dsimp only
  repeat' (first
    | with_reducible assumption | with_reducible apply State.askFlush_keeps | with_reducible apply State.pump_keeps
    | with_reducible apply State.onNvme_keeps | with_reducible apply Keeps.next | with_reducible apply Keeps.ite)

theorem execParkTimeout_keeps {s0 : State} {s : Machine.State} (h : Keeps s0 s) :
    KeepsOut s0 (execParkTimeout s) := by
  unfold execParkTimeout
  try dsimp only
  repeat' (first
    | with_reducible assumption | with_reducible apply State.endPark_keeps | with_reducible apply Keeps.next
    | with_reducible apply Keeps.ite)

theorem execShutdownComplete_keeps {s0 : State} {s : Machine.State} (h : Keeps s0 s) :
    KeepsOut s0 (execShutdownComplete s) := by
  unfold execShutdownComplete
  try dsimp only
  repeat' (first
    | with_reducible assumption | with_reducible apply State.onNvme_keeps | with_reducible apply State.countersRecord_keeps
    | with_reducible apply Keeps.next | with_reducible apply Keeps.ite)

theorem execScaGo_keeps {s0 : State} (p : Sys2Proof.Path) (v : Word) {s : Machine.State} (h : Keeps s0 s) :
    KeepsOut s0 (execScaGo p v s) := by
  unfold execScaGo
  try dsimp only
  repeat' (first
    | with_reducible assumption | with_reducible apply State.writeScaGo_keeps | with_reducible apply Keeps.next)

theorem execPerstNAssert_keeps {s0 : State} {s : Machine.State} (h : Keeps s0 s) :
    KeepsOut s0 (execPerstNAssert s) := by
  unfold execPerstNAssert
  try dsimp only
  repeat' (first
    | with_reducible assumption | with_reducible apply State.linkDown_keeps | with_reducible apply State.hostReset_keeps
    | with_reducible apply State.onNvme_keeps | with_reducible apply Keeps.next | with_reducible apply Keeps.ite)

theorem execSetInstallDone_keeps {s0 : State} (ecc : Bool) {s : Machine.State} (h : Keeps s0 s) :
    KeepsOut s0 (execSetInstallDone ecc s) := by
  unfold execSetInstallDone
  try dsimp only
  repeat' (first
    | with_reducible assumption | with_reducible apply State.readWords_keeps | with_reducible apply State.raise_keeps
    | with_reducible apply State.put_keeps | with_reducible apply State.onServo_keeps | with_reducible apply State.installIdle_keeps
    | with_reducible apply State.inc_keeps | with_reducible apply Keeps.next | with_reducible apply Keeps.ite | split)

theorem execChopperOn_keeps {s0 : State} (mbus : ℕ) {s : Machine.State} (h : Keeps s0 s) :
    KeepsOut s0 (execChopperOn mbus s) := by
  unfold execChopperOn
  try dsimp only
  repeat' (first
    | with_reducible assumption | with_reducible apply State.put_keeps | with_reducible apply State.onHrv_keeps
    | with_reducible apply Keeps.next | with_reducible apply Keeps.ite)

theorem execNamespaceReady_keeps {s0 : State} {s : Machine.State} (h : Keeps s0 s) :
    KeepsOut s0 (execNamespaceReady s) := by
  unfold execNamespaceReady
  try dsimp only
  repeat' (first
    | with_reducible assumption | with_reducible apply State.onNvme_keeps | with_reducible apply State.onBoot_keeps
    | with_reducible apply State.journal_keeps | with_reducible apply State.journalMan_keeps | with_reducible apply State.aen_keeps
    | with_reducible apply State.pump_keeps | with_reducible apply State.setReady_keeps
    | (with_reducible refine Keeps.doAll (fun _ _ _ => ?_) ?_) <;> try dsimp only | with_reducible apply Keeps.next
    | with_reducible apply Keeps.ite)

theorem execPgoodCoreRise_keeps {s0 : State} {s : Machine.State} (h : Keeps s0 s) :
    KeepsOut s0 (execPgoodCoreRise s) := by
  unfold execPgoodCoreRise
  try dsimp only
  repeat' (first
    | with_reducible assumption | with_reducible apply State.onBoot_keeps | with_reducible apply Keeps.next
    | with_reducible apply Keeps.ite | split | intro _ | fail_if_no_progress (with_reducible apply Keeps.upd))

theorem State.commitDone_keeps {s0 : State} (r : CplRec) {s : Machine.State} (h : Keeps s0 s) :
    Keeps s0 (State.commitDone r s) := by
  unfold State.commitDone
  try dsimp only
  repeat' (first
    | with_reducible assumption | intro _ | with_reducible apply State.adminDone_keeps | with_reducible apply Keeps.next
    | with_reducible apply Keeps.ite | split | fail_if_no_progress (with_reducible apply Keeps.upd))

theorem execFwSlotProgrammed_keeps {s0 : State} {s : Machine.State} (h : Keeps s0 s) :
    KeepsOut s0 (execFwSlotProgrammed s) := by
  unfold execFwSlotProgrammed
  try dsimp only
  repeat' (first
    | with_reducible assumption | with_reducible apply State.setBoot_keeps | with_reducible apply State.programSlot_keeps
    | with_reducible apply State.commitDone_keeps | with_reducible apply State.onNvme_keeps | with_reducible apply State.aen_keeps
    | with_reducible apply State.put_keeps | (with_reducible refine Keeps.doAll (fun _ _ _ => ?_) ?_) <;> try dsimp only
    | with_reducible apply Keeps.next | with_reducible apply Keeps.ite | split | intro _
    | fail_if_no_progress (with_reducible apply Keeps.upd))

theorem execChopTestEnd_keeps {s0 : State} (isns : Byte) {s : Machine.State} (h : Keeps s0 s) :
    KeepsOut s0 (execChopTestEnd isns s) := by
  unfold execChopTestEnd
  try dsimp only
  repeat' (first
    | with_reducible assumption | with_reducible apply State.chopCheck_keeps | with_reducible apply State.onHrv_keeps
    | with_reducible apply Keeps.next | with_reducible apply Keeps.ite)

theorem execImageLoadDone_keeps {s0 : State} (m : ImageIn) {s : Machine.State} (h : Keeps s0 s) :
    KeepsOut s0 (execImageLoadDone m s) := by
  unfold execImageLoadDone
  try dsimp only
  repeat' (first
    | with_reducible assumption | with_reducible apply State.commitDone_keeps | with_reducible apply State.installRest_keeps
    | with_reducible apply State.startImage_keeps | with_reducible apply State.domFailed_keeps
    | with_reducible apply State.minimal_keeps | with_reducible apply State.put_keeps | with_reducible apply State.pickSlot_keeps
    | with_reducible apply State.onBoot_keeps | with_reducible apply State.inc_keeps | with_reducible apply State.coldSlot_keeps
    | (with_reducible refine Keeps.doAll (fun _ _ _ => ?_) ?_) <;> try dsimp only | with_reducible apply Keeps.next
    | with_reducible apply Keeps.ite | split | intro _ | (refine Keeps.pair ‹_ = (_, _)› ?_))

theorem execKeelRebuildDone_keeps {s0 : State} {s : Machine.State} (h : Keeps s0 s) :
    KeepsOut s0 (execKeelRebuildDone s) := by
  unfold execKeelRebuildDone
  try dsimp only
  repeat' (first
    | with_reducible assumption | with_reducible apply State.put_keeps | with_reducible apply State.putKeel_keeps
    | (with_reducible refine Keeps.doAll (fun _ _ _ => ?_) ?_) <;> try dsimp only | with_reducible apply Keeps.next
    | with_reducible apply Keeps.ite | split)

theorem execHrvGo_keeps {s0 : State} (p : Sys2Proof.Path) (v : Word) {s : Machine.State} (h : Keeps s0 s) :
    KeepsOut s0 (execHrvGo p v s) := by
  unfold execHrvGo
  try dsimp only
  repeat' (first
    | with_reducible assumption | with_reducible apply State.writeHrvGo_keeps | with_reducible apply Keeps.next)

theorem execSupplyLoss_keeps {s0 : State} {s : Machine.State} (h : Keeps s0 s) :
    KeepsOut s0 (execSupplyLoss s) := by
  unfold execSupplyLoss
  try dsimp only
  repeat' (first
    | with_reducible assumption | with_reducible apply State.trigger_keeps | with_reducible apply Keeps.next)

theorem execScaSkcmdGo_keeps {s0 : State} (p : Sys2Proof.Path) (a : Fin 4) (v : Word) {s : Machine.State} (h : Keeps s0 s) :
    KeepsOut s0 (execScaSkcmdGo p a v s) := by
  unfold execScaSkcmdGo
  try dsimp only
  repeat' (first
    | with_reducible assumption | with_reducible apply State.writeSkcmd_keeps | with_reducible apply Keeps.next)

theorem execEmergenceStepTimeout_keeps {s0 : State} {s : Machine.State} (h : Keeps s0 s) :
    KeepsOut s0 (execEmergenceStepTimeout s) := by
  unfold execEmergenceStepTimeout
  try dsimp only
  repeat' (first
    | with_reducible assumption | with_reducible apply State.domFailed_keeps | with_reducible apply State.onPwr_keeps
    | with_reducible apply Keeps.next | with_reducible apply Keeps.ite | split)

theorem execThermalCritical_keeps {s0 : State} {s : Machine.State} (h : Keeps s0 s) :
    KeepsOut s0 (execThermalCritical s) := by
  unfold execThermalCritical
  try dsimp only
  repeat' (first
    | with_reducible assumption | with_reducible apply State.diapauseFor_keeps | with_reducible apply Keeps.next
    | with_reducible apply Keeps.ite)

theorem execControllerEnable_keeps {s0 : State} (cc : Word) (acqs : BitVec 12) {s : Machine.State} (h : Keeps s0 s) :
    KeepsOut s0 (execControllerEnable cc acqs s) := by
  unfold execControllerEnable
  try dsimp only
  repeat' (first
    | with_reducible assumption | with_reducible apply State.setReady_keeps | with_reducible apply State.onNvme_keeps
    | with_reducible apply Keeps.next | with_reducible apply Keeps.ite)

theorem execCfgRcvcmdKeel_keeps {s0 : State} (p : Sys2Proof.Path) (v : Word) {s : Machine.State} (h : Keeps s0 s) :
    KeepsOut s0 (execCfgRcvcmdKeel p v s) := by
  unfold execCfgRcvcmdKeel
  try dsimp only
  repeat' (first
    | with_reducible assumption | with_reducible apply State.writeRcvcmd_keeps | with_reducible apply Keeps.next)

theorem State.reloadLane_keeps {s0 : State} (f : ℕ → Byte) (n : Fin 4) {s : Machine.State} (h : Keeps s0 s) :
    Keeps s0 (State.reloadLane f n s) := by
  unfold State.reloadLane
  try dsimp only
  repeat' (first
    | with_reducible assumption | intro _ | with_reducible apply State.laneSource_keeps | with_reducible apply State.loadStore_keeps
    | with_reducible apply State.mcsStart_keeps | with_reducible apply Keeps.next | with_reducible apply Keeps.ite)

theorem execFunctionLevelReset_keeps {s0 : State} {s : Machine.State} (h : Keeps s0 s) :
    KeepsOut s0 (execFunctionLevelReset s) := by
  unfold execFunctionLevelReset
  try dsimp only
  repeat' (first
    | with_reducible assumption | with_reducible apply State.raise_keeps | with_reducible apply State.configGo_keeps
    | with_reducible apply Keeps.setReg | with_reducible apply State.hostReset_keeps | with_reducible apply Keeps.next
    | with_reducible apply Keeps.ite)

theorem execLinkUp_keeps {s0 : State} (rate : Fin 6) (width : Fin 5) {s : Machine.State} (h : Keeps s0 s) :
    KeepsOut s0 (execLinkUp rate width s) := by
  unfold execLinkUp
  try dsimp only
  repeat' (first
    | with_reducible assumption | with_reducible apply State.put_keeps | with_reducible apply State.configGo_keeps
    | with_reducible apply State.onNvme_keeps | with_reducible apply Keeps.next | with_reducible apply Keeps.ite)

theorem execFwActivationQuiesced_keeps {s0 : State} {s : Machine.State} (h : Keeps s0 s) :
    KeepsOut s0 (execFwActivationQuiesced s) := by
  unfold execFwActivationQuiesced
  try dsimp only
  repeat' (first
    | with_reducible assumption | with_reducible apply State.put_keeps | with_reducible apply State.recordImage_keeps
    | with_reducible apply State.copyImage_keeps | with_reducible apply State.onNvme_keeps
    | with_reducible apply State.reloadLane_keeps | with_reducible apply State.pump_keeps | with_reducible apply State.commitDone_keeps
    | with_reducible apply State.raiseAt_keeps | (with_reducible refine Keeps.doAll (fun _ _ _ => ?_) ?_) <;> try dsimp only
    | with_reducible apply Keeps.next | with_reducible apply Keeps.ite | split)

theorem execChopperFault_keeps {s0 : State} (isns : Byte) {s : Machine.State} (h : Keeps s0 s) :
    KeepsOut s0 (execChopperFault isns s) := by
  unfold execChopperFault
  try dsimp only
  repeat' (first
    | with_reducible assumption | with_reducible apply State.chopCheck_keeps | with_reducible apply Keeps.next)

theorem execCrystalTimeout_keeps {s0 : State} {s : Machine.State} (h : Keeps s0 s) :
    KeepsOut s0 (execCrystalTimeout s) := by
  unfold execCrystalTimeout
  try dsimp only
  repeat' (first
    | with_reducible assumption | with_reducible apply State.diapauseFor_keeps | with_reducible apply Keeps.next
    | with_reducible apply Keeps.ite | split | intro _ | fail_if_no_progress (with_reducible apply Keeps.upd))

theorem execHotReset_keeps {s0 : State} {s : Machine.State} (h : Keeps s0 s) :
    KeepsOut s0 (execHotReset s) := by
  unfold execHotReset
  try dsimp only
  repeat' (first
    | with_reducible assumption | with_reducible apply State.linkDown_keeps | with_reducible apply State.hostReset_keeps
    | with_reducible apply Keeps.next | with_reducible apply Keeps.ite)

theorem execFlutterGo_keeps {s0 : State} (p : Sys2Proof.Path) (v : Word) {s : Machine.State} (h : Keeps s0 s) :
    KeepsOut s0 (execFlutterGo p v s) := by
  unfold execFlutterGo
  try dsimp only
  repeat' (first
    | with_reducible assumption | with_reducible apply State.writeFlctl_keeps | with_reducible apply Keeps.next)

theorem execCocoonAgree_keeps {s0 : State} {s : Machine.State} (h : Keeps s0 s) :
    KeepsOut s0 (execCocoonAgree s) := by
  unfold execCocoonAgree
  try dsimp only
  repeat' (first
    | with_reducible assumption | with_reducible apply State.rollback_keeps | with_reducible apply State.cocoonHead_keeps
    | with_reducible apply Keeps.next | with_reducible apply Keeps.ite | split)

theorem execCocoonDelayTimeout_keeps {s0 : State} {s : Machine.State} (h : Keeps s0 s) :
    KeepsOut s0 (execCocoonDelayTimeout s) := by
  unfold execCocoonDelayTimeout
  try dsimp only
  repeat' (first
    | with_reducible assumption | with_reducible apply State.rollback_keeps | with_reducible apply Keeps.next
    | with_reducible apply Keeps.ite | split)

end Sys2Proof.Machine
end

