-- ==== Sys2Proof/Laws/KeepsCommands.lean ====
section
/-! SUPPORT. That what every command keeps (`Keeps`) is kept by the other commands. -/

namespace Sys2Proof.Machine
open Sys2Proof

theorem State.laneTake_keeps {s0 : State} (n : Fin 4) (a : ℕ) (v : Word) {s : Machine.State} (h : Keeps s0 s) :
    Keeps s0 (State.laneTake n a v s) := by
  unfold State.laneTake
  try dsimp only
  repeat' (first
    | with_reducible assumption | intro _ | with_reducible apply State.onLane_keeps | with_reducible apply State.take_keeps
    | with_reducible apply Keeps.next | with_reducible apply Keeps.ite)

theorem State.writeEqmu_keeps {s0 : State} (p : Sys2Proof.Path) (n : Fin 4) (v : Word) {s : Machine.State} (h : Keeps s0 s) :
    Keeps s0 (State.writeEqmu p n v s) := by
  unfold State.writeEqmu
  try dsimp only
  repeat' (first
    | with_reducible assumption | (intro _; try dsimp only) | with_reducible apply State.gated_keeps
    | with_reducible apply State.laneTake_keeps)

theorem execEqmuSave_keeps {s0 : State} (p : Sys2Proof.Path) (n : Fin 4) (v : Word) {s : Machine.State} (h : Keeps s0 s) :
    KeepsOut s0 (execEqmuSave p n v s) := by
  unfold execEqmuSave
  try dsimp only
  repeat' (first
    | with_reducible assumption | with_reducible apply State.writeEqmu_keeps | with_reducible apply Keeps.next)

theorem State.loadChunk_keeps {s0 : State} (n : ℕ) (first : ℕ) (k : ℕ) (bad : List ℕ) {s : Machine.State} (h : Keeps s0 s) :
    Keeps s0 (State.loadChunk n first k bad s).2 := by
  unfold State.loadChunk
  try dsimp only
  repeat' (first
    | with_reducible assumption | intro _ | with_reducible apply State.readWords_keeps)

theorem State.loadRecord_keeps {s0 : State} (n : ℕ) (first : ℕ) (count : ℕ) (bad : List ℕ) {s : Machine.State} (h : Keeps s0 s) :
    Keeps s0 (State.loadRecord n first count bad s).2 := by
  unfold State.loadRecord
  try dsimp only
  repeat' (first
    | with_reducible assumption | intro _ | with_reducible apply State.loadChunk_keeps
    | (with_reducible refine Keeps.foldlP (fun _ _ _ => ?_) ?_) <;> try dsimp only)

theorem State.engineLoad_keeps {s0 : State} (e : ℕ) (x : CrysEnt) (bad : List ℕ) {s : Machine.State} (h : Keeps s0 s) :
    Keeps s0 (State.engineLoad e x bad s) := by
  unfold State.engineLoad
  try dsimp only
  repeat' (first
    | with_reducible assumption | (intro _; try dsimp only) | with_reducible apply State.loadRecord_keeps
    | with_reducible apply State.raise_keeps | with_reducible apply State.onEngine_keeps | with_reducible apply State.syncCrys_keeps
    | with_reducible apply State.put_keeps | with_reducible apply State.unpin_keeps | with_reducible apply Keeps.doIf
    | (with_reducible refine Keeps.foldlP (fun _ _ _ => ?_) ?_) <;> try dsimp only | with_reducible apply Keeps.next
    | with_reducible apply Keeps.ite | split)

theorem State.spoilFlash_keeps {s0 : State} (a : ℕ) (n : ℕ) {s : Machine.State} (h : Keeps s0 s) :
    Keeps s0 (State.spoilFlash a n s) := by
  exact h.trans ⟨rfl, rfl, fun _ h => h, id, fun x => cwf_foldl _ _ _ _ (fun _ _ => cwf_cset _ _ _ _) x, id, id⟩

theorem State.spoilOp_keeps {s0 : State} (op : ℕ) (page : ℕ) {s : Machine.State} (h : Keeps s0 s) :
    Keeps s0 (State.spoilOp op page s) := by
  unfold State.spoilOp
  try dsimp only
  repeat' (first
    | with_reducible assumption | intro _ | with_reducible apply State.spoilFlash_keeps | with_reducible apply Keeps.next
    | with_reducible apply Keeps.ite)

theorem State.warmReset_keeps {s0 : State} {s : Machine.State} (h : Keeps s0 s) :
    Keeps s0 (State.warmReset s) := by
  unfold State.warmReset
  try dsimp only
  repeat' (first
    | with_reducible assumption | intro _ | with_reducible apply State.spoilOp_keeps | with_reducible apply State.put_keeps
    | with_reducible apply Keeps.resetRegs | with_reducible apply Keeps.next | with_reducible apply Keeps.ite | split
    | fail_if_no_progress (with_reducible apply Keeps.upd))

theorem State.onDma_keeps {s0 : State} (n : Fin 16) (f : DmaCh → DmaCh) {s : Machine.State} (h : Keeps s0 s) :
    Keeps s0 (State.onDma n f s) := by
  unfold State.onDma
  try dsimp only
  repeat' (first
    | with_reducible assumption | intro _ | with_reducible apply Keeps.next | with_reducible apply Keeps.ite | split
    | fail_if_no_progress (with_reducible apply Keeps.upd))

theorem State.goTo_keeps {s0 : State} (n : Fin 16) (pc : ℕ) {s : Machine.State} (h : Keeps s0 s) :
    Keeps s0 (State.goTo n pc s) := by
  unfold State.goTo
  try dsimp only
  repeat' (first
    | with_reducible assumption | intro _ | with_reducible apply State.onDma_keeps)

theorem State.writeDmaDb_keeps {s0 : State} (p : Sys2Proof.Path) (n : Fin 16) (v : Word) {s : Machine.State} (h : Keeps s0 s) :
    Keeps s0 (State.writeDmaDb p n v s) := by
  unfold State.writeDmaDb
  try dsimp only
  repeat' (first
    | with_reducible assumption | (intro _; try dsimp only) | with_reducible apply State.gated_keeps
    | with_reducible apply State.put_keeps | with_reducible apply State.goTo_keeps | with_reducible apply Keeps.next
    | with_reducible apply Keeps.ite)

theorem execDmaDoorbell_keeps {s0 : State} (p : Sys2Proof.Path) (n : Fin 16) (v : Word) {s : Machine.State} (h : Keeps s0 s) :
    KeepsOut s0 (execDmaDoorbell p n v s) := by
  unfold execDmaDoorbell
  try dsimp only
  repeat' (first
    | with_reducible assumption | with_reducible apply State.writeDmaDb_keeps | with_reducible apply Keeps.next)

theorem State.directive_keeps {s0 : State} (e : Sqe) (f : Machine.State → Machine.State) {s : Machine.State} (hff : ∀ y0, Keeps s0 y0 → Keeps s0 (f y0)) (h : Keeps s0 s) :
    Keeps s0 (State.directive e f s) := by
  unfold State.directive
  try dsimp only
  repeat' (first
    | with_reducible assumption | (intro _; try dsimp only) | with_reducible apply State.admin_keeps
    | with_reducible apply State.adminDone_keeps | with_reducible apply hff | with_reducible apply Keeps.next
    | with_reducible apply Keeps.ite)

theorem execDirectiveReceive_keeps {s0 : State} (e : Sqe) {s : Machine.State} (h : Keeps s0 s) :
    KeepsOut s0 (execDirectiveReceive e s) := by
  unfold execDirectiveReceive
  try dsimp only
  repeat' (first
    | with_reducible assumption | with_reducible apply State.directive_keeps | with_reducible apply State.adminDone_keeps
    | with_reducible apply State.onNvme_keeps | with_reducible apply Keeps.next | with_reducible apply Keeps.ite | split
    | (intro _; try dsimp only))

theorem State.transferFails_keeps {s0 : State} (id : ℕ) {s : Machine.State} (h : Keeps s0 s) :
    Keeps s0 (State.transferFails id s) := by
  unfold State.transferFails
  try dsimp only
  repeat' (first
    | with_reducible assumption | intro _ | with_reducible apply State.pump_keeps | with_reducible apply State.failWrite_keeps
    | with_reducible apply State.stageRecord_keeps | with_reducible apply Keeps.next | with_reducible apply Keeps.ite | split)

theorem State.writeSysRst_keeps {s0 : State} (p : Sys2Proof.Path) (v : Word) {s : Machine.State} (h : Keeps s0 s) :
    Keeps s0 (State.writeSysRst p v s) := by
  unfold State.writeSysRst
  try dsimp only
  repeat' (first
    | with_reducible assumption | (intro _; try dsimp only) | with_reducible apply State.gated_keeps
    | with_reducible apply State.onBuf_keeps | with_reducible apply State.discardAll_keeps | with_reducible apply State.onBoot_keeps
    | with_reducible apply State.unloadAll_keeps | with_reducible apply State.beginSwitchCommit_keeps | with_reducible apply Keeps.next
    | with_reducible apply Keeps.ite)

theorem execSysRst_keeps {s0 : State} (p : Sys2Proof.Path) (v : Word) {s : Machine.State} (h : Keeps s0 s) :
    KeepsOut s0 (execSysRst p v s) := by
  unfold execSysRst
  try dsimp only
  repeat' (first
    | with_reducible assumption | with_reducible apply State.writeSysRst_keeps | with_reducible apply Keeps.next)

theorem State.wakeHbm_keeps {s0 : State} {s : Machine.State} (h : Keeps s0 s) :
    Keeps s0 (State.wakeHbm s) := by
  unfold State.wakeHbm
  try dsimp only
  repeat' (first
    | with_reducible assumption | intro _ | with_reducible apply State.pwrGo_keeps | with_reducible apply Keeps.next
    | with_reducible apply Keeps.ite)

theorem State.engineEnd_keeps {s0 : State} (e : ℕ) (outcome : ℕ) (data : List Byte) {s : Machine.State} (h : Keeps s0 s) :
    Keeps s0 (State.engineEnd e outcome data s) := by
  unfold State.engineEnd
  try dsimp only
  repeat' (first
    | with_reducible assumption | intro _ | with_reducible apply State.unpin_keeps | with_reducible apply State.put_keeps
    | with_reducible apply State.onEngine_keeps | with_reducible apply State.crysEnd_keeps | with_reducible apply Keeps.next
    | with_reducible apply Keeps.ite | split)

theorem State.engineFinish_keeps {s0 : State} (e : ℕ) (x : CrysEnt) {s : Machine.State} (h : Keeps s0 s) :
    Keeps s0 (State.engineFinish e x s) := by
  unfold State.engineFinish
  try dsimp only
  repeat' (first
    | with_reducible assumption | intro _ | with_reducible apply State.engineEnd_keeps | with_reducible apply State.put_keeps
    | with_reducible apply State.onEngine_keeps | with_reducible apply Keeps.next | with_reducible apply Keeps.ite | split)

theorem State.chError_keeps {s0 : State} (n : Fin 16) (code : ℕ) (a : ℕ) (wr : Bool) {s : Machine.State} (h : Keeps s0 s) :
    Keeps s0 (State.chError n code a wr s) := by
  unfold State.chError
  try dsimp only
  repeat' (first
    | with_reducible assumption | intro _ | with_reducible apply State.put_keeps | with_reducible apply State.raiseAt_keeps)

theorem State.latchEnd_keeps {s0 : State} (n : Fin 16) (a : ℕ) {s : Machine.State} (h : Keeps s0 s) :
    Keeps s0 (State.latchEnd n a s) := by
  unfold State.latchEnd
  try dsimp only
  repeat' (first
    | with_reducible assumption | intro _ | with_reducible apply State.put_keeps)

theorem State.chFault_keeps {s0 : State} (n : Fin 16) (code : ℕ) {s : Machine.State} (h : Keeps s0 s) :
    Keeps s0 (State.chFault n code s) := by
  unfold State.chFault
  try dsimp only
  repeat' (first
    | with_reducible assumption | intro _ | with_reducible apply State.put_keeps | with_reducible apply State.latchEnd_keeps
    | with_reducible apply State.raiseAt_keeps)

theorem State.dmaIns_keeps {s0 : State} (n : Fin 16) (op : Byte) (f : List Byte → Machine.State → Machine.State) {s : Machine.State} (hff : ∀ y0 y1, Keeps s0 y1 → Keeps s0 (f y0 y1)) (h : Keeps s0 s) :
    Keeps s0 (State.dmaIns n op f s) := by
  unfold State.dmaIns
  try dsimp only
  repeat' (first
    | with_reducible assumption | intro _ | with_reducible apply State.chError_keeps | with_reducible apply State.chFault_keeps
    | with_reducible apply hff | with_reducible apply Keeps.next | with_reducible apply Keeps.ite)

theorem State.setSig_keeps {s0 : State} (i : ℕ) (b : Bool) {s : Machine.State} (h : Keeps s0 s) :
    Keeps s0 (State.setSig i b s) := by
  unfold State.setSig
  try dsimp only
  repeat' (first
    | with_reducible assumption | intro _ | with_reducible apply State.putBit_keeps | with_reducible apply Keeps.next
    | with_reducible apply Keeps.ite)

theorem State.retire_keeps {s0 : State} (n : Fin 16) (m : DmaMove) {s : Machine.State} (h : Keeps s0 s) :
    Keeps s0 (State.retire n m s) := by
  unfold State.retire
  try dsimp only
  repeat' (first
    | with_reducible assumption | intro _ | with_reducible apply State.setSig_keeps | with_reducible apply State.goTo_keeps
    | with_reducible apply Keeps.next | with_reducible apply Keeps.ite)

theorem State.beginDma_keeps {s0 : State} (n : Fin 16) (movs : Bool) (i : List Byte) {s : Machine.State} (h : Keeps s0 s) :
    Keeps s0 (State.beginDma n movs i s) := by
  unfold State.beginDma
  try dsimp only
  repeat' (first
    | with_reducible assumption | intro _ | with_reducible apply State.chFault_keeps | with_reducible apply State.retire_keeps
    | with_reducible apply State.onDma_keeps | with_reducible apply Keeps.next | with_reducible apply Keeps.ite)

theorem execDmaMove_keeps {s0 : State} (n : Fin 16) {s : Machine.State} (h : Keeps s0 s) :
    KeepsOut s0 (execDmaMove n s) := by
  unfold execDmaMove
  try dsimp only
  repeat' (first
    | with_reducible assumption | with_reducible apply State.dmaIns_keeps | with_reducible apply State.beginDma_keeps
    | with_reducible apply Keeps.next)

theorem execEqTapCopy_keeps {s0 : State} (n : Fin 4) (k : ℕ) {s : Machine.State} (h : Keeps s0 s) :
    KeepsOut s0 (execEqTapCopy n k s) := by
  unfold execEqTapCopy
  try dsimp only
  repeat' (first
    | with_reducible assumption | with_reducible apply State.wroteWords_keeps | with_reducible apply State.onLane_keeps
    | with_reducible apply State.put_keeps | with_reducible apply Keeps.next | with_reducible apply Keeps.ite)

theorem State.setLoops_keeps {s0 : State} (n : Fin 16) (l : List DmaLoop) {s : Machine.State} (h : Keeps s0 s) :
    Keeps s0 (State.setLoops n l s) := by
  unfold State.setLoops
  try dsimp only
  repeat' (first
    | with_reducible assumption | intro _ | with_reducible apply State.put_keeps | with_reducible apply State.onDma_keeps)

theorem execEndl_keeps {s0 : State} (n : Fin 16) {s : Machine.State} (h : Keeps s0 s) :
    KeepsOut s0 (execEndl n s) := by
  unfold execEndl
  try dsimp only
  repeat' (first
    | with_reducible assumption | with_reducible apply State.dmaIns_keeps | with_reducible apply State.chFault_keeps
    | with_reducible apply State.goTo_keeps | with_reducible apply State.setLoops_keeps | with_reducible apply Keeps.next
    | with_reducible apply Keeps.ite | split | (intro _; try dsimp only))

theorem State.mismatch_keeps {s0 : State} (g : ℕ) (cyc : ℕ) {s : Machine.State} (h : Keeps s0 s) :
    Keeps s0 (State.mismatch g cyc s) := by
  unfold State.mismatch
  try dsimp only
  repeat' (first
    | with_reducible assumption | intro _ | with_reducible apply State.put_keeps | with_reducible apply State.diapauseFor_keeps
    | with_reducible apply Keeps.next | with_reducible apply Keeps.ite)

theorem execLockstepMismatch_keeps {s0 : State} (g : Option (Fin 8)) (cyc : Word) {s : Machine.State} (h : Keeps s0 s) :
    KeepsOut s0 (execLockstepMismatch g cyc s) := by
  unfold execLockstepMismatch
  try dsimp only
  repeat' (first
    | with_reducible assumption | with_reducible apply State.mismatch_keeps | with_reducible apply State.diapauseFor_keeps
    | with_reducible apply State.put_keeps | with_reducible apply Keeps.next | with_reducible apply Keeps.ite | split)

theorem State.setFeature_keeps {s0 : State} (fid : Nat) (f : State → Except CplRec State) (e : Sqe) {s : State}
    (h : Keeps s0 s) (hf : ∀ t u, Keeps s0 t → f t = .ok u → Keeps s0 u) : Keeps s0 (State.setFeature fid f e s) := by
  unfold State.setFeature
  refine State.admin_keeps _ _ _ ?_ h
  intro t ht
  repeat' split
  all_goals apply State.adminDone_keeps
  all_goals first
    | exact ht
    | exact hf _ _ ht ‹_›

theorem State.onFeats_keeps {s0 : State} (f : Feats → Feats) {s : Machine.State} (h : Keeps s0 s) :
    Keeps s0 (State.onFeats f s) := by
  unfold State.onFeats
  try dsimp only
  repeat' (first
    | with_reducible assumption | intro _ | with_reducible apply State.onNvme_keeps)

theorem execSetInterruptCoalescing_keeps {s0 : State} (e : Sqe) {s : Machine.State} (h : Keeps s0 s) :
    KeepsOut s0 (execSetInterruptCoalescing e s) := by
  unfold execSetInterruptCoalescing
  try dsimp only
  repeat' (first
    | with_reducible assumption | cases ‹Except.ok _ = Except.ok _› | cases ‹Except.error _ = Except.ok _› | split
    | with_reducible apply State.setFeature_keeps | with_reducible apply State.onFeats_keeps | with_reducible apply Keeps.next
    | with_reducible apply Keeps.ite | (intro _; try dsimp only))

theorem execBlkIgncntClr_keeps {s0 : State} (p : Sys2Proof.Path) (b : Fin 34) (v : Word) {s : Machine.State} (h : Keeps s0 s) :
    KeepsOut s0 (execBlkIgncntClr p b v s) := by
  unfold execBlkIgncntClr
  try dsimp only
  repeat' (first
    | with_reducible assumption | with_reducible apply State.gated_keeps | with_reducible apply State.clearIgn_keeps
    | with_reducible apply Keeps.next)

theorem execAlertResponse_keeps {s0 : State} (won : Bool) {s : Machine.State} (h : Keeps s0 s) :
    KeepsOut s0 (execAlertResponse won s) := by
  unfold execAlertResponse
  try dsimp only
  repeat' (first
    | with_reducible assumption | with_reducible apply State.put_keeps | with_reducible apply State.inc_keeps
    | with_reducible apply Keeps.next | with_reducible apply Keeps.ite | split | intro _
    | fail_if_no_progress (with_reducible apply Keeps.upd))

theorem execWarmResetTakesEffect_keeps {s0 : State} {s : Machine.State} (h : Keeps s0 s) :
    KeepsOut s0 (execWarmResetTakesEffect s) := by
  unfold execWarmResetTakesEffect
  try dsimp only
  repeat' (first
    | with_reducible assumption | with_reducible apply State.warmReset_keeps | with_reducible apply Keeps.next
    | with_reducible apply Keeps.ite)

theorem execWaitcEnd_keeps {s0 : State} (n : Fin 4) (e : WordEnv) {s : Machine.State} (h : Keeps s0 s) :
    KeepsOut s0 (execWaitcEnd n e s) := by
  unfold execWaitcEnd
  try dsimp only
  repeat' (first
    | with_reducible assumption | with_reducible apply State.onLane_keeps | with_reducible apply State.clocks_keeps
    | with_reducible apply State.condRead_keeps | with_reducible apply State.wordEnd_keeps | with_reducible apply State.opLc_keeps
    | with_reducible apply Keeps.next | with_reducible apply Keeps.ite)

theorem State.micro_keeps {s0 : State} (n : Fin 4) (fault : Option ℕ) (f : Machine.State → Machine.State) {s : Machine.State} (hff : ∀ y0, Keeps s0 y0 → Keeps s0 (f y0)) (h : Keeps s0 s) :
    Keeps s0 (State.micro n fault f s) := by
  unfold State.micro
  try dsimp only
  repeat' (first
    | with_reducible assumption | intro _ | with_reducible apply State.microFault_keeps | with_reducible apply hff
    | with_reducible apply Keeps.next | with_reducible apply Keeps.ite | split)

theorem execPreampStrobe_keeps {s0 : State} (n : Fin 4) (strobes : BitVec 7) {s : Machine.State} (h : Keeps s0 s) :
    KeepsOut s0 (execPreampStrobe n strobes s) := by
  unfold execPreampStrobe
  try dsimp only
  repeat' (first
    | with_reducible assumption | with_reducible apply State.micro_keeps | with_reducible apply State.opPreamp_keeps
    | with_reducible apply Keeps.doIf | with_reducible apply Keeps.next | with_reducible apply Keeps.ite | split
    | (intro _; try dsimp only))

theorem State.learn_keeps {s0 : State} (n : Fin 4) (p : Machine.PUnit) (o : ℕ) {s : Machine.State} (h : Keeps s0 s) :
    Keeps s0 (State.learn n p o s) := by
  unfold State.learn
  try dsimp only
  repeat' (first
    | with_reducible assumption | intro _ | with_reducible apply State.onLane_keeps | with_reducible apply State.add_keeps)

theorem State.bufMoved_keeps {s0 : State} (n : Fin 4) (write : Bool) (home : Bool) (mu : MUnit) {s : Machine.State} (h : Keeps s0 s) :
    Keeps s0 (State.bufMoved n write home mu s) := by
  unfold State.bufMoved
  try dsimp only
  repeat' (first
    | with_reducible assumption | intro _ | with_reducible apply State.add_keeps | with_reducible apply Keeps.setReg
    | with_reducible apply State.inc_keeps | with_reducible apply State.putBit_keeps | with_reducible apply State.put_keeps
    | with_reducible apply Keeps.next | with_reducible apply Keeps.ite)

theorem execTileOutcomePost_keeps {s0 : State} (n : Fin 4) (its : List (Option ℕ)) (words : List Codeword) (ecc : Bool) {s : Machine.State} (h : Keeps s0 s) :
    KeepsOut s0 (execTileOutcomePost n its words ecc s) := by
  unfold execTileOutcomePost
  try dsimp only
  repeat' (first
    | with_reducible assumption | with_reducible apply State.readWords_keeps | with_reducible apply State.onLane_keeps
    | with_reducible apply State.headRecord_keeps | with_reducible apply State.learn_keeps | with_reducible apply State.pump_keeps
    | with_reducible apply State.reread_keeps | with_reducible apply State.markRead_keeps | with_reducible apply State.inc_keeps
    | with_reducible apply State.unitRead_keeps | with_reducible apply State.bufMoved_keeps
    | with_reducible apply State.crysQueue_keeps | with_reducible apply Keeps.doIf | with_reducible apply Keeps.next
    | with_reducible apply Keeps.ite | split)

theorem State.writeSlot_keeps {s0 : State} (p : Sys2Proof.Path) (k : Fin 16) (hi : Bool) (v : Word) {s : Machine.State} (h : Keeps s0 s) :
    Keeps s0 (State.writeSlot p k hi v s) := by
  unfold State.writeSlot
  try dsimp only
  repeat' (first
    | with_reducible assumption | (intro _; try dsimp only) | with_reducible apply State.gated_keeps
    | with_reducible apply Keeps.setReg | with_reducible apply State.putBit_keeps | with_reducible apply State.raise_keeps
    | with_reducible apply Keeps.next | with_reducible apply Keeps.ite)

theorem State.startSlice_keeps {s0 : State} (lane : ℕ) (part : ℕ) (len : ℕ) (again : Bool) {s : Machine.State} (h : Keeps s0 s) :
    Keeps s0 (State.startSlice lane part len again s) := by
  unfold State.startSlice
  try dsimp only
  repeat' (first
    | with_reducible assumption | intro _ | with_reducible apply State.put_keeps | with_reducible apply Keeps.next
    | with_reducible apply Keeps.ite | split | fail_if_no_progress (with_reducible apply Keeps.upd))

theorem State.writeIsstCmd_keeps {s0 : State} (p : Sys2Proof.Path) (v : Word) {s : Machine.State} (h : Keeps s0 s) :
    Keeps s0 (State.writeIsstCmd p v s) := by
  unfold State.writeIsstCmd
  try dsimp only
  repeat' (first
    | with_reducible assumption | (intro _; try dsimp only) | with_reducible apply State.gated_keeps
    | with_reducible apply State.take_keeps | with_reducible apply State.startSlice_keeps | with_reducible apply Keeps.next
    | with_reducible apply Keeps.ite)

theorem State.voteFix_keeps {s0 : State} (i : ℕ) {s : Machine.State} (h : Keeps s0 s) :
    Keeps s0 (State.voteFix i s) := by
  unfold State.voteFix
  try dsimp only
  repeat' (first
    | with_reducible assumption | intro _ | with_reducible apply State.inc_keeps | with_reducible apply State.mirror_keeps
    | with_reducible apply Keeps.setReg | with_reducible apply State.put_keeps | with_reducible apply State.diapauseFor_keeps
    | with_reducible apply Keeps.next | with_reducible apply Keeps.ite)

theorem State.writeTmrInj_keeps {s0 : State} (p : Sys2Proof.Path) (v : Word) {s : Machine.State} (h : Keeps s0 s) :
    Keeps s0 (State.writeTmrInj p v s) := by
  unfold State.writeTmrInj
  try dsimp only
  repeat' (first
    | with_reducible assumption | (intro _; try dsimp only) | with_reducible apply State.gated_keeps
    | with_reducible apply State.take_keeps | with_reducible apply State.voteFix_keeps | with_reducible apply Keeps.setReg
    | with_reducible apply Keeps.next | with_reducible apply Keeps.ite)

theorem execTmrInj_keeps {s0 : State} (p : Sys2Proof.Path) (v : Word) {s : Machine.State} (h : Keeps s0 s) :
    KeepsOut s0 (execTmrInj p v s) := by
  unfold execTmrInj
  try dsimp only
  repeat' (first
    | with_reducible assumption | with_reducible apply State.writeTmrInj_keeps | with_reducible apply Keeps.next)

theorem execSenseAdcCheck_keeps {s0 : State} (a : Fin 7) (ok : Bool) {s : Machine.State} (h : Keeps s0 s) :
    KeepsOut s0 (execSenseAdcCheck a ok s) := by
  unfold execSenseAdcCheck
  try dsimp only
  repeat' (first
    | with_reducible assumption | with_reducible apply State.putBit_keeps | with_reducible apply State.raise_keeps
    | with_reducible apply State.writeHrvCtl_keeps | with_reducible apply Keeps.next | with_reducible apply Keeps.ite)

theorem State.writeMapCmd_keeps {s0 : State} (p : Sys2Proof.Path) (v : Word) {s : Machine.State} (h : Keeps s0 s) :
    Keeps s0 (State.writeMapCmd p v s) := by
  unfold State.writeMapCmd
  try dsimp only
  repeat' (first
    | with_reducible assumption | (intro _; try dsimp only) | with_reducible apply State.gated_keeps
    | with_reducible apply State.staleFills_keeps | with_reducible apply State.put_keeps | with_reducible apply State.ckptStart_keeps
    | with_reducible apply Keeps.next | with_reducible apply Keeps.ite)

theorem execMapCmdCkpt_keeps {s0 : State} (p : Sys2Proof.Path) (v : Word) {s : Machine.State} (h : Keeps s0 s) :
    KeepsOut s0 (execMapCmdCkpt p v s) := by
  unfold execMapCmdCkpt
  try dsimp only
  repeat' (first
    | with_reducible assumption | with_reducible apply State.writeMapCmd_keeps | with_reducible apply Keeps.next)

theorem State.logPage_keeps {s0 : State} (lid : ℕ) (align : ℕ) (f : Machine.State → List Byte) (e : Sqe) {s : Machine.State} (h : Keeps s0 s) :
    Keeps s0 (State.logPage lid align f e s) := by
  unfold State.logPage
  try dsimp only
  repeat' (first
    | with_reducible assumption | (intro _; try dsimp only) | with_reducible apply State.admin_keeps
    | with_reducible apply State.adminDone_keeps | with_reducible apply State.clearAen_keeps | with_reducible apply State.wakeHbm_keeps
    | with_reducible apply Keeps.next | with_reducible apply Keeps.ite)

theorem execCommandsSupportedLog_keeps {s0 : State} (e : Sqe) {s : Machine.State} (h : Keeps s0 s) :
    KeepsOut s0 (execCommandsSupportedLog e s) := by
  unfold execCommandsSupportedLog
  try dsimp only
  repeat' (first
    | with_reducible assumption | with_reducible apply State.logPage_keeps | with_reducible apply Keeps.next)

theorem execPasFrameSend_keeps {s0 : State} (n : Fin 4) {s : Machine.State} (h : Keeps s0 s) :
    KeepsOut s0 (execPasFrameSend n s) := by
  unfold execPasFrameSend
  try dsimp only
  repeat' (first
    | with_reducible assumption | with_reducible apply State.onLane_keeps | with_reducible apply Keeps.next
    | with_reducible apply Keeps.ite | split)

theorem execSig_keeps {s0 : State} (n : Fin 16) {s : Machine.State} (h : Keeps s0 s) :
    KeepsOut s0 (execSig n s) := by
  unfold execSig
  try dsimp only
  repeat' (first
    | with_reducible assumption | with_reducible apply State.dmaIns_keeps | with_reducible apply State.setSig_keeps
    | with_reducible apply State.raiseAt_keeps | with_reducible apply State.goTo_keeps | with_reducible apply Keeps.next
    | with_reducible apply Keeps.ite | split | (intro _; try dsimp only))

theorem execEventHistoryLog_keeps {s0 : State} (e : Sqe) {s : Machine.State} (h : Keeps s0 s) :
    KeepsOut s0 (execEventHistoryLog e s) := by
  unfold execEventHistoryLog
  try dsimp only
  repeat' (first
    | with_reducible assumption | with_reducible apply State.logPage_keeps | with_reducible apply Keeps.next)

theorem State.writePascmd_keeps {s0 : State} (p : Sys2Proof.Path) (n : Fin 4) (v : Word) {s : Machine.State} (h : Keeps s0 s) :
    Keeps s0 (State.writePascmd p n v s) := by
  unfold State.writePascmd
  try dsimp only
  repeat' (first
    | with_reducible assumption | (intro _; try dsimp only) | with_reducible apply State.gated_keeps
    | with_reducible apply State.put_keeps | with_reducible apply State.take_keeps | with_reducible apply State.onLane_keeps)

theorem execPascmdWrite_keeps {s0 : State} (p : Sys2Proof.Path) (n : Fin 4) (v : Word) {s : Machine.State} (h : Keeps s0 s) :
    KeepsOut s0 (execPascmdWrite p n v s) := by
  unfold execPascmdWrite
  try dsimp only
  repeat' (first
    | with_reducible assumption | with_reducible apply State.writePascmd_keeps | with_reducible apply Keeps.next)

theorem State.writeMapCtl_keeps {s0 : State} (p : Sys2Proof.Path) (v : Word) {s : Machine.State} (h : Keeps s0 s) :
    Keeps s0 (State.writeMapCtl p v s) := by
  unfold State.writeMapCtl
  try dsimp only
  repeat' (first
    | with_reducible assumption | (intro _; try dsimp only) | with_reducible apply State.gated_keeps
    | with_reducible apply State.take_keeps | with_reducible apply State.put_keeps | with_reducible apply State.staleFills_keeps
    | with_reducible apply Keeps.next | with_reducible apply Keeps.ite)

theorem execMapCtlEn_keeps {s0 : State} (p : Sys2Proof.Path) (v : Word) {s : Machine.State} (h : Keeps s0 s) :
    KeepsOut s0 (execMapCtlEn p v s) := by
  unfold execMapCtlEn
  try dsimp only
  repeat' (first
    | with_reducible assumption | with_reducible apply State.writeMapCtl_keeps | with_reducible apply Keeps.next)

theorem execTimerStop_keeps {s0 : State} (n : Fin 4) (sel : BitVec 2) {s : Machine.State} (h : Keeps s0 s) :
    KeepsOut s0 (execTimerStop n sel s) := by
  unfold execTimerStop
  try dsimp only
  repeat' (first
    | with_reducible assumption | with_reducible apply State.micro_keeps | with_reducible apply State.opTimer_keeps
    | (with_reducible refine Keeps.doAll (fun _ _ _ => ?_) ?_) <;> try dsimp only | with_reducible apply Keeps.next
    | with_reducible apply Keeps.ite | split | (intro _; try dsimp only))

theorem execMapFillLand_keeps {s0 : State} {s : Machine.State} (h : Keeps s0 s) :
    KeepsOut s0 (execMapFillLand s) := by
  unfold execMapFillLand
  try dsimp only
  repeat' (first
    | with_reducible assumption | with_reducible apply State.landFill_keeps | with_reducible apply Keeps.next)

theorem State.toPort_keeps {s0 : State} (a : ℕ) (data : List Byte) {s : Machine.State} (h : Keeps s0 s) :
    Keeps s0 (State.toPort a data s) := by
  unfold State.toPort
  try dsimp only
  repeat' (first
    | with_reducible assumption | intro _ | with_reducible apply State.onLane_keeps | with_reducible apply Keeps.next
    | with_reducible apply Keeps.ite | split)

theorem State.moveTile_keeps {s0 : State} (n : Fin 16) (m : DmaMove) (bad : Option ℕ) (inp : List Byte) {s : Machine.State} (h : Keeps s0 s) :
    Keeps s0 (State.moveTile n m bad inp s) := by
  unfold State.moveTile
  try dsimp only
  repeat' (first
    | with_reducible assumption | intro _ | with_reducible apply State.chError_keeps | with_reducible apply State.readWords_keeps
    | with_reducible apply State.toPort_keeps | with_reducible apply State.wroteWords_keeps | with_reducible apply Keeps.setHbm
    | with_reducible apply State.onDma_keeps | with_reducible apply State.inc_keeps | with_reducible apply State.add_keeps
    | (with_reducible refine Keeps.doAll (fun _ _ _ => ?_) ?_) <;> try dsimp only | with_reducible apply Keeps.next
    | with_reducible apply Keeps.ite | split | (refine Keeps.pair ‹_ = (_, _)› ?_)
    | fail_if_no_progress (with_reducible apply Keeps.upd))

theorem State.beats_keeps {s0 : State} (n : Fin 16) (m : DmaMove) (bad : Option Nat) (inp : List Byte) : ∀ (k i done : Nat)
    {s : State}, Keeps s0 s → Keeps s0 (State.beats n m bad inp k i done s) := by
  intro k
  induction k with
  | zero => intro _ _ _ h; exact State.onDma_keeps _ _ h
  | succ k ih =>
    intro i done s h
    unfold State.beats
    dsimp only
    split
    · exact State.onDma_keeps _ _ h
    · split
      · exact State.chError_keeps _ _ _ _ (State.onDma_keeps _ _ h)
      · exact State.chError_keeps _ _ _ _ (State.onDma_keeps _ _ h)
      · split
        · refine Keeps.ite (State.chError_keeps _ _ _ _ (State.onDma_keeps _ _ (State.readWords_keeps _ _ _ _ _ _ h)))
            (ih _ _ (State.add_keeps _ _ (Keeps.ite (State.toPort_keeps _ _ ?_) (State.wroteWords_keeps _ _ _ _ _ (Keeps.doAll
              (fun _ _ ht => Keeps.setHbm ht) ?_))))) <;> exact State.readWords_keeps _ _ _ _ _ _ h
        · refine Keeps.ite (State.chError_keeps _ _ _ _ (State.onDma_keeps _ _ h))
            (ih _ _ (State.add_keeps _ _ (Keeps.ite (State.toPort_keeps _ _ h) (State.wroteWords_keeps _ _ _ _ _ (Keeps.doAll
              (fun _ _ ht => Keeps.setHbm ht) h)))))

theorem execDmaBurst_keeps {s0 : State} (n : Fin 16) (rest : Bool) (bad : Option ℕ) (inp : List Byte) {s : Machine.State} (h : Keeps s0 s) :
    KeepsOut s0 (execDmaBurst n rest bad inp s) := by
  unfold execDmaBurst
  try dsimp only
  repeat' (first
    | with_reducible assumption | with_reducible apply State.put_keeps | with_reducible apply State.moveTile_keeps
    | with_reducible apply State.beats_keeps | with_reducible apply State.retire_keeps | with_reducible apply Keeps.next
    | with_reducible apply Keeps.ite | split)

theorem State.calNext_keeps {s0 : State} (n : Fin 4) {s : Machine.State} (h : Keeps s0 s) :
    Keeps s0 (State.calNext n s) := by
  unfold State.calNext
  try dsimp only
  repeat' (first
    | with_reducible assumption | intro _ | with_reducible apply State.inc_keeps | with_reducible apply Keeps.next
    | with_reducible apply Keeps.ite)

theorem State.readCaldata_keeps {s0 : State} (p : Sys2Proof.Path) (n : Fin 4) (ecc : Bool) {s : Machine.State} (h : Keeps s0 s) :
    Keeps s0 (State.readCaldata p n ecc s) := by
  unfold State.readCaldata
  try dsimp only
  repeat' (first
    | with_reducible assumption | (intro _; try dsimp only) | with_reducible apply State.gatedRead_keeps
    | with_reducible apply State.readWords_keeps | with_reducible apply State.calNext_keeps | with_reducible apply State.raise_keeps
    | with_reducible apply Keeps.doIf)

theorem State.wpoolBad_keeps {s0 : State} (ns : ℕ) (lba : ℕ) {s : Machine.State} (h : Keeps s0 s) :
    Keeps s0 (State.wpoolBad ns lba s) := by
  unfold State.wpoolBad
  try dsimp only
  repeat' (first
    | with_reducible assumption | intro _ | with_reducible apply State.pump_keeps | with_reducible apply State.failWrite_keeps
    | with_reducible apply State.onBuf_keeps | with_reducible apply State.diapauseFor_keeps | with_reducible apply State.raise_keeps
    | with_reducible apply Keeps.next | with_reducible apply Keeps.ite | split)

theorem State.rpoolBad_keeps {s0 : State} (surface : ℕ) (track : ℕ) (pos : ℕ) (qtr : ℕ) {s : Machine.State} (h : Keeps s0 s) :
    Keeps s0 (State.rpoolBad surface track pos qtr s) := by
  unfold State.rpoolBad
  try dsimp only
  repeat' (first
    | with_reducible assumption | intro _ | with_reducible apply State.raise_keeps | with_reducible apply State.pump_keeps
    | with_reducible apply State.onBuf_keeps | with_reducible apply State.reread_keeps
    | (with_reducible refine Keeps.doAll (fun _ _ _ => ?_) ?_) <;> try dsimp only | with_reducible apply Keeps.next
    | with_reducible apply Keeps.ite | split)

theorem State.hbmBad_keeps {s0 : State} (place : HbmPlace) {s : Machine.State} (h : Keeps s0 s) :
    Keeps s0 (State.hbmBad place s) := by
  unfold State.hbmBad
  try dsimp only
  repeat' (first
    | with_reducible assumption | intro _ | with_reducible apply State.wpoolBad_keeps | with_reducible apply State.rpoolBad_keeps
    | with_reducible apply State.onBuf_keeps | with_reducible apply State.raise_keeps | with_reducible apply State.diapauseFor_keeps
    | with_reducible apply Keeps.next | with_reducible apply Keeps.ite | split | fail_if_no_progress (with_reducible apply Keeps.upd))

theorem State.lineBad_keeps {s0 : State} (addr : ℕ) {s : Machine.State} (h : Keeps s0 s) :
    Keeps s0 (State.lineBad addr s) := by
  unfold State.lineBad
  try dsimp only
  repeat' (first
    | with_reducible assumption | intro _ | with_reducible apply State.diapauseFor_keeps | with_reducible apply State.startFill_keeps
    | with_reducible apply State.onMset_keeps | with_reducible apply Keeps.next | with_reducible apply Keeps.ite | split)

theorem State.recordBad_keeps {s0 : State} (addr : ℕ) {s : Machine.State} (h : Keeps s0 s) :
    Keeps s0 (State.recordBad addr s) := by
  unfold State.recordBad
  try dsimp only
  repeat' (first
    | with_reducible assumption | intro _ | with_reducible apply State.dropRec_keeps | with_reducible apply State.put_keeps
    | with_reducible apply Keeps.next | with_reducible apply Keeps.ite | split | fail_if_no_progress (with_reducible apply Keeps.upd))

theorem State.engineOff_keeps {s0 : State} (e : ℕ) (f : Machine.Field) {s : Machine.State} (h : Keeps s0 s) :
    Keeps s0 (State.engineOff e f s) := by
  unfold State.engineOff
  try dsimp only
  repeat' (first
    | with_reducible assumption | intro _ | with_reducible apply State.putBit_keeps | with_reducible apply State.raise_keeps
    | with_reducible apply State.syncCrys_keeps | with_reducible apply State.engineEnd_keeps | with_reducible apply State.unpin_keeps
    | with_reducible apply State.onEngine_keeps | with_reducible apply State.pin_keeps | with_reducible apply State.reclass_keeps
    | with_reducible apply State.onCrys_keeps | with_reducible apply Keeps.next | with_reducible apply Keeps.ite | split)

theorem State.memBad_keeps {s0 : State} (mem : ℕ) (inst : ℕ) (addr : ℕ) (place : HbmPlace) {s : Machine.State} (h : Keeps s0 s) :
    Keeps s0 (State.memBad mem inst addr place s) := by
  unfold State.memBad
  try dsimp only
  repeat' (first
    | with_reducible assumption | intro _ | with_reducible apply State.hbmBad_keeps | with_reducible apply State.lineBad_keeps
    | with_reducible apply State.recordBad_keeps | with_reducible apply State.raise_keeps | with_reducible apply State.engineOff_keeps
    | with_reducible apply State.onLane_keeps | with_reducible apply State.wpoolBad_keeps
    | with_reducible apply State.diapauseFor_keeps | with_reducible apply Keeps.next | with_reducible apply Keeps.ite | split)

theorem State.readAt_keeps {s0 : State} (mem : ℕ) (inst : ℕ) (addr : ℕ) (place : HbmPlace) {s : Machine.State} (h : Keeps s0 s) :
    Keeps s0 (State.readAt mem inst addr place s) := by
  unfold State.readAt
  try dsimp only
  repeat' (first
    | with_reducible assumption | intro _ | with_reducible apply State.readWords_keeps | with_reducible apply State.memBad_keeps
    | with_reducible apply Keeps.next | with_reducible apply Keeps.ite)

theorem execMemoryBitError_keeps {s0 : State} (e : MemEvent) {s : Machine.State} (h : Keeps s0 s) :
    KeepsOut s0 (execMemoryBitError e s) := by
  unfold execMemoryBitError
  try dsimp only
  repeat' (first
    | with_reducible assumption | with_reducible apply State.setPoison_keeps | with_reducible apply State.voteFix_keeps
    | with_reducible apply Keeps.setReg | with_reducible apply State.onLane_keeps | with_reducible apply State.readAt_keeps
    | with_reducible apply State.wroteWords_keeps | with_reducible apply Keeps.next | with_reducible apply Keeps.ite | split)

theorem execSetApst_keeps {s0 : State} (e : Sqe) {s : Machine.State} (h : Keeps s0 s) :
    KeepsOut s0 (execSetApst e s) := by
  unfold execSetApst
  try dsimp only
  repeat' (first
    | with_reducible assumption | cases ‹Except.ok _ = Except.ok _› | cases ‹Except.error _ = Except.ok _› | split
    | with_reducible apply State.setFeature_keeps | with_reducible apply State.onFeats_keeps | with_reducible apply Keeps.next
    | with_reducible apply Keeps.ite | (intro _; try dsimp only))

theorem execSynthLockAcquired_keeps {s0 : State} (n : Fin 4) {s : Machine.State} (h : Keeps s0 s) :
    KeepsOut s0 (execSynthLockAcquired n s) := by
  unfold execSynthLockAcquired
  try dsimp only
  repeat' (first
    | with_reducible assumption | with_reducible apply State.onLane_keeps | with_reducible apply State.put_keeps
    | with_reducible apply State.take_keeps | (with_reducible refine Keeps.doAll (fun _ _ _ => ?_) ?_) <;> try dsimp only
    | with_reducible apply Keeps.next | with_reducible apply Keeps.ite)

theorem execTempSensorUpdate_keeps {s0 : State} (tj : Byte) (td : Byte) (hbm : Byte) {s : Machine.State} (h : Keeps s0 s) :
    KeepsOut s0 (execTempSensorUpdate tj td hbm s) := by
  unfold execTempSensorUpdate
  try dsimp only
  repeat' (first
    | with_reducible assumption | with_reducible apply State.put_keeps | with_reducible apply State.aen_keeps
    | with_reducible apply State.raiseAt_keeps | with_reducible apply Keeps.doIf | with_reducible apply Keeps.next
    | with_reducible apply Keeps.ite | split | (intro _; try dsimp only) | fail_if_no_progress (with_reducible apply Keeps.upd))

theorem execReleaseIdentifier_keeps {s0 : State} (e : Sqe) {s : Machine.State} (h : Keeps s0 s) :
    KeepsOut s0 (execReleaseIdentifier e s) := by
  unfold execReleaseIdentifier
  try dsimp only
  repeat' (first
    | with_reducible assumption | with_reducible apply State.directive_keeps | with_reducible apply State.adminDone_keeps
    | with_reducible apply State.onNvme_keeps | with_reducible apply Keeps.next | with_reducible apply Keeps.ite | split
    | (intro _; try dsimp only))

theorem execShfSlotWrite_keeps {s0 : State} (p : Sys2Proof.Path) (k : Fin 16) (hi : Bool) (v : Word) {s : Machine.State} (h : Keeps s0 s) :
    KeepsOut s0 (execShfSlotWrite p k hi v s) := by
  unfold execShfSlotWrite
  try dsimp only
  repeat' (first
    | with_reducible assumption | with_reducible apply State.writeSlot_keeps | with_reducible apply Keeps.next)

theorem execContractRecheck_keeps {s0 : State} (why : RecheckCause) {s : Machine.State} (h : Keeps s0 s) :
    KeepsOut s0 (execContractRecheck why s) := by
  unfold execContractRecheck
  try dsimp only
  repeat' (first
    | with_reducible assumption | with_reducible apply State.setGuard_keeps | with_reducible apply State.readmit_keeps
    | with_reducible apply State.afterRelease_keeps | with_reducible apply Keeps.next | with_reducible apply Keeps.ite)

theorem execJournalTileTimeout_keeps {s0 : State} {s : Machine.State} (h : Keeps s0 s) :
    KeepsOut s0 (execJournalTileTimeout s) := by
  unfold execJournalTileTimeout
  try dsimp only
  repeat' (first
    | with_reducible assumption | with_reducible apply State.pump_keeps | with_reducible apply State.closeJournal_keeps
    | with_reducible apply Keeps.next | with_reducible apply Keeps.ite)

theorem execCnt1_keeps {s0 : State} (n : Fin 4) {s : Machine.State} (h : Keeps s0 s) :
    KeepsOut s0 (execCnt1 n s) := by
  unfold execCnt1
  try dsimp only
  repeat' (first
    | with_reducible assumption | with_reducible apply State.micro_keeps | with_reducible apply State.opLc_keeps
    | with_reducible apply Keeps.next)

theorem execInc0_keeps {s0 : State} (n : Fin 4) {s : Machine.State} (h : Keeps s0 s) :
    KeepsOut s0 (execInc0 n s) := by
  unfold execInc0
  try dsimp only
  repeat' (first
    | with_reducible assumption | with_reducible apply State.micro_keeps | with_reducible apply State.opLc_keeps
    | with_reducible apply Keeps.next)

theorem execReturnHome_keeps {s0 : State} (ns : ℕ) (key : ℕ) {s : Machine.State} (h : Keeps s0 s) :
    KeepsOut s0 (execReturnHome ns key s) := by
  unfold execReturnHome
  try dsimp only
  repeat' (first
    | with_reducible assumption | with_reducible apply State.pump_keeps | with_reducible apply State.returnStart_keeps
    | with_reducible apply Keeps.next | with_reducible apply Keeps.ite | split)

theorem State.writeSig_keeps {s0 : State} (p : Sys2Proof.Path) (i : Fin 2) (set_ : Bool) (v : Word) {s : Machine.State} (h : Keeps s0 s) :
    Keeps s0 (State.writeSig p i set_ v s) := by
  unfold State.writeSig
  try dsimp only
  repeat' (first
    | with_reducible assumption | (intro _; try dsimp only) | with_reducible apply State.gated_keeps
    | with_reducible apply Keeps.setReg)

theorem execDmaSigclr_keeps {s0 : State} (p : Sys2Proof.Path) (i : Fin 2) (v : Word) {s : Machine.State} (h : Keeps s0 s) :
    KeepsOut s0 (execDmaSigclr p i v s) := by
  unfold execDmaSigclr
  try dsimp only
  repeat' (first
    | with_reducible assumption | with_reducible apply State.writeSig_keeps | with_reducible apply Keeps.next)

theorem State.writeDmaCtl_keeps {s0 : State} (p : Sys2Proof.Path) (n : Fin 16) (v : Word) {s : Machine.State} (h : Keeps s0 s) :
    Keeps s0 (State.writeDmaCtl p n v s) := by
  unfold State.writeDmaCtl
  try dsimp only
  repeat' (first
    | with_reducible assumption | (intro _; try dsimp only) | with_reducible apply State.gated_keeps
    | with_reducible apply State.put_keeps | with_reducible apply State.goTo_keeps | with_reducible apply State.setLoops_keeps
    | with_reducible apply Keeps.next | with_reducible apply Keeps.ite)

theorem execDmaChStart_keeps {s0 : State} (p : Sys2Proof.Path) (n : Fin 16) (v : Word) {s : Machine.State} (h : Keeps s0 s) :
    KeepsOut s0 (execDmaChStart p n v s) := by
  unfold execDmaChStart
  try dsimp only
  repeat' (first
    | with_reducible assumption | with_reducible apply State.writeDmaCtl_keeps | with_reducible apply Keeps.next)

theorem execSetPowerManagement_keeps {s0 : State} (e : Sqe) {s : Machine.State} (h : Keeps s0 s) :
    KeepsOut s0 (execSetPowerManagement e s) := by
  unfold execSetPowerManagement
  try dsimp only
  repeat' (first
    | with_reducible assumption | cases ‹Except.ok _ = Except.ok _› | cases ‹Except.error _ = Except.ok _› | split
    | with_reducible apply State.setFeature_keeps | with_reducible apply State.enterPs_keeps | with_reducible apply Keeps.next
    | with_reducible apply Keeps.ite | (intro _; try dsimp only))

theorem execLoad_keeps {s0 : State} (n : Fin 4) {s : Machine.State} (h : Keeps s0 s) :
    KeepsOut s0 (execLoad n s) := by
  unfold execLoad
  try dsimp only
  repeat' (first
    | with_reducible assumption | with_reducible apply State.micro_keeps | with_reducible apply State.opServo_keeps
    | with_reducible apply Keeps.next)

theorem execSeeksalt_keeps {s0 : State} (n : Fin 4) {s : Machine.State} (h : Keeps s0 s) :
    KeepsOut s0 (execSeeksalt n s) := by
  unfold execSeeksalt
  try dsimp only
  repeat' (first
    | with_reducible assumption | with_reducible apply State.micro_keeps | with_reducible apply State.opServo_keeps
    | with_reducible apply Keeps.next)

theorem State.writeCrysCmd_keeps {s0 : State} (p : Sys2Proof.Path) (v : Word) {s : Machine.State} (h : Keeps s0 s) :
    Keeps s0 (State.writeCrysCmd p v s) := by
  unfold State.writeCrysCmd
  try dsimp only
  repeat' (first
    | with_reducible assumption | (intro _; try dsimp only) | with_reducible apply State.gated_keeps
    | with_reducible apply State.onEngine_keeps | with_reducible apply State.onDir_keeps
    | (with_reducible refine Keeps.doAll (fun _ _ _ => ?_) ?_) <;> try dsimp only)

theorem execCrysDirclr_keeps {s0 : State} (p : Sys2Proof.Path) (v : Word) {s : Machine.State} (h : Keeps s0 s) :
    KeepsOut s0 (execCrysDirclr p v s) := by
  unfold execCrysDirclr
  try dsimp only
  repeat' (first
    | with_reducible assumption | with_reducible apply State.writeCrysCmd_keeps | with_reducible apply Keeps.next)

theorem execDec0_keeps {s0 : State} (n : Fin 4) {s : Machine.State} (h : Keeps s0 s) :
    KeepsOut s0 (execDec0 n s) := by
  unfold execDec0
  try dsimp only
  repeat' (first
    | with_reducible assumption | with_reducible apply State.micro_keeps | with_reducible apply State.opLc_keeps
    | with_reducible apply Keeps.next)

theorem execJump_keeps {s0 : State} (n : Fin 4) (e : WordEnv) {s : Machine.State} (h : Keeps s0 s) :
    KeepsOut s0 (execJump n e s) := by
  unfold execJump
  try dsimp only
  repeat' (first
    | with_reducible assumption | with_reducible apply State.runWord_keeps | with_reducible apply Keeps.next)

theorem execInc1_keeps {s0 : State} (n : Fin 4) {s : Machine.State} (h : Keeps s0 s) :
    KeepsOut s0 (execInc1 n s) := by
  unfold execInc1
  try dsimp only
  repeat' (first
    | with_reducible assumption | with_reducible apply State.micro_keeps | with_reducible apply State.opLc_keeps
    | with_reducible apply Keeps.next)

theorem State.writeRevoke_keeps {s0 : State} (p : Sys2Proof.Path) (v : Word) {s : Machine.State} (h : Keeps s0 s) :
    Keeps s0 (State.writeRevoke p v s) := by
  unfold State.writeRevoke
  refine State.gated_keeps _ _ _ _ _ ?_ h
  intro t ht
  refine ht.trans ⟨rfl, rfl, fun i hi => ?_, id, id, id, id⟩
  simp only [Nat.testBit_or, hi, Bool.true_or]

theorem execCfgRevoke_keeps {s0 : State} (p : Sys2Proof.Path) (v : Word) {s : Machine.State} (h : Keeps s0 s) :
    KeepsOut s0 (execCfgRevoke p v s) := by
  unfold execCfgRevoke
  try dsimp only
  repeat' (first
    | with_reducible assumption | with_reducible apply State.writeRevoke_keeps | with_reducible apply Keeps.next)

theorem State.answer_keeps {s0 : State} (code : Byte) (bs : List Byte) {s : Machine.State} (h : Keeps s0 s) :
    Keeps s0 (State.answer code bs s) := by
  unfold State.answer
  try dsimp only
  repeat' (first
    | with_reducible assumption | intro _ | with_reducible apply Keeps.next | with_reducible apply Keeps.ite | split
    | fail_if_no_progress (with_reducible apply Keeps.upd))

theorem execSetMagazineEnergy_keeps {s0 : State} (e : Sqe) {s : Machine.State} (h : Keeps s0 s) :
    KeepsOut s0 (execSetMagazineEnergy e s) := by
  unfold execSetMagazineEnergy
  try dsimp only
  repeat' (first
    | with_reducible assumption | cases ‹Except.ok _ = Except.ok _› | cases ‹Except.error _ = Except.ok _› | split
    | with_reducible apply State.setFeature_keeps | with_reducible apply Keeps.next | with_reducible apply Keeps.ite
    | (intro _; try dsimp only))

theorem State.halfNow_keeps {s0 : State} (n : Fin 4) {s : Machine.State} (h : Keeps s0 s) :
    Keeps s0 (State.halfNow n s).2 := by
  unfold State.halfNow
  try dsimp only
  repeat' (first
    | with_reducible assumption | intro _ | with_reducible apply State.retuneNow_keeps | with_reducible apply State.put_keeps
    | with_reducible apply Keeps.next | with_reducible apply Keeps.ite | split)

theorem State.writeMiss_keeps {s0 : State} (n : Fin 4) {s : Machine.State} (h : Keeps s0 s) :
    Keeps s0 (State.writeMiss n s) := by
  unfold State.writeMiss
  try dsimp only
  repeat' (first
    | with_reducible assumption | intro _ | with_reducible apply State.setGates_keeps | with_reducible apply State.onLane_keeps
    | with_reducible apply State.latchTrap_keeps | with_reducible apply State.raise_keeps)

theorem State.beginWrite_keeps {s0 : State} (n : Fin 4) (u : LUnit) (c : MediaCmd) (m : BeginIn) {s : Machine.State} (h : Keeps s0 s) :
    Keeps s0 (State.beginWrite n u c m s) := by
  unfold State.beginWrite
  try dsimp only
  repeat' (first
    | with_reducible assumption | intro _ | with_reducible apply State.halfNow_keeps | with_reducible apply State.writeMiss_keeps
    | with_reducible apply State.setGates_keeps | with_reducible apply State.onLane_keeps | with_reducible apply State.onMedia_keeps
    | with_reducible apply Keeps.next | with_reducible apply Keeps.ite)

theorem execStatCount_keeps {s0 : State} (n : Fin 4) (mask : Byte) {s : Machine.State} (h : Keeps s0 s) :
    KeepsOut s0 (execStatCount n mask s) := by
  unfold execStatCount
  try dsimp only
  repeat' (first
    | with_reducible assumption | with_reducible apply State.micro_keeps | with_reducible apply State.opStat_keeps
    | with_reducible apply Keeps.next)

theorem execCmdpop_keeps {s0 : State} (n : Fin 4) {s : Machine.State} (h : Keeps s0 s) :
    KeepsOut s0 (execCmdpop n s) := by
  unfold execCmdpop
  try dsimp only
  repeat' (first
    | with_reducible assumption | with_reducible apply State.micro_keeps | with_reducible apply State.opBuf_keeps
    | with_reducible apply Keeps.next)

theorem execMapCacheCleanDone_keeps {s0 : State} {s : Machine.State} (h : Keeps s0 s) :
    KeepsOut s0 (execMapCacheCleanDone s) := by
  unfold execMapCacheCleanDone
  try dsimp only
  repeat' (first
    | with_reducible assumption | with_reducible apply State.put_keeps | with_reducible apply State.cleanCache_keeps
    | with_reducible apply Keeps.next | with_reducible apply Keeps.ite | split)

theorem execRakeScrub_keeps {s0 : State} (t : Fin 12) (place : HbmPlace) {s : Machine.State} (h : Keeps s0 s) :
    KeepsOut s0 (execRakeScrub t place s) := by
  unfold execRakeScrub
  try dsimp only
  repeat' (first
    | with_reducible assumption | with_reducible apply State.put_keeps | with_reducible apply State.readWords_keeps
    | with_reducible apply State.memBad_keeps | with_reducible apply State.inc_keeps | with_reducible apply State.wroteWords_keeps
    | with_reducible apply Keeps.next | with_reducible apply Keeps.ite)

theorem State.digestCheck_keeps {s0 : State} (n : Fin 4) {s : Machine.State} (h : Keeps s0 s) :
    Keeps s0 (State.digestCheck n s) := by
  unfold State.digestCheck
  try dsimp only
  repeat' (first
    | with_reducible assumption | (intro _; try dsimp only) | with_reducible apply State.put_keeps
    | with_reducible apply State.mcsKill_keeps | with_reducible apply State.onBoot_keeps | with_reducible apply State.raiseAt_keeps
    | with_reducible apply State.pump_keeps | with_reducible apply State.laneLeft_keeps | with_reducible apply State.loadLane_keeps
    | with_reducible apply Keeps.doIf | with_reducible apply Keeps.next | with_reducible apply Keeps.ite)

theorem State.writeCauseReg_keeps {s0 : State} (p : Sys2Proof.Path) (v : Word) {s : Machine.State} (h : Keeps s0 s) :
    Keeps s0 (State.writeCauseReg p v s) := by
  unfold State.writeCauseReg
  try dsimp only
  repeat' (first
    | with_reducible assumption | (intro _; try dsimp only) | with_reducible apply State.gated_keeps
    | with_reducible apply State.putBit_keeps | (with_reducible refine Keeps.doAll (fun _ _ _ => ?_) ?_) <;> try dsimp only
    | with_reducible apply Keeps.next | with_reducible apply Keeps.ite)

theorem execAlrCauseWrite_keeps {s0 : State} (p : Sys2Proof.Path) (v : Word) {s : Machine.State} (h : Keeps s0 s) :
    KeepsOut s0 (execAlrCauseWrite p v s) := by
  unfold execAlrCauseWrite
  try dsimp only
  repeat' (first
    | with_reducible assumption | with_reducible apply State.writeCauseReg_keeps | with_reducible apply Keeps.next)

theorem execForcedHarvestTrap_keeps {s0 : State} (n : Fin 4) {s : Machine.State} (h : Keeps s0 s) :
    KeepsOut s0 (execForcedHarvestTrap n s) := by
  unfold execForcedHarvestTrap
  try dsimp only
  repeat' (first
    | with_reducible assumption | with_reducible apply State.opLc_keeps | with_reducible apply State.takeTrap_keeps
    | with_reducible apply Keeps.next | with_reducible apply Keeps.ite)

theorem State.afterTake_keeps {s0 : State} (a : ℕ) {s : Machine.State} (h : Keeps s0 s) :
    Keeps s0 (State.afterTake a s) := by
  unfold State.afterTake
  try dsimp only
  repeat' (first
    | with_reducible assumption | intro _ | with_reducible apply State.ctrTotals_keeps | with_reducible apply State.ctrApply_keeps
    | with_reducible apply State.onCtr_keeps | with_reducible apply State.pump_keeps | with_reducible apply State.onServo_keeps
    | with_reducible apply State.put_keeps | with_reducible apply Keeps.next | with_reducible apply Keeps.ite)

theorem State.installSlot_keeps {s0 : State} (i : ℕ) (d : List Byte) {s : Machine.State} (h : Keeps s0 s) :
    Keeps s0 (State.installSlot i d s) := by
  unfold State.installSlot
  try dsimp only
  repeat' (first
    | with_reducible assumption | intro _ | with_reducible apply State.put_keeps | with_reducible apply State.install2_keeps
    | with_reducible apply Keeps.activate | with_reducible apply State.ctrTotals_keeps | with_reducible apply State.onContract_keeps
    | (with_reducible refine Keeps.doAll (fun _ _ _ => ?_) ?_) <;> try dsimp only)

theorem execEstablishContract_keeps {s0 : State} (e : Sqe) {s : Machine.State} (h : Keeps s0 s) :
    KeepsOut s0 (execEstablishContract e s) := by
  unfold execEstablishContract
  try dsimp only
  repeat' (first
    | with_reducible assumption | with_reducible apply State.admin_keeps | with_reducible apply State.adminDone_keeps
    | with_reducible apply State.ctrLogRec_keeps | with_reducible apply State.setGuard_keeps
    | with_reducible apply State.installSlot_keeps | with_reducible apply State.pump_keeps | with_reducible apply State.onCtr_keeps
    | with_reducible apply Keeps.next | with_reducible apply Keeps.ite | split | (intro _; try dsimp only))

theorem execPgoodALow_keeps {s0 : State} {s : Machine.State} (h : Keeps s0 s) :
    KeepsOut s0 (execPgoodALow s) := by
  unfold execPgoodALow
  try dsimp only
  repeat' (first
    | with_reducible assumption | with_reducible apply State.writeUnsafe_keeps | with_reducible apply State.domFailed_keeps
    | (with_reducible refine Keeps.doAll (fun _ _ _ => ?_) ?_) <;> try dsimp only | with_reducible apply Keeps.next
    | with_reducible apply Keeps.ite)

theorem State.advance_keeps {s0 : State} (n : Fin 4) (u : LUnit) (c : MediaCmd) {s : Machine.State} (h : Keeps s0 s) :
    Keeps s0 (State.advance n u c s) := by
  unfold State.advance
  try dsimp only
  repeat' (first
    | with_reducible assumption | intro _ | with_reducible apply State.setCur_keeps | with_reducible apply State.put_keeps
    | with_reducible apply State.onLane_keeps)

theorem State.coastMark_keeps {s0 : State} (n : Fin 4) (mu : MUnit) {s : Machine.State} (h : Keeps s0 s) :
    Keeps s0 (State.coastMark n mu s) := by
  unfold State.coastMark
  try dsimp only
  repeat' (first
    | with_reducible assumption | intro _ | with_reducible apply State.coastGo_keeps | with_reducible apply State.systemWritten_keeps
    | with_reducible apply State.coastWritten_keeps | with_reducible apply Keeps.next | with_reducible apply Keeps.ite)

theorem State.endWrite_keeps {s0 : State} (n : Fin 4) (u : LUnit) (c : MediaCmd) (err : List ℕ) {s : Machine.State} (h : Keeps s0 s) :
    Keeps s0 (State.endWrite n u c err s) := by
  unfold State.endWrite
  try dsimp only
  repeat' (first
    | with_reducible assumption | intro _ | with_reducible apply State.onLane_keeps | with_reducible apply State.bufMoved_keeps
    | with_reducible apply State.setGates_keeps | with_reducible apply State.latchTrap_keeps | with_reducible apply State.raise_keeps
    | with_reducible apply State.inc_keeps | with_reducible apply State.advance_keeps | with_reducible apply State.unitWritten_keeps
    | with_reducible apply State.halfNow_keeps | with_reducible apply State.coastMark_keeps | with_reducible apply State.pump_keeps
    | with_reducible apply Keeps.next | with_reducible apply Keeps.ite)

theorem State.endRead_keeps {s0 : State} (n : Fin 4) (u : LUnit) (c : MediaCmd) {s : Machine.State} (h : Keeps s0 s) :
    Keeps s0 (State.endRead n u c s) := by
  unfold State.endRead
  try dsimp only
  repeat' (first
    | with_reducible assumption | intro _ | with_reducible apply State.onLane_keeps | with_reducible apply State.inc_keeps
    | with_reducible apply State.advance_keeps | with_reducible apply Keeps.next | with_reducible apply Keeps.ite)

theorem execUnitEndMark_keeps {s0 : State} (n : Fin 4) (err : List ℕ) {s : Machine.State} (h : Keeps s0 s) :
    KeepsOut s0 (execUnitEndMark n err s) := by
  unfold execUnitEndMark
  try dsimp only
  repeat' (first
    | with_reducible assumption | with_reducible apply State.endWrite_keeps | with_reducible apply State.endRead_keeps
    | with_reducible apply Keeps.next | with_reducible apply Keeps.ite | split)

theorem execLoadComplete_keeps {s0 : State} (a : Fin 4) (pos : ℤ) {s : Machine.State} (h : Keeps s0 s) :
    KeepsOut s0 (execLoadComplete a pos s) := by
  unfold execLoadComplete
  try dsimp only
  repeat' (first
    | with_reducible assumption | with_reducible apply State.onAct_keeps | with_reducible apply State.putBit_keeps
    | with_reducible apply State.put_keeps | with_reducible apply State.onLane_keeps | with_reducible apply State.endMove_keeps
    | with_reducible apply State.forceOff_keeps | with_reducible apply State.onSpn_keeps | with_reducible apply State.wantSeek_keeps
    | with_reducible apply State.pump_keeps | with_reducible apply Keeps.next | with_reducible apply Keeps.ite | split)

theorem execSetNumberOfQueues_keeps {s0 : State} (e : Sqe) {s : Machine.State} (h : Keeps s0 s) :
    KeepsOut s0 (execSetNumberOfQueues e s) := by
  unfold execSetNumberOfQueues
  try dsimp only
  repeat' (first
    | with_reducible assumption | with_reducible apply State.admin_keeps | with_reducible apply State.adminDone_keeps
    | with_reducible apply State.onFeats_keeps | with_reducible apply Keeps.next | with_reducible apply Keeps.ite | split
    | (intro _; try dsimp only))

theorem execMovs_keeps {s0 : State} (n : Fin 16) {s : Machine.State} (h : Keeps s0 s) :
    KeepsOut s0 (execMovs n s) := by
  unfold execMovs
  try dsimp only
  repeat' (first
    | with_reducible assumption | with_reducible apply State.dmaIns_keeps | with_reducible apply State.beginDma_keeps
    | with_reducible apply Keeps.next)

theorem execClass0ExpireUndispatched_keeps {s0 : State} {s : Machine.State} (h : Keeps s0 s) :
    KeepsOut s0 (execClass0ExpireUndispatched s) := by
  unfold execClass0ExpireUndispatched
  try dsimp only
  repeat' (first
    | with_reducible assumption | with_reducible apply State.crysEnd_keeps | with_reducible apply State.unpin_keeps
    | with_reducible apply State.onCrys_keeps | (with_reducible refine Keeps.doAll (fun _ _ _ => ?_) ?_) <;> try dsimp only
    | with_reducible apply Keeps.next)

theorem execDeleteIoSubmissionQueue_keeps {s0 : State} (e : Sqe) {s : Machine.State} (h : Keeps s0 s) :
    KeepsOut s0 (execDeleteIoSubmissionQueue e s) := by
  unfold execDeleteIoSubmissionQueue
  try dsimp only
  repeat' (first
    | with_reducible assumption | with_reducible apply State.admin_keeps | with_reducible apply State.adminDone_keeps
    | with_reducible apply State.onNvme_keeps | with_reducible apply State.failWrite_keeps | with_reducible apply State.reclass_keeps
    | with_reducible apply State.pump_keeps | with_reducible apply State.postAll_keeps | with_reducible apply State.withdraw_keeps
    | (with_reducible refine Keeps.doAll (fun _ _ _ => ?_) ?_) <;> try dsimp only | with_reducible apply Keeps.next
    | with_reducible apply Keeps.ite | split | (intro _; try dsimp only))

theorem execHeadLoadRequest_keeps {s0 : State} {s : Machine.State} (h : Keeps s0 s) :
    KeepsOut s0 (execHeadLoadRequest s) := by
  unfold execHeadLoadRequest
  try dsimp only
  repeat' (first
    | with_reducible assumption | with_reducible apply State.rampMove_keeps
    | (with_reducible refine Keeps.doAll (fun _ _ _ => ?_) ?_) <;> try dsimp only | with_reducible apply Keeps.next
    | with_reducible apply Keeps.ite | split | intro _ | fail_if_no_progress (with_reducible apply Keeps.upd))

theorem execSetInterruptVectorConfiguration_keeps {s0 : State} (e : Sqe) {s : Machine.State} (h : Keeps s0 s) :
    KeepsOut s0 (execSetInterruptVectorConfiguration e s) := by
  unfold execSetInterruptVectorConfiguration
  try dsimp only
  repeat' (first
    | with_reducible assumption | cases ‹Except.ok _ = Except.ok _› | cases ‹Except.error _ = Except.ok _› | split
    | with_reducible apply State.setFeature_keeps | with_reducible apply State.onFeats_keeps | with_reducible apply Keeps.next
    | with_reducible apply Keeps.ite | (intro _; try dsimp only))

theorem State.readOne_keeps {s0 : State} (p : Sys2Proof.Path) (a : ℕ) {s : Machine.State} (h : Keeps s0 s) :
    Keeps s0 (State.readOne p a s) := by
  unfold State.readOne
  try dsimp only
  repeat' (first
    | with_reducible assumption | intro _ | with_reducible apply State.ignore_keeps | with_reducible apply State.readCaldata_keeps
    | with_reducible apply State.readSsdata_keeps | with_reducible apply Keeps.next | with_reducible apply Keeps.ite | split)

theorem execIgnoredRead_keeps {s0 : State} (p : Sys2Proof.Path) (a : Word) (w : Width) {s : Machine.State} (h : Keeps s0 s) :
    KeepsOut s0 (execIgnoredRead p a w s) := by
  unfold execIgnoredRead
  try dsimp only
  repeat' (first
    | with_reducible assumption | with_reducible apply State.readOne_keeps | with_reducible apply State.ignore_keeps
    | with_reducible apply Keeps.next | with_reducible apply Keeps.ite | split)

theorem State.engineStops_keeps {s0 : State} (e : ℕ) (store : Bool) {s : Machine.State} (h : Keeps s0 s) :
    ∀ res, (State.engineStops e store s) = some res → Keeps s0 res := by
  unfold State.engineStops
  try dsimp only
  repeat' (first
    | with_reducible assumption | cases ‹some _ = some _› | cases ‹none = some _› | split | (intro _; try dsimp only)
    | with_reducible apply State.engineOff_keeps | with_reducible apply State.readWords_keeps
    | with_reducible apply State.engineEnd_keeps)

theorem execCnt0_keeps {s0 : State} (n : Fin 4) {s : Machine.State} (h : Keeps s0 s) :
    KeepsOut s0 (execCnt0 n s) := by
  unfold execCnt0
  try dsimp only
  repeat' (first
    | with_reducible assumption | with_reducible apply State.micro_keeps | with_reducible apply State.opLc_keeps
    | with_reducible apply Keeps.next)

theorem State.step7_keeps {s0 : State} (e : Est) {s : Machine.State} (h : Keeps s0 s) :
    Keeps s0 (State.step7 e s) := by
  unfold State.step7
  try dsimp only
  repeat' (first
    | with_reducible assumption | intro _ | with_reducible apply State.setSlot_keeps | with_reducible apply State.install2_keeps
    | with_reducible apply State.onContract_keeps | with_reducible apply State.onCtr_keeps | with_reducible apply State.setFloor_keeps
    | with_reducible apply State.setGuard_keeps | with_reducible apply State.setWres_keeps | with_reducible apply State.adminDone_keeps
    | with_reducible apply State.logSlot_keeps | (with_reducible refine Keeps.doAll (fun _ _ _ => ?_) ?_) <;> try dsimp only
    | with_reducible apply Keeps.next | with_reducible apply Keeps.ite | split | fail_if_no_progress (with_reducible apply Keeps.upd))

theorem State.dropFlash_keeps {s0 : State} {s : Machine.State} (h : Keeps s0 s) :
    Keeps s0 (State.dropFlash s) := by
  unfold State.dropFlash
  try dsimp only
  repeat' (first
    | with_reducible assumption | intro _ | with_reducible apply State.spoilOp_keeps | with_reducible apply Keeps.next
    | with_reducible apply Keeps.ite | split | fail_if_no_progress (with_reducible apply Keeps.upd))

theorem State.coldReset_keeps {s0 : State} (strap : ℕ) {s : Machine.State} (h : Keeps s0 s) :
    Keeps s0 (State.coldReset strap s) := by
  unfold State.coldReset
  refine State.put_keeps _ _ ((State.dropFlash_keeps h).trans ⟨rfl, rfl, fun _ h => h, fun _ => ?_, id, fun _ => ?_, fun _ => ?_⟩) <;> rfl

theorem State.coldAgain_keeps {s0 : State} {s : Machine.State} (h : Keeps s0 s) :
    Keeps s0 (State.coldAgain s) := by
  unfold State.coldAgain
  try dsimp only
  repeat' (first
    | with_reducible assumption | intro _ | with_reducible apply State.coldReset_keeps)

theorem execMapCmdInv_keeps {s0 : State} (p : Sys2Proof.Path) (v : Word) {s : Machine.State} (h : Keeps s0 s) :
    KeepsOut s0 (execMapCmdInv p v s) := by
  unfold execMapCmdInv
  try dsimp only
  repeat' (first
    | with_reducible assumption | with_reducible apply State.writeMapCmd_keeps | with_reducible apply Keeps.next)

theorem execEnginePhaseEnd_keeps {s0 : State} (e : Fin 4) (brine : List ℕ) (store : Bool) (sync : Option ℕ) {s : Machine.State} (h : Keeps s0 s) :
    KeepsOut s0 (execEnginePhaseEnd e brine store sync s) := by
  unfold execEnginePhaseEnd
  try dsimp only
  repeat' (first
    | with_reducible assumption | with_reducible apply State.engineEnd_keeps | with_reducible apply State.engineLoad_keeps
    | with_reducible apply State.put_keeps | with_reducible apply State.onEngine_keeps | with_reducible apply State.engineFinish_keeps
    | with_reducible apply Keeps.next | with_reducible apply Keeps.ite | split | intro _
    | refine Keeps.optS ‹_ = some _› (State.engineStops_keeps _ _ ?_))

theorem execClass2Ageing_keeps {s0 : State} {s : Machine.State} (h : Keeps s0 s) :
    KeepsOut s0 (execClass2Ageing s) := by
  unfold execClass2Ageing
  try dsimp only
  repeat' (first
    | with_reducible assumption | with_reducible apply State.syncCrys_keeps | with_reducible apply State.onCrys_keeps
    | with_reducible apply Keeps.next | with_reducible apply Keeps.ite)

theorem State.writeSplitctl_keeps {s0 : State} (p : Sys2Proof.Path) (v : Word) {s : Machine.State} (h : Keeps s0 s) :
    Keeps s0 (State.writeSplitctl p v s) := by
  unfold State.writeSplitctl
  try dsimp only
  repeat' (first
    | with_reducible assumption | (intro _; try dsimp only) | with_reducible apply State.gated_keeps
    | with_reducible apply State.take_keeps)

theorem execPgoodCoreLow_keeps {s0 : State} {s : Machine.State} (h : Keeps s0 s) :
    KeepsOut s0 (execPgoodCoreLow s) := by
  unfold execPgoodCoreLow
  try dsimp only
  repeat' (first
    | with_reducible assumption | with_reducible apply State.onHrv_keeps | with_reducible apply State.writeUnsafe_keeps
    | with_reducible apply State.coldAgain_keeps | (with_reducible refine Keeps.doAll (fun _ _ _ => ?_) ?_) <;> try dsimp only
    | with_reducible apply Keeps.next | with_reducible apply Keeps.ite)

theorem execWiden_keeps {s0 : State} (n : Fin 4) {s : Machine.State} (h : Keeps s0 s) :
    KeepsOut s0 (execWiden n s) := by
  unfold execWiden
  try dsimp only
  repeat' (first
    | with_reducible assumption | with_reducible apply State.micro_keeps | with_reducible apply State.onLane_keeps
    | with_reducible apply Keeps.next)

theorem State.writeBrhw_keeps {s0 : State} (p : Sys2Proof.Path) (n : Fin 4) (v : Word) {s : Machine.State} (h : Keeps s0 s) :
    Keeps s0 (State.writeBrhw p n v s) := by
  unfold State.writeBrhw
  try dsimp only
  repeat' (first
    | with_reducible assumption | (intro _; try dsimp only) | with_reducible apply State.gated_keeps
    | with_reducible apply State.put_keeps | with_reducible apply Keeps.next | with_reducible apply Keeps.ite)

theorem State.writeCaldata_keeps {s0 : State} (p : Sys2Proof.Path) (n : Fin 4) (v : Word) {s : Machine.State} (h : Keeps s0 s) :
    Keeps s0 (State.writeCaldata p n v s) := by
  unfold State.writeCaldata
  try dsimp only
  repeat' (first
    | with_reducible assumption | (intro _; try dsimp only) | with_reducible apply State.gated_keeps
    | with_reducible apply State.onLane_keeps | with_reducible apply State.calNext_keeps | with_reducible apply State.wroteWords_keeps)

theorem State.writeEccCtl_keeps {s0 : State} (p : Sys2Proof.Path) (v : Word) {s : Machine.State} (h : Keeps s0 s) :
    Keeps s0 (State.writeEccCtl p v s) := by
  unfold State.writeEccCtl
  try dsimp only
  repeat' (first
    | with_reducible assumption | (intro _; try dsimp only) | with_reducible apply State.gated_keeps
    | with_reducible apply State.put_keeps | (with_reducible refine Keeps.doAll (fun _ _ _ => ?_) ?_) <;> try dsimp only
    | with_reducible apply Keeps.next | with_reducible apply Keeps.ite)

theorem State.writeFlcmd_keeps {s0 : State} (p : Sys2Proof.Path) (v : Word) {s : Machine.State} (h : Keeps s0 s) :
    Keeps s0 (State.writeFlcmd p v s) := by
  unfold State.writeFlcmd
  try dsimp only
  repeat' (first
    | with_reducible assumption | (intro _; try dsimp only) | with_reducible apply State.gated_keeps
    | with_reducible apply State.take_keeps | with_reducible apply State.onBoot_keeps | with_reducible apply State.put_keeps
    | with_reducible apply Keeps.next | with_reducible apply Keeps.ite)

theorem State.writeFlipctl_keeps {s0 : State} (p : Sys2Proof.Path) (v : Word) {s : Machine.State} (h : Keeps s0 s) :
    Keeps s0 (State.writeFlipctl p v s) := by
  unfold State.writeFlipctl
  try dsimp only
  repeat' (first
    | with_reducible assumption | (intro _; try dsimp only) | with_reducible apply State.gated_keeps
    | with_reducible apply State.take_keeps)

theorem State.writeLaneGo_keeps {s0 : State} (p : Sys2Proof.Path) (n : Fin 4) (v : Word) {s : Machine.State} (h : Keeps s0 s) :
    Keeps s0 (State.writeLaneGo p n v s) := by
  unfold State.writeLaneGo
  try dsimp only
  repeat' (first
    | with_reducible assumption | (intro _; try dsimp only) | with_reducible apply State.gated_keeps
    | with_reducible apply State.onLane_keeps | with_reducible apply State.put_keeps | with_reducible apply State.laneActivate_keeps
    | with_reducible apply Keeps.next | with_reducible apply Keeps.ite)

theorem State.writeLsctl_keeps {s0 : State} (p : Sys2Proof.Path) (v : Word) {s : Machine.State} (h : Keeps s0 s) :
    Keeps s0 (State.writeLsctl p v s) := by
  unfold State.writeLsctl
  try dsimp only
  repeat' (first
    | with_reducible assumption | (intro _; try dsimp only) | with_reducible apply State.gated_keeps
    | with_reducible apply State.take_keeps | with_reducible apply State.fresh_keeps | with_reducible apply State.mismatch_keeps
    | with_reducible apply Keeps.next | with_reducible apply Keeps.ite)

theorem State.writeMaxus_keeps {s0 : State} (p : Sys2Proof.Path) (v : Word) {s : Machine.State} (h : Keeps s0 s) :
    Keeps s0 (State.writeMaxus p v s) := by
  unfold State.writeMaxus
  try dsimp only
  repeat' (first
    | with_reducible assumption | (intro _; try dsimp only) | with_reducible apply State.gated_keeps
    | with_reducible apply State.put_keeps | with_reducible apply Keeps.next | with_reducible apply Keeps.ite)

theorem ownWriter_keeps {s0 : State} (a : Nat) : OwnKeeps s0 (ownWriter a) := by
  have sm : ∀ g : Sys2Proof.Path → Word → State → State, (∀ p v s, Keeps s0 s → Keeps s0 (g p v s)) → OwnKeeps s0 (some g) :=
    fun g k f e => by cases e; exact k
  have nn : OwnKeeps s0 none := fun f e => by cases e
  have it : ∀ (c : Prop) [Decidable c] (x y : Option (Sys2Proof.Path → Word → State → State)), OwnKeeps s0 x → OwnKeeps s0 y →
      OwnKeeps s0 (if c then x else y) := fun c _ x y hx hy => by split <;> assumption
  have mp : ∀ (x : Option Nat) (g : Nat → Sys2Proof.Path → Word → State → State), (∀ n p v s, Keeps s0 s → Keeps s0 (g n p v s)) →
      OwnKeeps s0 (x.map g) := fun x g k f e => by
    obtain ⟨n, _, rfl⟩ := Option.map_eq_some_iff.1 e
    exact k n
  unfold ownWriter
  dsimp only
  generalize List.find? (fun i => a == R.EVT_SW_HDR i) (List.range 4) = z0
  generalize List.find? (fun i => a == R.DMA_CH_CTL i) (List.range 16) = z1
  generalize List.find? (fun i => a == R.DMA_CH_DB i) (List.range 16) = z2
  generalize List.find? (fun i => a == R.SHF_SLOT_D0 i) (List.range 16) = z3
  generalize List.find? (fun i => a == R.SHF_SLOT_D1 i) (List.range 16) = z4
  generalize List.find? (fun i => a == R.SCA_SKCMD i) (List.range 4) = z5
  repeat' first
    | with_reducible apply it
    | with_reducible exact nn
    | (with_reducible apply sm; intro p v s h)
    | (with_reducible apply mp; intro n p v s h)
    | split
  all_goals first
    | with_reducible exact State.writeLaneGo_keeps _ _ _ h
    | with_reducible exact State.writeEqmu_keeps _ _ _ h
    | with_reducible exact State.writeBrhw_keeps _ _ _ h
    | with_reducible exact State.writeCaldata_keeps _ _ _ h
    | with_reducible exact State.writePascmd_keeps _ _ _ h
    | with_reducible exact State.writeMcsCtl_keeps _ _ _ h
    | with_reducible exact State.writeLdctl_keeps _ _ _ h
    | with_reducible exact State.writeSysRst_keeps _ _ h
    | with_reducible exact State.writePwrCmd_keeps _ _ h
    | with_reducible exact State.writePadrel_keeps _ _ h
    | with_reducible exact State.writeCauseReg_keeps _ _ h
    | with_reducible exact State.writeEvtCtl_keeps _ _ h
    | with_reducible exact State.writeEvtCmd_keeps _ _ h
    | with_reducible exact State.writeSwHdr_keeps _ _ _ h
    | with_reducible exact State.writeRevoke_keeps _ _ h
    | with_reducible exact State.writeFlcmd_keeps _ _ h
    | with_reducible exact State.writeRcvcmd_keeps _ _ h
    | with_reducible exact State.writeEccCtl_keeps _ _ h
    | with_reducible exact State.writeFlipctl_keeps _ _ h
    | with_reducible exact State.writeSplitctl_keeps _ _ h
    | with_reducible exact State.writeIsstCmd_keeps _ _ h
    | with_reducible exact State.writeCtrGo_keeps _ _ h
    | with_reducible exact State.writeBufAbort_keeps _ _ h
    | with_reducible exact State.writeMapCtl_keeps _ _ h
    | with_reducible exact State.writeMapCmd_keeps _ _ h
    | with_reducible exact State.writeSig_keeps _ _ _ _ h
    | with_reducible exact State.writeDmaCtl_keeps _ _ _ h
    | with_reducible exact State.writeDmaDb_keeps _ _ _ h
    | with_reducible exact State.writeSlot_keeps _ _ _ _ h
    | with_reducible exact State.writeHrvCtl_keeps _ _ h
    | with_reducible exact State.writeHrvGo_keeps _ _ h
    | with_reducible exact State.writeHrvCmd_keeps _ _ h
    | with_reducible exact State.writeSpnCtl_keeps _ _ h
    | with_reducible exact State.writeSpnGo_keeps _ _ h
    | with_reducible exact State.writeScaGo_keeps _ _ h
    | with_reducible exact State.writeScaStat_keeps _ _ h
    | with_reducible exact State.writeFlctl_keeps _ _ h
    | with_reducible exact State.writeSkcmd_keeps _ _ _ h
    | with_reducible exact State.writeSetcmd_keeps _ _ h
    | with_reducible exact State.writeSsdata_keeps _ _ h
    | with_reducible exact State.writeCrysCmd_keeps _ _ h
    | with_reducible exact State.writeMaxus_keeps _ _ h
    | with_reducible exact State.writeTmrInj_keeps _ _ h
    | with_reducible exact State.writeLsctl_keeps _ _ h
    | with_reducible exact State.writeBufCtl_keeps _ _ h

theorem State.writePlain_keeps {s0 : State} (p : Sys2Proof.Path) (a : ℕ) (v : Word) {s : Machine.State} (h : Keeps s0 s) :
    Keeps s0 (State.writePlain p a v s) := by
  unfold State.writePlain
  try dsimp only
  repeat' (first
    | with_reducible assumption | (intro _; try dsimp only) | with_reducible apply State.gated_keeps
    | with_reducible apply State.laneTake_keeps | with_reducible apply State.onServo_keeps | with_reducible apply State.afterTake_keeps
    | with_reducible apply State.take_keeps | with_reducible apply Keeps.next | with_reducible apply Keeps.ite)

theorem State.writeOne_keeps {s0 : State} (p : Sys2Proof.Path) (a : ℕ) (v : Word) {s : Machine.State} (h : Keeps s0 s) :
    Keeps s0 (State.writeOne p a v s) := by
  unfold State.writeOne
  refine Keeps.ite (State.gated_keeps _ _ _ _ _ (fun _ ht => State.clearIgn_keeps _ _ ht) h)
    (Keeps.ite (State.writeWindow_keeps _ _ _ h) ?_)
  split
  · exact ownWriter_keeps _ _ ‹_› _ _ _ h
  · exact State.writePlain_keeps _ _ _ h

theorem State.writeAccess_keeps {s0 : State} (p : Sys2Proof.Path) (a : ℕ) (w : Width) (v : BitVec 64) {s : Machine.State} (h : Keeps s0 s) :
    Keeps s0 (State.writeAccess p a w v s) := by
  unfold State.writeAccess
  try dsimp only
  repeat' (first
    | with_reducible assumption | intro _ | with_reducible apply State.ignore_keeps | with_reducible apply State.writeOne_keeps
    | with_reducible apply Keeps.next | with_reducible apply Keeps.ite | split)

theorem execSmbusRegisterWrite_keeps {s0 : State} (tgt : BitVec 7) (a : Word) (v : Word) (pec : PecIn) {s : Machine.State} (h : Keeps s0 s) :
    KeepsOut s0 (execSmbusRegisterWrite tgt a v pec s) := by
  unfold execSmbusRegisterWrite
  try dsimp only
  repeat' (first
    | with_reducible assumption | with_reducible apply State.writeAccess_keeps | with_reducible apply Keeps.next
    | with_reducible apply Keeps.ite)

theorem execCmderr_keeps {s0 : State} (n : Fin 4) (code : Byte) {s : Machine.State} (h : Keeps s0 s) :
    KeepsOut s0 (execCmderr n code s) := by
  unfold execCmderr
  try dsimp only
  repeat' (first
    | with_reducible assumption | with_reducible apply State.micro_keeps | with_reducible apply State.opBuf_keeps
    | with_reducible apply Keeps.next)

theorem execTimerLoad_keeps {s0 : State} (n : Fin 4) (sel : BitVec 2) (unit : BitVec 2) (imm : BitVec 16) {s : Machine.State} (h : Keeps s0 s) :
    KeepsOut s0 (execTimerLoad n sel unit imm s) := by
  unfold execTimerLoad
  try dsimp only
  repeat' (first
    | with_reducible assumption | with_reducible apply State.micro_keeps | with_reducible apply State.opTimer_keeps
    | (with_reducible refine Keeps.doAll (fun _ _ _ => ?_) ?_) <;> try dsimp only | with_reducible apply Keeps.next
    | with_reducible apply Keeps.ite | split | (intro _; try dsimp only))

theorem execDmaWaitSatisfied_keeps {s0 : State} (n : Fin 16) {s : Machine.State} (h : Keeps s0 s) :
    KeepsOut s0 (execDmaWaitSatisfied n s) := by
  unfold execDmaWaitSatisfied
  try dsimp only
  repeat' (first
    | with_reducible assumption | with_reducible apply State.put_keeps | with_reducible apply State.goTo_keeps
    | with_reducible apply State.setSig_keeps | with_reducible apply Keeps.next | with_reducible apply Keeps.ite | split)

theorem execHsel_keeps {s0 : State} (n : Fin 4) {s : Machine.State} (h : Keeps s0 s) :
    KeepsOut s0 (execHsel n s) := by
  unfold execHsel
  try dsimp only
  repeat' (first
    | with_reducible assumption | with_reducible apply State.micro_keeps | with_reducible apply State.opPreamp_keeps
    | with_reducible apply Keeps.doIf | with_reducible apply Keeps.next | with_reducible apply Keeps.ite | split
    | (intro _; try dsimp only))

theorem State.coastRate_keeps {s0 : State} (n : Fin 4) {s : Machine.State} (h : Keeps s0 s) :
    Keeps s0 (State.coastRate n s) := by
  unfold State.coastRate
  try dsimp only
  repeat' (first
    | with_reducible assumption | intro _ | with_reducible apply State.onLane_keeps | with_reducible apply Keeps.next
    | with_reducible apply Keeps.ite)

theorem State.coastSample_keeps {s0 : State} (a : Fin 4) {s : Machine.State} (h : Keeps s0 s) :
    Keeps s0 (State.coastSample a s) := by
  unfold State.coastSample
  try dsimp only
  repeat' (first
    | with_reducible assumption | intro _ | with_reducible apply State.coastRate_keeps | with_reducible apply State.onLane_keeps
    | with_reducible apply State.coastGo_keeps | with_reducible apply Keeps.next | with_reducible apply Keeps.ite)

theorem execServoSample_keeps {s0 : State} (a : Fin 4) (m : SampleIn) {s : Machine.State} (h : Keeps s0 s) :
    KeepsOut s0 (execServoSample a m s) := by
  unfold execServoSample
  try dsimp only
  repeat' (first
    | with_reducible assumption | with_reducible apply State.coastSample_keeps | with_reducible apply State.sample_keeps
    | with_reducible apply Keeps.next)

theorem execPasFrameDone_keeps {s0 : State} (n : Fin 4) (rdata : Byte) {s : Machine.State} (h : Keeps s0 s) :
    KeepsOut s0 (execPasFrameDone n rdata s) := by
  unfold execPasFrameDone
  try dsimp only
  repeat' (first
    | with_reducible assumption | with_reducible apply State.onLane_keeps | with_reducible apply State.selectHead_keeps
    | with_reducible apply State.put_keeps | with_reducible apply Keeps.next | with_reducible apply Keeps.ite | split)

theorem execJournalTileOnMedia_keeps {s0 : State} {s : Machine.State} (h : Keeps s0 s) :
    KeepsOut s0 (execJournalTileOnMedia s) := by
  unfold execJournalTileOnMedia
  try dsimp only
  repeat' (first
    | with_reducible assumption | with_reducible apply State.pump_keeps | with_reducible apply State.landJournal_keeps
    | with_reducible apply Keeps.next | with_reducible apply Keeps.ite)

theorem execAsynchronousEventRequest_keeps {s0 : State} (e : Sqe) {s : Machine.State} (h : Keeps s0 s) :
    KeepsOut s0 (execAsynchronousEventRequest e s) := by
  unfold execAsynchronousEventRequest
  try dsimp only
  repeat' (first
    | with_reducible assumption | with_reducible apply State.admin_keeps | with_reducible apply State.adminDone_keeps
    | with_reducible apply State.sendAen_keeps | with_reducible apply State.onNvme_keeps | with_reducible apply Keeps.next
    | with_reducible apply Keeps.ite | split | (intro _; try dsimp only))

theorem execVdd3v3Loss_keeps {s0 : State} {s : Machine.State} (h : Keeps s0 s) :
    KeepsOut s0 (execVdd3v3Loss s) := by
  unfold execVdd3v3Loss
  try dsimp only
  repeat' (first
    | with_reducible assumption | with_reducible apply State.onBoot_keeps | with_reducible apply State.coldAgain_keeps
    | with_reducible apply Keeps.next)

theorem execFlashReadPage_keeps {s0 : State} (p : Sys2Proof.Path) (v : Word) {s : Machine.State} (h : Keeps s0 s) :
    KeepsOut s0 (execFlashReadPage p v s) := by
  unfold execFlashReadPage
  try dsimp only
  repeat' (first
    | with_reducible assumption | with_reducible apply State.writeFlcmd_keeps | with_reducible apply Keeps.next)

theorem execCreateIoCompletionQueue_keeps {s0 : State} (e : Sqe) {s : Machine.State} (h : Keeps s0 s) :
    KeepsOut s0 (execCreateIoCompletionQueue e s) := by
  unfold execCreateIoCompletionQueue
  try dsimp only
  repeat' (first
    | with_reducible assumption | with_reducible apply State.admin_keeps | with_reducible apply State.adminDone_keeps
    | with_reducible apply State.onNvme_keeps | with_reducible apply Keeps.next | with_reducible apply Keeps.ite | split
    | (intro _; try dsimp only))

theorem State.beginRead_keeps {s0 : State} (n : Fin 4) (u : LUnit) (c : MediaCmd) (m : BeginIn) {s : Machine.State} (h : Keeps s0 s) :
    Keeps s0 (State.beginRead n u c m s) := by
  unfold State.beginRead
  try dsimp only
  repeat' (first
    | with_reducible assumption | (intro _; try dsimp only) | with_reducible apply State.onLane_keeps
    | with_reducible apply State.setGates_keeps | with_reducible apply State.capture_keeps | with_reducible apply State.put_keeps
    | with_reducible apply State.raise_keeps | with_reducible apply Keeps.doIf | with_reducible apply Keeps.next
    | with_reducible apply Keeps.ite)

theorem execUnitBegin_keeps {s0 : State} (n : Fin 4) (m : BeginIn) {s : Machine.State} (h : Keeps s0 s) :
    KeepsOut s0 (execUnitBegin n m s) := by
  unfold execUnitBegin
  try dsimp only
  repeat' (first
    | with_reducible assumption | with_reducible apply State.beginWrite_keeps | with_reducible apply State.beginRead_keeps
    | with_reducible apply Keeps.next | with_reducible apply Keeps.ite | split)

theorem execIdentify_keeps {s0 : State} (e : Sqe) {s : Machine.State} (h : Keeps s0 s) :
    KeepsOut s0 (execIdentify e s) := by
  unfold execIdentify
  try dsimp only
  repeat' (first
    | with_reducible assumption | with_reducible apply State.admin_keeps | with_reducible apply State.adminDone_keeps
    | with_reducible apply Keeps.next | with_reducible apply Keeps.ite | split | (intro _; try dsimp only))

theorem execTmrLsctlInj_keeps {s0 : State} (p : Sys2Proof.Path) (v : Word) {s : Machine.State} (h : Keeps s0 s) :
    KeepsOut s0 (execTmrLsctlInj p v s) := by
  unfold execTmrLsctlInj
  try dsimp only
  repeat' (first
    | with_reducible assumption | with_reducible apply State.writeLsctl_keeps | with_reducible apply Keeps.next)

theorem execRakeLapSlow_keeps {s0 : State} (t : Fin 12) {s : Machine.State} (h : Keeps s0 s) :
    KeepsOut s0 (execRakeLapSlow t s) := by
  unfold execRakeLapSlow
  try dsimp only
  repeat' (first
    | with_reducible assumption | with_reducible apply State.raiseAt_keeps | with_reducible apply Keeps.next
    | with_reducible apply Keeps.ite)

theorem State.getFeature_keeps {s0 : State} (e : Sqe) {s : Machine.State} (h : Keeps s0 s) :
    Keeps s0 (State.getFeature e s) := by
  unfold State.getFeature
  try dsimp only
  repeat' (first
    | with_reducible assumption | intro _ | with_reducible apply State.adminDone_keeps | with_reducible apply Keeps.next
    | with_reducible apply Keeps.ite | split)

theorem execGetMagazineEnergy_keeps {s0 : State} (e : Sqe) {s : Machine.State} (h : Keeps s0 s) :
    KeepsOut s0 (execGetMagazineEnergy e s) := by
  unfold execGetMagazineEnergy
  try dsimp only
  repeat' (first
    | with_reducible assumption | with_reducible apply State.admin_keeps | with_reducible apply State.getFeature_keeps
    | with_reducible apply State.adminDone_keeps | with_reducible apply Keeps.next | with_reducible apply Keeps.ite | split)

theorem execPgoodBLow_keeps {s0 : State} {s : Machine.State} (h : Keeps s0 s) :
    KeepsOut s0 (execPgoodBLow s) := by
  unfold execPgoodBLow
  try dsimp only
  repeat' (first
    | with_reducible assumption | with_reducible apply State.onBoot_keeps | with_reducible apply State.diapauseFor_keeps
    | with_reducible apply Keeps.next | with_reducible apply Keeps.ite)

theorem execLdb_keeps {s0 : State} (n : Fin 4) (imm : BitVec 12) {s : Machine.State} (h : Keeps s0 s) :
    KeepsOut s0 (execLdb n imm s) := by
  unfold execLdb
  try dsimp only
  repeat' (first
    | with_reducible assumption | with_reducible apply State.micro_keeps | with_reducible apply State.opLc_keeps
    | with_reducible apply Keeps.next)

theorem execSmbusRegisterRead_keeps {s0 : State} (tgt : BitVec 7) {s : Machine.State} (h : Keeps s0 s) :
    KeepsOut s0 (execSmbusRegisterRead tgt s) := by
  unfold execSmbusRegisterRead
  try dsimp only
  repeat' (first
    | with_reducible assumption | with_reducible apply State.readOne_keeps | with_reducible apply State.answer_keeps
    | with_reducible apply Keeps.next | with_reducible apply Keeps.ite)

theorem execGetFeatures_keeps {s0 : State} (e : Sqe) {s : Machine.State} (h : Keeps s0 s) :
    KeepsOut s0 (execGetFeatures e s) := by
  unfold execGetFeatures
  try dsimp only
  repeat' (first
    | with_reducible assumption | with_reducible apply State.admin_keeps | with_reducible apply State.getFeature_keeps
    | with_reducible apply Keeps.next)

theorem execPgoodCoreTimeout_keeps {s0 : State} {s : Machine.State} (h : Keeps s0 s) :
    KeepsOut s0 (execPgoodCoreTimeout s) := by
  unfold execPgoodCoreTimeout
  try dsimp only
  repeat' (first
    | with_reducible assumption | with_reducible apply State.put_keeps | with_reducible apply State.setIso_keeps
    | with_reducible apply State.holdPads_keeps | with_reducible apply State.onHrv_keeps
    | (with_reducible refine Keeps.doAll (fun _ _ _ => ?_) ?_) <;> try dsimp only | with_reducible apply Keeps.next
    | with_reducible apply Keeps.ite)

theorem State.dropCoast_keeps {s0 : State} {s : Machine.State} (h : Keeps s0 s) :
    Keeps s0 (State.dropCoast s) := by
  unfold State.dropCoast
  try dsimp only
  repeat' (first
    | with_reducible assumption | intro _ | with_reducible apply State.onBuf_keeps | with_reducible apply State.setQueue_keeps
    | (with_reducible refine Keeps.doAll (fun _ _ _ => ?_) ?_) <;> try dsimp only)

theorem execReleaseResources_keeps {s0 : State} (e : Sqe) {s : Machine.State} (h : Keeps s0 s) :
    KeepsOut s0 (execReleaseResources e s) := by
  unfold execReleaseResources
  try dsimp only
  repeat' (first
    | with_reducible assumption | with_reducible apply State.directive_keeps | with_reducible apply State.adminDone_keeps
    | with_reducible apply State.onNvme_keeps | with_reducible apply Keeps.next | with_reducible apply Keeps.ite | split
    | (intro _; try dsimp only))

theorem execIsstCmdGo_keeps {s0 : State} (p : Sys2Proof.Path) (v : Word) {s : Machine.State} (h : Keeps s0 s) :
    KeepsOut s0 (execIsstCmdGo p v s) := by
  unfold execIsstCmdGo
  try dsimp only
  repeat' (first
    | with_reducible assumption | with_reducible apply State.writeIsstCmd_keeps | with_reducible apply Keeps.next)

theorem execEngineIterationEnd_keeps {s0 : State} (e : Fin 4) (w : Option Codeword) (store : Bool) {s : Machine.State} (h : Keeps s0 s) :
    KeepsOut s0 (execEngineIterationEnd e w store s) := by
  unfold execEngineIterationEnd
  try dsimp only
  repeat' (first
    | with_reducible assumption | with_reducible apply State.inc_keeps | with_reducible apply State.onEngine_keeps
    | with_reducible apply State.put_keeps | with_reducible apply State.engineEnd_keeps | with_reducible apply Keeps.next
    | with_reducible apply Keeps.ite | split | intro _ | refine Keeps.optS ‹_ = some _› (State.engineStops_keeps _ _ ?_))

theorem execDmaSigset_keeps {s0 : State} (p : Sys2Proof.Path) (i : Fin 2) (v : Word) {s : Machine.State} (h : Keeps s0 s) :
    KeepsOut s0 (execDmaSigset p i v s) := by
  unfold execDmaSigset
  try dsimp only
  repeat' (first
    | with_reducible assumption | with_reducible apply State.writeSig_keeps | with_reducible apply Keeps.next)

theorem execDeleteIoCompletionQueue_keeps {s0 : State} (e : Sqe) {s : Machine.State} (h : Keeps s0 s) :
    KeepsOut s0 (execDeleteIoCompletionQueue e s) := by
  unfold execDeleteIoCompletionQueue
  try dsimp only
  repeat' (first
    | with_reducible assumption | with_reducible apply State.admin_keeps | with_reducible apply State.adminDone_keeps
    | with_reducible apply State.onNvme_keeps | with_reducible apply Keeps.next | with_reducible apply Keeps.ite | split
    | (intro _; try dsimp only))

theorem execCmddone_keeps {s0 : State} (n : Fin 4) {s : Machine.State} (h : Keeps s0 s) :
    KeepsOut s0 (execCmddone n s) := by
  unfold execCmddone
  try dsimp only
  repeat' (first
    | with_reducible assumption | with_reducible apply State.micro_keeps | with_reducible apply State.opBuf_keeps
    | with_reducible apply Keeps.next)

theorem execHarvestLossLog_keeps {s0 : State} (e : Sqe) {s : Machine.State} (h : Keeps s0 s) :
    KeepsOut s0 (execHarvestLossLog e s) := by
  unfold execHarvestLossLog
  try dsimp only
  repeat' (first
    | with_reducible assumption | with_reducible apply State.logPage_keeps | with_reducible apply Keeps.next)

theorem execCall_keeps {s0 : State} (n : Fin 4) (e : WordEnv) {s : Machine.State} (h : Keeps s0 s) :
    KeepsOut s0 (execCall n e s) := by
  unfold execCall
  try dsimp only
  repeat' (first
    | with_reducible assumption | with_reducible apply State.runWord_keeps | with_reducible apply Keeps.next)

theorem execLaneShadowActivate_keeps {s0 : State} (n : Fin 4) {s : Machine.State} (h : Keeps s0 s) :
    KeepsOut s0 (execLaneShadowActivate n s) := by
  unfold execLaneShadowActivate
  try dsimp only
  repeat' (first
    | with_reducible assumption | with_reducible apply State.laneActivate_keeps | with_reducible apply Keeps.next
    | with_reducible apply Keeps.ite)

theorem State.dropEst_keeps {s0 : State} (reason : ℕ) (r : CplRec) {s : Machine.State} (h : Keeps s0 s) :
    Keeps s0 (State.dropEst reason r s) := by
  unfold State.dropEst
  try dsimp only
  repeat' (first
    | with_reducible assumption | intro _ | with_reducible apply State.logSlot_keeps | with_reducible apply State.setSlot_keeps
    | with_reducible apply State.onCtr_keeps | with_reducible apply State.onContract_keeps | with_reducible apply State.adminDone_keeps
    | with_reducible apply State.afterRelease_keeps | with_reducible apply Keeps.next | with_reducible apply Keeps.ite | split)

theorem execAbort_keeps {s0 : State} (e : Sqe) {s : Machine.State} (h : Keeps s0 s) :
    KeepsOut s0 (execAbort e s) := by
  unfold execAbort
  try dsimp only
  repeat' (first
    | with_reducible assumption | with_reducible apply State.admin_keeps | with_reducible apply State.adminDone_keeps
    | with_reducible apply State.dropEst_keeps | with_reducible apply State.put_keeps | with_reducible apply State.abortIo_keeps
    | with_reducible apply Keeps.next | with_reducible apply Keeps.ite | split | (intro _; try dsimp only))

theorem execNext_keeps {s0 : State} (n : Fin 4) {s : Machine.State} (h : Keeps s0 s) :
    KeepsOut s0 (execNext n s) := by
  unfold execNext
  try dsimp only
  repeat' (first
    | with_reducible assumption | with_reducible apply State.micro_keeps | with_reducible apply State.opTile_keeps
    | with_reducible apply Keeps.next)

theorem State.waitClock_keeps {s0 : State} (n : Fin 4) (e : WordEnv) {s : Machine.State} (h : Keeps s0 s) :
    Keeps s0 (State.waitClock n e s) := by
  unfold State.waitClock
  try dsimp only
  repeat' (first
    | with_reducible assumption | intro _ | with_reducible apply State.waitTest_keeps | with_reducible apply State.clocks_keeps
    | with_reducible apply Keeps.next | with_reducible apply Keeps.ite)

theorem execEccCtlClr_keeps {s0 : State} (p : Sys2Proof.Path) (v : Word) {s : Machine.State} (h : Keeps s0 s) :
    KeepsOut s0 (execEccCtlClr p v s) := by
  unfold execEccCtlClr
  try dsimp only
  repeat' (first
    | with_reducible assumption | with_reducible apply State.writeEccCtl_keeps | with_reducible apply Keeps.next)

theorem execJcond_keeps {s0 : State} (n : Fin 4) (e : WordEnv) {s : Machine.State} (h : Keeps s0 s) :
    KeepsOut s0 (execJcond n e s) := by
  unfold execJcond
  try dsimp only
  repeat' (first
    | with_reducible assumption | with_reducible apply State.runWord_keeps | with_reducible apply Keeps.next)

theorem execLd1_keeps {s0 : State} (n : Fin 4) (imm : BitVec 12) {s : Machine.State} (h : Keeps s0 s) :
    KeepsOut s0 (execLd1 n imm s) := by
  unfold execLd1
  try dsimp only
  repeat' (first
    | with_reducible assumption | with_reducible apply State.micro_keeps | with_reducible apply State.opLc_keeps
    | with_reducible apply Keeps.next)

theorem execSmartHealthLog_keeps {s0 : State} (e : Sqe) {s : Machine.State} (h : Keeps s0 s) :
    KeepsOut s0 (execSmartHealthLog e s) := by
  unfold execSmartHealthLog
  try dsimp only
  repeat' (first
    | with_reducible assumption | with_reducible apply State.logPage_keeps | with_reducible apply State.admin_keeps
    | with_reducible apply State.adminDone_keeps | with_reducible apply Keeps.next | with_reducible apply Keeps.ite)

theorem execStart_keeps {s0 : State} (n : Fin 4) (dpath : BitVec 4) (modsel : Byte) (sync : Byte) {s : Machine.State} (h : Keeps s0 s) :
    KeepsOut s0 (execStart n dpath modsel sync s) := by
  unfold execStart
  try dsimp only
  repeat' (first
    | with_reducible assumption | with_reducible apply State.micro_keeps | with_reducible apply State.opTile_keeps
    | with_reducible apply Keeps.next)

theorem execCaldataAccess_keeps {s0 : State} (p : Sys2Proof.Path) (n : Fin 4) (wr : Option Word) (ecc : Bool) {s : Machine.State} (h : Keeps s0 s) :
    KeepsOut s0 (execCaldataAccess p n wr ecc s) := by
  unfold execCaldataAccess
  try dsimp only
  repeat' (first
    | with_reducible assumption | with_reducible apply State.writeCaldata_keeps | with_reducible apply State.readCaldata_keeps
    | with_reducible apply Keeps.next | with_reducible apply Keeps.ite | split)

theorem execSmbusSetAddress_keeps {s0 : State} (tgt : BitVec 7) (a : Word) (pec : PecIn) {s : Machine.State} (h : Keeps s0 s) :
    KeepsOut s0 (execSmbusSetAddress tgt a pec s) := by
  unfold execSmbusSetAddress
  try dsimp only
  repeat' (first
    | with_reducible assumption | with_reducible apply Keeps.next | with_reducible apply Keeps.ite | split | intro _
    | fail_if_no_progress (with_reducible apply Keeps.upd))

theorem execLaneGo_keeps {s0 : State} (p : Sys2Proof.Path) (n : Fin 4) (v : Word) {s : Machine.State} (h : Keeps s0 s) :
    KeepsOut s0 (execLaneGo p n v s) := by
  unfold execLaneGo
  try dsimp only
  repeat' (first
    | with_reducible assumption | with_reducible apply State.writeLaneGo_keeps | with_reducible apply Keeps.next)

theorem execEnableDirective_keeps {s0 : State} (e : Sqe) {s : Machine.State} (h : Keeps s0 s) :
    KeepsOut s0 (execEnableDirective e s) := by
  unfold execEnableDirective
  try dsimp only
  repeat' (first
    | with_reducible assumption | with_reducible apply State.directive_keeps | with_reducible apply State.adminDone_keeps
    | with_reducible apply State.onNvme_keeps | with_reducible apply Keeps.next | with_reducible apply Keeps.ite | split
    | (intro _; try dsimp only))

theorem execTimerExpire_keeps {s0 : State} (n : Fin 4) (t : Fin 2) {s : Machine.State} (h : Keeps s0 s) :
    KeepsOut s0 (execTimerExpire n t s) := by
  unfold execTimerExpire
  try dsimp only
  repeat' (first
    | with_reducible assumption | with_reducible apply State.micro_keeps | with_reducible apply State.tickTimer_keeps
    | with_reducible apply Keeps.next)

theorem execClroff_keeps {s0 : State} (n : Fin 4) {s : Machine.State} (h : Keeps s0 s) :
    KeepsOut s0 (execClroff n s) := by
  unfold execClroff
  try dsimp only
  repeat' (first
    | with_reducible assumption | with_reducible apply State.micro_keeps | with_reducible apply State.opServo_keeps
    | with_reducible apply Keeps.next)

theorem execTapInstruction_keeps {s0 : State} (ir : TapInstr) {s : Machine.State} (h : Keeps s0 s) :
    KeepsOut s0 (execTapInstruction ir s) := by
  unfold execTapInstruction
  try dsimp only
  repeat' (first
    | with_reducible assumption | with_reducible apply Keeps.next | with_reducible apply Keeps.ite | split | intro _
    | fail_if_no_progress (with_reducible apply Keeps.upd))

theorem execRejoinReset_keeps {s0 : State} {s : Machine.State} (h : Keeps s0 s) :
    KeepsOut s0 (execRejoinReset s) := by
  unfold execRejoinReset
  try dsimp only
  repeat' (first
    | with_reducible assumption | with_reducible apply State.coldAgain_keeps | with_reducible apply Keeps.next
    | with_reducible apply Keeps.ite)

theorem execMeasurementLog_keeps {s0 : State} (e : Sqe) {s : Machine.State} (h : Keeps s0 s) :
    KeepsOut s0 (execMeasurementLog e s) := by
  unfold execMeasurementLog
  try dsimp only
  repeat' (first
    | with_reducible assumption | with_reducible apply State.logPage_keeps | with_reducible apply Keeps.next)

theorem execLoop_keeps {s0 : State} (n : Fin 4) (e : WordEnv) {s : Machine.State} (h : Keeps s0 s) :
    KeepsOut s0 (execLoop n e s) := by
  unfold execLoop
  try dsimp only
  repeat' (first
    | with_reducible assumption | with_reducible apply State.runWord_keeps | with_reducible apply Keeps.next)

theorem execClrst_keeps {s0 : State} (n : Fin 4) {s : Machine.State} (h : Keeps s0 s) :
    KeepsOut s0 (execClrst n s) := by
  unfold execClrst
  try dsimp only
  repeat' (first
    | with_reducible assumption | with_reducible apply State.micro_keeps | with_reducible apply State.opTile_keeps
    | with_reducible apply Keeps.next)

theorem execCrysDispatch_keeps {s0 : State} {s : Machine.State} (h : Keeps s0 s) :
    KeepsOut s0 (execCrysDispatch s) := by
  unfold execCrysDispatch
  try dsimp only
  repeat' (first
    | with_reducible assumption | with_reducible apply State.onCrys_keeps | with_reducible apply State.onEngine_keeps
    | with_reducible apply State.syncCrys_keeps | with_reducible apply State.put_keeps | with_reducible apply Keeps.next
    | with_reducible apply Keeps.ite | split)

theorem execDmaWait_keeps {s0 : State} (n : Fin 16) {s : Machine.State} (h : Keeps s0 s) :
    KeepsOut s0 (execDmaWait n s) := by
  unfold execDmaWait
  try dsimp only
  repeat' (first
    | with_reducible assumption | with_reducible apply State.dmaIns_keeps | with_reducible apply State.goTo_keeps
    | with_reducible apply State.setSig_keeps | with_reducible apply State.put_keeps | with_reducible apply State.onDma_keeps
    | with_reducible apply Keeps.next | with_reducible apply Keeps.ite | split | (intro _; try dsimp only))

theorem execFlashOpDone_keeps {s0 : State} (ok : Bool) {s : Machine.State} (h : Keeps s0 s) :
    KeepsOut s0 (execFlashOpDone ok s) := by
  unfold execFlashOpDone
  try dsimp only
  repeat' (first
    | with_reducible assumption | with_reducible apply State.onBoot_keeps | with_reducible apply State.put_keeps
    | with_reducible apply State.spoilOp_keeps | with_reducible apply Keeps.setReg | with_reducible apply Keeps.program
    | with_reducible apply Keeps.eraseFlash | (with_reducible refine Keeps.doAll (fun _ _ _ => ?_) ?_) <;> try dsimp only
    | with_reducible apply Keeps.next | with_reducible apply Keeps.ite | split)

theorem execPcieError_keeps {s0 : State} (corr : Bool) (xfer : Option ℕ) {s : Machine.State} (h : Keeps s0 s) :
    KeepsOut s0 (execPcieError corr xfer s) := by
  unfold execPcieError
  try dsimp only
  repeat' (first
    | with_reducible assumption | with_reducible apply State.raise_keeps | with_reducible apply State.transferFails_keeps
    | with_reducible apply Keeps.next | with_reducible apply Keeps.ite | split)

theorem execDec1_keeps {s0 : State} (n : Fin 4) {s : Machine.State} (h : Keeps s0 s) :
    KeepsOut s0 (execDec1 n s) := by
  unfold execDec1
  try dsimp only
  repeat' (first
    | with_reducible assumption | with_reducible apply State.micro_keeps | with_reducible apply State.opLc_keeps
    | with_reducible apply Keeps.next)

theorem execCrysEngon_keeps {s0 : State} (p : Sys2Proof.Path) (v : Word) {s : Machine.State} (h : Keeps s0 s) :
    KeepsOut s0 (execCrysEngon p v s) := by
  unfold execCrysEngon
  try dsimp only
  repeat' (first
    | with_reducible assumption | with_reducible apply State.writeCrysCmd_keeps | with_reducible apply Keeps.next)

theorem execQueryContracts_keeps {s0 : State} (e : Sqe) {s : Machine.State} (h : Keeps s0 s) :
    KeepsOut s0 (execQueryContracts e s) := by
  unfold execQueryContracts
  try dsimp only
  repeat' (first
    | with_reducible assumption | with_reducible apply State.admin_keeps | with_reducible apply State.adminDone_keeps
    | with_reducible apply Keeps.next | with_reducible apply Keeps.ite | split | (intro _; try dsimp only))

theorem execDefect_keeps {s0 : State} (n : Fin 4) {s : Machine.State} (h : Keeps s0 s) :
    KeepsOut s0 (execDefect n s) := by
  unfold execDefect
  try dsimp only
  repeat' (first
    | with_reducible assumption | with_reducible apply State.micro_keeps | with_reducible apply State.opTile_keeps
    | with_reducible apply Keeps.next)

theorem State.flutterResult_keeps {s0 : State} (r : Fin 16 × ℕ × ℕ) {s : Machine.State} (h : Keeps s0 s) :
    Keeps s0 (State.flutterResult r s) := by
  unfold State.flutterResult
  try dsimp only
  repeat' (first
    | with_reducible assumption | intro _ | with_reducible apply State.fwEvent_keeps | with_reducible apply Keeps.setReg
    | with_reducible apply State.onServo_keeps | (with_reducible refine Keeps.doAll (fun _ _ _ => ?_) ?_) <;> try dsimp only
    | with_reducible apply Keeps.next | with_reducible apply Keeps.ite)

theorem execFlutterStartupDone_keeps {s0 : State} (rs : List (Fin 16 × ℕ × ℕ)) {s : Machine.State} (h : Keeps s0 s) :
    KeepsOut s0 (execFlutterStartupDone rs s) := by
  unfold execFlutterStartupDone
  try dsimp only
  repeat' (first
    | with_reducible assumption | with_reducible apply State.flutterResult_keeps | with_reducible apply State.onHrv_keeps
    | with_reducible apply State.countersRecord_keeps | (with_reducible refine Keeps.doAll (fun _ _ _ => ?_) ?_) <;> try dsimp only
    | with_reducible apply Keeps.next | with_reducible apply Keeps.ite | split | intro _
    | fail_if_no_progress (with_reducible apply Keeps.upd))

theorem execDmaEnd_keeps {s0 : State} (n : Fin 16) {s : Machine.State} (h : Keeps s0 s) :
    KeepsOut s0 (execDmaEnd n s) := by
  unfold execDmaEnd
  try dsimp only
  repeat' (first
    | with_reducible assumption | with_reducible apply State.dmaIns_keeps | with_reducible apply State.latchEnd_keeps
    | with_reducible apply State.put_keeps | with_reducible apply Keeps.next | with_reducible apply Keeps.ite | split
    | (intro _; try dsimp only))

theorem execEstablishLocked_keeps {s0 : State} {s : Machine.State} (h : Keeps s0 s) :
    KeepsOut s0 (execEstablishLocked s) := by
  unfold execEstablishLocked
  try dsimp only
  repeat' (first
    | with_reducible assumption | with_reducible apply State.dropEst_keeps | with_reducible apply State.step7_keeps
    | with_reducible apply Keeps.next | with_reducible apply Keeps.ite | split)

theorem execUnload_keeps {s0 : State} (n : Fin 4) {s : Machine.State} (h : Keeps s0 s) :
    KeepsOut s0 (execUnload n s) := by
  unfold execUnload
  try dsimp only
  repeat' (first
    | with_reducible assumption | with_reducible apply State.micro_keeps | with_reducible apply State.opServo_keeps
    | with_reducible apply Keeps.next)

theorem State.sliceOver_keeps {s0 : State} (pass : Bool) {s : Machine.State} (h : Keeps s0 s) :
    Keeps s0 (State.sliceOver pass s) := by
  unfold State.sliceOver
  try dsimp only
  repeat' (first
    | with_reducible assumption | intro _ | with_reducible apply State.add_keeps | with_reducible apply State.put_keeps
    | with_reducible apply State.raiseAt_keeps | with_reducible apply State.endSlice_keeps | with_reducible apply State.pump_keeps
    | with_reducible apply State.laneLeft_keeps | with_reducible apply State.fwEvent_keeps
    | with_reducible apply State.startSlice_keeps | with_reducible apply Keeps.next | with_reducible apply Keeps.ite | split
    | fail_if_no_progress (with_reducible apply Keeps.upd))

theorem execIsstBlockEnd_keeps {s0 : State} (ok : Bool) {s : Machine.State} (h : Keeps s0 s) :
    KeepsOut s0 (execIsstBlockEnd ok s) := by
  unfold execIsstBlockEnd
  try dsimp only
  repeat' (first
    | with_reducible assumption | with_reducible apply State.sliceOver_keeps | with_reducible apply State.put_keeps
    | with_reducible apply Keeps.next | with_reducible apply Keeps.ite | split | intro _
    | fail_if_no_progress (with_reducible apply Keeps.upd))

theorem execAgchold_keeps {s0 : State} (n : Fin 4) {s : Machine.State} (h : Keeps s0 s) :
    KeepsOut s0 (execAgchold n s) := by
  unfold execAgchold
  try dsimp only
  repeat' (first
    | with_reducible assumption | with_reducible apply State.micro_keeps | with_reducible apply State.onLane_keeps
    | with_reducible apply Keeps.next)

theorem execFlushq_keeps {s0 : State} (n : Fin 4) {s : Machine.State} (h : Keeps s0 s) :
    KeepsOut s0 (execFlushq n s) := by
  unfold execFlushq
  try dsimp only
  repeat' (first
    | with_reducible assumption | with_reducible apply State.micro_keeps | with_reducible apply State.opBuf_keeps
    | with_reducible apply Keeps.next)

theorem execPgoodCoreReturn_keeps {s0 : State} {s : Machine.State} (h : Keeps s0 s) :
    KeepsOut s0 (execPgoodCoreReturn s) := by
  unfold execPgoodCoreReturn
  try dsimp only
  repeat' (first
    | with_reducible assumption | with_reducible apply State.onHrv_keeps | with_reducible apply State.coastGo_keeps
    | with_reducible apply State.dropCoast_keeps | with_reducible apply Keeps.next | with_reducible apply Keeps.ite)

theorem execDmaChAbort_keeps {s0 : State} (p : Sys2Proof.Path) (n : Fin 16) (v : Word) {s : Machine.State} (h : Keeps s0 s) :
    KeepsOut s0 (execDmaChAbort p n v s) := by
  unfold execDmaChAbort
  try dsimp only
  repeat' (first
    | with_reducible assumption | with_reducible apply State.writeDmaCtl_keeps | with_reducible apply Keeps.next)

theorem execCheckpointDone_keeps {s0 : State} (retried : Bool) {s : Machine.State} (h : Keeps s0 s) :
    KeepsOut s0 (execCheckpointDone retried s) := by
  unfold execCheckpointDone
  try dsimp only
  repeat' (first
    | with_reducible assumption | with_reducible apply State.ckptFail_keeps | with_reducible apply State.onMedia_keeps
    | with_reducible apply State.onMap_keeps | with_reducible apply State.pump_keeps | with_reducible apply State.keelBegin_keeps
    | with_reducible apply Keeps.next | with_reducible apply Keeps.ite | split)

theorem execDmaLoop_keeps {s0 : State} (n : Fin 16) {s : Machine.State} (h : Keeps s0 s) :
    KeepsOut s0 (execDmaLoop n s) := by
  unfold execDmaLoop
  try dsimp only
  repeat' (first
    | with_reducible assumption | with_reducible apply State.dmaIns_keeps | with_reducible apply State.chFault_keeps
    | with_reducible apply State.goTo_keeps | with_reducible apply State.setLoops_keeps | with_reducible apply Keeps.next
    | with_reducible apply Keeps.ite | split | (intro _; try dsimp only))

theorem execContractLog_keeps {s0 : State} (e : Sqe) {s : Machine.State} (h : Keeps s0 s) :
    KeepsOut s0 (execContractLog e s) := by
  unfold execContractLog
  try dsimp only
  repeat' (first
    | with_reducible assumption | with_reducible apply State.logPage_keeps | with_reducible apply Keeps.next)

theorem execSetAsyncEventConfiguration_keeps {s0 : State} (e : Sqe) {s : Machine.State} (h : Keeps s0 s) :
    KeepsOut s0 (execSetAsyncEventConfiguration e s) := by
  unfold execSetAsyncEventConfiguration
  try dsimp only
  repeat' (first
    | with_reducible assumption | cases ‹Except.ok _ = Except.ok _› | cases ‹Except.error _ = Except.ok _› | split
    | with_reducible apply State.setFeature_keeps | with_reducible apply State.onFeats_keeps | with_reducible apply Keeps.next
    | with_reducible apply Keeps.ite | (intro _; try dsimp only))

theorem execMicrocodeEvent_keeps {s0 : State} (n : Fin 4) (code : Byte) (imm : BitVec 16) {s : Machine.State} (h : Keeps s0 s) :
    KeepsOut s0 (execMicrocodeEvent n code imm s) := by
  unfold execMicrocodeEvent
  try dsimp only
  repeat' (first
    | with_reducible assumption | with_reducible apply State.micro_keeps | with_reducible apply State.opEvt_keeps
    | with_reducible apply Keeps.next)

theorem execEccFlipArm_keeps {s0 : State} (p : Sys2Proof.Path) (v : Word) {s : Machine.State} (h : Keeps s0 s) :
    KeepsOut s0 (execEccFlipArm p v s) := by
  unfold execEccFlipArm
  try dsimp only
  repeat' (first
    | with_reducible assumption | with_reducible apply State.writeFlipctl_keeps | with_reducible apply Keeps.next)

theorem execDmaJump_keeps {s0 : State} (n : Fin 16) {s : Machine.State} (h : Keeps s0 s) :
    KeepsOut s0 (execDmaJump n s) := by
  unfold execDmaJump
  try dsimp only
  repeat' (first
    | with_reducible assumption | with_reducible apply State.dmaIns_keeps | with_reducible apply State.chFault_keeps
    | with_reducible apply State.goTo_keeps | with_reducible apply Keeps.next | with_reducible apply Keeps.ite | split
    | (intro _; try dsimp only))

theorem execCont_keeps {s0 : State} (n : Fin 4) (e : WordEnv) {s : Machine.State} (h : Keeps s0 s) :
    KeepsOut s0 (execCont n e s) := by
  unfold execCont
  try dsimp only
  repeat' (first
    | with_reducible assumption | with_reducible apply State.runWord_keeps | with_reducible apply Keeps.next)

theorem execColdReset_keeps {s0 : State} (strap : Fin 8) {s : Machine.State} (h : Keeps s0 s) :
    KeepsOut s0 (execColdReset strap s) := by
  unfold execColdReset
  try dsimp only
  repeat' (first
    | with_reducible assumption | with_reducible apply State.coldReset_keeps | with_reducible apply Keeps.next
    | with_reducible apply Keeps.ite)

theorem execSeek_keeps {s0 : State} (n : Fin 4) {s : Machine.State} (h : Keeps s0 s) :
    KeepsOut s0 (execSeek n s) := by
  unfold execSeek
  try dsimp only
  repeat' (first
    | with_reducible assumption | with_reducible apply State.micro_keeps | with_reducible apply State.opServo_keeps
    | with_reducible apply Keeps.next)

theorem execErrorInformationLog_keeps {s0 : State} (e : Sqe) {s : Machine.State} (h : Keeps s0 s) :
    KeepsOut s0 (execErrorInformationLog e s) := by
  unfold execErrorInformationLog
  try dsimp only
  repeat' (first
    | with_reducible assumption | with_reducible apply State.logPage_keeps | with_reducible apply Keeps.next)

theorem execSetload_keeps {s0 : State} (n : Fin 4) {s : Machine.State} (h : Keeps s0 s) :
    KeepsOut s0 (execSetload n s) := by
  unfold execSetload
  try dsimp only
  repeat' (first
    | with_reducible assumption | with_reducible apply State.micro_keeps | with_reducible apply State.opTile_keeps
    | with_reducible apply Keeps.next)

theorem execEstablishDrainDone_keeps {s0 : State} {s : Machine.State} (h : Keeps s0 s) :
    KeepsOut s0 (execEstablishDrainDone s) := by
  unfold execEstablishDrainDone
  try dsimp only
  repeat' (first
    | with_reducible assumption | with_reducible apply State.onCtr_keeps | with_reducible apply Keeps.next
    | with_reducible apply Keeps.ite | split)

theorem execRegisterWrite_keeps {s0 : State} (p : Sys2Proof.Path) (a : Word) (w : Width) (v : BitVec 64) {s : Machine.State} (h : Keeps s0 s) :
    KeepsOut s0 (execRegisterWrite p a w v s) := by
  unfold execRegisterWrite
  try dsimp only
  repeat' (first
    | with_reducible assumption | with_reducible apply State.writeAccess_keeps | with_reducible apply Keeps.next)

theorem execTimerRestart_keeps {s0 : State} (n : Fin 4) (sel : BitVec 2) {s : Machine.State} (h : Keeps s0 s) :
    KeepsOut s0 (execTimerRestart n sel s) := by
  unfold execTimerRestart
  try dsimp only
  repeat' (first
    | with_reducible assumption | with_reducible apply State.micro_keeps | with_reducible apply State.opTimer_keeps
    | (with_reducible refine Keeps.doAll (fun _ _ _ => ?_) ?_) <;> try dsimp only | with_reducible apply Keeps.next
    | with_reducible apply Keeps.ite | split | (intro _; try dsimp only))

theorem execSetAcousticCeiling_keeps {s0 : State} (e : Sqe) {s : Machine.State} (h : Keeps s0 s) :
    KeepsOut s0 (execSetAcousticCeiling e s) := by
  unfold execSetAcousticCeiling
  try dsimp only
  repeat' (first
    | with_reducible assumption | cases ‹Except.ok _ = Except.ok _› | cases ‹Except.error _ = Except.ok _› | split
    | with_reducible apply State.setFeature_keeps | with_reducible apply State.setAcou_keeps | with_reducible apply Keeps.next
    | with_reducible apply Keeps.ite | (intro _; try dsimp only))

theorem execOffset_keeps {s0 : State} (n : Fin 4) (imm : BitVec 16) {s : Machine.State} (h : Keeps s0 s) :
    KeepsOut s0 (execOffset n imm s) := by
  unfold execOffset
  try dsimp only
  repeat' (first
    | with_reducible assumption | with_reducible apply State.micro_keeps | with_reducible apply State.opServo_keeps
    | with_reducible apply Keeps.next)

theorem execCreateIoSubmissionQueue_keeps {s0 : State} (e : Sqe) {s : Machine.State} (h : Keeps s0 s) :
    KeepsOut s0 (execCreateIoSubmissionQueue e s) := by
  unfold execCreateIoSubmissionQueue
  try dsimp only
  repeat' (first
    | with_reducible assumption | with_reducible apply State.admin_keeps | with_reducible apply State.adminDone_keeps
    | with_reducible apply State.onNvme_keeps | with_reducible apply Keeps.next | with_reducible apply Keeps.ite | split
    | (intro _; try dsimp only))

theorem execAbandon_keeps {s0 : State} (n : Fin 4) {s : Machine.State} (h : Keeps s0 s) :
    KeepsOut s0 (execAbandon n s) := by
  unfold execAbandon
  try dsimp only
  repeat' (first
    | with_reducible assumption | with_reducible apply State.micro_keeps | with_reducible apply State.opTile_keeps
    | with_reducible apply Keeps.next)

theorem execUnloadComplete_keeps {s0 : State} (a : Fin 4) {s : Machine.State} (h : Keeps s0 s) :
    KeepsOut s0 (execUnloadComplete a s) := by
  unfold execUnloadComplete
  try dsimp only
  repeat' (first
    | with_reducible assumption | with_reducible apply State.endMove_keeps | with_reducible apply State.putBit_keeps
    | with_reducible apply State.onAct_keeps | with_reducible apply State.put_keeps | with_reducible apply State.pump_keeps
    | with_reducible apply State.laneLeft_keeps | with_reducible apply State.onLane_keeps | with_reducible apply State.stopUnload_keeps
    | with_reducible apply State.endPark_keeps | with_reducible apply Keeps.next | with_reducible apply Keeps.ite)

theorem execRewind_keeps {s0 : State} (n : Fin 4) {s : Machine.State} (h : Keeps s0 s) :
    KeepsOut s0 (execRewind n s) := by
  unfold execRewind
  try dsimp only
  repeat' (first
    | with_reducible assumption | with_reducible apply State.micro_keeps | with_reducible apply State.opTile_keeps
    | with_reducible apply Keeps.next)

theorem execRet_keeps {s0 : State} (n : Fin 4) (e : WordEnv) {s : Machine.State} (h : Keeps s0 s) :
    KeepsOut s0 (execRet n e s) := by
  unfold execRet
  try dsimp only
  repeat' (first
    | with_reducible assumption | with_reducible apply State.runWord_keeps | with_reducible apply Keeps.next)

theorem execSetTemperatureThreshold_keeps {s0 : State} (e : Sqe) {s : Machine.State} (h : Keeps s0 s) :
    KeepsOut s0 (execSetTemperatureThreshold e s) := by
  unfold execSetTemperatureThreshold
  try dsimp only
  repeat' (first
    | with_reducible assumption | cases ‹Except.ok _ = Except.ok _› | cases ‹Except.error _ = Except.ok _› | split
    | with_reducible apply State.setFeature_keeps | with_reducible apply State.put_keeps | with_reducible apply State.onFeats_keeps
    | with_reducible apply Keeps.next | with_reducible apply Keeps.ite | (intro _; try dsimp only))

theorem execEccSplitEn_keeps {s0 : State} (p : Sys2Proof.Path) (v : Word) {s : Machine.State} (h : Keeps s0 s) :
    KeepsOut s0 (execEccSplitEn p v s) := by
  unfold execEccSplitEn
  try dsimp only
  repeat' (first
    | with_reducible assumption | with_reducible apply State.writeSplitctl_keeps | with_reducible apply Keeps.next)

theorem execFlashErase_keeps {s0 : State} (p : Sys2Proof.Path) (v : Word) {s : Machine.State} (h : Keeps s0 s) :
    KeepsOut s0 (execFlashErase p v s) := by
  unfold execFlashErase
  try dsimp only
  repeat' (first
    | with_reducible assumption | with_reducible apply State.writeFlcmd_keeps | with_reducible apply Keeps.next)

theorem execBrhwClr_keeps {s0 : State} (p : Sys2Proof.Path) (n : Fin 4) (v : Word) {s : Machine.State} (h : Keeps s0 s) :
    KeepsOut s0 (execBrhwClr p n v s) := by
  unfold execBrhwClr
  try dsimp only
  repeat' (first
    | with_reducible assumption | with_reducible apply State.writeBrhw_keeps | with_reducible apply Keeps.next)

theorem execSmbusTimeout_keeps {s0 : State} {s : Machine.State} (h : Keeps s0 s) :
    KeepsOut s0 (execSmbusTimeout s) := by
  unfold execSmbusTimeout
  try dsimp only
  repeat' (first
    | with_reducible assumption | with_reducible apply Keeps.next | with_reducible apply Keeps.ite | split | intro _
    | fail_if_no_progress (with_reducible apply Keeps.upd))

theorem execDmaChResume_keeps {s0 : State} (p : Sys2Proof.Path) (n : Fin 16) (v : Word) {s : Machine.State} (h : Keeps s0 s) :
    KeepsOut s0 (execDmaChResume p n v s) := by
  unfold execDmaChResume
  try dsimp only
  repeat' (first
    | with_reducible assumption | with_reducible apply State.writeDmaCtl_keeps | with_reducible apply Keeps.next)

theorem execPafltAssert_keeps {s0 : State} (n : Fin 4) (level : Bool) {s : Machine.State} (h : Keeps s0 s) :
    KeepsOut s0 (execPafltAssert n level s) := by
  unfold execPafltAssert
  try dsimp only
  repeat' (first
    | with_reducible assumption | with_reducible apply State.onLane_keeps | with_reducible apply State.raise_keeps
    | with_reducible apply State.writeUnsafe_keeps | with_reducible apply Keeps.next | with_reducible apply Keeps.ite)

theorem execFlashProgram_keeps {s0 : State} (p : Sys2Proof.Path) (v : Word) {s : Machine.State} (h : Keeps s0 s) :
    KeepsOut s0 (execFlashProgram p v s) := by
  unfold execFlashProgram
  try dsimp only
  repeat' (first
    | with_reducible assumption | with_reducible apply State.writeFlcmd_keeps | with_reducible apply Keeps.next)

theorem execRequeue_keeps {s0 : State} (n : Fin 4) {s : Machine.State} (h : Keeps s0 s) :
    KeepsOut s0 (execRequeue n s) := by
  unfold execRequeue
  try dsimp only
  repeat' (first
    | with_reducible assumption | with_reducible apply State.micro_keeps | with_reducible apply State.opBuf_keeps
    | with_reducible apply Keeps.next)

theorem execEstablishLockTimeout_keeps {s0 : State} {s : Machine.State} (h : Keeps s0 s) :
    KeepsOut s0 (execEstablishLockTimeout s) := by
  unfold execEstablishLockTimeout
  try dsimp only
  repeat' (first
    | with_reducible assumption | with_reducible apply State.dropEst_keeps | with_reducible apply Keeps.next
    | with_reducible apply Keeps.ite | split)

theorem execSetArbitration_keeps {s0 : State} (e : Sqe) {s : Machine.State} (h : Keeps s0 s) :
    KeepsOut s0 (execSetArbitration e s) := by
  unfold execSetArbitration
  try dsimp only
  repeat' (first
    | with_reducible assumption | cases ‹Except.ok _ = Except.ok _› | cases ‹Except.error _ = Except.ok _› | split
    | with_reducible apply State.setFeature_keeps | with_reducible apply State.onFeats_keeps | with_reducible apply Keeps.next
    | with_reducible apply Keeps.ite | (intro _; try dsimp only))

theorem execSynthLockLoss_keeps {s0 : State} (n : Fin 4) {s : Machine.State} (h : Keeps s0 s) :
    KeepsOut s0 (execSynthLockLoss n s) := by
  unfold execSynthLockLoss
  try dsimp only
  repeat' (first
    | with_reducible assumption | with_reducible apply State.raise_keeps | with_reducible apply State.put_keeps
    | with_reducible apply State.writeUnsafe_keeps | with_reducible apply Keeps.next | with_reducible apply Keeps.ite)

theorem execCrysMaxusClr_keeps {s0 : State} (p : Sys2Proof.Path) (v : Word) {s : Machine.State} (h : Keeps s0 s) :
    KeepsOut s0 (execCrysMaxusClr p v s) := by
  unfold execCrysMaxusClr
  try dsimp only
  repeat' (first
    | with_reducible assumption | with_reducible apply State.writeMaxus_keeps | with_reducible apply Keeps.next)

theorem execFirmwareSlotLog_keeps {s0 : State} (e : Sqe) {s : Machine.State} (h : Keeps s0 s) :
    KeepsOut s0 (execFirmwareSlotLog e s) := by
  unfold execFirmwareSlotLog
  try dsimp only
  repeat' (first
    | with_reducible assumption | with_reducible apply State.logPage_keeps | with_reducible apply Keeps.next)

theorem execNvmeMiBasicManagement_keeps {s0 : State} (tgt : BitVec 7) (off : BitVec 6) (len : BitVec 7) {s : Machine.State} (h : Keeps s0 s) :
    KeepsOut s0 (execNvmeMiBasicManagement tgt off len s) := by
  unfold execNvmeMiBasicManagement
  try dsimp only
  repeat' (first
    | with_reducible assumption | with_reducible apply State.answer_keeps | with_reducible apply Keeps.next
    | with_reducible apply Keeps.ite)

theorem execReleaseContract_keeps {s0 : State} (e : Sqe) {s : Machine.State} (h : Keeps s0 s) :
    KeepsOut s0 (execReleaseContract e s) := by
  unfold execReleaseContract
  try dsimp only
  repeat' (first
    | with_reducible assumption | with_reducible apply State.admin_keeps | with_reducible apply State.adminDone_keeps
    | with_reducible apply State.logSlot_keeps | with_reducible apply State.setSlot_keeps
    | with_reducible apply State.afterRelease_keeps | with_reducible apply State.onContract_keeps | with_reducible apply Keeps.next
    | with_reducible apply Keeps.ite | split | (intro _; try dsimp only))

theorem execRakeLapEnd_keeps {s0 : State} (t : Fin 12) (ms : Word) {s : Machine.State} (h : Keeps s0 s) :
    KeepsOut s0 (execRakeLapEnd t ms s) := by
  unfold execRakeLapEnd
  try dsimp only
  repeat' (first
    | with_reducible assumption | with_reducible apply State.put_keeps | with_reducible apply State.inc_keeps
    | with_reducible apply State.digestCheck_keeps | with_reducible apply Keeps.next | with_reducible apply Keeps.ite)

theorem execCountersRecord_keeps {s0 : State} {s : Machine.State} (h : Keeps s0 s) :
    KeepsOut s0 (execCountersRecord s) := by
  unfold execCountersRecord
  try dsimp only
  repeat' (first
    | with_reducible assumption | with_reducible apply State.countersRecord_keeps | with_reducible apply Keeps.next)

theorem execSetLoadComplete_keeps {s0 : State} (n : Fin 4) (ecc : Bool) {s : Machine.State} (h : Keeps s0 s) :
    KeepsOut s0 (execSetLoadComplete n ecc s) := by
  unfold execSetLoadComplete
  try dsimp only
  repeat' (first
    | with_reducible assumption | with_reducible apply State.readWords_keeps | with_reducible apply State.onLane_keeps
    | with_reducible apply State.put_keeps | with_reducible apply State.raise_keeps | with_reducible apply Keeps.setReg
    | with_reducible apply Keeps.next | with_reducible apply Keeps.ite | split)

theorem execWaitc_keeps {s0 : State} (n : Fin 4) (e : WordEnv) {s : Machine.State} (h : Keeps s0 s) :
    KeepsOut s0 (execWaitc n e s) := by
  unfold execWaitc
  try dsimp only
  repeat' (first
    | with_reducible assumption | with_reducible apply State.waitClock_keeps | with_reducible apply State.runWord_keeps
    | (with_reducible refine Keeps.doAll (fun _ _ _ => ?_) ?_) <;> try dsimp only | with_reducible apply Keeps.next
    | with_reducible apply Keeps.ite)

theorem execTrapret_keeps {s0 : State} (n : Fin 4) (e : WordEnv) {s : Machine.State} (h : Keeps s0 s) :
    KeepsOut s0 (execTrapret n e s) := by
  unfold execTrapret
  try dsimp only
  repeat' (first
    | with_reducible assumption | with_reducible apply State.runWord_keeps | with_reducible apply Keeps.next)

theorem execLd0_keeps {s0 : State} (n : Fin 4) (imm : BitVec 12) {s : Machine.State} (h : Keeps s0 s) :
    KeepsOut s0 (execLd0 n imm s) := by
  unfold execLd0
  try dsimp only
  repeat' (first
    | with_reducible assumption | with_reducible apply State.micro_keeps | with_reducible apply State.opLc_keeps
    | with_reducible apply Keeps.next)

theorem execEngineWatchdog_keeps {s0 : State} (e : Fin 4) {s : Machine.State} (h : Keeps s0 s) :
    KeepsOut s0 (execEngineWatchdog e s) := by
  unfold execEngineWatchdog
  try dsimp only
  repeat' (first
    | with_reducible assumption | with_reducible apply State.engineOff_keeps | with_reducible apply Keeps.next
    | with_reducible apply Keeps.ite)

theorem execEngineReturnTestDone_keeps {s0 : State} (e : Fin 4) (ok : Bool) {s : Machine.State} (h : Keeps s0 s) :
    KeepsOut s0 (execEngineReturnTestDone e ok s) := by
  unfold execEngineReturnTestDone
  try dsimp only
  repeat' (first
    | with_reducible assumption | with_reducible apply State.onEngine_keeps | with_reducible apply State.syncCrys_keeps
    | with_reducible apply State.putBit_keeps | with_reducible apply State.raise_keeps | with_reducible apply Keeps.next
    | with_reducible apply Keeps.ite)

end Sys2Proof.Machine
end

