-- ==== Sys2Proof/Laws/Registers.lean ====
section
/-! SUPPORT. The laws of registers and fields: a read after a write, and what a write of one field leaves of the register's
other fields and of every other register. -/

namespace Sys2Proof.Machine
open Sys2Proof

/-! ## Registers -/

theorem State.reg_setReg (a b : Nat) (v : Word) (s : State) : (s.setReg a v).reg b = if b = a then v else s.reg b :=
  cget_cset _ a b v s.regs

@[simp] theorem State.reg_setReg_self (a : Nat) (v : Word) (s : State) : (s.setReg a v).reg a = v := by simp [reg_setReg]

theorem State.reg_setReg_ne {a b : Nat} (v : Word) (s : State) (h : b ≠ a) : (s.setReg a v).reg b = s.reg b := by
  simp [reg_setReg, h]

@[simp] theorem State.actReg_setReg (a b : Nat) (v : Word) (s : State) : (s.setReg a v).actReg b = s.actReg b := Eq.trans rfl rfl

theorem State.actReg_activate (a b : Nat) (s : State) : (s.activate a).actReg b = if b = a then s.reg a else s.actReg b :=
  cget_cset _ a b _ s.active

@[simp] theorem State.reg_activate (a b : Nat) (s : State) : (s.activate a).reg b = s.reg b := Eq.trans rfl rfl

@[simp] theorem State.get_activate (a : Nat) (f : Field) (s : State) : (s.activate a).get f = s.get f := Eq.trans rfl rfl

/-! ## Fields of a word -/

theorem Field.getLsbD_ones (f : Field) (i : Nat) : f.ones.getLsbD i = (decide (i < 32) && decide (i + (32 - f.width) < 32)) := by
  simp only [Field.ones, BitVec.getLsbD_ushiftRight, BitVec.getLsbD_allOnes]
  by_cases h : 32 - f.width + i < 32 <;> simp [h] <;> omega

theorem Field.testBit_of (f : Field) (w : Word) (i : Nat) : (f.of w).testBit i = (decide (i < f.width) && w.getLsbD (f.lo + i)) := by
  rw [Field.of, BitVec.testBit_toNat, BitVec.getLsbD_and, BitVec.getLsbD_ushiftRight, Field.getLsbD_ones]
  by_cases h : i < f.width
  · by_cases k : f.lo + i < 32
    · have : i < 32 := by omega
      have : i + (32 - f.width) < 32 := by omega
      simp [*]
    · rw [BitVec.getLsbD_of_ge _ _ (by omega)]; simp
  · by_cases k : i < 32
    · have : ¬ i + (32 - f.width) < 32 := by omega
      simp [h, this]
    · simp [h, k]

theorem Field.getLsbD_into (f : Field) (v : Nat) (w : Word) (i : Nat) (h : f.lo + f.width ≤ 32) :
    (f.into v w).getLsbD i = if f.lo ≤ i ∧ i < f.lo + f.width then v.testBit (i - f.lo) else w.getLsbD i := by
  simp only [Field.into, BitVec.getLsbD_or, BitVec.getLsbD_and, BitVec.getLsbD_not, BitVec.getLsbD_shiftLeft, BitVec.getLsbD_ofNat,
    Field.getLsbD_ones]
  by_cases k : i < 32
  · by_cases a : f.lo ≤ i ∧ i < f.lo + f.width
    · have : i - f.lo < 32 := by omega
      have : i - f.lo + (32 - f.width) < 32 := by omega
      have : ¬ i < f.lo := by omega
      simp [*]
    · by_cases b : i < f.lo
      · simp [k, b, a]
      · have : ¬ i - f.lo + (32 - f.width) < 32 := by omega
        simp [k, b, a, this]
  · have : ¬ (f.lo ≤ i ∧ i < f.lo + f.width) := by omega
    rw [if_neg this, BitVec.getLsbD_of_ge _ _ (by omega)]
    simp [k]

theorem Field.of_into_self (f : Field) (v : Nat) (w : Word) (h : f.lo + f.width ≤ 32) : f.of (f.into v w) = v % 2 ^ f.width := by
  refine Nat.eq_of_testBit_eq fun i => ?_
  rw [Field.testBit_of, Field.getLsbD_into f v w _ h, Nat.testBit_mod_two_pow]
  by_cases k : i < f.width <;> simp [k]

theorem Field.of_into_apart (f g : Field) (v : Nat) (w : Word) (h : f.lo + f.width ≤ 32)
    (d : f.lo + f.width ≤ g.lo ∨ g.lo + g.width ≤ f.lo) : g.of (f.into v w) = g.of w := by
  refine Nat.eq_of_testBit_eq fun i => ?_
  rw [Field.testBit_of, Field.testBit_of, Field.getLsbD_into f v w _ h]
  by_cases k : i < g.width
  · have : ¬ (f.lo ≤ g.lo + i ∧ g.lo + i < f.lo + f.width) := by omega
    simp [k, this]
  · simp [k]

/-! ## Fields of the state -/

theorem State.reg_put (f : Field) (v : Nat) (s : State) (b : Nat) :
    (s.put f v).reg b = if b = f.addr then f.into v (s.reg f.addr) else s.reg b := s.reg_setReg _ _ _

/-- A field reads as it was written, but for bits that it does not have. -/
theorem State.get_put_self (f : Field) (v : Nat) (s : State) (h : f.lo + f.width ≤ 32) : (s.put f v).get f = v % 2 ^ f.width := by
  rw [State.get, State.reg_put, if_pos rfl, Field.of_into_self f v _ h]

/-- A write of a field leaves every field apart from it. -/
theorem State.get_put_apart (f g : Field) (v : Nat) (s : State) (h : f.lo + f.width ≤ 32)
    (d : g.addr ≠ f.addr ∨ f.lo + f.width ≤ g.lo ∨ g.lo + g.width ≤ f.lo) : (s.put f v).get g = s.get g := by
  rw [State.get, State.reg_put]
  by_cases k : g.addr = f.addr
  · rw [if_pos k, Field.of_into_apart f g v _ h (by tauto), State.get, k]
  · rw [if_neg k, State.get]

theorem State.get_setReg_ne (a : Nat) (v : Word) (g : Field) (s : State) (d : g.addr ≠ a) : (s.setReg a v).get g = s.get g := by
  rw [State.get, State.reg_setReg_ne v s d, State.get]

@[simp] theorem State.getA_put (f g : Field) (v : Nat) (s : State) : (s.put f v).getA g = s.getA g := Eq.trans rfl rfl

theorem State.gated_of_open {s : State} {p : Path} {a : Nat} {v : Word} {bad : Bool} {eff : State → State}
    (hp : s.writeOpen p = true) (hc : s.writeCause p a v = none) (hb : bad = false) : s.gated p a v bad eff = eff s := by
  simp [State.gated, hp, hc, hb]

/-- A write with a cause of R664 is ignored and counted, whatever its effect would be. -/
theorem State.gated_of_cause {s : State} {p : Path} {a : Nat} {v : Word} {bad : Bool} {eff : State → State} {c : Nat}
    (hp : s.writeOpen p = true) (hc : s.writeCause p a v = some c) : s.gated p a v bad eff = s.ignore p (s.countBlock p a) a c false := by
  simp [State.gated, hp, hc]

/-- A write that breaks a rule of its block is ignored with cause 101b. -/
theorem State.gated_of_bad {s : State} {p : Path} {a : Nat} {v : Word} {bad : Bool} {eff : State → State}
    (hp : s.writeOpen p = true) (hc : s.writeCause p a v = none) (hb : bad = true) : s.gated p a v bad eff = s.ignoreRule p a := by
  simp [State.gated, hp, hc, hb]

end Sys2Proof.Machine
end

