-- ==== Sys2Proof/Laws/State.lean ====
section
/-! SUPPORT. What each plain update of the state leaves: one lemma per field per update, and what it makes of the field that
it changes. Those about register fields are proved through `Eq.trans`, so that a rewrite with them is a proof step and nothing that the
kernel has to evaluate. -/

namespace Sys2Proof.Machine
open Sys2Proof


/-! ## State.setReg -/

section
variable (a : Nat) (v : Word) (s : State)

@[simp] theorem State.variant_setReg : (s.setReg a v).variant = s.variant := rfl
@[simp] theorem State.us_setReg : (s.setReg a v).us = s.us := rfl
@[simp] theorem State.ctrBase_setReg : (s.setReg a v).ctrBase = s.ctrBase := rfl
@[simp] theorem State.active_setReg : (s.setReg a v).active = s.active := rfl
@[simp] theorem State.coreUp_setReg : (s.setReg a v).coreUp = s.coreUp := rfl
@[simp] theorem State.evt_setReg : (s.setReg a v).evt = s.evt := rfl
@[simp] theorem State.meas_setReg : (s.setReg a v).meas = s.meas := rfl
@[simp] theorem State.smb_setReg : (s.setReg a v).smb = s.smb := rfl
@[simp] theorem State.lanes_setReg : (s.setReg a v).lanes = s.lanes := rfl
@[simp] theorem State.acts_setReg : (s.setReg a v).acts = s.acts := rfl
@[simp] theorem State.servo_setReg : (s.setReg a v).servo = s.servo := rfl
@[simp] theorem State.geo_setReg : (s.setReg a v).geo = s.geo := rfl
@[simp] theorem State.buf_setReg : (s.setReg a v).buf = s.buf := rfl
@[simp] theorem State.nvme_setReg : (s.setReg a v).nvme = s.nvme := rfl
@[simp] theorem State.map_setReg : (s.setReg a v).map = s.map := rfl
@[simp] theorem State.media_setReg : (s.setReg a v).media = s.media := rfl
@[simp] theorem State.ctr_setReg : (s.setReg a v).ctr = s.ctr := rfl
@[simp] theorem State.dma_setReg : (s.setReg a v).dma = s.dma := rfl
@[simp] theorem State.crys_setReg : (s.setReg a v).crys = s.crys := rfl
@[simp] theorem State.fw_setReg : (s.setReg a v).fw = s.fw := rfl
@[simp] theorem State.pwr_setReg : (s.setReg a v).pwr = s.pwr := rfl
@[simp] theorem State.boot_setReg : (s.setReg a v).boot = s.boot := rfl
@[simp] theorem State.integ_setReg : (s.setReg a v).integ = s.integ := rfl
@[simp] theorem State.flash_setReg : (s.setReg a v).flash = s.flash := rfl
@[simp] theorem State.fuses_setReg : (s.setReg a v).fuses = s.fuses := rfl
@[simp] theorem State.hbm_setReg : (s.setReg a v).hbm = s.hbm := rfl
@[simp] theorem State.hrv_setReg : (s.setReg a v).hrv = s.hrv := rfl
@[simp] theorem State.spn_setReg : (s.setReg a v).spn = s.spn := rfl
@[simp] theorem State.hostDown_setReg : (s.setReg a v).hostDown = s.hostDown := rfl
@[simp] theorem State.tap_setReg : (s.setReg a v).tap = s.tap := rfl
@[simp] theorem State.free_setReg : (s.setReg a v).free = s.free := rfl
@[simp] theorem State.pending_setReg : (s.setReg a v).pending = s.pending := rfl

end

/-! ## State.put -/

section
variable (f : Field) (v : Nat) (s : State)

@[simp] theorem State.variant_put : (s.put f v).variant = s.variant := rfl
@[simp] theorem State.us_put : (s.put f v).us = s.us := rfl
@[simp] theorem State.ctrBase_put : (s.put f v).ctrBase = s.ctrBase := rfl
@[simp] theorem State.active_put : (s.put f v).active = s.active := rfl
@[simp] theorem State.coreUp_put : (s.put f v).coreUp = s.coreUp := rfl
@[simp] theorem State.evt_put : (s.put f v).evt = s.evt := rfl
@[simp] theorem State.meas_put : (s.put f v).meas = s.meas := rfl
@[simp] theorem State.smb_put : (s.put f v).smb = s.smb := rfl
@[simp] theorem State.lanes_put : (s.put f v).lanes = s.lanes := rfl
@[simp] theorem State.acts_put : (s.put f v).acts = s.acts := rfl
@[simp] theorem State.servo_put : (s.put f v).servo = s.servo := rfl
@[simp] theorem State.geo_put : (s.put f v).geo = s.geo := rfl
@[simp] theorem State.buf_put : (s.put f v).buf = s.buf := rfl
@[simp] theorem State.nvme_put : (s.put f v).nvme = s.nvme := rfl
@[simp] theorem State.map_put : (s.put f v).map = s.map := rfl
@[simp] theorem State.media_put : (s.put f v).media = s.media := rfl
@[simp] theorem State.ctr_put : (s.put f v).ctr = s.ctr := rfl
@[simp] theorem State.dma_put : (s.put f v).dma = s.dma := rfl
@[simp] theorem State.crys_put : (s.put f v).crys = s.crys := rfl
@[simp] theorem State.fw_put : (s.put f v).fw = s.fw := rfl
@[simp] theorem State.pwr_put : (s.put f v).pwr = s.pwr := rfl
@[simp] theorem State.boot_put : (s.put f v).boot = s.boot := rfl
@[simp] theorem State.integ_put : (s.put f v).integ = s.integ := rfl
@[simp] theorem State.flash_put : (s.put f v).flash = s.flash := rfl
@[simp] theorem State.fuses_put : (s.put f v).fuses = s.fuses := rfl
@[simp] theorem State.hbm_put : (s.put f v).hbm = s.hbm := rfl
@[simp] theorem State.hrv_put : (s.put f v).hrv = s.hrv := rfl
@[simp] theorem State.spn_put : (s.put f v).spn = s.spn := rfl
@[simp] theorem State.hostDown_put : (s.put f v).hostDown = s.hostDown := rfl
@[simp] theorem State.tap_put : (s.put f v).tap = s.tap := rfl
@[simp] theorem State.free_put : (s.put f v).free = s.free := rfl
@[simp] theorem State.pending_put : (s.put f v).pending = s.pending := rfl

end

/-! ## State.putBit -/

section
variable (f : Field) (i : Nat) (b : Bool) (s : State)

@[simp] theorem State.variant_putBit : (s.putBit f i b).variant = s.variant := rfl
@[simp] theorem State.us_putBit : (s.putBit f i b).us = s.us := rfl
@[simp] theorem State.ctrBase_putBit : (s.putBit f i b).ctrBase = s.ctrBase := rfl
@[simp] theorem State.active_putBit : (s.putBit f i b).active = s.active := rfl
@[simp] theorem State.coreUp_putBit : (s.putBit f i b).coreUp = s.coreUp := rfl
@[simp] theorem State.evt_putBit : (s.putBit f i b).evt = s.evt := rfl
@[simp] theorem State.meas_putBit : (s.putBit f i b).meas = s.meas := rfl
@[simp] theorem State.smb_putBit : (s.putBit f i b).smb = s.smb := rfl
@[simp] theorem State.lanes_putBit : (s.putBit f i b).lanes = s.lanes := rfl
@[simp] theorem State.acts_putBit : (s.putBit f i b).acts = s.acts := rfl
@[simp] theorem State.servo_putBit : (s.putBit f i b).servo = s.servo := rfl
@[simp] theorem State.geo_putBit : (s.putBit f i b).geo = s.geo := rfl
@[simp] theorem State.buf_putBit : (s.putBit f i b).buf = s.buf := rfl
@[simp] theorem State.nvme_putBit : (s.putBit f i b).nvme = s.nvme := rfl
@[simp] theorem State.map_putBit : (s.putBit f i b).map = s.map := rfl
@[simp] theorem State.media_putBit : (s.putBit f i b).media = s.media := rfl
@[simp] theorem State.ctr_putBit : (s.putBit f i b).ctr = s.ctr := rfl
@[simp] theorem State.dma_putBit : (s.putBit f i b).dma = s.dma := rfl
@[simp] theorem State.crys_putBit : (s.putBit f i b).crys = s.crys := rfl
@[simp] theorem State.fw_putBit : (s.putBit f i b).fw = s.fw := rfl
@[simp] theorem State.pwr_putBit : (s.putBit f i b).pwr = s.pwr := rfl
@[simp] theorem State.boot_putBit : (s.putBit f i b).boot = s.boot := rfl
@[simp] theorem State.integ_putBit : (s.putBit f i b).integ = s.integ := rfl
@[simp] theorem State.flash_putBit : (s.putBit f i b).flash = s.flash := rfl
@[simp] theorem State.fuses_putBit : (s.putBit f i b).fuses = s.fuses := rfl
@[simp] theorem State.hbm_putBit : (s.putBit f i b).hbm = s.hbm := rfl
@[simp] theorem State.hrv_putBit : (s.putBit f i b).hrv = s.hrv := rfl
@[simp] theorem State.spn_putBit : (s.putBit f i b).spn = s.spn := rfl
@[simp] theorem State.hostDown_putBit : (s.putBit f i b).hostDown = s.hostDown := rfl
@[simp] theorem State.tap_putBit : (s.putBit f i b).tap = s.tap := rfl
@[simp] theorem State.free_putBit : (s.putBit f i b).free = s.free := rfl
@[simp] theorem State.pending_putBit : (s.putBit f i b).pending = s.pending := rfl

end

/-! ## State.inc -/

section
variable (f : Field) (s : State)

@[simp] theorem State.variant_inc : (s.inc f).variant = s.variant := rfl
@[simp] theorem State.us_inc : (s.inc f).us = s.us := rfl
@[simp] theorem State.ctrBase_inc : (s.inc f).ctrBase = s.ctrBase := rfl
@[simp] theorem State.active_inc : (s.inc f).active = s.active := rfl
@[simp] theorem State.coreUp_inc : (s.inc f).coreUp = s.coreUp := rfl
@[simp] theorem State.evt_inc : (s.inc f).evt = s.evt := rfl
@[simp] theorem State.meas_inc : (s.inc f).meas = s.meas := rfl
@[simp] theorem State.smb_inc : (s.inc f).smb = s.smb := rfl
@[simp] theorem State.lanes_inc : (s.inc f).lanes = s.lanes := rfl
@[simp] theorem State.acts_inc : (s.inc f).acts = s.acts := rfl
@[simp] theorem State.servo_inc : (s.inc f).servo = s.servo := rfl
@[simp] theorem State.geo_inc : (s.inc f).geo = s.geo := rfl
@[simp] theorem State.buf_inc : (s.inc f).buf = s.buf := rfl
@[simp] theorem State.nvme_inc : (s.inc f).nvme = s.nvme := rfl
@[simp] theorem State.map_inc : (s.inc f).map = s.map := rfl
@[simp] theorem State.media_inc : (s.inc f).media = s.media := rfl
@[simp] theorem State.ctr_inc : (s.inc f).ctr = s.ctr := rfl
@[simp] theorem State.dma_inc : (s.inc f).dma = s.dma := rfl
@[simp] theorem State.crys_inc : (s.inc f).crys = s.crys := rfl
@[simp] theorem State.fw_inc : (s.inc f).fw = s.fw := rfl
@[simp] theorem State.pwr_inc : (s.inc f).pwr = s.pwr := rfl
@[simp] theorem State.boot_inc : (s.inc f).boot = s.boot := rfl
@[simp] theorem State.integ_inc : (s.inc f).integ = s.integ := rfl
@[simp] theorem State.flash_inc : (s.inc f).flash = s.flash := rfl
@[simp] theorem State.fuses_inc : (s.inc f).fuses = s.fuses := rfl
@[simp] theorem State.hbm_inc : (s.inc f).hbm = s.hbm := rfl
@[simp] theorem State.hrv_inc : (s.inc f).hrv = s.hrv := rfl
@[simp] theorem State.spn_inc : (s.inc f).spn = s.spn := rfl
@[simp] theorem State.hostDown_inc : (s.inc f).hostDown = s.hostDown := rfl
@[simp] theorem State.tap_inc : (s.inc f).tap = s.tap := rfl
@[simp] theorem State.free_inc : (s.inc f).free = s.free := rfl
@[simp] theorem State.pending_inc : (s.inc f).pending = s.pending := rfl

end

/-! ## State.add -/

section
variable (f : Field) (n : Nat) (s : State)

@[simp] theorem State.variant_add : (s.add f n).variant = s.variant := rfl
@[simp] theorem State.us_add : (s.add f n).us = s.us := rfl
@[simp] theorem State.ctrBase_add : (s.add f n).ctrBase = s.ctrBase := rfl
@[simp] theorem State.active_add : (s.add f n).active = s.active := rfl
@[simp] theorem State.coreUp_add : (s.add f n).coreUp = s.coreUp := rfl
@[simp] theorem State.evt_add : (s.add f n).evt = s.evt := rfl
@[simp] theorem State.meas_add : (s.add f n).meas = s.meas := rfl
@[simp] theorem State.smb_add : (s.add f n).smb = s.smb := rfl
@[simp] theorem State.lanes_add : (s.add f n).lanes = s.lanes := rfl
@[simp] theorem State.acts_add : (s.add f n).acts = s.acts := rfl
@[simp] theorem State.servo_add : (s.add f n).servo = s.servo := rfl
@[simp] theorem State.geo_add : (s.add f n).geo = s.geo := rfl
@[simp] theorem State.buf_add : (s.add f n).buf = s.buf := rfl
@[simp] theorem State.nvme_add : (s.add f n).nvme = s.nvme := rfl
@[simp] theorem State.map_add : (s.add f n).map = s.map := rfl
@[simp] theorem State.media_add : (s.add f n).media = s.media := rfl
@[simp] theorem State.ctr_add : (s.add f n).ctr = s.ctr := rfl
@[simp] theorem State.dma_add : (s.add f n).dma = s.dma := rfl
@[simp] theorem State.crys_add : (s.add f n).crys = s.crys := rfl
@[simp] theorem State.fw_add : (s.add f n).fw = s.fw := rfl
@[simp] theorem State.pwr_add : (s.add f n).pwr = s.pwr := rfl
@[simp] theorem State.boot_add : (s.add f n).boot = s.boot := rfl
@[simp] theorem State.integ_add : (s.add f n).integ = s.integ := rfl
@[simp] theorem State.flash_add : (s.add f n).flash = s.flash := rfl
@[simp] theorem State.fuses_add : (s.add f n).fuses = s.fuses := rfl
@[simp] theorem State.hbm_add : (s.add f n).hbm = s.hbm := rfl
@[simp] theorem State.hrv_add : (s.add f n).hrv = s.hrv := rfl
@[simp] theorem State.spn_add : (s.add f n).spn = s.spn := rfl
@[simp] theorem State.hostDown_add : (s.add f n).hostDown = s.hostDown := rfl
@[simp] theorem State.tap_add : (s.add f n).tap = s.tap := rfl
@[simp] theorem State.free_add : (s.add f n).free = s.free := rfl
@[simp] theorem State.pending_add : (s.add f n).pending = s.pending := rfl

end

/-! ## State.activate -/

section
variable (a : Nat) (s : State)

@[simp] theorem State.variant_activate : (s.activate a).variant = s.variant := rfl
@[simp] theorem State.us_activate : (s.activate a).us = s.us := rfl
@[simp] theorem State.ctrBase_activate : (s.activate a).ctrBase = s.ctrBase := rfl
@[simp] theorem State.regs_activate : (s.activate a).regs = s.regs := rfl
@[simp] theorem State.coreUp_activate : (s.activate a).coreUp = s.coreUp := rfl
@[simp] theorem State.evt_activate : (s.activate a).evt = s.evt := rfl
@[simp] theorem State.meas_activate : (s.activate a).meas = s.meas := rfl
@[simp] theorem State.smb_activate : (s.activate a).smb = s.smb := rfl
@[simp] theorem State.lanes_activate : (s.activate a).lanes = s.lanes := rfl
@[simp] theorem State.acts_activate : (s.activate a).acts = s.acts := rfl
@[simp] theorem State.servo_activate : (s.activate a).servo = s.servo := rfl
@[simp] theorem State.geo_activate : (s.activate a).geo = s.geo := rfl
@[simp] theorem State.buf_activate : (s.activate a).buf = s.buf := rfl
@[simp] theorem State.nvme_activate : (s.activate a).nvme = s.nvme := rfl
@[simp] theorem State.map_activate : (s.activate a).map = s.map := rfl
@[simp] theorem State.media_activate : (s.activate a).media = s.media := rfl
@[simp] theorem State.ctr_activate : (s.activate a).ctr = s.ctr := rfl
@[simp] theorem State.dma_activate : (s.activate a).dma = s.dma := rfl
@[simp] theorem State.crys_activate : (s.activate a).crys = s.crys := rfl
@[simp] theorem State.fw_activate : (s.activate a).fw = s.fw := rfl
@[simp] theorem State.pwr_activate : (s.activate a).pwr = s.pwr := rfl
@[simp] theorem State.boot_activate : (s.activate a).boot = s.boot := rfl
@[simp] theorem State.integ_activate : (s.activate a).integ = s.integ := rfl
@[simp] theorem State.flash_activate : (s.activate a).flash = s.flash := rfl
@[simp] theorem State.fuses_activate : (s.activate a).fuses = s.fuses := rfl
@[simp] theorem State.hbm_activate : (s.activate a).hbm = s.hbm := rfl
@[simp] theorem State.hrv_activate : (s.activate a).hrv = s.hrv := rfl
@[simp] theorem State.spn_activate : (s.activate a).spn = s.spn := rfl
@[simp] theorem State.hostDown_activate : (s.activate a).hostDown = s.hostDown := rfl
@[simp] theorem State.tap_activate : (s.activate a).tap = s.tap := rfl
@[simp] theorem State.free_activate : (s.activate a).free = s.free := rfl
@[simp] theorem State.pending_activate : (s.activate a).pending = s.pending := rfl

end

/-! ## State.onLane -/

section
variable (n : Fin 4) (f : Lane → Lane) (s : State)

@[simp] theorem State.variant_onLane : (s.onLane n f).variant = s.variant := rfl
@[simp] theorem State.us_onLane : (s.onLane n f).us = s.us := rfl
@[simp] theorem State.ctrBase_onLane : (s.onLane n f).ctrBase = s.ctrBase := rfl
@[simp] theorem State.regs_onLane : (s.onLane n f).regs = s.regs := rfl
@[simp] theorem State.active_onLane : (s.onLane n f).active = s.active := rfl
@[simp] theorem State.coreUp_onLane : (s.onLane n f).coreUp = s.coreUp := rfl
@[simp] theorem State.evt_onLane : (s.onLane n f).evt = s.evt := rfl
@[simp] theorem State.meas_onLane : (s.onLane n f).meas = s.meas := rfl
@[simp] theorem State.smb_onLane : (s.onLane n f).smb = s.smb := rfl
@[simp] theorem State.acts_onLane : (s.onLane n f).acts = s.acts := rfl
@[simp] theorem State.servo_onLane : (s.onLane n f).servo = s.servo := rfl
@[simp] theorem State.geo_onLane : (s.onLane n f).geo = s.geo := rfl
@[simp] theorem State.buf_onLane : (s.onLane n f).buf = s.buf := rfl
@[simp] theorem State.nvme_onLane : (s.onLane n f).nvme = s.nvme := rfl
@[simp] theorem State.map_onLane : (s.onLane n f).map = s.map := rfl
@[simp] theorem State.media_onLane : (s.onLane n f).media = s.media := rfl
@[simp] theorem State.ctr_onLane : (s.onLane n f).ctr = s.ctr := rfl
@[simp] theorem State.dma_onLane : (s.onLane n f).dma = s.dma := rfl
@[simp] theorem State.crys_onLane : (s.onLane n f).crys = s.crys := rfl
@[simp] theorem State.fw_onLane : (s.onLane n f).fw = s.fw := rfl
@[simp] theorem State.pwr_onLane : (s.onLane n f).pwr = s.pwr := rfl
@[simp] theorem State.boot_onLane : (s.onLane n f).boot = s.boot := rfl
@[simp] theorem State.integ_onLane : (s.onLane n f).integ = s.integ := rfl
@[simp] theorem State.flash_onLane : (s.onLane n f).flash = s.flash := rfl
@[simp] theorem State.fuses_onLane : (s.onLane n f).fuses = s.fuses := rfl
@[simp] theorem State.hbm_onLane : (s.onLane n f).hbm = s.hbm := rfl
@[simp] theorem State.hrv_onLane : (s.onLane n f).hrv = s.hrv := rfl
@[simp] theorem State.spn_onLane : (s.onLane n f).spn = s.spn := rfl
@[simp] theorem State.hostDown_onLane : (s.onLane n f).hostDown = s.hostDown := rfl
@[simp] theorem State.tap_onLane : (s.onLane n f).tap = s.tap := rfl
@[simp] theorem State.free_onLane : (s.onLane n f).free = s.free := rfl
@[simp] theorem State.pending_onLane : (s.onLane n f).pending = s.pending := rfl

@[simp] theorem State.reg_onLane (a' : Nat) : (s.onLane n f).reg a' = s.reg a' := Eq.trans rfl rfl
@[simp] theorem State.actReg_onLane (a' : Nat) : (s.onLane n f).actReg a' = s.actReg a' := Eq.trans rfl rfl
@[simp] theorem State.get_onLane (g : Field) : (s.onLane n f).get g = s.get g := Eq.trans rfl rfl
@[simp] theorem State.getA_onLane (g : Field) : (s.onLane n f).getA g = s.getA g := Eq.trans rfl rfl
@[simp] theorem State.flag_onLane (g : Field) : (s.onLane n f).flag g = s.flag g := Eq.trans rfl rfl
@[simp] theorem State.bit_onLane (g : Field) (i : Nat) : (s.onLane n f).bit g i = s.bit g i := Eq.trans rfl rfl
theorem State.lanes_onLane : (s.onLane n f).lanes = s.lanes.set n (f s.lanes[n]) := rfl

end

/-! ## State.onAct -/

section
variable (a : Fin 4) (f : Act → Act) (s : State)

@[simp] theorem State.variant_onAct : (s.onAct a f).variant = s.variant := rfl
@[simp] theorem State.us_onAct : (s.onAct a f).us = s.us := rfl
@[simp] theorem State.ctrBase_onAct : (s.onAct a f).ctrBase = s.ctrBase := rfl
@[simp] theorem State.regs_onAct : (s.onAct a f).regs = s.regs := rfl
@[simp] theorem State.active_onAct : (s.onAct a f).active = s.active := rfl
@[simp] theorem State.coreUp_onAct : (s.onAct a f).coreUp = s.coreUp := rfl
@[simp] theorem State.evt_onAct : (s.onAct a f).evt = s.evt := rfl
@[simp] theorem State.meas_onAct : (s.onAct a f).meas = s.meas := rfl
@[simp] theorem State.smb_onAct : (s.onAct a f).smb = s.smb := rfl
@[simp] theorem State.lanes_onAct : (s.onAct a f).lanes = s.lanes := rfl
@[simp] theorem State.servo_onAct : (s.onAct a f).servo = s.servo := rfl
@[simp] theorem State.geo_onAct : (s.onAct a f).geo = s.geo := rfl
@[simp] theorem State.buf_onAct : (s.onAct a f).buf = s.buf := rfl
@[simp] theorem State.nvme_onAct : (s.onAct a f).nvme = s.nvme := rfl
@[simp] theorem State.map_onAct : (s.onAct a f).map = s.map := rfl
@[simp] theorem State.media_onAct : (s.onAct a f).media = s.media := rfl
@[simp] theorem State.ctr_onAct : (s.onAct a f).ctr = s.ctr := rfl
@[simp] theorem State.dma_onAct : (s.onAct a f).dma = s.dma := rfl
@[simp] theorem State.crys_onAct : (s.onAct a f).crys = s.crys := rfl
@[simp] theorem State.fw_onAct : (s.onAct a f).fw = s.fw := rfl
@[simp] theorem State.pwr_onAct : (s.onAct a f).pwr = s.pwr := rfl
@[simp] theorem State.boot_onAct : (s.onAct a f).boot = s.boot := rfl
@[simp] theorem State.integ_onAct : (s.onAct a f).integ = s.integ := rfl
@[simp] theorem State.flash_onAct : (s.onAct a f).flash = s.flash := rfl
@[simp] theorem State.fuses_onAct : (s.onAct a f).fuses = s.fuses := rfl
@[simp] theorem State.hbm_onAct : (s.onAct a f).hbm = s.hbm := rfl
@[simp] theorem State.hrv_onAct : (s.onAct a f).hrv = s.hrv := rfl
@[simp] theorem State.spn_onAct : (s.onAct a f).spn = s.spn := rfl
@[simp] theorem State.hostDown_onAct : (s.onAct a f).hostDown = s.hostDown := rfl
@[simp] theorem State.tap_onAct : (s.onAct a f).tap = s.tap := rfl
@[simp] theorem State.free_onAct : (s.onAct a f).free = s.free := rfl
@[simp] theorem State.pending_onAct : (s.onAct a f).pending = s.pending := rfl

@[simp] theorem State.reg_onAct (a' : Nat) : (s.onAct a f).reg a' = s.reg a' := Eq.trans rfl rfl
@[simp] theorem State.actReg_onAct (a' : Nat) : (s.onAct a f).actReg a' = s.actReg a' := Eq.trans rfl rfl
@[simp] theorem State.get_onAct (g : Field) : (s.onAct a f).get g = s.get g := Eq.trans rfl rfl
@[simp] theorem State.getA_onAct (g : Field) : (s.onAct a f).getA g = s.getA g := Eq.trans rfl rfl
@[simp] theorem State.flag_onAct (g : Field) : (s.onAct a f).flag g = s.flag g := Eq.trans rfl rfl
@[simp] theorem State.bit_onAct (g : Field) (i : Nat) : (s.onAct a f).bit g i = s.bit g i := Eq.trans rfl rfl
theorem State.acts_onAct : (s.onAct a f).acts = s.acts.set a (f s.acts[a]) := rfl

end

/-! ## State.onServo -/

section
variable (f : Servo → Servo) (s : State)

@[simp] theorem State.variant_onServo : (s.onServo f).variant = s.variant := rfl
@[simp] theorem State.us_onServo : (s.onServo f).us = s.us := rfl
@[simp] theorem State.ctrBase_onServo : (s.onServo f).ctrBase = s.ctrBase := rfl
@[simp] theorem State.regs_onServo : (s.onServo f).regs = s.regs := rfl
@[simp] theorem State.active_onServo : (s.onServo f).active = s.active := rfl
@[simp] theorem State.coreUp_onServo : (s.onServo f).coreUp = s.coreUp := rfl
@[simp] theorem State.evt_onServo : (s.onServo f).evt = s.evt := rfl
@[simp] theorem State.meas_onServo : (s.onServo f).meas = s.meas := rfl
@[simp] theorem State.smb_onServo : (s.onServo f).smb = s.smb := rfl
@[simp] theorem State.lanes_onServo : (s.onServo f).lanes = s.lanes := rfl
@[simp] theorem State.acts_onServo : (s.onServo f).acts = s.acts := rfl
@[simp] theorem State.geo_onServo : (s.onServo f).geo = s.geo := rfl
@[simp] theorem State.buf_onServo : (s.onServo f).buf = s.buf := rfl
@[simp] theorem State.nvme_onServo : (s.onServo f).nvme = s.nvme := rfl
@[simp] theorem State.map_onServo : (s.onServo f).map = s.map := rfl
@[simp] theorem State.media_onServo : (s.onServo f).media = s.media := rfl
@[simp] theorem State.ctr_onServo : (s.onServo f).ctr = s.ctr := rfl
@[simp] theorem State.dma_onServo : (s.onServo f).dma = s.dma := rfl
@[simp] theorem State.crys_onServo : (s.onServo f).crys = s.crys := rfl
@[simp] theorem State.fw_onServo : (s.onServo f).fw = s.fw := rfl
@[simp] theorem State.pwr_onServo : (s.onServo f).pwr = s.pwr := rfl
@[simp] theorem State.boot_onServo : (s.onServo f).boot = s.boot := rfl
@[simp] theorem State.integ_onServo : (s.onServo f).integ = s.integ := rfl
@[simp] theorem State.flash_onServo : (s.onServo f).flash = s.flash := rfl
@[simp] theorem State.fuses_onServo : (s.onServo f).fuses = s.fuses := rfl
@[simp] theorem State.hbm_onServo : (s.onServo f).hbm = s.hbm := rfl
@[simp] theorem State.hrv_onServo : (s.onServo f).hrv = s.hrv := rfl
@[simp] theorem State.spn_onServo : (s.onServo f).spn = s.spn := rfl
@[simp] theorem State.hostDown_onServo : (s.onServo f).hostDown = s.hostDown := rfl
@[simp] theorem State.tap_onServo : (s.onServo f).tap = s.tap := rfl
@[simp] theorem State.free_onServo : (s.onServo f).free = s.free := rfl
@[simp] theorem State.pending_onServo : (s.onServo f).pending = s.pending := rfl

@[simp] theorem State.reg_onServo (a' : Nat) : (s.onServo f).reg a' = s.reg a' := Eq.trans rfl rfl
@[simp] theorem State.actReg_onServo (a' : Nat) : (s.onServo f).actReg a' = s.actReg a' := Eq.trans rfl rfl
@[simp] theorem State.get_onServo (g : Field) : (s.onServo f).get g = s.get g := Eq.trans rfl rfl
@[simp] theorem State.getA_onServo (g : Field) : (s.onServo f).getA g = s.getA g := Eq.trans rfl rfl
@[simp] theorem State.flag_onServo (g : Field) : (s.onServo f).flag g = s.flag g := Eq.trans rfl rfl
@[simp] theorem State.bit_onServo (g : Field) (i : Nat) : (s.onServo f).bit g i = s.bit g i := Eq.trans rfl rfl
@[simp] theorem State.servo_onServo : (s.onServo f).servo = f s.servo := rfl

end

/-! ## State.onBuf -/

section
variable (f : Buf → Buf) (s : State)

@[simp] theorem State.variant_onBuf : (s.onBuf f).variant = s.variant := rfl
@[simp] theorem State.us_onBuf : (s.onBuf f).us = s.us := rfl
@[simp] theorem State.ctrBase_onBuf : (s.onBuf f).ctrBase = s.ctrBase := rfl
@[simp] theorem State.regs_onBuf : (s.onBuf f).regs = s.regs := rfl
@[simp] theorem State.active_onBuf : (s.onBuf f).active = s.active := rfl
@[simp] theorem State.coreUp_onBuf : (s.onBuf f).coreUp = s.coreUp := rfl
@[simp] theorem State.evt_onBuf : (s.onBuf f).evt = s.evt := rfl
@[simp] theorem State.meas_onBuf : (s.onBuf f).meas = s.meas := rfl
@[simp] theorem State.smb_onBuf : (s.onBuf f).smb = s.smb := rfl
@[simp] theorem State.lanes_onBuf : (s.onBuf f).lanes = s.lanes := rfl
@[simp] theorem State.acts_onBuf : (s.onBuf f).acts = s.acts := rfl
@[simp] theorem State.servo_onBuf : (s.onBuf f).servo = s.servo := rfl
@[simp] theorem State.geo_onBuf : (s.onBuf f).geo = s.geo := rfl
@[simp] theorem State.nvme_onBuf : (s.onBuf f).nvme = s.nvme := rfl
@[simp] theorem State.map_onBuf : (s.onBuf f).map = s.map := rfl
@[simp] theorem State.media_onBuf : (s.onBuf f).media = s.media := rfl
@[simp] theorem State.ctr_onBuf : (s.onBuf f).ctr = s.ctr := rfl
@[simp] theorem State.dma_onBuf : (s.onBuf f).dma = s.dma := rfl
@[simp] theorem State.crys_onBuf : (s.onBuf f).crys = s.crys := rfl
@[simp] theorem State.fw_onBuf : (s.onBuf f).fw = s.fw := rfl
@[simp] theorem State.pwr_onBuf : (s.onBuf f).pwr = s.pwr := rfl
@[simp] theorem State.boot_onBuf : (s.onBuf f).boot = s.boot := rfl
@[simp] theorem State.integ_onBuf : (s.onBuf f).integ = s.integ := rfl
@[simp] theorem State.flash_onBuf : (s.onBuf f).flash = s.flash := rfl
@[simp] theorem State.fuses_onBuf : (s.onBuf f).fuses = s.fuses := rfl
@[simp] theorem State.hbm_onBuf : (s.onBuf f).hbm = s.hbm := rfl
@[simp] theorem State.hrv_onBuf : (s.onBuf f).hrv = s.hrv := rfl
@[simp] theorem State.spn_onBuf : (s.onBuf f).spn = s.spn := rfl
@[simp] theorem State.hostDown_onBuf : (s.onBuf f).hostDown = s.hostDown := rfl
@[simp] theorem State.tap_onBuf : (s.onBuf f).tap = s.tap := rfl
@[simp] theorem State.free_onBuf : (s.onBuf f).free = s.free := rfl
@[simp] theorem State.pending_onBuf : (s.onBuf f).pending = s.pending := rfl

@[simp] theorem State.reg_onBuf (a' : Nat) : (s.onBuf f).reg a' = s.reg a' := Eq.trans rfl rfl
@[simp] theorem State.actReg_onBuf (a' : Nat) : (s.onBuf f).actReg a' = s.actReg a' := Eq.trans rfl rfl
@[simp] theorem State.get_onBuf (g : Field) : (s.onBuf f).get g = s.get g := Eq.trans rfl rfl
@[simp] theorem State.getA_onBuf (g : Field) : (s.onBuf f).getA g = s.getA g := Eq.trans rfl rfl
@[simp] theorem State.flag_onBuf (g : Field) : (s.onBuf f).flag g = s.flag g := Eq.trans rfl rfl
@[simp] theorem State.bit_onBuf (g : Field) (i : Nat) : (s.onBuf f).bit g i = s.bit g i := Eq.trans rfl rfl
@[simp] theorem State.buf_onBuf : (s.onBuf f).buf = f s.buf := rfl

end

/-! ## State.onNvme -/

section
variable (f : Nvme → Nvme) (s : State)

@[simp] theorem State.variant_onNvme : (s.onNvme f).variant = s.variant := rfl
@[simp] theorem State.us_onNvme : (s.onNvme f).us = s.us := rfl
@[simp] theorem State.ctrBase_onNvme : (s.onNvme f).ctrBase = s.ctrBase := rfl
@[simp] theorem State.regs_onNvme : (s.onNvme f).regs = s.regs := rfl
@[simp] theorem State.active_onNvme : (s.onNvme f).active = s.active := rfl
@[simp] theorem State.coreUp_onNvme : (s.onNvme f).coreUp = s.coreUp := rfl
@[simp] theorem State.evt_onNvme : (s.onNvme f).evt = s.evt := rfl
@[simp] theorem State.meas_onNvme : (s.onNvme f).meas = s.meas := rfl
@[simp] theorem State.smb_onNvme : (s.onNvme f).smb = s.smb := rfl
@[simp] theorem State.lanes_onNvme : (s.onNvme f).lanes = s.lanes := rfl
@[simp] theorem State.acts_onNvme : (s.onNvme f).acts = s.acts := rfl
@[simp] theorem State.servo_onNvme : (s.onNvme f).servo = s.servo := rfl
@[simp] theorem State.geo_onNvme : (s.onNvme f).geo = s.geo := rfl
@[simp] theorem State.buf_onNvme : (s.onNvme f).buf = s.buf := rfl
@[simp] theorem State.map_onNvme : (s.onNvme f).map = s.map := rfl
@[simp] theorem State.media_onNvme : (s.onNvme f).media = s.media := rfl
@[simp] theorem State.ctr_onNvme : (s.onNvme f).ctr = s.ctr := rfl
@[simp] theorem State.dma_onNvme : (s.onNvme f).dma = s.dma := rfl
@[simp] theorem State.crys_onNvme : (s.onNvme f).crys = s.crys := rfl
@[simp] theorem State.fw_onNvme : (s.onNvme f).fw = s.fw := rfl
@[simp] theorem State.pwr_onNvme : (s.onNvme f).pwr = s.pwr := rfl
@[simp] theorem State.boot_onNvme : (s.onNvme f).boot = s.boot := rfl
@[simp] theorem State.integ_onNvme : (s.onNvme f).integ = s.integ := rfl
@[simp] theorem State.flash_onNvme : (s.onNvme f).flash = s.flash := rfl
@[simp] theorem State.fuses_onNvme : (s.onNvme f).fuses = s.fuses := rfl
@[simp] theorem State.hbm_onNvme : (s.onNvme f).hbm = s.hbm := rfl
@[simp] theorem State.hrv_onNvme : (s.onNvme f).hrv = s.hrv := rfl
@[simp] theorem State.spn_onNvme : (s.onNvme f).spn = s.spn := rfl
@[simp] theorem State.hostDown_onNvme : (s.onNvme f).hostDown = s.hostDown := rfl
@[simp] theorem State.tap_onNvme : (s.onNvme f).tap = s.tap := rfl
@[simp] theorem State.free_onNvme : (s.onNvme f).free = s.free := rfl
@[simp] theorem State.pending_onNvme : (s.onNvme f).pending = s.pending := rfl

@[simp] theorem State.reg_onNvme (a' : Nat) : (s.onNvme f).reg a' = s.reg a' := Eq.trans rfl rfl
@[simp] theorem State.actReg_onNvme (a' : Nat) : (s.onNvme f).actReg a' = s.actReg a' := Eq.trans rfl rfl
@[simp] theorem State.get_onNvme (g : Field) : (s.onNvme f).get g = s.get g := Eq.trans rfl rfl
@[simp] theorem State.getA_onNvme (g : Field) : (s.onNvme f).getA g = s.getA g := Eq.trans rfl rfl
@[simp] theorem State.flag_onNvme (g : Field) : (s.onNvme f).flag g = s.flag g := Eq.trans rfl rfl
@[simp] theorem State.bit_onNvme (g : Field) (i : Nat) : (s.onNvme f).bit g i = s.bit g i := Eq.trans rfl rfl
@[simp] theorem State.nvme_onNvme : (s.onNvme f).nvme = f s.nvme := rfl

end

/-! ## State.onMap -/

section
variable (f : MapSt → MapSt) (s : State)

@[simp] theorem State.variant_onMap : (s.onMap f).variant = s.variant := rfl
@[simp] theorem State.us_onMap : (s.onMap f).us = s.us := rfl
@[simp] theorem State.ctrBase_onMap : (s.onMap f).ctrBase = s.ctrBase := rfl
@[simp] theorem State.regs_onMap : (s.onMap f).regs = s.regs := rfl
@[simp] theorem State.active_onMap : (s.onMap f).active = s.active := rfl
@[simp] theorem State.coreUp_onMap : (s.onMap f).coreUp = s.coreUp := rfl
@[simp] theorem State.evt_onMap : (s.onMap f).evt = s.evt := rfl
@[simp] theorem State.meas_onMap : (s.onMap f).meas = s.meas := rfl
@[simp] theorem State.smb_onMap : (s.onMap f).smb = s.smb := rfl
@[simp] theorem State.lanes_onMap : (s.onMap f).lanes = s.lanes := rfl
@[simp] theorem State.acts_onMap : (s.onMap f).acts = s.acts := rfl
@[simp] theorem State.servo_onMap : (s.onMap f).servo = s.servo := rfl
@[simp] theorem State.geo_onMap : (s.onMap f).geo = s.geo := rfl
@[simp] theorem State.buf_onMap : (s.onMap f).buf = s.buf := rfl
@[simp] theorem State.nvme_onMap : (s.onMap f).nvme = s.nvme := rfl
@[simp] theorem State.media_onMap : (s.onMap f).media = s.media := rfl
@[simp] theorem State.ctr_onMap : (s.onMap f).ctr = s.ctr := rfl
@[simp] theorem State.dma_onMap : (s.onMap f).dma = s.dma := rfl
@[simp] theorem State.crys_onMap : (s.onMap f).crys = s.crys := rfl
@[simp] theorem State.fw_onMap : (s.onMap f).fw = s.fw := rfl
@[simp] theorem State.pwr_onMap : (s.onMap f).pwr = s.pwr := rfl
@[simp] theorem State.boot_onMap : (s.onMap f).boot = s.boot := rfl
@[simp] theorem State.integ_onMap : (s.onMap f).integ = s.integ := rfl
@[simp] theorem State.flash_onMap : (s.onMap f).flash = s.flash := rfl
@[simp] theorem State.fuses_onMap : (s.onMap f).fuses = s.fuses := rfl
@[simp] theorem State.hbm_onMap : (s.onMap f).hbm = s.hbm := rfl
@[simp] theorem State.hrv_onMap : (s.onMap f).hrv = s.hrv := rfl
@[simp] theorem State.spn_onMap : (s.onMap f).spn = s.spn := rfl
@[simp] theorem State.hostDown_onMap : (s.onMap f).hostDown = s.hostDown := rfl
@[simp] theorem State.tap_onMap : (s.onMap f).tap = s.tap := rfl
@[simp] theorem State.free_onMap : (s.onMap f).free = s.free := rfl
@[simp] theorem State.pending_onMap : (s.onMap f).pending = s.pending := rfl

@[simp] theorem State.reg_onMap (a' : Nat) : (s.onMap f).reg a' = s.reg a' := Eq.trans rfl rfl
@[simp] theorem State.actReg_onMap (a' : Nat) : (s.onMap f).actReg a' = s.actReg a' := Eq.trans rfl rfl
@[simp] theorem State.get_onMap (g : Field) : (s.onMap f).get g = s.get g := Eq.trans rfl rfl
@[simp] theorem State.getA_onMap (g : Field) : (s.onMap f).getA g = s.getA g := Eq.trans rfl rfl
@[simp] theorem State.flag_onMap (g : Field) : (s.onMap f).flag g = s.flag g := Eq.trans rfl rfl
@[simp] theorem State.bit_onMap (g : Field) (i : Nat) : (s.onMap f).bit g i = s.bit g i := Eq.trans rfl rfl
@[simp] theorem State.map_onMap : (s.onMap f).map = f s.map := rfl

end

/-! ## State.onMedia -/

section
variable (f : Media → Media) (s : State)

@[simp] theorem State.variant_onMedia : (s.onMedia f).variant = s.variant := rfl
@[simp] theorem State.us_onMedia : (s.onMedia f).us = s.us := rfl
@[simp] theorem State.ctrBase_onMedia : (s.onMedia f).ctrBase = s.ctrBase := rfl
@[simp] theorem State.regs_onMedia : (s.onMedia f).regs = s.regs := rfl
@[simp] theorem State.active_onMedia : (s.onMedia f).active = s.active := rfl
@[simp] theorem State.coreUp_onMedia : (s.onMedia f).coreUp = s.coreUp := rfl
@[simp] theorem State.evt_onMedia : (s.onMedia f).evt = s.evt := rfl
@[simp] theorem State.meas_onMedia : (s.onMedia f).meas = s.meas := rfl
@[simp] theorem State.smb_onMedia : (s.onMedia f).smb = s.smb := rfl
@[simp] theorem State.lanes_onMedia : (s.onMedia f).lanes = s.lanes := rfl
@[simp] theorem State.acts_onMedia : (s.onMedia f).acts = s.acts := rfl
@[simp] theorem State.servo_onMedia : (s.onMedia f).servo = s.servo := rfl
@[simp] theorem State.geo_onMedia : (s.onMedia f).geo = s.geo := rfl
@[simp] theorem State.buf_onMedia : (s.onMedia f).buf = s.buf := rfl
@[simp] theorem State.nvme_onMedia : (s.onMedia f).nvme = s.nvme := rfl
@[simp] theorem State.map_onMedia : (s.onMedia f).map = s.map := rfl
@[simp] theorem State.ctr_onMedia : (s.onMedia f).ctr = s.ctr := rfl
@[simp] theorem State.dma_onMedia : (s.onMedia f).dma = s.dma := rfl
@[simp] theorem State.crys_onMedia : (s.onMedia f).crys = s.crys := rfl
@[simp] theorem State.fw_onMedia : (s.onMedia f).fw = s.fw := rfl
@[simp] theorem State.pwr_onMedia : (s.onMedia f).pwr = s.pwr := rfl
@[simp] theorem State.boot_onMedia : (s.onMedia f).boot = s.boot := rfl
@[simp] theorem State.integ_onMedia : (s.onMedia f).integ = s.integ := rfl
@[simp] theorem State.flash_onMedia : (s.onMedia f).flash = s.flash := rfl
@[simp] theorem State.fuses_onMedia : (s.onMedia f).fuses = s.fuses := rfl
@[simp] theorem State.hbm_onMedia : (s.onMedia f).hbm = s.hbm := rfl
@[simp] theorem State.hrv_onMedia : (s.onMedia f).hrv = s.hrv := rfl
@[simp] theorem State.spn_onMedia : (s.onMedia f).spn = s.spn := rfl
@[simp] theorem State.hostDown_onMedia : (s.onMedia f).hostDown = s.hostDown := rfl
@[simp] theorem State.tap_onMedia : (s.onMedia f).tap = s.tap := rfl
@[simp] theorem State.free_onMedia : (s.onMedia f).free = s.free := rfl
@[simp] theorem State.pending_onMedia : (s.onMedia f).pending = s.pending := rfl

@[simp] theorem State.reg_onMedia (a' : Nat) : (s.onMedia f).reg a' = s.reg a' := Eq.trans rfl rfl
@[simp] theorem State.actReg_onMedia (a' : Nat) : (s.onMedia f).actReg a' = s.actReg a' := Eq.trans rfl rfl
@[simp] theorem State.get_onMedia (g : Field) : (s.onMedia f).get g = s.get g := Eq.trans rfl rfl
@[simp] theorem State.getA_onMedia (g : Field) : (s.onMedia f).getA g = s.getA g := Eq.trans rfl rfl
@[simp] theorem State.flag_onMedia (g : Field) : (s.onMedia f).flag g = s.flag g := Eq.trans rfl rfl
@[simp] theorem State.bit_onMedia (g : Field) (i : Nat) : (s.onMedia f).bit g i = s.bit g i := Eq.trans rfl rfl
@[simp] theorem State.media_onMedia : (s.onMedia f).media = f s.media := rfl

end

/-! ## State.onCtr -/

section
variable (f : CtrSt → CtrSt) (s : State)

@[simp] theorem State.variant_onCtr : (s.onCtr f).variant = s.variant := rfl
@[simp] theorem State.us_onCtr : (s.onCtr f).us = s.us := rfl
@[simp] theorem State.ctrBase_onCtr : (s.onCtr f).ctrBase = s.ctrBase := rfl
@[simp] theorem State.regs_onCtr : (s.onCtr f).regs = s.regs := rfl
@[simp] theorem State.active_onCtr : (s.onCtr f).active = s.active := rfl
@[simp] theorem State.coreUp_onCtr : (s.onCtr f).coreUp = s.coreUp := rfl
@[simp] theorem State.evt_onCtr : (s.onCtr f).evt = s.evt := rfl
@[simp] theorem State.meas_onCtr : (s.onCtr f).meas = s.meas := rfl
@[simp] theorem State.smb_onCtr : (s.onCtr f).smb = s.smb := rfl
@[simp] theorem State.lanes_onCtr : (s.onCtr f).lanes = s.lanes := rfl
@[simp] theorem State.acts_onCtr : (s.onCtr f).acts = s.acts := rfl
@[simp] theorem State.servo_onCtr : (s.onCtr f).servo = s.servo := rfl
@[simp] theorem State.geo_onCtr : (s.onCtr f).geo = s.geo := rfl
@[simp] theorem State.buf_onCtr : (s.onCtr f).buf = s.buf := rfl
@[simp] theorem State.nvme_onCtr : (s.onCtr f).nvme = s.nvme := rfl
@[simp] theorem State.map_onCtr : (s.onCtr f).map = s.map := rfl
@[simp] theorem State.media_onCtr : (s.onCtr f).media = s.media := rfl
@[simp] theorem State.dma_onCtr : (s.onCtr f).dma = s.dma := rfl
@[simp] theorem State.crys_onCtr : (s.onCtr f).crys = s.crys := rfl
@[simp] theorem State.fw_onCtr : (s.onCtr f).fw = s.fw := rfl
@[simp] theorem State.pwr_onCtr : (s.onCtr f).pwr = s.pwr := rfl
@[simp] theorem State.boot_onCtr : (s.onCtr f).boot = s.boot := rfl
@[simp] theorem State.integ_onCtr : (s.onCtr f).integ = s.integ := rfl
@[simp] theorem State.flash_onCtr : (s.onCtr f).flash = s.flash := rfl
@[simp] theorem State.fuses_onCtr : (s.onCtr f).fuses = s.fuses := rfl
@[simp] theorem State.hbm_onCtr : (s.onCtr f).hbm = s.hbm := rfl
@[simp] theorem State.hrv_onCtr : (s.onCtr f).hrv = s.hrv := rfl
@[simp] theorem State.spn_onCtr : (s.onCtr f).spn = s.spn := rfl
@[simp] theorem State.hostDown_onCtr : (s.onCtr f).hostDown = s.hostDown := rfl
@[simp] theorem State.tap_onCtr : (s.onCtr f).tap = s.tap := rfl
@[simp] theorem State.free_onCtr : (s.onCtr f).free = s.free := rfl
@[simp] theorem State.pending_onCtr : (s.onCtr f).pending = s.pending := rfl

@[simp] theorem State.reg_onCtr (a' : Nat) : (s.onCtr f).reg a' = s.reg a' := Eq.trans rfl rfl
@[simp] theorem State.actReg_onCtr (a' : Nat) : (s.onCtr f).actReg a' = s.actReg a' := Eq.trans rfl rfl
@[simp] theorem State.get_onCtr (g : Field) : (s.onCtr f).get g = s.get g := Eq.trans rfl rfl
@[simp] theorem State.getA_onCtr (g : Field) : (s.onCtr f).getA g = s.getA g := Eq.trans rfl rfl
@[simp] theorem State.flag_onCtr (g : Field) : (s.onCtr f).flag g = s.flag g := Eq.trans rfl rfl
@[simp] theorem State.bit_onCtr (g : Field) (i : Nat) : (s.onCtr f).bit g i = s.bit g i := Eq.trans rfl rfl
@[simp] theorem State.ctr_onCtr : (s.onCtr f).ctr = f s.ctr := rfl

end

/-! ## State.onDma -/

section
variable (n : Fin 16) (f : DmaCh → DmaCh) (s : State)

@[simp] theorem State.variant_onDma : (s.onDma n f).variant = s.variant := rfl
@[simp] theorem State.us_onDma : (s.onDma n f).us = s.us := rfl
@[simp] theorem State.ctrBase_onDma : (s.onDma n f).ctrBase = s.ctrBase := rfl
@[simp] theorem State.regs_onDma : (s.onDma n f).regs = s.regs := rfl
@[simp] theorem State.active_onDma : (s.onDma n f).active = s.active := rfl
@[simp] theorem State.coreUp_onDma : (s.onDma n f).coreUp = s.coreUp := rfl
@[simp] theorem State.evt_onDma : (s.onDma n f).evt = s.evt := rfl
@[simp] theorem State.meas_onDma : (s.onDma n f).meas = s.meas := rfl
@[simp] theorem State.smb_onDma : (s.onDma n f).smb = s.smb := rfl
@[simp] theorem State.lanes_onDma : (s.onDma n f).lanes = s.lanes := rfl
@[simp] theorem State.acts_onDma : (s.onDma n f).acts = s.acts := rfl
@[simp] theorem State.servo_onDma : (s.onDma n f).servo = s.servo := rfl
@[simp] theorem State.geo_onDma : (s.onDma n f).geo = s.geo := rfl
@[simp] theorem State.buf_onDma : (s.onDma n f).buf = s.buf := rfl
@[simp] theorem State.nvme_onDma : (s.onDma n f).nvme = s.nvme := rfl
@[simp] theorem State.map_onDma : (s.onDma n f).map = s.map := rfl
@[simp] theorem State.media_onDma : (s.onDma n f).media = s.media := rfl
@[simp] theorem State.ctr_onDma : (s.onDma n f).ctr = s.ctr := rfl
@[simp] theorem State.crys_onDma : (s.onDma n f).crys = s.crys := rfl
@[simp] theorem State.fw_onDma : (s.onDma n f).fw = s.fw := rfl
@[simp] theorem State.pwr_onDma : (s.onDma n f).pwr = s.pwr := rfl
@[simp] theorem State.boot_onDma : (s.onDma n f).boot = s.boot := rfl
@[simp] theorem State.integ_onDma : (s.onDma n f).integ = s.integ := rfl
@[simp] theorem State.flash_onDma : (s.onDma n f).flash = s.flash := rfl
@[simp] theorem State.fuses_onDma : (s.onDma n f).fuses = s.fuses := rfl
@[simp] theorem State.hbm_onDma : (s.onDma n f).hbm = s.hbm := rfl
@[simp] theorem State.hrv_onDma : (s.onDma n f).hrv = s.hrv := rfl
@[simp] theorem State.spn_onDma : (s.onDma n f).spn = s.spn := rfl
@[simp] theorem State.hostDown_onDma : (s.onDma n f).hostDown = s.hostDown := rfl
@[simp] theorem State.tap_onDma : (s.onDma n f).tap = s.tap := rfl
@[simp] theorem State.free_onDma : (s.onDma n f).free = s.free := rfl
@[simp] theorem State.pending_onDma : (s.onDma n f).pending = s.pending := rfl

@[simp] theorem State.reg_onDma (a' : Nat) : (s.onDma n f).reg a' = s.reg a' := Eq.trans rfl rfl
@[simp] theorem State.actReg_onDma (a' : Nat) : (s.onDma n f).actReg a' = s.actReg a' := Eq.trans rfl rfl
@[simp] theorem State.get_onDma (g : Field) : (s.onDma n f).get g = s.get g := Eq.trans rfl rfl
@[simp] theorem State.getA_onDma (g : Field) : (s.onDma n f).getA g = s.getA g := Eq.trans rfl rfl
@[simp] theorem State.flag_onDma (g : Field) : (s.onDma n f).flag g = s.flag g := Eq.trans rfl rfl
@[simp] theorem State.bit_onDma (g : Field) (i : Nat) : (s.onDma n f).bit g i = s.bit g i := Eq.trans rfl rfl
theorem State.dma_onDma : (s.onDma n f).dma = s.dma.set n (f s.dma[n]) := rfl

end

/-! ## State.onCrys -/

section
variable (f : CrysSt → CrysSt) (s : State)

@[simp] theorem State.variant_onCrys : (s.onCrys f).variant = s.variant := rfl
@[simp] theorem State.us_onCrys : (s.onCrys f).us = s.us := rfl
@[simp] theorem State.ctrBase_onCrys : (s.onCrys f).ctrBase = s.ctrBase := rfl
@[simp] theorem State.regs_onCrys : (s.onCrys f).regs = s.regs := rfl
@[simp] theorem State.active_onCrys : (s.onCrys f).active = s.active := rfl
@[simp] theorem State.coreUp_onCrys : (s.onCrys f).coreUp = s.coreUp := rfl
@[simp] theorem State.evt_onCrys : (s.onCrys f).evt = s.evt := rfl
@[simp] theorem State.meas_onCrys : (s.onCrys f).meas = s.meas := rfl
@[simp] theorem State.smb_onCrys : (s.onCrys f).smb = s.smb := rfl
@[simp] theorem State.lanes_onCrys : (s.onCrys f).lanes = s.lanes := rfl
@[simp] theorem State.acts_onCrys : (s.onCrys f).acts = s.acts := rfl
@[simp] theorem State.servo_onCrys : (s.onCrys f).servo = s.servo := rfl
@[simp] theorem State.geo_onCrys : (s.onCrys f).geo = s.geo := rfl
@[simp] theorem State.buf_onCrys : (s.onCrys f).buf = s.buf := rfl
@[simp] theorem State.nvme_onCrys : (s.onCrys f).nvme = s.nvme := rfl
@[simp] theorem State.map_onCrys : (s.onCrys f).map = s.map := rfl
@[simp] theorem State.media_onCrys : (s.onCrys f).media = s.media := rfl
@[simp] theorem State.ctr_onCrys : (s.onCrys f).ctr = s.ctr := rfl
@[simp] theorem State.dma_onCrys : (s.onCrys f).dma = s.dma := rfl
@[simp] theorem State.fw_onCrys : (s.onCrys f).fw = s.fw := rfl
@[simp] theorem State.pwr_onCrys : (s.onCrys f).pwr = s.pwr := rfl
@[simp] theorem State.boot_onCrys : (s.onCrys f).boot = s.boot := rfl
@[simp] theorem State.integ_onCrys : (s.onCrys f).integ = s.integ := rfl
@[simp] theorem State.flash_onCrys : (s.onCrys f).flash = s.flash := rfl
@[simp] theorem State.fuses_onCrys : (s.onCrys f).fuses = s.fuses := rfl
@[simp] theorem State.hbm_onCrys : (s.onCrys f).hbm = s.hbm := rfl
@[simp] theorem State.hrv_onCrys : (s.onCrys f).hrv = s.hrv := rfl
@[simp] theorem State.spn_onCrys : (s.onCrys f).spn = s.spn := rfl
@[simp] theorem State.hostDown_onCrys : (s.onCrys f).hostDown = s.hostDown := rfl
@[simp] theorem State.tap_onCrys : (s.onCrys f).tap = s.tap := rfl
@[simp] theorem State.free_onCrys : (s.onCrys f).free = s.free := rfl
@[simp] theorem State.pending_onCrys : (s.onCrys f).pending = s.pending := rfl

@[simp] theorem State.reg_onCrys (a' : Nat) : (s.onCrys f).reg a' = s.reg a' := Eq.trans rfl rfl
@[simp] theorem State.actReg_onCrys (a' : Nat) : (s.onCrys f).actReg a' = s.actReg a' := Eq.trans rfl rfl
@[simp] theorem State.get_onCrys (g : Field) : (s.onCrys f).get g = s.get g := Eq.trans rfl rfl
@[simp] theorem State.getA_onCrys (g : Field) : (s.onCrys f).getA g = s.getA g := Eq.trans rfl rfl
@[simp] theorem State.flag_onCrys (g : Field) : (s.onCrys f).flag g = s.flag g := Eq.trans rfl rfl
@[simp] theorem State.bit_onCrys (g : Field) (i : Nat) : (s.onCrys f).bit g i = s.bit g i := Eq.trans rfl rfl
@[simp] theorem State.crys_onCrys : (s.onCrys f).crys = f s.crys := rfl

end

/-! ## State.onPwr -/

section
variable (f : Pwr → Pwr) (s : State)

@[simp] theorem State.variant_onPwr : (s.onPwr f).variant = s.variant := rfl
@[simp] theorem State.us_onPwr : (s.onPwr f).us = s.us := rfl
@[simp] theorem State.ctrBase_onPwr : (s.onPwr f).ctrBase = s.ctrBase := rfl
@[simp] theorem State.regs_onPwr : (s.onPwr f).regs = s.regs := rfl
@[simp] theorem State.active_onPwr : (s.onPwr f).active = s.active := rfl
@[simp] theorem State.coreUp_onPwr : (s.onPwr f).coreUp = s.coreUp := rfl
@[simp] theorem State.evt_onPwr : (s.onPwr f).evt = s.evt := rfl
@[simp] theorem State.meas_onPwr : (s.onPwr f).meas = s.meas := rfl
@[simp] theorem State.smb_onPwr : (s.onPwr f).smb = s.smb := rfl
@[simp] theorem State.lanes_onPwr : (s.onPwr f).lanes = s.lanes := rfl
@[simp] theorem State.acts_onPwr : (s.onPwr f).acts = s.acts := rfl
@[simp] theorem State.servo_onPwr : (s.onPwr f).servo = s.servo := rfl
@[simp] theorem State.geo_onPwr : (s.onPwr f).geo = s.geo := rfl
@[simp] theorem State.buf_onPwr : (s.onPwr f).buf = s.buf := rfl
@[simp] theorem State.nvme_onPwr : (s.onPwr f).nvme = s.nvme := rfl
@[simp] theorem State.map_onPwr : (s.onPwr f).map = s.map := rfl
@[simp] theorem State.media_onPwr : (s.onPwr f).media = s.media := rfl
@[simp] theorem State.ctr_onPwr : (s.onPwr f).ctr = s.ctr := rfl
@[simp] theorem State.dma_onPwr : (s.onPwr f).dma = s.dma := rfl
@[simp] theorem State.crys_onPwr : (s.onPwr f).crys = s.crys := rfl
@[simp] theorem State.fw_onPwr : (s.onPwr f).fw = s.fw := rfl
@[simp] theorem State.boot_onPwr : (s.onPwr f).boot = s.boot := rfl
@[simp] theorem State.integ_onPwr : (s.onPwr f).integ = s.integ := rfl
@[simp] theorem State.flash_onPwr : (s.onPwr f).flash = s.flash := rfl
@[simp] theorem State.fuses_onPwr : (s.onPwr f).fuses = s.fuses := rfl
@[simp] theorem State.hbm_onPwr : (s.onPwr f).hbm = s.hbm := rfl
@[simp] theorem State.hrv_onPwr : (s.onPwr f).hrv = s.hrv := rfl
@[simp] theorem State.spn_onPwr : (s.onPwr f).spn = s.spn := rfl
@[simp] theorem State.hostDown_onPwr : (s.onPwr f).hostDown = s.hostDown := rfl
@[simp] theorem State.tap_onPwr : (s.onPwr f).tap = s.tap := rfl
@[simp] theorem State.free_onPwr : (s.onPwr f).free = s.free := rfl
@[simp] theorem State.pending_onPwr : (s.onPwr f).pending = s.pending := rfl

@[simp] theorem State.reg_onPwr (a' : Nat) : (s.onPwr f).reg a' = s.reg a' := Eq.trans rfl rfl
@[simp] theorem State.actReg_onPwr (a' : Nat) : (s.onPwr f).actReg a' = s.actReg a' := Eq.trans rfl rfl
@[simp] theorem State.get_onPwr (g : Field) : (s.onPwr f).get g = s.get g := Eq.trans rfl rfl
@[simp] theorem State.getA_onPwr (g : Field) : (s.onPwr f).getA g = s.getA g := Eq.trans rfl rfl
@[simp] theorem State.flag_onPwr (g : Field) : (s.onPwr f).flag g = s.flag g := Eq.trans rfl rfl
@[simp] theorem State.bit_onPwr (g : Field) (i : Nat) : (s.onPwr f).bit g i = s.bit g i := Eq.trans rfl rfl
@[simp] theorem State.pwr_onPwr : (s.onPwr f).pwr = f s.pwr := rfl

end

/-! ## State.onBoot -/

section
variable (f : Boot → Boot) (s : State)

@[simp] theorem State.variant_onBoot : (s.onBoot f).variant = s.variant := rfl
@[simp] theorem State.us_onBoot : (s.onBoot f).us = s.us := rfl
@[simp] theorem State.ctrBase_onBoot : (s.onBoot f).ctrBase = s.ctrBase := rfl
@[simp] theorem State.regs_onBoot : (s.onBoot f).regs = s.regs := rfl
@[simp] theorem State.active_onBoot : (s.onBoot f).active = s.active := rfl
@[simp] theorem State.coreUp_onBoot : (s.onBoot f).coreUp = s.coreUp := rfl
@[simp] theorem State.evt_onBoot : (s.onBoot f).evt = s.evt := rfl
@[simp] theorem State.meas_onBoot : (s.onBoot f).meas = s.meas := rfl
@[simp] theorem State.smb_onBoot : (s.onBoot f).smb = s.smb := rfl
@[simp] theorem State.lanes_onBoot : (s.onBoot f).lanes = s.lanes := rfl
@[simp] theorem State.acts_onBoot : (s.onBoot f).acts = s.acts := rfl
@[simp] theorem State.servo_onBoot : (s.onBoot f).servo = s.servo := rfl
@[simp] theorem State.geo_onBoot : (s.onBoot f).geo = s.geo := rfl
@[simp] theorem State.buf_onBoot : (s.onBoot f).buf = s.buf := rfl
@[simp] theorem State.nvme_onBoot : (s.onBoot f).nvme = s.nvme := rfl
@[simp] theorem State.map_onBoot : (s.onBoot f).map = s.map := rfl
@[simp] theorem State.media_onBoot : (s.onBoot f).media = s.media := rfl
@[simp] theorem State.ctr_onBoot : (s.onBoot f).ctr = s.ctr := rfl
@[simp] theorem State.dma_onBoot : (s.onBoot f).dma = s.dma := rfl
@[simp] theorem State.crys_onBoot : (s.onBoot f).crys = s.crys := rfl
@[simp] theorem State.fw_onBoot : (s.onBoot f).fw = s.fw := rfl
@[simp] theorem State.pwr_onBoot : (s.onBoot f).pwr = s.pwr := rfl
@[simp] theorem State.integ_onBoot : (s.onBoot f).integ = s.integ := rfl
@[simp] theorem State.flash_onBoot : (s.onBoot f).flash = s.flash := rfl
@[simp] theorem State.fuses_onBoot : (s.onBoot f).fuses = s.fuses := rfl
@[simp] theorem State.hbm_onBoot : (s.onBoot f).hbm = s.hbm := rfl
@[simp] theorem State.hrv_onBoot : (s.onBoot f).hrv = s.hrv := rfl
@[simp] theorem State.spn_onBoot : (s.onBoot f).spn = s.spn := rfl
@[simp] theorem State.hostDown_onBoot : (s.onBoot f).hostDown = s.hostDown := rfl
@[simp] theorem State.tap_onBoot : (s.onBoot f).tap = s.tap := rfl
@[simp] theorem State.free_onBoot : (s.onBoot f).free = s.free := rfl
@[simp] theorem State.pending_onBoot : (s.onBoot f).pending = s.pending := rfl

@[simp] theorem State.reg_onBoot (a' : Nat) : (s.onBoot f).reg a' = s.reg a' := Eq.trans rfl rfl
@[simp] theorem State.actReg_onBoot (a' : Nat) : (s.onBoot f).actReg a' = s.actReg a' := Eq.trans rfl rfl
@[simp] theorem State.get_onBoot (g : Field) : (s.onBoot f).get g = s.get g := Eq.trans rfl rfl
@[simp] theorem State.getA_onBoot (g : Field) : (s.onBoot f).getA g = s.getA g := Eq.trans rfl rfl
@[simp] theorem State.flag_onBoot (g : Field) : (s.onBoot f).flag g = s.flag g := Eq.trans rfl rfl
@[simp] theorem State.bit_onBoot (g : Field) (i : Nat) : (s.onBoot f).bit g i = s.bit g i := Eq.trans rfl rfl
@[simp] theorem State.boot_onBoot : (s.onBoot f).boot = f s.boot := rfl

end

/-! ## State.onHrv -/

section
variable (f : HrvSt → HrvSt) (s : State)

@[simp] theorem State.variant_onHrv : (s.onHrv f).variant = s.variant := rfl
@[simp] theorem State.us_onHrv : (s.onHrv f).us = s.us := rfl
@[simp] theorem State.ctrBase_onHrv : (s.onHrv f).ctrBase = s.ctrBase := rfl
@[simp] theorem State.regs_onHrv : (s.onHrv f).regs = s.regs := rfl
@[simp] theorem State.active_onHrv : (s.onHrv f).active = s.active := rfl
@[simp] theorem State.coreUp_onHrv : (s.onHrv f).coreUp = s.coreUp := rfl
@[simp] theorem State.evt_onHrv : (s.onHrv f).evt = s.evt := rfl
@[simp] theorem State.meas_onHrv : (s.onHrv f).meas = s.meas := rfl
@[simp] theorem State.smb_onHrv : (s.onHrv f).smb = s.smb := rfl
@[simp] theorem State.lanes_onHrv : (s.onHrv f).lanes = s.lanes := rfl
@[simp] theorem State.acts_onHrv : (s.onHrv f).acts = s.acts := rfl
@[simp] theorem State.servo_onHrv : (s.onHrv f).servo = s.servo := rfl
@[simp] theorem State.geo_onHrv : (s.onHrv f).geo = s.geo := rfl
@[simp] theorem State.buf_onHrv : (s.onHrv f).buf = s.buf := rfl
@[simp] theorem State.nvme_onHrv : (s.onHrv f).nvme = s.nvme := rfl
@[simp] theorem State.map_onHrv : (s.onHrv f).map = s.map := rfl
@[simp] theorem State.media_onHrv : (s.onHrv f).media = s.media := rfl
@[simp] theorem State.ctr_onHrv : (s.onHrv f).ctr = s.ctr := rfl
@[simp] theorem State.dma_onHrv : (s.onHrv f).dma = s.dma := rfl
@[simp] theorem State.crys_onHrv : (s.onHrv f).crys = s.crys := rfl
@[simp] theorem State.fw_onHrv : (s.onHrv f).fw = s.fw := rfl
@[simp] theorem State.pwr_onHrv : (s.onHrv f).pwr = s.pwr := rfl
@[simp] theorem State.boot_onHrv : (s.onHrv f).boot = s.boot := rfl
@[simp] theorem State.integ_onHrv : (s.onHrv f).integ = s.integ := rfl
@[simp] theorem State.flash_onHrv : (s.onHrv f).flash = s.flash := rfl
@[simp] theorem State.fuses_onHrv : (s.onHrv f).fuses = s.fuses := rfl
@[simp] theorem State.hbm_onHrv : (s.onHrv f).hbm = s.hbm := rfl
@[simp] theorem State.spn_onHrv : (s.onHrv f).spn = s.spn := rfl
@[simp] theorem State.hostDown_onHrv : (s.onHrv f).hostDown = s.hostDown := rfl
@[simp] theorem State.tap_onHrv : (s.onHrv f).tap = s.tap := rfl
@[simp] theorem State.free_onHrv : (s.onHrv f).free = s.free := rfl
@[simp] theorem State.pending_onHrv : (s.onHrv f).pending = s.pending := rfl

@[simp] theorem State.reg_onHrv (a' : Nat) : (s.onHrv f).reg a' = s.reg a' := Eq.trans rfl rfl
@[simp] theorem State.actReg_onHrv (a' : Nat) : (s.onHrv f).actReg a' = s.actReg a' := Eq.trans rfl rfl
@[simp] theorem State.get_onHrv (g : Field) : (s.onHrv f).get g = s.get g := Eq.trans rfl rfl
@[simp] theorem State.getA_onHrv (g : Field) : (s.onHrv f).getA g = s.getA g := Eq.trans rfl rfl
@[simp] theorem State.flag_onHrv (g : Field) : (s.onHrv f).flag g = s.flag g := Eq.trans rfl rfl
@[simp] theorem State.bit_onHrv (g : Field) (i : Nat) : (s.onHrv f).bit g i = s.bit g i := Eq.trans rfl rfl
@[simp] theorem State.hrv_onHrv : (s.onHrv f).hrv = f s.hrv := rfl

end

/-! ## State.onSpn -/

section
variable (f : Spn → Spn) (s : State)

@[simp] theorem State.variant_onSpn : (s.onSpn f).variant = s.variant := rfl
@[simp] theorem State.us_onSpn : (s.onSpn f).us = s.us := rfl
@[simp] theorem State.ctrBase_onSpn : (s.onSpn f).ctrBase = s.ctrBase := rfl
@[simp] theorem State.regs_onSpn : (s.onSpn f).regs = s.regs := rfl
@[simp] theorem State.active_onSpn : (s.onSpn f).active = s.active := rfl
@[simp] theorem State.coreUp_onSpn : (s.onSpn f).coreUp = s.coreUp := rfl
@[simp] theorem State.evt_onSpn : (s.onSpn f).evt = s.evt := rfl
@[simp] theorem State.meas_onSpn : (s.onSpn f).meas = s.meas := rfl
@[simp] theorem State.smb_onSpn : (s.onSpn f).smb = s.smb := rfl
@[simp] theorem State.lanes_onSpn : (s.onSpn f).lanes = s.lanes := rfl
@[simp] theorem State.acts_onSpn : (s.onSpn f).acts = s.acts := rfl
@[simp] theorem State.servo_onSpn : (s.onSpn f).servo = s.servo := rfl
@[simp] theorem State.geo_onSpn : (s.onSpn f).geo = s.geo := rfl
@[simp] theorem State.buf_onSpn : (s.onSpn f).buf = s.buf := rfl
@[simp] theorem State.nvme_onSpn : (s.onSpn f).nvme = s.nvme := rfl
@[simp] theorem State.map_onSpn : (s.onSpn f).map = s.map := rfl
@[simp] theorem State.media_onSpn : (s.onSpn f).media = s.media := rfl
@[simp] theorem State.ctr_onSpn : (s.onSpn f).ctr = s.ctr := rfl
@[simp] theorem State.dma_onSpn : (s.onSpn f).dma = s.dma := rfl
@[simp] theorem State.crys_onSpn : (s.onSpn f).crys = s.crys := rfl
@[simp] theorem State.fw_onSpn : (s.onSpn f).fw = s.fw := rfl
@[simp] theorem State.pwr_onSpn : (s.onSpn f).pwr = s.pwr := rfl
@[simp] theorem State.boot_onSpn : (s.onSpn f).boot = s.boot := rfl
@[simp] theorem State.integ_onSpn : (s.onSpn f).integ = s.integ := rfl
@[simp] theorem State.flash_onSpn : (s.onSpn f).flash = s.flash := rfl
@[simp] theorem State.fuses_onSpn : (s.onSpn f).fuses = s.fuses := rfl
@[simp] theorem State.hbm_onSpn : (s.onSpn f).hbm = s.hbm := rfl
@[simp] theorem State.hrv_onSpn : (s.onSpn f).hrv = s.hrv := rfl
@[simp] theorem State.hostDown_onSpn : (s.onSpn f).hostDown = s.hostDown := rfl
@[simp] theorem State.tap_onSpn : (s.onSpn f).tap = s.tap := rfl
@[simp] theorem State.free_onSpn : (s.onSpn f).free = s.free := rfl
@[simp] theorem State.pending_onSpn : (s.onSpn f).pending = s.pending := rfl

@[simp] theorem State.reg_onSpn (a' : Nat) : (s.onSpn f).reg a' = s.reg a' := Eq.trans rfl rfl
@[simp] theorem State.actReg_onSpn (a' : Nat) : (s.onSpn f).actReg a' = s.actReg a' := Eq.trans rfl rfl
@[simp] theorem State.get_onSpn (g : Field) : (s.onSpn f).get g = s.get g := Eq.trans rfl rfl
@[simp] theorem State.getA_onSpn (g : Field) : (s.onSpn f).getA g = s.getA g := Eq.trans rfl rfl
@[simp] theorem State.flag_onSpn (g : Field) : (s.onSpn f).flag g = s.flag g := Eq.trans rfl rfl
@[simp] theorem State.bit_onSpn (g : Field) (i : Nat) : (s.onSpn f).bit g i = s.bit g i := Eq.trans rfl rfl
@[simp] theorem State.spn_onSpn : (s.onSpn f).spn = f s.spn := rfl

end

/-! ## Lanes, actuators and channels -/

@[simp] theorem State.lane_onLane_self (n : Fin 4) (f : Lane → Lane) (s : State) : (s.onLane n f).lane n = f (s.lane n) := by
  simp [State.lane, State.onLane]

theorem State.lane_onLane_ne {n m : Fin 4} (f : Lane → Lane) (s : State) (h : m ≠ n) : (s.onLane n f).lane m = s.lane m := by
  have : n.val ≠ m.val := fun e => h (Fin.ext e.symm)
  simp [State.lane, State.onLane, this]

@[simp] theorem State.act_onAct_self (n : Fin 4) (f : Act → Act) (s : State) : (s.onAct n f).act n = f (s.act n) := by
  simp [State.act, State.onAct]

theorem State.act_onAct_ne {n m : Fin 4} (f : Act → Act) (s : State) (h : m ≠ n) : (s.onAct n f).act m = s.act m := by
  have : n.val ≠ m.val := fun e => h (Fin.ext e.symm)
  simp [State.act, State.onAct, this]

@[simp] theorem State.lane_setReg (a : Nat) (v : Word) (n : Fin 4) (s : State) : (s.setReg a v).lane n = s.lane n := rfl
@[simp] theorem State.lane_put (f : Field) (v : Nat) (n : Fin 4) (s : State) : (s.put f v).lane n = s.lane n := rfl
@[simp] theorem State.act_put (f : Field) (v : Nat) (n : Fin 4) (s : State) : (s.put f v).act n = s.act n := rfl

end Sys2Proof.Machine
end

