-- ==== Sys2Proof/Laws/Writes.lean ====
section
/-! SUPPORT. What a write access can do: a write that a cause of R664 stops is ignored and counted, whichever register it is
for, and a path that is closed carries none. -/

namespace Sys2Proof.Machine
open Sys2Proof

/-- A field of a word, as a number. -/
theorem Field.of_eq (f : Field) (w : Word)  : f.of w = w.toNat / 2 ^ f.lo % 2 ^ f.width := by
  refine Nat.eq_of_testBit_eq fun i => ?_
  rw [Field.testBit_of, Nat.testBit_mod_two_pow, Nat.testBit_div_two_pow, BitVec.testBit_toNat, Nat.add_comm]

/-- A path that is closed carries no write. -/
theorem State.gated_closed {s : State} {p : Path} {a : Nat} {v : Word} {bad : Bool} {eff : State → State}
    (hp : s.writeOpen p = false) : s.gated p a v bad eff = s := by simp [State.gated, hp]

/-! ## Every writer asks the checks of R664 first -/

theorem State.writeSysRst_gated (p : Path) (v : Word) (s : State) :
    ∃ bad eff, State.writeSysRst p  v s = s.gated p (R.SYS_RST) v bad eff := by
  unfold State.writeSysRst
  exact ⟨_, _, rfl⟩

theorem State.writePwrCmd_gated (p : Path) (v : Word) (s : State) :
    ∃ bad eff, State.writePwrCmd p  v s = s.gated p (R.PWR_CMD) v bad eff := by
  unfold State.writePwrCmd
  extract_lets
  exact ⟨_, _, rfl⟩

theorem State.writePadrel_gated (p : Path) (v : Word) (s : State) :
    ∃ bad eff, State.writePadrel p  v s = s.gated p (R.PWR_PADREL) v bad eff := by
  unfold State.writePadrel
  extract_lets
  exact ⟨_, _, rfl⟩

theorem State.writeCauseReg_gated (p : Path) (v : Word) (s : State) :
    ∃ bad eff, State.writeCauseReg p  v s = s.gated p (R.ALR_CAUSE) v bad eff := by
  unfold State.writeCauseReg
  exact ⟨_, _, rfl⟩

theorem State.writeEvtCtl_gated (p : Path) (v : Word) (s : State) :
    ∃ bad eff, State.writeEvtCtl p  v s = s.gated p (R.EVT_CTL) v bad eff := by
  unfold State.writeEvtCtl
  exact ⟨_, _, rfl⟩

theorem State.writeEvtCmd_gated (p : Path) (v : Word) (s : State) :
    ∃ bad eff, State.writeEvtCmd p  v s = s.gated p (R.EVT_CMD) v bad eff := by
  unfold State.writeEvtCmd
  exact ⟨_, _, rfl⟩

theorem State.writeRevoke_gated (p : Path) (v : Word) (s : State) :
    ∃ bad eff, State.writeRevoke p  v s = s.gated p (R.CFG_REVOKE) v bad eff := by
  unfold State.writeRevoke
  exact ⟨_, _, rfl⟩

theorem State.writeFlcmd_gated (p : Path) (v : Word) (s : State) :
    ∃ bad eff, State.writeFlcmd p  v s = s.gated p (R.CFG_FLCMD) v bad eff := by
  unfold State.writeFlcmd
  extract_lets
  exact ⟨_, _, rfl⟩

theorem State.writeRcvcmd_gated (p : Path) (v : Word) (s : State) :
    ∃ bad eff, State.writeRcvcmd p  v s = s.gated p (R.CFG_RCVCMD) v bad eff := by
  unfold State.writeRcvcmd
  extract_lets
  exact ⟨_, _, rfl⟩

theorem State.writeEccCtl_gated (p : Path) (v : Word) (s : State) :
    ∃ bad eff, State.writeEccCtl p  v s = s.gated p (R.ECC_CTL) v bad eff := by
  unfold State.writeEccCtl
  exact ⟨_, _, rfl⟩

theorem State.writeFlipctl_gated (p : Path) (v : Word) (s : State) :
    ∃ bad eff, State.writeFlipctl p  v s = s.gated p (R.ECC_FLIPCTL) v bad eff := by
  unfold State.writeFlipctl
  extract_lets
  exact ⟨_, _, rfl⟩

theorem State.writeSplitctl_gated (p : Path) (v : Word) (s : State) :
    ∃ bad eff, State.writeSplitctl p  v s = s.gated p (R.ECC_SPLITCTL) v bad eff := by
  unfold State.writeSplitctl
  extract_lets
  exact ⟨_, _, rfl⟩

theorem State.writeIsstCmd_gated (p : Path) (v : Word) (s : State) :
    ∃ bad eff, State.writeIsstCmd p  v s = s.gated p (R.ISST_CMD) v bad eff := by
  unfold State.writeIsstCmd
  extract_lets
  exact ⟨_, _, rfl⟩

theorem State.writeCtrGo_gated (p : Path) (v : Word) (s : State) :
    ∃ bad eff, State.writeCtrGo p  v s = s.gated p (R.CTR_GO) v bad eff := by
  unfold State.writeCtrGo
  extract_lets
  exact ⟨_, _, rfl⟩

theorem State.writeBufCtl_gated (p : Path) (v : Word) (s : State) :
    ∃ bad eff, State.writeBufCtl p  v s = s.gated p (R.BUF_CTL) v bad eff := by
  unfold State.writeBufCtl
  exact ⟨_, _, rfl⟩

theorem State.writeBufAbort_gated (p : Path) (v : Word) (s : State) :
    ∃ bad eff, State.writeBufAbort p  v s = s.gated p (R.BUF_ABORT) v bad eff := by
  unfold State.writeBufAbort
  exact ⟨_, _, rfl⟩

theorem State.writeMapCtl_gated (p : Path) (v : Word) (s : State) :
    ∃ bad eff, State.writeMapCtl p  v s = s.gated p (R.MAP_CTL) v bad eff := by
  unfold State.writeMapCtl
  extract_lets
  exact ⟨_, _, rfl⟩

theorem State.writeMapCmd_gated (p : Path) (v : Word) (s : State) :
    ∃ bad eff, State.writeMapCmd p  v s = s.gated p (R.MAP_CMD) v bad eff := by
  unfold State.writeMapCmd
  extract_lets
  exact ⟨_, _, rfl⟩

theorem State.writeHrvCtl_gated (p : Path) (v : Word) (s : State) :
    ∃ bad eff, State.writeHrvCtl p  v s = s.gated p (R.HRV_CTL) v bad eff := by
  unfold State.writeHrvCtl
  exact ⟨_, _, rfl⟩

theorem State.writeHrvGo_gated (p : Path) (v : Word) (s : State) :
    ∃ bad eff, State.writeHrvGo p  v s = s.gated p (R.HRV_GO) v bad eff := by
  unfold State.writeHrvGo
  exact ⟨_, _, rfl⟩

theorem State.writeHrvCmd_gated (p : Path) (v : Word) (s : State) :
    ∃ bad eff, State.writeHrvCmd p  v s = s.gated p (R.HRV_CMD) v bad eff := by
  unfold State.writeHrvCmd
  extract_lets
  exact ⟨_, _, rfl⟩

theorem State.writeSpnCtl_gated (p : Path) (v : Word) (s : State) :
    ∃ bad eff, State.writeSpnCtl p  v s = s.gated p (R.SPN_CTL) v bad eff := by
  unfold State.writeSpnCtl
  exact ⟨_, _, rfl⟩

theorem State.writeSpnGo_gated (p : Path) (v : Word) (s : State) :
    ∃ bad eff, State.writeSpnGo p  v s = s.gated p (R.SPN_GO) v bad eff := by
  unfold State.writeSpnGo
  exact ⟨_, _, rfl⟩

theorem State.writeScaGo_gated (p : Path) (v : Word) (s : State) :
    ∃ bad eff, State.writeScaGo p  v s = s.gated p (R.SCA_GO) v bad eff := by
  unfold State.writeScaGo
  exact ⟨_, _, rfl⟩

theorem State.writeScaStat_gated (p : Path) (v : Word) (s : State) :
    ∃ bad eff, State.writeScaStat p  v s = s.gated p (R.SCA_STAT) v bad eff := by
  unfold State.writeScaStat
  exact ⟨_, _, rfl⟩

theorem State.writeFlctl_gated (p : Path) (v : Word) (s : State) :
    ∃ bad eff, State.writeFlctl p  v s = s.gated p (R.SCA_FLCTL) v bad eff := by
  unfold State.writeFlctl
  extract_lets
  exact ⟨_, _, rfl⟩

theorem State.writeSetcmd_gated (p : Path) (v : Word) (s : State) :
    ∃ bad eff, State.writeSetcmd p  v s = s.gated p (R.SRV_SETCMD) v bad eff := by
  unfold State.writeSetcmd
  extract_lets
  exact ⟨_, _, rfl⟩

theorem State.writeSsdata_gated (p : Path) (v : Word) (s : State) :
    ∃ bad eff, State.writeSsdata p  v s = s.gated p (R.SRV_SSDATA) v bad eff := by
  unfold State.writeSsdata
  exact ⟨_, _, rfl⟩

theorem State.writeCrysCmd_gated (p : Path) (v : Word) (s : State) :
    ∃ bad eff, State.writeCrysCmd p  v s = s.gated p (R.CRYS_CMD) v bad eff := by
  unfold State.writeCrysCmd
  extract_lets
  exact ⟨_, _, rfl⟩

theorem State.writeMaxus_gated (p : Path) (v : Word) (s : State) :
    ∃ bad eff, State.writeMaxus p  v s = s.gated p (R.CRYS_MAXUS) v bad eff := by
  unfold State.writeMaxus
  exact ⟨_, _, rfl⟩

theorem State.writeTmrInj_gated (p : Path) (v : Word) (s : State) :
    ∃ bad eff, State.writeTmrInj p  v s = s.gated p (R.TMR_INJ) v bad eff := by
  unfold State.writeTmrInj
  extract_lets
  exact ⟨_, _, rfl⟩

theorem State.writeLsctl_gated (p : Path) (v : Word) (s : State) :
    ∃ bad eff, State.writeLsctl p  v s = s.gated p (R.TMR_LSCTL) v bad eff := by
  unfold State.writeLsctl
  extract_lets
  exact ⟨_, _, rfl⟩

theorem State.writeSwHdr_gated (p : Path) (n : Fin 4) (v : Word) (s : State) :
    ∃ bad eff, State.writeSwHdr p n v s = s.gated p (R.EVT_SW_HDR n) v bad eff := by
  unfold State.writeSwHdr
  extract_lets
  exact ⟨_, _, rfl⟩

theorem State.writeSkcmd_gated (p : Path) (n : Fin 4) (v : Word) (s : State) :
    ∃ bad eff, State.writeSkcmd p n v s = s.gated p (R.SCA_SKCMD n) v bad eff := by
  unfold State.writeSkcmd
  extract_lets
  exact ⟨_, _, rfl⟩

theorem State.writeDmaCtl_gated (p : Path) (n : Fin 16) (v : Word) (s : State) :
    ∃ bad eff, State.writeDmaCtl p n v s = s.gated p (R.DMA_CH_CTL n) v bad eff := by
  unfold State.writeDmaCtl
  extract_lets
  exact ⟨_, _, rfl⟩

theorem State.writeDmaDb_gated (p : Path) (n : Fin 16) (v : Word) (s : State) :
    ∃ bad eff, State.writeDmaDb p n v s = s.gated p (R.DMA_CH_DB n) v bad eff := by
  unfold State.writeDmaDb
  exact ⟨_, _, rfl⟩

theorem State.writeSig_gated0 (p : Path) (v : Word) (s : State) :
    ∃ bad eff, State.writeSig p 0 true v s = s.gated p R.DMA_SIGSET0 v bad eff := by
  unfold State.writeSig
  extract_lets
  exact ⟨_, _, rfl⟩

theorem State.writeSig_gated1 (p : Path) (v : Word) (s : State) :
    ∃ bad eff, State.writeSig p 1 true v s = s.gated p R.DMA_SIGSET1 v bad eff := by
  unfold State.writeSig
  extract_lets
  exact ⟨_, _, rfl⟩

theorem State.writeSig_gated2 (p : Path) (v : Word) (s : State) :
    ∃ bad eff, State.writeSig p 0 false v s = s.gated p R.DMA_SIGCLR0 v bad eff := by
  unfold State.writeSig
  extract_lets
  exact ⟨_, _, rfl⟩

theorem State.writeSig_gated3 (p : Path) (v : Word) (s : State) :
    ∃ bad eff, State.writeSig p 1 false v s = s.gated p R.DMA_SIGCLR1 v bad eff := by
  unfold State.writeSig
  extract_lets
  exact ⟨_, _, rfl⟩

theorem State.writeSlot_gated_D0 (p : Path) (k : Fin 16) (v : Word) (s : State) :
    ∃ bad eff, State.writeSlot p k false v s = s.gated p (R.SHF_SLOT_D0 k) v bad eff := by
  unfold State.writeSlot
  extract_lets
  exact ⟨_, _, rfl⟩

theorem State.writeSlot_gated_D1 (p : Path) (k : Fin 16) (v : Word) (s : State) :
    ∃ bad eff, State.writeSlot p k true v s = s.gated p (R.SHF_SLOT_D1 k) v bad eff := by
  unfold State.writeSlot
  extract_lets
  exact ⟨_, _, rfl⟩

theorem State.writeLaneGo_gated (p : Path) (n : Fin 4) (v : Word) (s : State) :
    ∃ bad eff, State.writeLaneGo p n v s = s.gated p (R.LANE_GO n) v bad eff := by
  unfold State.writeLaneGo
  extract_lets
  exact ⟨_, _, rfl⟩

theorem State.writeEqmu_gated (p : Path) (n : Fin 4) (v : Word) (s : State) :
    ∃ bad eff, State.writeEqmu p n v s = s.gated p (R.LANE_EQMU n) v bad eff := by
  unfold State.writeEqmu
  exact ⟨_, _, rfl⟩

theorem State.writeBrhw_gated (p : Path) (n : Fin 4) (v : Word) (s : State) :
    ∃ bad eff, State.writeBrhw p n v s = s.gated p (R.LANE_BRHW n) v bad eff := by
  unfold State.writeBrhw
  exact ⟨_, _, rfl⟩

theorem State.writeCaldata_gated (p : Path) (n : Fin 4) (v : Word) (s : State) :
    ∃ bad eff, State.writeCaldata p n v s = s.gated p (R.LANE_CALDATA n) v bad eff := by
  unfold State.writeCaldata
  exact ⟨_, _, rfl⟩

theorem State.writePascmd_gated (p : Path) (n : Fin 4) (v : Word) (s : State) :
    ∃ bad eff, State.writePascmd p n v s = s.gated p (R.LANE_PASCMD n) v bad eff := by
  unfold State.writePascmd
  exact ⟨_, _, rfl⟩

theorem State.writeMcsCtl_gated (p : Path) (n : Fin 4) (v : Word) (s : State) :
    ∃ bad eff, State.writeMcsCtl p n v s = s.gated p (R.MCS_CTL n) v bad eff := by
  unfold State.writeMcsCtl
  extract_lets
  exact ⟨_, _, rfl⟩

theorem State.writeLdctl_gated (p : Path) (n : Fin 4) (v : Word) (s : State) :
    ∃ bad eff, State.writeLdctl p n v s = s.gated p (R.MCS_LDCTL n) v bad eff := by
  unfold State.writeLdctl
  extract_lets
  exact ⟨_, _, rfl⟩

/-- The write of a register that has a command of its own goes through the checks that every write goes through. -/
theorem ownWriter_gated (a : Nat) (f : Path → Word → State → State) (h : ownWriter a = some f) (p : Path) (v : Word) (s : State) :
    ∃ bad eff, f p v s = s.gated p a v bad eff := by
  unfold ownWriter at h
  simp only at h
  have found : ∀ {n : Nat} [NeZero n] {r : Nat → Nat} {k : Nat},
      (List.range n).find? (fun i => a == r i) = some k → a = r (Fin.ofNat n k).val := by
    intro n _ r k h
    have e : a = r k := by simpa using List.find?_some h
    have hk : k < n := by simpa using List.mem_of_find?_eq_some h
    rw [show (Fin.ofNat n k).val = k from Nat.mod_eq_of_lt hk, e]
  generalize Fin.ofNat 4 (a / 65536 - 0x13) = lane at h
  generalize Fin.ofNat 4 ((a / 65536 - 0x1A) / 2) = seq at h
  generalize a / 65536 = b at h
  repeat' (split at h)
  all_goals first
    | (cases h; done)
    | (injection h with h; subst h; rename_i e; subst e; beta_reduce)
    | (injection h with h; subst h; rename_i e; rw [found e]; beta_reduce)
    | (rw [Option.map_eq_some_iff] at h; obtain ⟨k, e, rfl⟩ := h; rw [found e]; beta_reduce)
  all_goals first
    | with_reducible exact State.writeSysRst_gated ..
    | with_reducible exact State.writePwrCmd_gated ..
    | with_reducible exact State.writePadrel_gated ..
    | with_reducible exact State.writeCauseReg_gated ..
    | with_reducible exact State.writeEvtCtl_gated ..
    | with_reducible exact State.writeEvtCmd_gated ..
    | with_reducible exact State.writeRevoke_gated ..
    | with_reducible exact State.writeFlcmd_gated ..
    | with_reducible exact State.writeRcvcmd_gated ..
    | with_reducible exact State.writeEccCtl_gated ..
    | with_reducible exact State.writeFlipctl_gated ..
    | with_reducible exact State.writeSplitctl_gated ..
    | with_reducible exact State.writeIsstCmd_gated ..
    | with_reducible exact State.writeCtrGo_gated ..
    | with_reducible exact State.writeBufCtl_gated ..
    | with_reducible exact State.writeBufAbort_gated ..
    | with_reducible exact State.writeMapCtl_gated ..
    | with_reducible exact State.writeMapCmd_gated ..
    | with_reducible exact State.writeHrvCtl_gated ..
    | with_reducible exact State.writeHrvGo_gated ..
    | with_reducible exact State.writeHrvCmd_gated ..
    | with_reducible exact State.writeSpnCtl_gated ..
    | with_reducible exact State.writeSpnGo_gated ..
    | with_reducible exact State.writeScaGo_gated ..
    | with_reducible exact State.writeScaStat_gated ..
    | with_reducible exact State.writeFlctl_gated ..
    | with_reducible exact State.writeSetcmd_gated ..
    | with_reducible exact State.writeSsdata_gated ..
    | with_reducible exact State.writeCrysCmd_gated ..
    | with_reducible exact State.writeMaxus_gated ..
    | with_reducible exact State.writeTmrInj_gated ..
    | with_reducible exact State.writeLsctl_gated ..
    | with_reducible exact State.writeSwHdr_gated ..
    | with_reducible exact State.writeSkcmd_gated ..
    | with_reducible exact State.writeDmaCtl_gated ..
    | with_reducible exact State.writeDmaDb_gated ..
    | with_reducible exact State.writeSig_gated0 ..
    | with_reducible exact State.writeSig_gated1 ..
    | with_reducible exact State.writeSig_gated2 ..
    | with_reducible exact State.writeSig_gated3 ..
    | with_reducible exact State.writeSlot_gated_D0 ..
    | with_reducible exact State.writeSlot_gated_D1 ..
    | with_reducible exact State.writeLaneGo_gated ..
    | with_reducible exact State.writeEqmu_gated ..
    | with_reducible exact State.writeBrhw_gated ..
    | with_reducible exact State.writeCaldata_gated ..
    | with_reducible exact State.writePascmd_gated ..
    | with_reducible exact State.writeMcsCtl_gated ..
    | with_reducible exact State.writeLdctl_gated ..

/-- A write through a path that is closed changes nothing. -/
theorem State.writeOne_closed {s : State} {p : Path} (a : Nat) (v : Word) (hp : s.writeOpen p = false) : s.writeOne p a v = s := by
  unfold State.writeOne
  split
  · exact State.gated_closed hp
  · split
    · rename_i h
      unfold State.writeWindow
      split
      · rename_i e; simp [e] at h
      · exact State.gated_closed hp
    · split
      · rename_i f e
        obtain ⟨bad, eff, g⟩ := ownWriter_gated a f e p v s
        rw [g, State.gated_closed hp]
      · exact State.gated_closed hp

/-- A write that a cause of R664 stops is ignored and counted, and does nothing else. -/
theorem State.writeOne_cause {s : State} {p : Path} {a : Nat} {v : Word} {c : Nat} (hp : s.writeOpen p = true)
    (hc : s.writeCause p a v = some c) : s.writeOne p a v = s.ignore p (s.countBlock p a) a c false := by
  unfold State.writeOne
  split
  · exact State.gated_of_cause hp hc
  · split
    · rename_i h
      unfold State.writeWindow
      split
      · rename_i e; simp [e] at h
      · exact State.gated_of_cause hp hc
    · split
      · rename_i f e
        obtain ⟨bad, eff, g⟩ := ownWriter_gated a f e p v s
        rw [g, State.gated_of_cause hp hc]
      · exact State.gated_of_cause hp hc

end Sys2Proof.Machine
end

