-- ==== Sys2Proof/Laws/Access.lean ====
section
/-! SUPPORT. What the provers cite of register accesses, staged values and resets. -/

namespace Sys2Proof.Machine
open Sys2Proof

theorem open_of_accepts {s : State} {p : Path} {a : Nat} {v : Word} (h : s.accepts p a v = true) :
    s.writeOpen p = true ∧ s.writeCause p a v = none := by
  simpa only [State.accepts, Bool.and_eq_true, Option.isNone_iff_eq_none] using h

theorem reg_take_ne {a b : Nat} (v : Word) (s : State) (h : b ≠ a) : (s.take a v).reg b = s.reg b := by
  unfold State.take
  split
  · exact State.reg_setReg_ne _ _ h
  · rfl

theorem get_take_ne {a : Nat} (g : Field) (v : Word) (s : State) (h : g.addr ≠ a) : (s.take a v).get g = s.get g := by
  rw [State.get, reg_take_ne v s h, State.get]

theorem lane_take (a : Nat) (v : Word) (s : State) (n : Fin 4) : (s.take a v).lane n = s.lane n := by
  unfold State.take; split <;> rfl

theorem reg_put_ne {f : Field} {v : Nat} {s : State} {b : Nat} (h : b ≠ f.addr) : (s.put f v).reg b = s.reg b :=
  (State.reg_put f v s b).trans (if_neg h)

theorem withBit_clear (v i : Nat) : (withBit v i false).testBit i = false := by
  unfold withBit
  split
  · assumption
  · rename_i h
    rw [if_neg (by simp)]
    have h1 : v.testBit i = true := by simpa using h
    rw [Nat.testBit_eq_decide_div_mod_eq] at h1 ⊢
    have h2 : v / 2 ^ i % 2 = 1 := by simpa using h1
    have p : 0 < 2 ^ i := Nat.two_pow_pos i
    have g : v - 2 ^ i = v - 2 ^ i * 1 := by omega
    rw [g, Nat.sub_mul_div]
    simp; omega

theorem withBit_false (v i j : Nat) : (withBit v i false).testBit j = (v.testBit j && !(j == i)) := by
  unfold withBit
  by_cases h : v.testBit i = false
  · rw [if_pos h]
    by_cases q : j = i
    · subst q; rw [h]; rfl
    · have : (j == i) = false := by simpa using q
      rw [this]; simp
  · have h' : v.testBit i = true := by simpa using h
    rw [if_neg h, if_neg (by decide)]
    have e1 : v = 2 ^ i * (2 * (v / 2 ^ i / 2) + 1) + v % 2 ^ i := by
      have o : v / 2 ^ i % 2 = 1 := by
        have := h'; rw [Nat.testBit_eq_decide_div_mod_eq] at this; simpa using this
      have d := Nat.div_add_mod v (2 ^ i)
      have d2 : v / 2 ^ i = 2 * (v / 2 ^ i / 2) + 1 := by omega
      rw [← d2]; exact d.symm
    have e2 : v - 2 ^ i = 2 ^ i * (2 * (v / 2 ^ i / 2)) + v % 2 ^ i := by
      generalize v / 2 ^ i / 2 = a at e1 ⊢
      generalize v % 2 ^ i = r at e1 ⊢
      rw [e1, Nat.mul_add, Nat.mul_one]; omega
    have lt : v % 2 ^ i < 2 ^ i := Nat.mod_lt _ (Nat.two_pow_pos i)
    rw [e2, Nat.testBit_two_pow_mul_add _ lt]
    conv_rhs => rw [e1, Nat.testBit_two_pow_mul_add _ lt]
    by_cases q : j < i
    · rw [if_pos q, if_pos q]
      have : (j == i) = false := by simp; omega
      rw [this]; simp
    · rw [if_neg q, if_neg q]
      by_cases z : j = i
      · subst z; simp
      · have : (j == i) = false := by simpa using z
        rw [this]
        obtain ⟨m, hm⟩ : ∃ m, j - i = m + 1 := ⟨j - i - 1, by omega⟩
        rw [hm, Nat.testBit_succ, Nat.testBit_succ]
        simp [Nat.mul_add_div]

theorem masksApart_rows : ∀ b : Fin 34, ∀ d ∈ regsHeader b ++ blockRegs b,
    (d.rw ||| d.rwl) &&& (d.ro ||| d.w1c ||| d.w1s ||| d.wo ||| d.wz) = 0 ∧ d.ro &&& (d.w1c ||| d.w1s ||| d.wo ||| d.wz) = 0 ∧
    d.w1c &&& (d.w1s ||| d.wo ||| d.wz) = 0 ∧ d.w1s &&& (d.wo ||| d.wz) = 0 := by decide +kernel

def MasksApart (d : RegDesc) : Prop :=
    (d.rw ||| d.rwl) &&& (d.ro ||| d.w1c ||| d.w1s ||| d.wo ||| d.wz) = 0 ∧ d.ro &&& (d.w1c ||| d.w1s ||| d.wo ||| d.wz) = 0 ∧
    d.w1c &&& (d.w1s ||| d.wo ||| d.wz) = 0 ∧ d.w1s &&& (d.wo ||| d.wz) = 0

theorem masksApart_of_regDesc {n : Nat} {d : RegDesc} (h : regDesc n = some d) : MasksApart d := by
  simp only [regDesc] at h
  split at h
  · rename_i hb
    exact masksApart_rows ⟨n / 65536, hb⟩ d (List.mem_of_find?_eq_some h)
  · cases h

theorem testBit_of_and_zero {a b : Nat} (h : a &&& b = 0) (i : Nat) : a.testBit i = false ∨ b.testBit i = false := by
  have := congrArg (Nat.testBit · i) h
  simp only [Nat.testBit_and, Nat.zero_testBit, Bool.and_eq_false_iff] at this
  exact this

theorem apply_of_masksApart (d : RegDesc) (old v : Word) (j : MasksApart d) :
    d.apply old v &&& BitVec.ofNat 32 (d.rw ||| d.rwl) = v &&& BitVec.ofNat 32 (d.rw ||| d.rwl) ∧
    d.apply old v &&& BitVec.ofNat 32 d.ro = old &&& BitVec.ofNat 32 d.ro ∧
    d.apply old v &&& BitVec.ofNat 32 d.w1c = (old &&& ~~~v) &&& BitVec.ofNat 32 d.w1c ∧
    d.apply old v &&& BitVec.ofNat 32 d.w1s = (old ||| v) &&& BitVec.ofNat 32 d.w1s ∧
    d.apply old v &&& BitVec.ofNat 32 (d.wo ||| d.wz) = 0 := by
  obtain ⟨j1, j2, j3, j4⟩ := j
  refine ⟨?_, ?_, ?_, ?_, ?_⟩ <;>
  · apply BitVec.eq_of_getLsbD_eq
    intro i hi
    have a1 := testBit_of_and_zero j1 i
    have a2 := testBit_of_and_zero j2 i
    have a3 := testBit_of_and_zero j3 i
    have a4 := testBit_of_and_zero j4 i
    simp only [Nat.testBit_or, Bool.or_eq_false_iff] at a1 a2 a3 a4
    simp only [RegDesc.apply, BitVec.getLsbD_and, BitVec.getLsbD_or, BitVec.getLsbD_not, BitVec.getLsbD_ofNat, Nat.testBit_or, hi,
      decide_true, Bool.true_and]
    cases h1 : d.rw.testBit i <;> cases h2 : d.rwl.testBit i <;> cases h3 : d.ro.testBit i <;> cases h4 : d.w1c.testBit i <;>
      cases h5 : d.w1s.testBit i <;> cases h6 : d.wo.testBit i <;> cases h7 : d.wz.testBit i <;> simp [*] at *

theorem readOne_closed {s : State} {p : Path} {a : Nat} (h : s.pathOpen p = false) : s.readOne p a = s := by
  simp [State.readOne, h]

theorem blkId_block : ∀ b : Fin 34, R.BLK_ID b / 65536 = b := by decide

theorem blkId_offset : ∀ b : Fin 34, R.BLK_ID b % 65536 = 0 := by decide

theorem doAll_invariant {α : Type} (l : List α) (f : α → State → State) (P : State → Prop) (h : ∀ x ∈ l, ∀ s, P s → P (f x s)) :
    ∀ s, P s → P (doAll l f s) := by
  induction l with
  | nil => intro s hs; exact hs
  | cons x l ih =>
    intro s hs
    exact ih (fun y hy => h y (List.mem_cons_of_mem _ hy)) _ (h x List.mem_cons_self s hs)

theorem scaGo_ne_section : ∀ i < 128, F.SCA_GO_pending.addr ≠ R.SCA_SEC_S1 i ∧ F.SCA_GO_pending.addr ≠ R.SCA_SEC_S2 i ∧
    F.SCA_GO_pending.addr ≠ R.SCA_SEC_S3 i ∧ F.SCA_GO_pending.addr ≠ R.SCA_SEC_SEXP i := by decide

theorem scaGo_ne_lout : ∀ n < 16, F.SCA_GO_pending.addr ≠ R.SCA_LOUT n := by decide

theorem doAll_activate (l : List Nat) (r : Nat → Nat) : ∀ (s : State) (a : Nat),
    (doAll l (fun n => State.activate (r n)) s).actReg a = if ∃ n, n ∈ l ∧ a = r n then s.reg a else s.actReg a := by
  induction l with
  | nil => intro s a; simp [doAll]
  | cons x l ih =>
    intro s a
    have e : doAll (x :: l) (fun n => State.activate (r n)) s = doAll l (fun n => State.activate (r n)) (s.activate (r x)) := rfl
    rw [e, ih, State.reg_activate, State.actReg_activate]
    by_cases h : ∃ n, n ∈ l ∧ a = r n
    · obtain ⟨n, h1, h2⟩ := h
      rw [if_pos ⟨n, h1, h2⟩, if_pos ⟨n, List.mem_cons_of_mem _ h1, h2⟩]
    · rw [if_neg h]
      by_cases k : a = r x
      · subst k; rw [if_pos rfl, if_pos ⟨x, List.mem_cons_self, rfl⟩]
      · rw [if_neg k, if_neg]
        rintro ⟨n, h1, h2⟩
        rcases List.mem_cons.1 h1 with rfl | h1
        · exact k h2
        · exact h ⟨n, h1, h2⟩

theorem spoilFlash_eq (a n : Nat) (s : State) : s.spoilFlash a n = { s with flash := (s.spoilFlash a n).flash, free := (s.spoilFlash a n).free } := rfl

theorem spoilOp_eq (op page : Nat) (s : State) : s.spoilOp op page = { s with flash := (s.spoilOp op page).flash, free := (s.spoilOp op page).free } := by
  unfold State.spoilOp
  split
  · exact spoilFlash_eq ..
  · split
    · exact spoilFlash_eq ..
    · rfl

theorem dropFlash_keeps (s : State) : s.dropFlash.variant = s.variant ∧ s.dropFlash.media = s.media ∧ s.dropFlash.fuses = s.fuses ∧
    s.dropFlash.pending = s.pending := by
  unfold State.dropFlash
  extract_lets u
  have k : u.variant = s.variant ∧ u.media = s.media ∧ u.fuses = s.fuses ∧ u.pending = s.pending := by
    simp only [u]
    split
    · rw [spoilOp_eq]; exact ⟨rfl, rfl, rfl, rfl⟩
    · exact ⟨rfl, rfl, rfl, rfl⟩
  clear_value u
  split
  · exact k
  · split <;> exact k

theorem cget_filter_out {α : Type} (d : Nat → α) (f : Nat × α → Bool) (m : List (Nat × α)) (b : Nat) (h : ∀ v, f (b, v) = false) :
    cget d (m.filter f) b = d b := by
  induction m with
  | nil => rfl
  | cons p m ih =>
    obtain ⟨k, w⟩ := p
    by_cases hk : k = b
    · subst hk; simp [h, ih]
    · by_cases hf : f (k, w) = true
      · simp [hf, cget, hk, ih]
      · simp [hf, ih]

theorem warmReset_eq (s : State) : ∃ fl fr, s.warmReset = State.put F.CFG_BOOT_warm 1 (State.put F.HRV_STAT_iso (s.get F.HRV_STAT_iso) (State.resetRegs .warm
    { State.reset with
      variant := s.variant, us := s.us, ctrBase := s.us, coreUp := s.coreUp, evt := s.evt, meas := { s.meas with log := [] }, smb := s.smb, media := s.media
      flash := fl, fuses := s.fuses, hbm := s.hbm, tap := s.tap, free := fr, pending := s.pending
      regs := s.regs, active := s.active, integ := { s.integ with left := 0, done := 0, again := false, failed := [] }
      nvme := { Nvme.reset with perst := s.nvme.perst }
      hrv := { HrvSt.reset with ramped := s.hrv.ramped, regen := s.hrv.regen }
      boot := { Boot.reset with phase := 3, imgLen := s.boot.imgLen, vddq := s.boot.vddq } })) := by
  unfold State.warmReset
  extract_lets u
  have e : ∃ fl fr, u = { s with flash := fl, free := fr } := by
    simp only [u]
    split
    · exact ⟨_, _, spoilOp_eq ..⟩
    · exact ⟨s.flash, s.free, rfl⟩
  obtain ⟨fl, fr, e⟩ := e
  refine ⟨fl, fr, ?_⟩
  clear_value u
  subst e
  rfl

end Sys2Proof.Machine
end

