-- ==== Sys2Proof/Laws/Commands.lean ====
section
/-! SUPPORT. What the provers cite of NVMe commands: fetching, admin service, features, log pages, directives and firmware. -/

namespace Sys2Proof.Machine
open Sys2Proof

theorem holdsCommand_of_fetches (q : Nat) (e : Sqe) (s : State) (h : s.fetches q = true) : s.holdsCommand q e := by
  simp only [State.fetches, Bool.and_eq_true, Bool.not_eq_true', decide_eq_true_eq] at h
  obtain ⟨⟨⟨h1, h2⟩, h3⟩, h4⟩ := h
  unfold State.holdsCommand State.fetch1
  rw [if_neg (by simp only [h1, h2, h3]; simp; omega)]
  extract_lets s1 bad src s2 r s3 c
  refine ⟨c, ?_, rfl, rfl, ?_⟩
  · show c ∈ (s3.buf.ctxs ++ [c])
    simp
  · cases hb : bad with
    | none => left; simp [c, hb]
    | some x => right; simp [c, hb]

theorem adminTaken_diapause (s : State) : s.adminTaken.diapause = s.diapause := by
  unfold State.diapause State.flag State.adminTaken State.inc
  rw [State.get_put_apart _ _ _ _ (by decide) (by left; decide), State.get_put_apart _ _ _ _ (by decide) (by left; decide)]

theorem admin_of_serves {s : State} (h : s.serves = true) (b : Bool) (f : State → State) (e : Sqe) : s.admin b f e = f s.adminTaken := by
  simp only [State.serves, Bool.and_eq_true, Bool.not_eq_true', bne_iff_ne, ne_eq] at h
  obtain ⟨⟨⟨⟨⟨⟨⟨h1, h2⟩, h3⟩, h4⟩, h5⟩, h6⟩, h7⟩, h8⟩ := h
  have hd : ((s.inc F.HST_ADMCNT_count).put F.PWR_IDLE_ms 0).diapause = false := (adminTaken_diapause s).trans h7
  have hb : ((s.inc F.HST_ADMCNT_count).put F.PWR_IDLE_ms 0).boot.phase = s.boot.phase := rfl
  unfold State.admin
  rw [if_neg (by simp [h1, h2, h3, h4, h5, h6])]
  simp only [hd, hb, if_neg h8]
  rfl

theorem setFeature_of_serves {s : State} (h : s.serves = true) {fid : Nat} {f : State → Except CplRec State} {e : Sqe} (hs : e.dw10.getLsbD 31 = false)
    (hf : e.dw10.toNat % 256 = fid) {t : State} (ht : f s.adminTaken = .ok t) : s.setFeature fid f e = t.adminDone e.cid CplRec.ok := by
  unfold State.setFeature
  rw [admin_of_serves h]
  simp only [hs, hf, ht]
  simp

theorem setFeature_refused {s : State} (h : s.serves = true) {fid : Nat} {f : State → Except CplRec State} {e : Sqe} (hs : e.dw10.getLsbD 31 = true) :
    s.setFeature fid f e = s.adminTaken.adminDone e.cid (CplRec.bad 1 0x0D) := by
  unfold State.setFeature
  rw [admin_of_serves h]
  simp [hs]

theorem logPage_of_serves {s : State} (h : s.serves = true) {lid al : Nat} {f : State → List Byte} {e : Sqe} (h1 : s.logReads lid al f e = true) :
    s.logPage lid al f e = s.logRead lid f e := by
  simp only [State.logReads, decide_eq_true_eq] at h1
  unfold State.logPage State.logRead
  rw [admin_of_serves h]
  simp only
  rw [if_neg (by omega)]

theorem directive_of_serves {s : State} (h : s.serves = true) {e : Sqe} (h1 : e.nsid = 1) (f : State → State) : s.directive e f = f s.adminTaken := by
  unfold State.directive
  rw [admin_of_serves h]; simp [h1]

theorem dirOps_of {e : Sqe} {a b : Nat} (h : e.dirOp = (a, b)) : Sqe.dirType e = a ∧ Sqe.doper e = b := by
  simp only [Sqe.dirOp, Prod.mk.injEq] at h
  exact h

theorem commit_of_serves {s : State} (h : s.serves = true) (h1 : s.fw.commit = none) {e : Sqe} {ca : Nat} (h2 : e.commitAction = ca)
    (h3 : e.dw10.toNat % 8 ≤ 2) (f : Nat → State → State) : s.fwCommitCmd ca f e = f (s.adminTaken.commitSlot e) s.adminTaken := by
  unfold State.fwCommitCmd
  have h2' : natBits e.dw10.toNat 3 3 = ca := h2
  rw [if_neg (by simp [h1]), admin_of_serves h]
  rw [if_neg (by simp [h2']), if_neg (by omega)]

end Sys2Proof.Machine
end

