-- ==== Sys2Proof/Laws/Drives.lean ====
section
/-! SUPPORT. What the provers cite of the servo and the spindle. -/

namespace Sys2Proof.Machine
open Sys2Proof

theorem clampI_abs (l x : Int) (h : 0 ≤ l) : -l ≤ clampI (-l) l x ∧ clampI (-l) l x ≤ l := by
  unfold clampI; omega

theorem toInt_ofInt (x : Int) (h : -2^31 ≤ x) (k : x < 2^31) : (BitVec.ofInt 32 x).toInt = x := by
  rw [BitVec.toInt_ofInt, Int.bmod_def]
  split <;> omega

theorem coastSample_of_idle (a : Fin 4) (t : State) (h : t.coasting = false) : t.coastSample a = t := by
  unfold State.coastSample
  rw [h]; rfl

theorem argMax_eq (l : List Nat) (m : Nat) (hm : m < l.length) (h1 : ∀ i, i < l.length → l.getD i 0 ≤ l.getD m 0)
    (h2 : ∀ i, i < m → l.getD i 0 < l.getD m 0) : argMax l = m := by
  unfold argMax
  have key : ∀ k, k ≤ l.length → 
      let b := (List.range k).foldl (fun b i => if l.getD b 0 < l.getD i 0 then i else b) 0
      (m < k → b = m) ∧ (k ≤ m → b ≤ m) := by
    intro k hk
    induction k with
    | zero => simp
    | succ k ih =>
      obtain ⟨i1, i2⟩ := ih (by omega)
      simp only [List.range_succ, List.foldl_append, List.foldl_cons, List.foldl_nil]
      generalize (List.range k).foldl (fun b i => if l.getD b 0 < l.getD i 0 then i else b) 0 = b at *
      refine ⟨fun hmk => ?_, fun hkm => ?_⟩
      · by_cases e : m < k
        · have := i1 e
          subst this
          rw [if_neg (by have := h1 k (by omega); omega)]
        · have e' : m = k := by omega
          have hb := i2 (by omega)
          subst e'
          by_cases e2 : b = m
          · rw [e2]; simp
          · rw [if_pos (h2 b (by omega))]
      · have := i2 (by omega)
        split <;> omega
  exact (key l.length (le_refl _)).1 hm

theorem spnTo_state (k : Nat) (hk : k < 16) (s : State) : (s.spnTo k).spnState = k := by
  unfold State.spnTo
  extract_lets u
  unfold State.spnState
  rw [State.get_onSpn, State.get_put_self _ _ _ (by decide)]
  exact Nat.mod_eq_of_lt hk

theorem find_range_map {α : Type} (f : Nat → α) (p : α → Bool) (n d : Nat) (hd : d < n) (h : p (f d) = true) (k : ∀ i, i < d → p (f i) = false) :
    ((List.range n).map f).find? p = some (f d) := by
  induction n with
  | zero => omega
  | succ n ih =>
    rw [List.range_succ, List.map_append, List.find?_append]
    by_cases e : d < n
    · rw [ih e]; rfl
    · have e' : d = n := by omega
      subst e'
      have z : ((List.range d).map f).find? p = none := by
        rw [List.find?_eq_none]
        intro x hx
        obtain ⟨i, hi, rfl⟩ := List.mem_map.1 hx
        simp [k i (List.mem_range.1 hi)]
      rw [z]; simp [h]

end Sys2Proof.Machine
end

