-- ==== Sys2Proof/Laws/Raise.lean ====
section
/-! SUPPORT. What the setting of a source bit can do: besides that bit it changes registers of the blocks ALR and EVT and the
event records, and nothing else (R598, R606, R610 to R616). And the fields of the state after it. -/

namespace Sys2Proof.Machine
open Sys2Proof

/-- From `s` to `t` only registers of the blocks ALR and EVT and the event records may differ. -/
def EventsOnly (s t : State) : Prop :=
  t = { s with regs := t.regs, evt := t.evt } ∧ ∀ a, a / 0x10000 ≠ 2 → a / 0x10000 ≠ 3 → t.reg a = s.reg a

theorem EventsOnly.refl (s : State) : EventsOnly s s := ⟨rfl, fun _ _ _ => rfl⟩

theorem EventsOnly.trans {s t u : State} (h : EventsOnly s t) (k : EventsOnly t u) : EventsOnly s u := by
  refine ⟨?_, fun a x y => (k.2 a x y).trans (h.2 a x y)⟩
  obtain ⟨k1, -⟩ := k
  obtain ⟨h1, -⟩ := h
  rw [h1] at k1
  exact k1

theorem EventsOnly.put (f : Field) (v : Nat) (s : State) (h : f.addr / 0x10000 = 2 ∨ f.addr / 0x10000 = 3) :
    EventsOnly s (s.put f v) := by
  refine ⟨rfl, fun a x y => (State.reg_put f v s a).trans (if_neg ?_)⟩
  rintro rfl
  exact h.elim x y

theorem EventsOnly.onEvt (s : State) (e : EvtState) : EventsOnly s { s with evt := e } := ⟨rfl, fun _ _ _ => rfl⟩

theorem State.askFlush_only (s : State) : EventsOnly s s.askFlush := by
  unfold State.askFlush
  split
  · split
    · exact .onEvt s _
    · exact (EventsOnly.put F.EVT_STAT_flush 1 s (Or.inr rfl)).trans (.onEvt _ _)
  · split
    · exact .refl s
    · exact .onEvt s _

theorem State.latchCause_only (c : Nat) (s : State) : EventsOnly s (s.latchCause c) := by
  unfold State.latchCause
  extract_lets u v
  have hu : EventsOnly s u := by
    simp only [u]
    split
    · exact .refl s
    · exact .put F.ALR_CAUSE_c _ s (Or.inl rfl)
  have hv : EventsOnly s v := by
    simp only [v]
    split
    · exact hu.trans (.put F.ALR_SUM_supp 0 u (Or.inl rfl))
    · exact hu
  split
  · exact hv.trans v.askFlush_only
  · exact hv

theorem State.storeRec_only {s t : State} {src code : Nat} {pl : List Byte} (h : s.storeRec src code pl = some t) : EventsOnly s t := by
  unfold State.storeRec at h
  extract_lets n fold folded e0 keep u e1 v at h
  clear_value folded
  split at h
  · cases h; exact .onEvt s _
  · split at h
    · cases h
      have hu : EventsOnly s u := .onEvt s _
      have hv : EventsOnly s v := by
        simp only [v]
        split
        · exact hu.trans (.put F.EVT_SEQ_seq _ u (Or.inr rfl))
        · exact hu.trans (.onEvt u _)
      exact hv.trans (.put F.EVT_STAT_unfl _ v (Or.inr rfl))
    · cases h

theorem State.dropRec_only (s : State) : EventsOnly s s.dropRec := by
  unfold State.dropRec
  extract_lets a e b c d
  have ha : EventsOnly s a := .put F.EVT_DROP_count _ s (Or.inr rfl)
  have hb : EventsOnly s b := ha.trans (.onEvt a _)
  have hc : EventsOnly s c := hb.trans (.put F.EVT_ERR_e _ b (Or.inr rfl))
  have hd : EventsOnly s d := by
    simp only [d]
    split
    · rename_i w e; exact hc.trans (State.storeRec_only e)
    · exact hc.trans (.put F.EVT_DROP_count _ c (Or.inr rfl))
  exact hd.trans (d.latchCause_only 12)

theorem State.post_only (src code : Nat) (pl : List Byte) (s : State) : EventsOnly s (s.post src code pl) := by
  unfold State.post
  extract_lets n u
  have hu : EventsOnly s u := by
    simp only [u]
    split
    · rename_i w e; exact State.storeRec_only e
    · exact s.dropRec_only
  split
  · exact hu.trans u.askFlush_only
  · exact hu

/-- The setting of a source bit: the bit, and events. -/
theorem State.raiseBit_only (c a b : Nat) (s : State) : EventsOnly (s.setReg a (s.reg a ||| (1#32 <<< b))) (s.raiseBit c a b) :=
  (State.post_only ..).trans (State.latchCause_only ..)

theorem State.raise_only (f : Field) (s : State) : EventsOnly (s.setReg f.addr (s.reg f.addr ||| (1#32 <<< f.lo))) (s.raise f) :=
  State.raiseBit_only ..

theorem EventsOnly.get {s t : State} (h : EventsOnly s t) (f : Field) (k : f.addr / 0x10000 ≠ 2 ∧ f.addr / 0x10000 ≠ 3) :
    t.get f = s.get f := by
  rw [State.get, State.get, h.2 _ k.1 k.2]

theorem EventsOnly.lanes {s t : State} (h : EventsOnly s t) : t.lanes = s.lanes := by rw [h.1]

/-- A field of another register of another block stays. -/
theorem State.get_raise_apart (f g : Field) (s : State) (d : g.addr ≠ f.addr) (k : g.addr / 0x10000 ≠ 2 ∧ g.addr / 0x10000 ≠ 3) :
    (s.raise f).get g = s.get g :=
  ((s.raise_only f).get g k).trans (State.get_setReg_ne _ _ _ _ d)

theorem Field.of_or_bit (f : Field) (w : Word) (h : f.lo < 32) (hw : f.width = 1) : f.of (w ||| (1#32 <<< f.lo)) = 1 := by
  refine Nat.eq_of_testBit_eq fun i => ?_
  rw [Field.testBit_of, hw]
  by_cases k : i = 0
  · subst k
    rw [Nat.add_zero, BitVec.getLsbD_or, BitVec.getLsbD_shiftLeft]
    simp [h]
  · have : ¬ i < 1 := by omega
    have e : Nat.testBit 1 i = false := by
      rw [Nat.testBit_eq_decide_div_mod_eq, Nat.div_eq_of_lt (Nat.one_lt_two_pow k)]; rfl
    simp [this, e]

/-- The source bit is set. -/
theorem State.get_raise_self (f : Field) (s : State) (h : f.lo < 32) (hw : f.width = 1)
    (k : f.addr / 0x10000 ≠ 2 ∧ f.addr / 0x10000 ≠ 3) : (s.raise f).get f = 1 := by
  rw [(s.raise_only f).get f k, State.get, State.reg_setReg_self]
  exact Field.of_or_bit f _ h hw

@[simp] theorem State.lanes_raise (f : Field) (s : State) : (s.raise f).lanes = s.lanes := (s.raise_only f).lanes

@[simp] theorem State.lane_raise (f : Field) (n : Fin 4) (s : State) : (s.raise f).lane n = s.lane n := by
  rw [State.lane, State.lane, State.lanes_raise]

/-! ## A performed write -/

/-- A field whose bits are all writable reads as it was written. -/
theorem State.get_take {f : Field} {d : RegDesc} (v : Word) (s : State) (hd : regDesc f.addr = some d) (hw : f.lo + f.width ≤ 32)
    (h : (f.ones <<< f.lo) &&& BitVec.ofNat 32 (d.rw ||| d.rwl) &&& ~~~BitVec.ofNat 32 (d.ro ||| d.w1c ||| d.w1s) = f.ones <<< f.lo) :
    (s.take f.addr v).get f = f.of v := by
  have e : s.take f.addr v = s.setReg f.addr (d.apply (s.reg f.addr) v) := by simp [State.take, hd]
  rw [e, State.get, State.reg_setReg_self]
  refine Nat.eq_of_testBit_eq fun i => ?_
  rw [Field.testBit_of, Field.testBit_of]
  by_cases k : i < f.width
  · have b := congrArg (fun w => w.getLsbD (f.lo + i)) h
    have l : f.lo + i < 32 := by omega
    have l2 : i < 32 := by omega
    have l3 : i + (32 - f.width) < 32 := by omega
    simp only [BitVec.getLsbD_and, BitVec.getLsbD_shiftLeft, Field.getLsbD_ones, BitVec.getLsbD_not, BitVec.getLsbD_ofNat,
      Nat.testBit_or, l, show ¬ f.lo + i < f.lo by omega, show f.lo + i - f.lo = i by omega, l2, l3, decide_true, decide_false,
      Bool.not_false, Bool.true_and, Bool.and_true] at b
    simp only [Bool.and_eq_true, Bool.or_eq_true, Bool.not_eq_true', Bool.or_eq_false_iff] at b
    obtain ⟨b1, ⟨b2, b3⟩, b4⟩ := b
    have b5 : (Nat.testBit d.rw (f.lo + i) || Nat.testBit d.rwl (f.lo + i)) = true := by simpa using b1
    simp only [RegDesc.apply, BitVec.getLsbD_or, BitVec.getLsbD_and, BitVec.getLsbD_not, BitVec.getLsbD_ofNat, Nat.testBit_or, k, l, b2, b3,
      b4, b5, decide_true, Bool.true_and, Bool.and_true, Bool.and_false, Bool.or_false, Bool.false_or, Bool.false_and]
  · simp [k]

end Sys2Proof.Machine
end

