-- ==== Sys2Proof/Laws/Lanes.lean ====
section
/-! SUPPORT. What a latched trap, the end of a unit and a write-unsafe event do to a lane: the write gate is low, the latch is set,
LANEn_ERR records it, and no other field outside LANEn_STAT, LANEn_INCCNT, MCSn_STAT, ALR and EVT changes (R135, R206, R213, R215). -/

namespace Sys2Proof.Machine
open Sys2Proof

theorem State.lane_latchTrap (n : Fin 4) (c : Nat) (m : Option Nat) (s : State) : (s.latchTrap n c m).lane n = s.lane n := by
  unfold State.latchTrap; extract_lets; split
  · rfl
  · rw [State.putBit, State.lane_put]

theorem State.get_latchTrap (n : Fin 4) (c : Nat) (m : Option Nat) (s : State) (f : Field) (h : f.addr ≠ R.MCS_STAT n) :
    (s.latchTrap n c m).get f = s.get f := by
  unfold State.latchTrap; extract_lets; split
  · rfl
  · exact State.get_put_apart _ _ _ _ (by clear * -; revert n; decide) (Or.inl h)

theorem State.writeUnsafe_wg (n : Fin 4) (m : Option Nat) (s : State) : (s.writeUnsafe n m).get (F.LANE_STAT_wg n) = 0 := by
  unfold State.writeUnsafe
  extract_lets a c b
  rw [State.get_latchTrap _ _ _ _ _ (by revert n; decide)]
  simp only [b]
  split
  · have hc : c.get (F.LANE_STAT_wg n) = 0 := by
      simp only [c]
      rw [State.get_raise_apart _ _ _ (by clear * -; revert n; decide) (by clear * -; revert n; decide),
        State.get_put_self _ _ _ (by clear * -; revert n; decide)]; rfl
    split
    · unfold State.endUnit
      extract_lets l d e
      split
      · exact hc
      · have he : e.get (F.LANE_STAT_wg n) = 0 := by
          simp only [e]
          rw [State.get_put_apart _ _ _ _ (by clear * -; revert n; decide) (by clear * -; revert n; decide),
            State.get_put_self _ _ _ (by clear * -; revert n; decide)]; rfl
        split
        · rw [State.get_onLane]
          exact (State.get_put_apart _ _ _ _ (by clear * -; revert n; decide) (by clear * -; revert n; decide)).trans he
        · exact he
    · exact hc
  · rename_i h; simpa [State.flag] using h

theorem State.writeUnsafe_latch (n : Fin 4) (m : Option Nat) (s : State) : ((s.writeUnsafe n m).lane n).wunsafe = true := by
  unfold State.writeUnsafe
  extract_lets a c b
  rw [State.lane_latchTrap]
  have ha : (a.lane n).wunsafe = true := by simp [a]
  simp only [b]
  split
  · have hc : (c.lane n).wunsafe = true := by simpa [c] using ha
    split
    · unfold State.endUnit
      extract_lets l d e
      split
      · exact hc
      · have he : (e.lane n).wunsafe = true := by simpa [e, d] using hc
        split
        · rw [State.lane_onLane_self, State.inc, State.lane_put]; exact he
        · exact he
    · exact hc
  · exact ha

theorem State.get_endUnit (n : Fin 4) (s : State) (f : Field) (h : f.addr ≠ R.LANE_STAT n ∧ f.addr ≠ R.LANE_INCCNT n) :
    (s.endUnit n).get f = s.get f := by
  unfold State.endUnit
  extract_lets l d e
  split
  · rfl
  · have he : e.get f = s.get f := by
      simp only [e]
      rw [State.get_put_apart _ _ _ _ (by clear * -; revert n; decide) (Or.inl h.1),
        State.get_put_apart _ _ _ _ (by clear * -; revert n; decide) (Or.inl h.1)]; rfl
    split
    · rw [State.get_onLane]
      exact (State.get_put_apart _ _ _ _ (by clear * -; revert n; decide) (Or.inl h.2)).trans he
    · exact he

theorem State.writeUnsafe_err (n : Fin 4) (m : Option Nat) (s : State) (hw : s.flag (F.LANE_STAT_wg n) = true) :
    (s.writeUnsafe n m).get (F.LANE_ERR_wunsafe n) = 1 := by
  unfold State.writeUnsafe
  extract_lets a c b
  rw [State.get_latchTrap _ _ _ _ _ (by clear * -; revert n; decide)]
  have ha : a.flag (F.LANE_STAT_wg n) = true := hw
  simp only [b, ha, if_true]
  have hc : ∀ u : State, (u.raise (F.LANE_ERR_wunsafe n)).get (F.LANE_ERR_wunsafe n) = 1 := fun u =>
    State.get_raise_self _ _ (by clear * -; revert n; decide) (by clear * -; revert n; decide) (by clear * -; revert n; decide)
  split
  · rw [State.get_endUnit _ _ _ (by clear * -; revert n; decide)]; exact hc _
  · exact hc _

theorem State.get_writeUnsafe (n : Fin 4) (m : Option Nat) (s : State) (f : Field) (h : f.addr ≠ R.LANE_STAT n ∧ f.addr ≠ R.LANE_INCCNT n ∧
    f.addr ≠ R.MCS_STAT n ∧ f.addr / 0x10000 ≠ 2 ∧ f.addr / 0x10000 ≠ 3)
    (d : f.addr = R.LANE_ERR n → f.lo + f.width ≤ (F.LANE_ERR_wunsafe n).lo ∨ (F.LANE_ERR_wunsafe n).lo < f.lo) :
    (s.writeUnsafe n m).get f = s.get f := by
  unfold State.writeUnsafe
  extract_lets a c b
  rw [State.get_latchTrap _ _ _ _ _ h.2.2.1]
  have ha : a.get f = s.get f := rfl
  simp only [b]
  split
  · have hc : c.get f = s.get f := by
      simp only [c]
      rw [(State.raise_only _ _).get f ⟨h.2.2.2.1, h.2.2.2.2⟩]
      have hp : (a.put (F.LANE_STAT_wg n) 0).get f = s.get f :=
        (State.get_put_apart _ _ _ _ (by clear * -; revert n; decide) (Or.inl h.1)).trans ha
      by_cases e : f.addr = R.LANE_ERR n
      · rw [State.get, show f.addr = (F.LANE_ERR_wunsafe n).addr from e, State.reg_setReg_self, ← hp, State.get, e]
        refine Nat.eq_of_testBit_eq fun i => ?_
        rw [Field.testBit_of, Field.testBit_of]
        by_cases k : i < f.width
        · have : ¬ (F.LANE_ERR_wunsafe n).lo = f.lo + i := by have := d e; omega
          have z : (1#32 <<< (F.LANE_ERR_wunsafe n).lo).getLsbD (f.lo + i) = false := by
            by_cases q : f.lo + i < 32
            · rw [BitVec.getLsbD_shiftLeft]
              by_cases r : f.lo + i < (F.LANE_ERR_wunsafe n).lo
              · simp [r]
              · have : f.lo + i - (F.LANE_ERR_wunsafe n).lo ≠ 0 := by omega
                simp [this]
            · exact BitVec.getLsbD_of_ge _ _ (by omega)
          rw [BitVec.getLsbD_or, z, Bool.or_false]
          rfl
        · simp [k]
      · exact (State.get_setReg_ne _ _ _ _ e).trans hp
    split
    · rw [State.get_endUnit _ _ _ ⟨h.1, h.2.1⟩]; exact hc
    · exact hc
  · exact ha

theorem State.writeUnsafe_paflt (n : Fin 4) (m : Option Nat) (s : State) : ((s.writeUnsafe n m).lane n).paflt = (s.lane n).paflt := by
  unfold State.writeUnsafe
  extract_lets a c b
  rw [State.lane_latchTrap]
  have ha : (a.lane n).paflt = (s.lane n).paflt := by simp [a]
  simp only [b]
  split
  · have hc : (c.lane n).paflt = (s.lane n).paflt := by simpa [c] using ha
    split
    · unfold State.endUnit
      extract_lets l d e
      split
      · exact hc
      · have he : (e.lane n).paflt = (s.lane n).paflt := by simpa [e, d] using hc
        split
        · rw [State.lane_onLane_self, State.inc, State.lane_put]; exact he
        · exact he
    · exact hc
  · exact ha

end Sys2Proof.Machine
end

