-- ==== Sys2Proof/Laws/Microcode.lean ====
section
/-! SUPPORT. What the provers cite of the channel, the crystallizer and the track sequencers. -/

namespace Sys2Proof.Machine
open Sys2Proof

theorem pascmd_take (n : Fin 4) (v : Word) (s : State) : let t := (s.take (R.LANE_PASCMD n) v).put (F.LANE_PASCMD_busy n) 1
    t.get (F.LANE_PASCMD_rd n) = (F.LANE_PASCMD_rd n).of v ∧ t.get (F.LANE_PASCMD_addr n) = (F.LANE_PASCMD_addr n).of v ∧
    t.get (F.LANE_PASCMD_wdata n) = (F.LANE_PASCMD_wdata n).of v := by
  intro t
  have g : ∀ f : Field, f.addr = R.LANE_PASCMD n → f.lo + f.width ≤ (F.LANE_PASCMD_busy n).lo ∨ (F.LANE_PASCMD_busy n).lo < f.lo → 
      t.get f = (s.take (R.LANE_PASCMD n) v).get f := fun f _ d =>
    State.get_put_apart _ _ _ _ (by clear * -; revert n; decide) (Or.inr (by
      have : (F.LANE_PASCMD_busy n).width = 1 := by clear * -; revert n; decide
      omega))
  obtain ⟨d, hd, k1, k2, k3⟩ : ∃ d, regDesc (R.LANE_PASCMD n) = some d ∧
      (∀ f ∈ [F.LANE_PASCMD_rd n, F.LANE_PASCMD_addr n, F.LANE_PASCMD_wdata n], 
      (f.ones <<< f.lo) &&& BitVec.ofNat 32 (d.rw ||| d.rwl) &&& ~~~BitVec.ofNat 32 (d.ro ||| d.w1c ||| d.w1s) = f.ones <<< f.lo) ∧ True ∧ True := by
    clear * -
    have : ∀ n : Fin 4, (regDesc (R.LANE_PASCMD n)).isSome = true := by decide +kernel
    obtain ⟨d, hd⟩ := Option.isSome_iff_exists.1 (this n)
    have : ∀ n : Fin 4, ((regDesc (R.LANE_PASCMD n)).map (fun d => [F.LANE_PASCMD_rd n, F.LANE_PASCMD_addr n, F.LANE_PASCMD_wdata n].all (fun f =>
      (f.ones <<< f.lo) &&& BitVec.ofNat 32 (d.rw ||| d.rwl) &&& ~~~BitVec.ofNat 32 (d.ro ||| d.w1c ||| d.w1s) == f.ones <<< f.lo))) = some true := by decide +kernel
    have t := this n
    rw [hd] at t
    refine ⟨d, hd, ?_, trivial, trivial⟩
    intro f hf
    simp only [Option.map_some, Option.some.injEq, List.all_eq_true] at t
    exact eq_of_beq (t f hf)
  refine ⟨?_, ?_, ?_⟩
  · rw [g _ rfl (by clear * -; revert n; decide)]
    exact State.get_take v s hd (by clear * -; revert n; decide) (k1 (F.LANE_PASCMD_rd n) (by simp))
  · rw [g _ rfl (by clear * -; revert n; decide)]
    exact State.get_take v s hd (by clear * -; revert n; decide) (k1 (F.LANE_PASCMD_addr n) (by simp))
  · rw [g _ rfl (by clear * -; revert n; decide)]
    exact State.get_take v s hd (by clear * -; revert n; decide) (k1 (F.LANE_PASCMD_wdata n) (by simp))

theorem slice_of_lock (n : Fin 4) (f : Lane → Lane) (s : State) (m : Nat) : ((s.put (F.LANE_STAT_lock n) 1).onLane n f).slice m = s.slice m := by
  have k : ∀ g : Field, g.addr ≠ R.LANE_STAT n → (s.put (F.LANE_STAT_lock n) 1).get g = s.get g := fun g hg =>
    State.get_put_apart _ _ _ _ (by clear * -; revert n; decide) (Or.inl hg)
  unfold State.slice
  rw [State.get_onLane, State.get_onLane, k F.ISST_STAT_state (by clear * -; revert n; decide), k F.ISST_STAT_lane (by clear * -; revert n; decide)]

theorem foldl_min {α : Type} (f : α → Nat) (l : List α) (x : α) :
    let m := l.foldl (fun m y => if f y < f m then y else m) x
    m ∈ x :: l ∧ ∀ y ∈ x :: l, f m ≤ f y := by
  induction l generalizing x with
  | nil => simp
  | cons a l ih =>
    intro m
    have h := ih (if f a < f x then a else x)
    simp only at h
    obtain ⟨h1, h2⟩ := h
    refine ⟨?_, ?_⟩
    · simp only [m, List.foldl_cons]
      rcases List.mem_cons.1 h1 with h1 | h1
      · rw [h1]; split <;> simp
      · exact List.mem_cons_of_mem _ (List.mem_cons_of_mem _ h1)
    · intro y hy
      simp only [m, List.foldl_cons]
      have h0 := h2 _ (List.mem_cons_self ..)
      rcases List.mem_cons.1 hy with rfl | hy
      · refine h0.trans ?_; split <;> omega
      · rcases List.mem_cons.1 hy with rfl | hy
        · refine h0.trans ?_; split <;> omega
        · exact h2 y (List.mem_cons_of_mem _ hy)

theorem micro_of_runs (s : State) (n : Fin 4) (h : s.runsMicro n = true) (f : Option Nat) (g : State → State) :
    s.micro n f g = match f with | some c => s.microFault n c | none => g s := by
  simp only [State.runsMicro, Bool.and_eq_true] at h
  unfold State.micro
  exact (if_neg (by simp [h.1, h.2])).trans (by cases f <;> rfl)

theorem word_of_starts (s : State) (n : Fin 4) (q : Nat) (m : BitVec 160) (e : WordEnv) (h : s.startsWord n q m = true) :
    s.runWord n q e = 
        if q = 6 then (((s.wordBody n m).onLane n (fun l => { l with waiting := true, last := s.get (F.MCS_STAT_pc n) })).waitTest n m (s.get (F.MCS_STAT_pc n)))
        else (((s.wordBody n m).seq n e m (s.get (F.MCS_STAT_pc n))).2.wordLc n m).wordEnd n m (s.get (F.MCS_STAT_pc n)) ((s.wordBody n m).seq n e m (s.get (F.MCS_STAT_pc n))).1 := by
  simp only [State.startsWord, State.runsMicro, Bool.and_eq_true, Bool.not_eq_true', beq_iff_eq, Option.isNone_iff_eq_none] at h
  obtain ⟨⟨⟨⟨⟨⟨h1, h2⟩, h3⟩, h4⟩, h5⟩, h6⟩, h7⟩ := h
  unfold State.runWord
  simp only [h4, h1, h2, h3, h5, h6, h7]
  rw [if_neg (by simp), if_neg (by simp)]
  rfl

theorem mcsStart_lane (n : Fin 4) (u : State) : (u.mcsStart n).lane n = { u.lane n with
    tm0 := Timer.off, tm1 := Timer.off, wunsafe := false, wmiss := false, wverify := false, waiting := false, harvWait := 0 } := by
  unfold State.mcsStart
  rw [State.lane_put, State.lane_put, State.lane_put, State.lane_onLane_self, State.lane_put, State.lane_put, State.lane_setReg, State.lane_setReg,
    State.lane_setReg, State.lane_setReg, State.lane_put, State.lane_put]

theorem seq_of_starts {s : State} {n : Fin 4} {q : Nat} {m : BitVec 160} (h : s.startsWord n q m = true) : wordBits m 145 3 = q := by
  simp only [State.startsWord, Bool.and_eq_true, beq_iff_eq] at h
  exact h.1.1.2

theorem trapDue_le (s : State) (n : Fin 4) (c : Nat) (h : s.trapDue n = some c) : 1 ≤ c ∧ c ≤ 6 := by
  unfold State.trapDue at h
  extract_lets p at h
  split at h
  · split at h
    · cases h; decide
    · cases h
  · cases f : (List.range 6).find? (fun i => p.testBit i) with
    | none => rw [f] at h; cases h
    | some i =>
      have := List.mem_range.1 (List.mem_of_find?_eq_some f)
      rw [f] at h
      simp at h
      omega

theorem endUnit_get (n : Fin 4) (s : State) (f : Field) (h : f.addr ≠ R.LANE_STAT n ∧ f.addr ≠ R.LANE_INCCNT n) :
    (s.endUnit n).get f = s.get f := State.get_endUnit n s f h

theorem put_congr {u v : State} (f : Field) (x : Nat) (h : ∀ a, u.reg a = v.reg a) (a : Nat) : (u.put f x).reg a = (v.put f x).reg a := by
  rw [State.reg_put, State.reg_put, h, h]

theorem takeTrap_facts (n : Fin 4) (c : Nat) (fo : Bool) (x y : Nat) (s : State) (h1 : 1 ≤ c) (h6 : c ≤ 6) (hx : x < 4096) (hy : y < 4096) :
    let t := s.takeTrap n c fo x y
    t.mcs n = 4 ∧ t.get (F.MCS_STAT_pc n) = c ∧ t.bit (F.MCS_STAT_pend n) (c - 1) = false ∧ t.get (F.MCS_TF0_cause n) = c ∧
    t.get (F.MCS_TF0_forced n) = (if fo then 1 else 0) ∧ t.get (F.MCS_TF0_valid n) = 1 ∧ t.get (F.MCS_TF0_taddr n) = x ∧ t.get (F.MCS_TF0_next n) = y ∧
    t.get (F.MCS_TF1_lc0 n) = s.get (F.MCS_LC_lc0 n) ∧ t.get (F.MCS_TF1_lc1 n) = s.get (F.MCS_LC_lc1 n) := by
  intro t
  have l0 : s.get (F.MCS_LC_lc0 n) < 4096 := by rw [State.get, Field.of_eq]; exact Nat.mod_lt _ (Nat.two_pow_pos _)
  have l1 : s.get (F.MCS_LC_lc1 n) < 4096 := by rw [State.get, Field.of_eq]; exact Nat.mod_lt _ (Nat.two_pow_pos _)
  have fr : ∀ g : Field, g.addr ≠ R.MCS_ERR n → g.addr / 0x10000 ≠ 2 ∧ g.addr / 0x10000 ≠ 3 → t.get g = 
      (((((s.frame n c fo x y).endUnit n).putBit (F.MCS_STAT_pend n) (c - 1) false).inc (F.MCS_TRAPCNT_count n)).put (F.MCS_STAT_state n) 4 |>.put (F.MCS_STAT_pc n) c).get g := by
    intro g hg hb
    simp only [t]
    unfold State.takeTrap
    extract_lets a b d e
    have he : e.get g = (((((s.frame n c fo x y).endUnit n).putBit (F.MCS_STAT_pend n) (c - 1) false).inc (F.MCS_TRAPCNT_count n)).put (F.MCS_STAT_state n) 4 |>.put (F.MCS_STAT_pc n) c).get g := by
      have k : ∀ a, e.reg a = (((((s.frame n c fo x y).endUnit n).putBit (F.MCS_STAT_pend n) (c - 1) false).inc (F.MCS_TRAPCNT_count n)).put (F.MCS_STAT_state n) 4 |>.put (F.MCS_STAT_pc n) c).reg a :=
        put_congr _ _ (put_congr _ _ (fun a => State.reg_onLane ..))
      rw [State.get, State.get, k]
    rw [← he]
    unfold doIf
    split
    · exact State.get_raise_apart _ _ _ hg hb
    · rfl
  have tf : ∀ g : Field, g.addr ≠ R.LANE_STAT n → g.addr ≠ R.LANE_INCCNT n → g.addr ≠ R.MCS_STAT n → g.addr ≠ R.MCS_TRAPCNT n → g.addr ≠ R.MCS_ERR n → 
      g.addr / 0x10000 ≠ 2 ∧ g.addr / 0x10000 ≠ 3 → t.get g = (s.frame n c fo x y).get g := by
    intro g a1 a2 a3 a4 a5 a6
    rw [fr g a5 a6]
    unfold State.putBit State.inc
    rw [State.get_put_apart _ _ _ _ (by (clear * -; decide +revert)) (Or.inl a3), State.get_put_apart _ _ _ _ (by (clear * -; decide +revert)) (Or.inl a3), State.get_put_apart _ _ _ _ (by (clear * -; decide +revert)) (Or.inl a4),
      State.get_put_apart _ _ _ _ (by (clear * -; decide +revert)) (Or.inl a3), State.get_endUnit _ _ _ ⟨a1, a2⟩]
  refine ⟨?_, ?_, ?_, ?_, ?_, ?_, ?_, ?_, ?_, ?_⟩
  · unfold State.mcs
    rw [fr _ (by (clear * -; decide +revert)) (by (clear * -; decide +revert)), State.get_put_apart _ _ _ _ (by (clear * -; decide +revert)) (by (clear * -; decide +revert)), State.get_put_self _ _ _ (by (clear * -; decide +revert))]; rfl
  · rw [fr _ (by (clear * -; decide +revert)) (by (clear * -; decide +revert)), State.get_put_self _ _ _ (by (clear * -; decide +revert))]; exact Nat.mod_eq_of_lt (show c < 4096 by omega)
  · unfold State.bit
    rw [fr _ (by (clear * -; decide +revert)) (by (clear * -; decide +revert)), State.get_put_apart _ _ _ _ (by (clear * -; decide +revert)) (by (clear * -; decide +revert)), State.get_put_apart _ _ _ _ (by (clear * -; decide +revert)) (by (clear * -; decide +revert))]
    unfold State.inc
    rw [State.get_put_apart _ _ _ _ (by (clear * -; decide +revert)) (by (clear * -; decide +revert)), State.putBit, State.get_put_self _ _ _ (by (clear * -; decide +revert)), Nat.testBit_mod_two_pow, withBit_clear, Bool.and_false]
  all_goals rw [tf _ (by (clear * -; decide +revert)) (by (clear * -; decide +revert)) (by (clear * -; decide +revert)) (by (clear * -; decide +revert)) (by (clear * -; decide +revert)) (by (clear * -; decide +revert))]; unfold State.frame; extract_lets p u1 u2 u3
  · simp (disch := (clear * -; decide +revert)) only [u3, u2, u1, State.get_put_self, State.get_put_apart]; exact Nat.mod_eq_of_lt (show c < 16 by omega)
  · simp (disch := (clear * -; decide +revert)) only [u3, u2, u1, State.get_put_self, State.get_put_apart]; cases fo <;> rfl
  · simp (disch := (clear * -; decide +revert)) only [u3, u2, u1, State.get_put_self, State.get_put_apart]; rfl
  · simp (disch := (clear * -; decide +revert)) only [u3, u2, u1, State.get_put_self, State.get_put_apart]; exact Nat.mod_eq_of_lt hx
  · simp (disch := (clear * -; decide +revert)) only [u3, u2, u1, State.get_put_self, State.get_put_apart]; exact Nat.mod_eq_of_lt hy
  · simp (disch := (clear * -; decide +revert)) only [u3, u2, u1, State.get_put_self, State.get_put_apart]; exact Nat.mod_eq_of_lt l0
  · simp (disch := (clear * -; decide +revert)) only [u3, u2, u1, State.get_put_self, State.get_put_apart]; exact Nat.mod_eq_of_lt l1

theorem takeTrap_forced (n : Fin 4) (s : State) (c x y : Nat) : (s.takeTrap n c true x y).get (F.MCS_ERR_forced n) = 1 := by
  unfold State.takeTrap
  extract_lets a b d e
  exact State.get_raise_self _ _ (by (clear * -; decide +revert)) (by (clear * -; decide +revert)) (by (clear * -; decide +revert))

end Sys2Proof.Machine
end

