-- ==== Sys2Proof/Laws/Service.lean ====
section
/-! SUPPORT. What the provers cite of harvest triggers, DMA instructions, the voter, the causes of ALR and the sideband. -/

namespace Sys2Proof.Machine
open Sys2Proof

theorem trigger_later {s : State} (c : Nat) (h : s.hrv.ramped = true) (k : 2 ≤ s.hrvState) :
    s.trigger c = s.putBit F.HRV_STAT_trig c true := by
  have e : (s.putBit F.HRV_STAT_trig c true).hrvState = s.hrvState := by
    unfold State.putBit State.hrvState
    exact State.get_put_apart F.HRV_STAT_trig F.HRV_STAT_state _ s (by decide) (by decide)
  unfold State.trigger
  rw [if_neg (by simp [h])]
  extract_lets t
  rw [if_neg (by simp only [t, e]; omega)]

theorem trigger_first {s : State} (c : Nat) (h : s.hrv.ramped = true) (k : s.hrvState ≤ 1) :
    s.trigger c = (s.putBit F.HRV_STAT_trig c true).harvest := by
  have e : (s.putBit F.HRV_STAT_trig c true).hrvState = s.hrvState := by
    unfold State.putBit State.hrvState
    exact State.get_put_apart F.HRV_STAT_trig F.HRV_STAT_state _ s (by decide) (by decide)
  unfold State.trigger
  rw [if_neg (by simp [h])]
  extract_lets t
  rw [if_pos (by simp only [t, e]; omega)]

theorem setIso_state (b : Bool) (s : State) : (s.setIso b).hrvState = s.hrvState := by
  unfold State.setIso State.hrvState
  exact State.get_put_apart F.HRV_STAT_iso F.HRV_STAT_state _ s (by decide) (by decide)

theorem setIso_hrv (b : Bool) (s : State) : (s.setIso b).hrv = s.hrv := rfl

theorem hrv_of_eventsOnly {s t : State} (h : EventsOnly s t) : t.hrv = s.hrv := by rw [h.1]

theorem boot_of_eventsOnly {s t : State} (h : EventsOnly s t) : t.boot = s.boot := by rw [h.1]

theorem spn_of_eventsOnly {s t : State} (h : EventsOnly s t) : t.spn = s.spn := by rw [h.1]

theorem raise_hrv (f : Field) (s : State) : (s.raise f).hrv = s.hrv := (hrv_of_eventsOnly (s.raise_only f)).trans rfl

theorem hrvState_raise_rev (s : State) : (s.raise F.HRV_ERR_rev).hrvState = s.hrvState :=
  State.get_raise_apart F.HRV_ERR_rev F.HRV_STAT_state s (by decide) (by decide)

theorem diapause_again (c : Nat) {s : State} (h : s.diapause = true) : s.diapauseFor c = s.post 1 0x12 [BitVec.ofNat 8 c] := by
  unfold State.diapauseFor
  extract_lets t
  have e : t.diapause = true := by
    rw [← h]
    simp only [t, State.diapause, State.flag]
    rw [(s.post_only 1 0x12 _).get F.HRV_DIAP_active (by decide)]
  exact if_pos e

theorem double_fault_facts (s : State) : let u := ((s.setIso false).raise F.HRV_ERR_double)
    u.get F.HRV_DIAP_active = s.get F.HRV_DIAP_active ∧ u.get F.HRV_DIAP_cause = s.get F.HRV_DIAP_cause ∧ u.get F.HRV_STAT_iso = 0 := by
  refine ⟨?_, ?_, ?_⟩ <;> rw [State.get_raise_apart _ _ _ (by decide) (by decide)] <;> unfold State.setIso
  · exact State.get_put_apart F.HRV_STAT_iso _ _ s (by decide) (by decide)
  · exact State.get_put_apart F.HRV_STAT_iso _ _ s (by decide) (by decide)
  · exact (State.get_put_self F.HRV_STAT_iso _ s (by decide)).trans (by decide)

theorem dmaIns_of_runs {s : State} {n : Fin 16} {op : Byte} (f : List Byte → State → State) (h1 : s.chState n = 1) (h2 : s.dma[n].mv = none)
    (h3 : s.dma[n].pc + 16 ≤ s.variant.hbmBytes) (h4 : byteAt (s.insAt s.dma[n].pc) 0 = op)
    (h5 : insReserved (s.insAt s.dma[n].pc) = true)
    (h6 : [0x00#8, 0x01#8, 0x02#8, 0x10#8, 0x11#8, 0x20#8, 0x30#8, 0x40#8].contains op = true) :
    s.dmaIns n op f = f (s.insAt s.dma[n].pc) s := by
  unfold State.dmaIns
  extract_lets i known
  have k : known = true := by simp only [known, i, h4, h6]
  rw [if_neg (by rw [h1, h2]; simp), if_neg (by omega), if_neg (by rw [k]; decide), if_neg (by simp only [i, h4]; simp), if_neg (by simp only [i, h5]; decide)]

theorem mirror_reg (i : Nat) (v : Word) (s : State) (a : Nat) (h : a / 0x10000 = 0x19) : (s.mirror i v).reg a = s.reg a := by
  unfold State.mirror
  split
  · exact State.reg_setReg_ne _ _ (by rintro rfl; exact absurd h (by decide))
  · exact State.reg_setReg_ne _ _ (by rintro rfl; exact absurd h (by decide))
  · rw [State.reg_put, if_neg (by rintro rfl; exact absurd h (by decide))]
  · exact State.reg_setReg_ne _ _ (by rintro rfl; exact absurd h (by decide))
  · exact State.reg_setReg_ne _ _ (by rintro rfl; exact absurd h (by decide))
  · exact State.reg_setReg_ne _ _ (by rintro rfl; exact absurd h (by decide))
  · exact State.reg_setReg_ne _ _ (by rintro rfl; exact absurd h (by decide))
  · rfl

theorem copyReg_apart : ∀ (i : Fin 8) (c : Fin 3), copyReg i c / 0x10000 = 0x19 ∧ copyReg i c ≠ R.TMR_FIX ∧ copyReg i c ≠ R.TMR_FIXCNT := by decide

theorem copyReg_inj : ∀ (i : Fin 8) (c d : Fin 3), copyReg i c = copyReg i d → c = d := by decide

def voted (i : Fin 8) (k : Fin 3) (v : Word) (s : State) : State :=
  (((((s.setReg (copyReg i k) v).mirror i v).inc F.TMR_FIXCNT_count).put F.TMR_FIX_valid 1).put F.TMR_FIX_copy k).put F.TMR_FIX_word i

theorem voted_copy (i : Fin 8) (k c : Fin 3) (v : Word) (s : State) : (voted i k v s).reg (copyReg i c) = if c = k then v else s.reg (copyReg i c) := by
  obtain ⟨f1, f2, f3⟩ := copyReg_apart i c
  unfold voted State.inc
  rw [(State.reg_put ..).trans (if_neg f2), (State.reg_put ..).trans (if_neg f2), (State.reg_put ..).trans (if_neg f2), (State.reg_put ..).trans (if_neg f3), mirror_reg _ _ _ _ f1, State.reg_setReg]
  by_cases h : c = k
  · rw [if_pos (by rw [h]), if_pos h]
  · rw [if_neg (fun q => h (copyReg_inj i c k q)), if_neg h]

theorem voted_count (i : Fin 8) (k : Fin 3) (v : Word) (s : State) :
    (voted i k v s).get F.TMR_FIXCNT_count = (s.get F.TMR_FIXCNT_count + 1) % 2 ^ 32 ∧ (voted i k v s).get F.TMR_FIX_valid = 1 ∧
    (voted i k v s).get F.TMR_FIX_copy = k ∧ (voted i k v s).get F.TMR_FIX_word = i := by
  unfold voted
  refine ⟨?_, ?_, ?_, ?_⟩
  · rw [State.get_put_apart _ _ _ _ (by decide) (by decide), State.get_put_apart _ _ _ _ (by decide) (by decide),
      State.get_put_apart _ _ _ _ (by decide) (by decide)]
    unfold State.inc
    rw [State.get_put_self _ _ _ (by decide)]
    have e : ((s.setReg (copyReg i k) v).mirror i v).get F.TMR_FIXCNT_count = s.get F.TMR_FIXCNT_count := by
      rw [State.get, State.get, mirror_reg _ _ _ _ (by decide)]; exact congrArg _ (State.reg_setReg_ne _ _ (fun q => (copyReg_apart i k).2.2 q.symm))
    rw [e]; rfl
  · rw [State.get_put_apart _ _ _ _ (by decide) (by decide), State.get_put_apart _ _ _ _ (by decide) (by decide), State.get_put_self _ _ _ (by decide)]
    rfl
  · rw [State.get_put_apart _ _ _ _ (by decide) (by decide), State.get_put_self _ _ _ (by decide)]
    exact Nat.mod_eq_of_lt (by have := k.2; simp only [F.TMR_FIX_copy]; omega)
  · rw [State.get_put_self _ _ _ (by decide)]
    exact Nat.mod_eq_of_lt (by have := i.2; simp only [F.TMR_FIX_word]; omega)

theorem voteFix_one (i : Fin 8) (k : Fin 3) (x : Word) (s : State) (h : ∀ c : Fin 3, c ≠ k → s.reg (copyReg i c) = x) :
    (s.reg (copyReg i k) = x → s.voteFix i = s) ∧ (s.reg (copyReg i k) ≠ x → s.voteFix i = voted i k x s) := by
  have d0 := h 0; have d1 := h 1; have d2 := h 2
  refine ⟨fun e => ?_, fun e => ?_⟩ <;> unfold State.voteFix <;> extract_lets a b c fx
  · have z : ∀ c : Fin 3, s.reg (copyReg i c) = x := fun c => if q : c = k then q ▸ e else h c q
    rw [if_pos ⟨(z 0).trans (z 1).symm, (z 1).trans (z 2).symm⟩]
  · have ea : a = s.reg (copyReg i (0 : Fin 3)) := rfl
    have eb : b = s.reg (copyReg i (1 : Fin 3)) := rfl
    have ec : c = s.reg (copyReg i (2 : Fin 3)) := rfl
    clear_value a b c
    match k with
    | 0 =>
      rw [← ea] at e
      have b1 : b = x := eb.trans (d1 (by decide))
      have c1 : c = x := ec.trans (d2 (by decide))
      rw [if_neg (by rw [b1]; exact fun q => e q.1), if_pos (by rw [b1, c1]), b1]; rfl
    | 1 =>
      rw [← eb] at e
      have a1 : a = x := ea.trans (d0 (by decide))
      have c1 : c = x := ec.trans (d2 (by decide))
      rw [if_neg (by rw [a1]; exact fun q => e q.1.symm), if_neg (by rw [c1]; exact e), if_pos (by rw [a1, c1]), a1]; rfl
    | 2 =>
      rw [← ec] at e
      have a1 : a = x := ea.trans (d0 (by decide))
      have b1 : b = x := eb.trans (d1 (by decide))
      rw [if_neg (by rw [b1]; exact fun q => e q.2.symm), if_neg (by rw [b1]; exact fun q => e q.symm), if_neg (by rw [a1]; exact fun q => e q.symm),
        if_pos (by rw [a1, b1]), a1]; rfl

theorem voteFix_none (i : Fin 8) (s : State) (h : ∀ c d : Fin 3, c ≠ d → s.reg (copyReg i c) ≠ s.reg (copyReg i d)) : s.voteFix i = s.diapauseFor 2 := by
  unfold State.voteFix
  extract_lets a b c fx
  have h1 : a ≠ b := h 0 1 (by decide)
  have h2 : b ≠ c := h 1 2 (by decide)
  have h3 : a ≠ c := h 0 2 (by decide)
  clear_value a b c
  rw [if_neg (fun q => h1 q.1), if_neg h2, if_neg h3, if_neg h1]

theorem causeRegs_ne_cause : ∀ c : Fin 24, (causeRegs c).all (fun a => a != R.ALR_CAUSE) = true := by decide

theorem sourcesClear_of {s t : State} (h : ∀ a, a ≠ R.ALR_CAUSE → t.reg a = s.reg a) (c : Nat) (hc : c < 24) : t.sourcesClear c = s.sourcesClear c := by
  have k := causeRegs_ne_cause ⟨c, hc⟩
  unfold State.sourcesClear State.bit State.get
  rw [h F.ALR_UCODE_lane.addr (by decide)]
  split
  · rfl
  · rw [Bool.eq_iff_iff, List.all_eq_true, List.all_eq_true]
    have : ∀ a ∈ causeRegs c, t.reg a = s.reg a := fun a ha => h a (by simpa using List.all_eq_true.1 k a ha)
    exact ⟨fun q a ha => this a ha ▸ q a ha, fun q a ha => (this a ha).symm ▸ q a ha⟩

theorem clearCauses (v : Word) (s : State) : ∀ (l : List Nat), (∀ c ∈ l, c < 24) →
    let t := doAll l (fun c s => if v.getLsbD c && s.sourcesClear c then s.putBit F.ALR_CAUSE_c c false else s) s
    (∀ a, a ≠ R.ALR_CAUSE → t.reg a = s.reg a) ∧
    (∀ c, c < 24 → t.bit F.ALR_CAUSE_c c = (s.bit F.ALR_CAUSE_c c && !(l.contains c && v.getLsbD c && s.sourcesClear c))) := by
  intro l
  induction l using List.reverseRecOn with
  | nil => intro _; exact ⟨fun _ _ => rfl, fun c _ => by simp [doAll]⟩
  | append_singleton l d ih =>
    intro hl
    obtain ⟨i1, i2⟩ := ih (fun c hc => hl c (List.mem_append_left _ hc))
    have hd : d < 24 := hl d (by simp)
    intro t
    generalize hu : doAll l (fun c s => if v.getLsbD c && s.sourcesClear c then s.putBit F.ALR_CAUSE_c c false else s) s = u at i1 i2
    have ht : t = if v.getLsbD d && u.sourcesClear d then u.putBit F.ALR_CAUSE_c d false else u := by
      rw [← hu]; simp only [t, doAll, List.foldl_append, List.foldl_cons, List.foldl_nil]; rfl
    rw [sourcesClear_of i1 d hd] at ht
    by_cases q : (v.getLsbD d && s.sourcesClear d) = true
    · rw [if_pos q] at ht
      rw [ht]
      refine ⟨fun a ha => ?_, fun c hc => ?_⟩
      · unfold State.putBit
        exact ((State.reg_put ..).trans (if_neg ha)).trans (i1 a ha)
      · unfold State.bit State.putBit
        rw [State.get_put_self _ _ _ (by decide), Nat.testBit_mod_two_pow, withBit_false]
        have := i2 c hc
        unfold State.bit at this
        rw [this]
        have w : decide (c < F.ALR_CAUSE_c.width) = true := decide_eq_true hc
        rw [w, Bool.true_and]
        rw [Bool.and_eq_true] at q
        by_cases z : c = d
        · subst z; simp [q.1, q.2]
        · have e : (c == d) = false := by simpa using z
          simp [e, z, Bool.and_assoc]
    · rw [if_neg q] at ht
      rw [ht]
      refine ⟨i1, fun c hc => ?_⟩
      rw [i2 c hc]
      by_cases z : c = d
      · subst z
        have : (v.getLsbD c && s.sourcesClear c) = false := by simpa using q
        rw [Bool.and_assoc, this, Bool.and_assoc, this]; simp
      · simp [z]

theorem smbFor_own {s : State} {t : BitVec 7} (h : s.boot.phase ≠ 6) (k : t.toNat = s.get F.ALR_SMB_addr) : s.smbFor t = true := by
  unfold State.smbFor State.pathOpen
  simp [h, k]

theorem smbFor_other {s : State} {t : BitVec 7} (k : t.toNat ≠ s.get F.ALR_SMB_addr) : s.smbFor t = false := by
  unfold State.smbFor
  simp [k]

end Sys2Proof.Machine
end

