-- ==== Sys2Proof/Machine/Pins.lean ====
section
/-! DEFINITION. The output balls (16_package_and_electrical.md R629, R651 to R653): what each rests at while its domain is in
reset, cocooned or held (R511), and what drives it else. -/

namespace Sys2Proof.Machine
open Sys2Proof

/-- The pads of domain `d` follow its logic: it runs, and they are not held (R511, R512). -/
def State.drives (s : State) (d : Nat) : Bool := s.runs d && !(s.padsHeld d)

/-- `WGn` is high. -/
def State.pinWg (s : State) (n : Fin 4) : Bool := s.drives n && s.flag (F.LANE_STAT_wg n)

/-- `PASENn` is high (R142). -/
def State.pinPasen (s : State) (n : Fin 4) : Bool := s.drives n && (s.lane n).pasen

/-- What the spindle gates do in this period: all off at rest. -/
def State.pinGates (s : State) : Gates := if s.drives 5 then s.spn.gates else .off

/-- The duties of `VCMa_PWMA` and `VCMa_PWMB`, in 1/2,000 (R651): never both high (R652). -/
def State.pinVcm (s : State) (a : Fin 4) : Nat × Nat :=
  let d := if s.drives 5 && s.fitted a then (s.act a).duty else 0
  (d.toNat, (-d).toNat)

/-- `MAa_DAC` in µV (R653): 0.900 V for no demand, and 0.800 V either side for a demand of 1. -/
def State.pinMa (s : State) (a : Fin 4) : Int :=
  900000 + (if s.drives 5 && s.fitted a then near (800000 * s.regInt (R.SCA_MDM a)) 65536 else 0)

/-- `ISO_N` is low: the switch is closed. -/
def State.pinIso (s : State) : Bool := s.flag F.HRV_STAT_iso

/-- `CHOP` is high; AON drives it, and it is never held. -/
def State.pinChop (s : State) : Bool := s.hrv.chop

/-- `REGEN_A` is high while some LANE domain runs or waits for `PGOOD_A` (R514), and `REGEN_B` in every power state (R326). -/
def State.pinRegen (s : State) : Bool × Bool :=
  (s.hrv.regen && (s.regenA || (s.pwr.step == 2 && s.pwr.emerg.head?.any isLane)), s.hrv.regen)

/-- `CLKREQ_N` is low from cold-start step 4 on. -/
def State.pinClkreq (s : State) : Bool := decide (2 ≤ s.boot.phase ∧ s.boot.phase ≠ 6)

/-- `PEWAKE_N` is low (R449). -/
def State.pinPewake (s : State) : Bool := s.nvme.pewake

/-- `ALERT_N` is low (R600). -/
def State.pinAlert (s : State) : Bool := s.alert

end Sys2Proof.Machine
end

