-- ==== Sys2Proof/Tests/Slice0.lean ====
section
/-! SUPPORT. Tests: an ill-formed command that each check of WellFormed refuses, examples worked by hand from the spec's tables, and
for every statement the states and operands that meet its hypotheses. -/

open Sys2Proof Sys2Proof.Machine

/-! ## Ill-formed commands -/

/-- A submission queue entry with an opcode and the two dwords that WellFormed reads. -/
def Tests.sqe (op : Byte) (dw10 dw11 dw13 : Word) : Sqe :=
  { op := op, cid := 0, nsid := 1, dw10 := dw10, dw11 := dw11, dw12 := 0, dw13 := dw13, dw14 := 0, dw15 := 0, data := [] }

theorem test_wf_link : (Instr.linkUp 0 1).wf = false ∧ (Instr.linkUp 5 3).wf = false ∧ (Instr.linkRetrain 0 4).wf = false ∧
    (Instr.linkRetrain 3 2).wf = true := by decide

theorem test_wf_queue : (Instr.commandFetch 0 (Tests.sqe 1 0 0 0)).wf = false ∧ (Instr.flush 0 (Tests.sqe 0 0 0 0)).wf = false ∧
    (Instr.flush 1 (Tests.sqe 0 0 0 0)).wf = true := by decide

theorem test_wf_landing : (Instr.hostDataTlp 1 0).wf = false ∧ (Instr.hostDataTlp 1 1).wf = true := by decide

theorem test_wf_io_opcode : (Instr.flush 1 (Tests.sqe 1 0 0 0)).wf = false ∧ (Instr.write 1 (Tests.sqe 0 0 0 0)).wf = false ∧
    (Instr.read 1 (Tests.sqe 1 0 0 0)).wf = false ∧ (Instr.zoneAppend 1 (Tests.sqe 1 0 0 0)).wf = false ∧
    (Instr.planeRead 1 (Tests.sqe 2 0 0 0)).wf = false ∧ (Instr.zoneCodeRate 1 (Tests.sqe 0x85 0 0 0)).wf = false := by decide

theorem test_wf_zone_action : (Instr.zoneClose 1 (Tests.sqe 0x79 0 0 2)).wf = false ∧ (Instr.zoneFinish 1 (Tests.sqe 0x79 0 0 1)).wf = false ∧
    (Instr.zoneOpen 1 (Tests.sqe 0x79 0 0 4)).wf = false ∧ (Instr.zoneReset 1 (Tests.sqe 0x79 0 0 3)).wf = false ∧
    (Instr.offlineZone 1 (Tests.sqe 0x79 0 0 4)).wf = false ∧ (Instr.setZoneDescriptorExtension 1 (Tests.sqe 0x79 0 0 5)).wf = false ∧
    (Instr.reportZones 1 (Tests.sqe 0x7A 0 0 1)).wf = false ∧ (Instr.extendedReportZones 1 (Tests.sqe 0x7A 0 0 0)).wf = false ∧
    (Instr.zoneReset 1 (Tests.sqe 0x79 0 0 4)).wf = true := by decide

theorem test_wf_queues : (Instr.createIoSubmissionQueue (Tests.sqe 5 0 0 0)).wf = false ∧
    (Instr.createIoCompletionQueue (Tests.sqe 1 0 0 0)).wf = false ∧ (Instr.deleteIoSubmissionQueue (Tests.sqe 4 0 0 0)).wf = false ∧
    (Instr.deleteIoCompletionQueue (Tests.sqe 0 0 0 0)).wf = false := by decide

theorem test_wf_admin : (Instr.identify (Tests.sqe 2 0 0 0)).wf = false ∧ (Instr.abort (Tests.sqe 6 0 0 0)).wf = false ∧
    (Instr.asynchronousEventRequest (Tests.sqe 8 0 0 0)).wf = false ∧ (Instr.getFeatures (Tests.sqe 9 0 0 0)).wf = false ∧
    (Instr.directiveReceive (Tests.sqe 0x19 0 0 0)).wf = false ∧ (Instr.firmwareImageDownload (Tests.sqe 0x10 0 0 0)).wf = false ∧
    (Instr.establishContract (Tests.sqe 0xC2 0 0 0)).wf = false ∧ (Instr.releaseContract (Tests.sqe 0xC1 0 0 0)).wf = false ∧
    (Instr.queryContracts (Tests.sqe 0xC1 0 0 0)).wf = false ∧ (Instr.identify (Tests.sqe 6 0 0 0)).wf = true := by decide

theorem test_wf_features : (Instr.setArbitration (Tests.sqe 9 2 0 0)).wf = false ∧ (Instr.setPowerManagement (Tests.sqe 9 1 0 0)).wf = false ∧
    (Instr.setTemperatureThreshold (Tests.sqe 9 2 0 0)).wf = false ∧ (Instr.setNumberOfQueues (Tests.sqe 9 8 0 0)).wf = false ∧
    (Instr.setInterruptCoalescing (Tests.sqe 9 7 0 0)).wf = false ∧ (Instr.setInterruptVectorConfiguration (Tests.sqe 9 8 0 0)).wf = false ∧
    (Instr.setAsyncEventConfiguration (Tests.sqe 9 9 0 0)).wf = false ∧ (Instr.setApst (Tests.sqe 9 0xB 0 0)).wf = false ∧
    (Instr.setAcousticCeiling (Tests.sqe 9 0xC3 0 0)).wf = false ∧ (Instr.setMagazineEnergy (Tests.sqe 9 0xC2 0 0)).wf = false ∧
    (Instr.getMagazineEnergy (Tests.sqe 0xA 0xC2 0 0)).wf = false ∧ (Instr.setArbitration (Tests.sqe 9 1 0 0)).wf = true := by decide

theorem test_wf_logs : (Instr.errorInformationLog (Tests.sqe 2 2 0 0)).wf = false ∧ (Instr.smartHealthLog (Tests.sqe 2 3 0 0)).wf = false ∧
    (Instr.firmwareSlotLog (Tests.sqe 2 5 0 0)).wf = false ∧ (Instr.commandsSupportedLog (Tests.sqe 2 1 0 0)).wf = false ∧
    (Instr.contractLog (Tests.sqe 2 0xC5 0 0)).wf = false ∧ (Instr.harvestLossLog (Tests.sqe 2 0xC4 0 0)).wf = false ∧
    (Instr.eventHistoryLog (Tests.sqe 2 0xC7 0 0)).wf = false ∧ (Instr.measurementLog (Tests.sqe 2 0xC6 0 0)).wf = false := by decide

theorem test_wf_directives : (Instr.enableDirective (Tests.sqe 0x19 0 0x101 0)).wf = false ∧
    (Instr.releaseIdentifier (Tests.sqe 0x19 0 0x001 0)).wf = false ∧ (Instr.releaseResources (Tests.sqe 0x19 0 0x101 0)).wf = false ∧
    (Instr.releaseResources (Tests.sqe 0x19 0 0x102 0)).wf = true := by decide

theorem test_wf_commit : (Instr.firmwareCommit000 (Tests.sqe 0x10 8 0 0)).wf = false ∧ (Instr.firmwareCommit001 (Tests.sqe 0x10 0 0 0)).wf = false ∧
    (Instr.firmwareCommit010 (Tests.sqe 0x10 8 0 0)).wf = false ∧ (Instr.firmwareCommit011 (Tests.sqe 0x10 16 0 0)).wf = false ∧
    (Instr.firmwareCommit011 (Tests.sqe 0x10 24 0 0)).wf = true := by decide

theorem test_wf_readings : (Instr.probeEnd [1, 2, 3, 4, 5]).wf = false ∧
    (Instr.pwmPeriod { speed := 0, near := false, angle := 0, apart := false, cur := [0, 0], mbus := 0 }).wf = false ∧
    (Instr.nvmeMiBasicManagement 0x6A 1 64).wf = false ∧ (Instr.nvmeMiBasicManagement 0x6A 0 64).wf = true := by decide

theorem test_wf_unsupported : (Instr.unsupportedOpcode 0 (Tests.sqe 6 0 0 0)).wf = false ∧ (Instr.unsupportedOpcode 1 (Tests.sqe 2 0 0 0)).wf = false ∧
    (Instr.unsupportedOpcode 1 (Tests.sqe 9 0 0 0)).wf = true := by decide

/-! ## Reset -/

theorem test_reset_canonical : State.reset.canonical = true := by decide +kernel

theorem test_reset_queue : step State.reset = .next State.reset.tick := rfl

theorem test_no_word : decodeTableWord 32 0xFFFFFFFF = none ∧ State.reset.withFetchWord 32 0 = State.reset := ⟨rfl, rfl⟩

/-! ## States that meet the hypotheses of the statements -/

/-- A unit's metadata, a unit read, a queue entry, a command context, a media command and a unit on a lane, all of zeros. -/
def Tests.mu : MUnit := { kind := 0, tag := 0, gen := 0, hseq := 0, shuffled := false, ctx := 0, data := [] }
def Tests.pu : Machine.PUnit :=
  { surface := 0, track := 0, pos := 0, qtr := 0, under := (0, 0), modsel := 0, captured := true, bad := false, loop := false
    mu := Tests.mu, heard := Heard.none }
def Tests.ent : CrysEnt :=
  { unit := Tests.pu, lane := 0, cls := 0, deadline := none, ord := 5, since := 0, fails := 0, aged := false, nosync := false
    own := none, neigh := [] }
def Tests.ctx (op : Byte) (stage : Nat) : Ctx :=
  { id := 7, sq := 1, sqe := { Tests.sqe op 0 0 0 with nsid := 2 }, arrival := 0, slot := none, deadline := none, stage := stage
    landed := 0, tiles := [], record := none, ord := 0, since := 0 }
def Tests.media : MediaCmd :=
  { op := 1, surface := 0, track := 0, start := 0, qtr := 0, count := 0, modsel := 0, mask := 0, tag := 0, deadline := none
    cancelled := false, units := [] }
def Tests.lu : LUnit :=
  { write := true, loop := false, modsel := 0, pos := 0, qtr := 0, widen := false, agchold := false, due := false, left := 0
    begun := false, short := false, nocap := false, bad := false, heard := Heard.none, fw := false }

section Witnesses
set_option Elab.async false

theorem witness_StepRunsFrontCommand :
    ({ State.reset with pending := [.grant, .readSeal] } : State).pending = .grant :: [.readSeal] := by decide +kernel

theorem witness_IdleStepIsOneMicrosecond :
    State.reset.pending = [] ∧ (State.reset.us + 1) % 1000 ≠ 0 ∧ State.reset.boot.toCurve = false ∧ State.reset.boot.phase ≠ 4 ∧
    State.reset.pwr.to_ = none ∧ State.reset.map.wback = [] := by decide +kernel

theorem witness_StepKeepsCanonical :
    State.reset.canonical = true := by decide +kernel

theorem witness_BlownFusesStay :
    State.reset.factory = false ∧ State.reset.accepts .core R.CFG_REVOKE 0x8001 = true ∧
    (State.reset.put F.CFG_STRAP_mode 2).factory = true ∧ (State.reset.put F.CFG_STRAP_mode 2).accepts .core R.CFG_REVOKE 0x8001 = true := by decide +kernel

theorem witness_WriteFollowsAccessTypes :
    (∃ d ∈ regDesc R.ALR_PINEN, d.rw ≠ 0) ∧ R.ALR_PINEN % 4 = 0 ∧ State.reset.accepts .smbus R.ALR_PINEN 0x1FFF = true ∧
    State.reset.plain R.ALR_PINEN = true ∧ State.reset.valueBad R.ALR_PINEN 0xFFFFFF = false := by decide +kernel

theorem witness_IgnoredAccessIsCounted :
    (7 < 8 : Prop) ∧ (State.reset.put (F.BLK_IGNCNT_count 0x21) 0xFF).get (F.BLK_IGNCNT_count 0x21) = 0xFF := by decide +kernel

theorem witness_NarrowOrMisalignedIsIgnored :
    State.reset.writeOpen .core = true ∧ State.reset.writeOpen .smbus = true ∧ (0x3FFFF8#32).toNat + 8 ≤ 0x400000 ∧
    smbBlock (0x10001 / 0x10000) = true ∧ (0x10001#32).toNat % 4 ≠ 0 ∧ (0x10004#32).toNat % 8 ≠ 0 ∧ (0x10008#32).toNat % 8 = 0 := by decide +kernel

theorem witness_ForbiddenAccessDoesNothingElse :
    (State.reset.onNvme (fun v => { v with perst := false })).writeOpen .bar2 = true ∧
    State.reset.writeCause .bar2 R.SYS_RST 1 = some 1 ∧ State.reset.writeCause .core R.SYS_CAP 0 = some 0 ∧
    State.reset.writeCause .core 0x3FFFFC 0 = some 7 ∧ State.reset.writeCause .smbus R.PWR_CMD 0 = some 1 ∧ smbBlock (R.PWR_CMD / 0x10000) = true ∧
    State.reset.readCause .core 0x3FFFFC = some 7 ∧ State.reset.readCause .smbus R.MAP_CTL = some 1 ∧
    hostWritable R.SYS_RST = false ∧ smbWritable R.PWR_CMD = false ∧
    State.reset.accepts .smbus (R.BLK_IGNCNT 0xE) 0x80000000 = true ∧ (0x80000000#32).getLsbD 31 = true ∧
    (State.reset.put F.HRV_STAT_state 3).harvesting = true := by decide +kernel

theorem witness_PermittedReadChangesNothing :
    State.reset.readable .core R.ALR_PINEN = true ∧ R.ALR_PINEN % 4 = 0 ∧ (∀ n : Fin 4, R.ALR_PINEN ≠ R.LANE_CALDATA n) ∧
    R.ALR_PINEN ≠ R.SRV_SSDATA ∧ State.reset.readable .core (R.BLK_ID 33) = true ∧ State.reset.readable .smbus R.SYS_CAP = true := by decide +kernel

theorem witness_GoWriteSetsPending_1 :
    State.reset.accepts .core (R.LANE_GO 3) 1 = true ∧ State.reset.flag (F.LANE_GO_pending 3) = false ∧ (State.reset.lane 3).setBad = false := by decide +kernel

theorem witness_GoWriteSetsPending_2 :
    State.reset.accepts .core R.SCA_GO 1 = true ∧ State.reset.flag F.SCA_GO_pending = false ∧ State.reset.lcfgBad = false := by decide +kernel

theorem witness_GoWriteSetsPending_3 :
    State.reset.accepts .core R.SPN_GO 1 = true ∧ State.reset.flag F.SPN_GO_pending = false ∧ State.reset.curveGood = true ∧
      ¬(State.reset.get F.SPN_CRVHDR_nbp = 0 ∧ State.reset.get F.SPN_CTL_src = 1) := by decide +kernel

theorem witness_GoWriteSetsPending_4 :
    State.reset.accepts .core R.HRV_GO 1 = true ∧ State.reset.flag F.HRV_GO_pending = false := by decide +kernel

theorem witness_GoWriteSetsPending_5 :
    State.reset.accepts .core R.CTR_GO 0xFFFF = true ∧ State.reset.flag F.CTR_GO_pending = false ∧
      (∀ i < 16, ¬(State.reset.get (F.CTR_C_CFG_state i) = 1 ∨ State.reset.get (F.CTR_C_CFG_state i) = 2)) := by decide +kernel

theorem witness_StagedValuesActTogether_1 :
    State.reset.executing 2 = false ∧ (State.reset.put (F.LANE_GO_pending 2) 1).laneUp 2 = true ∧
      (State.reset.put (F.LANE_GO_pending 2) 1).flag (F.LANE_GO_pending 2) = true ∧ (State.reset.lane 2).goHeld = false := by decide +kernel

theorem witness_StagedValuesActTogether_2 :
    (State.reset.put F.SCA_GO_pending 1).flag F.SCA_GO_pending = true ∧ (State.reset.put F.SCA_GO_pending 1).runs 5 = true := by decide +kernel

theorem witness_ColdAndWarmResets_1 :
    State.reset.hrvState < 2 ∧ (State.reset.put F.HRV_STAT_state 1).hrvState < 2 := by decide +kernel

theorem witness_ColdAndWarmResets_2 :
    (State.reset.put F.HRV_STAT_state 7).hrvState = 7 := by decide +kernel

theorem witness_ColdAndWarmResets_3 :
    State.reset.accepts .core R.SYS_RST 0x52530001 = true ∧ (0x52530001#32).getLsbD 0 = true ∧
      F.SYS_RST_key.of 0x52530001 = 0x5253 ∧ State.reset.diapause = false ∧ State.reset.boot.warm = 0 := by decide +kernel

theorem witness_ColdAndWarmResets_4 :
    (State.reset.onBoot (fun b => { b with warm := 2 })).get F.SRV_STAT_loaded = 0 ∧ State.reset.harvesting = false ∧
      (∀ a : Fin 4, (State.reset.act a).ramp ≠ some true) := by decide +kernel

theorem witness_ControllerAndFunctionResets_1 :
    State.reset.hostDown = false ∧ (State.reset.onNvme (fun v => { v with perst := false })).nvme.perst = false := by decide +kernel

theorem witness_ControllerAndFunctionResets_2 :
    (State.reset.onNvme (fun v => { v with perst := true })).nvme.perst = true := by decide +kernel

theorem witness_ControllerAndFunctionResets_3 :
    (State.reset.onNvme (fun v => { v with perst := false, config := true, linkUp := true })).answers = true := by decide +kernel

theorem witness_ControllerAndFunctionResets_4 :
    (State.reset.onNvme (fun v => { v with perst := false, linkUp := true })).nvme.linkUp = true := by decide +kernel

theorem witness_ControllerAndFunctionResets_5 :
    (State.reset.onNvme (fun v => { v with perst := false, linkUp := true })).nvme.perst = false := by decide +kernel

theorem witness_ControllerAndFunctionResets_6 :
    (State.reset.onNvme (fun v => { v with perst := false, config := true, linkUp := true, en := true })).answers = true ∧
      (State.reset.onNvme (fun v => { v with perst := false, config := true, linkUp := true, en := true })).nvme.en = true := by decide +kernel

theorem witness_EnableWithWrongSizesFails :
    (State.reset.onNvme (fun v => { v with perst := false, config := true, linkUp := true })).answers = true ∧
      State.reset.nvme.en = false ∧ natBits (0x460060#32).toNat 4 3 = 6 ∧ natBits (0x460060#32).toNat 16 4 = 6 ∧
      natBits (0x460060#32).toNat 20 4 = 4 ∧ natBits (0x460000#32).toNat 4 3 ≠ 6 := by decide +kernel

theorem witness_LinkAndShutdown_1 :
    State.reset.hostDown = false ∧ (State.reset.onNvme (fun v => { v with perst := false })).nvme.perst = false ∧
      3 ≤ (State.reset.onBoot (fun b => { b with phase := 3 })).boot.phase := by decide +kernel

theorem witness_LinkAndShutdown_2 :
    (State.reset.onNvme (fun v => { v with perst := false, linkUp := true })).nvme.linkUp = true ∧ (5 : Fin 6).val ≠ 0 := by decide +kernel

theorem witness_LinkAndShutdown_3 :
    (State.reset.onNvme (fun v => { v with perst := false, config := true, linkUp := true, en := true })).answers = true ∧
      State.reset.nvme.shst = 0 := by decide +kernel

theorem witness_LinkAndShutdown_4 :
    (State.reset.onNvme (fun v => { v with perst := false, config := true, linkUp := true, en := true })).nvme.en = true := by decide +kernel

theorem witness_LinkAndShutdown_5 :
    (State.reset.onNvme (fun v => { v with shst := 1 })).clean = true ∧ State.reset.flag F.EVT_STAT_flush = false ∧
      State.reset.evt.waiting = false := by decide +kernel

theorem witness_PowerUpSequence_1 :
    State.reset.boot.phase = 0 ∧ State.reset.hrvState ≤ 1 ∧ State.reset.diapause = false := by decide +kernel

theorem witness_PowerUpSequence_2 :
    (State.reset.put F.HRV_STAT_ramp 1).flag F.HRV_STAT_ramp = true := by decide +kernel

theorem witness_PowerUpSequence_3 :
    (State.reset.put F.HRV_STAT_ramp 1).flag F.HRV_STAT_ramp = true := by decide +kernel

theorem witness_PowerUpSequence_4 :
    (State.reset.onBoot (fun b => { b with phase := 2 })).boot.phase = 2 := by decide +kernel

theorem witness_PowerUpSequence_5 :
    (State.reset.onBoot (fun b => { b with phase := 2 })).boot.phase = 2 := by decide +kernel

theorem witness_PowerUpSequence_6 :
    (State.reset.onBoot (fun b => { b with phase := 3 })).flag F.CFG_BOOT_warm = false ∧ State.reset.diapause = false := by decide +kernel

theorem witness_PowerUpSequence_7 :
    (State.reset.onBoot (fun b => { b with phase := 3 })).boot.phase = 3 ∧ State.reset.flag F.CFG_BOOT_warm = false := by decide +kernel

theorem witness_ReadinessSteps_1 :
    State.reset.boot.headLoad < ((State.reset.onBoot (fun b => { b with phase := 4 })).put F.SPN_STAT_obsrpm 0x3FFF).get F.SPN_STAT_obsrpm ∧
      State.reset.runs 5 = true ∧ State.reset.harvesting = false := by decide +kernel

theorem witness_ReadinessSteps_2 :
    let s := ((((State.reset.onBoot (fun b => { b with phase := 4 })).put F.SRV_STAT_loaded 15).put F.SPN_STAT_obsrpm 3600).put F.SRV_SPDM_rpm 3600);
      s.boot.phase = 4 ∧ s.boot.ready = 0 ∧ s.get F.MAP_ADOPT_phase = 0 ∧ s.get F.SRV_STAT_loaded ≠ 0 ∧ s.draining = false ∧ s.boot.warm = 0 ∧
      (∀ a : Fin 4, (s.act a).ramp ≠ some false) ∧ 3600 ≤ s.rpm := by decide +kernel

theorem witness_ReadinessSteps_3 :
    let k : Keel := { seq := 1, hseq := 0, area := 0, ckseq := 0, lanes0 := [], lanes1 := [], jrnl := [], jfirst := 0, man := [], salt := [], digest := 0 };
      let s := (State.reset.onBoot (fun b => { b with ready := 1 })).onMap (fun m => { m with keel := some k })
      s.map.keel = some k ∧ s.boot.ready = 1 ∧ s.draining = false := by decide +kernel

theorem witness_ReadinessSteps_4 :
    ((State.reset.onBoot (fun b => { b with ready := 2 })).put F.SPN_STAT_upok 1).flag F.SPN_STAT_upok = true ∧
      State.reset.servo.flutter = none := by decide +kernel

theorem witness_ReadinessSteps_5 :
    (State.reset.onBoot (fun b => { b with ready := 3 })).draining = false ∧ State.reset.hrv.chopTest = false := by decide +kernel

theorem witness_ReadinessSteps_6 :
    let s := (State.reset.put F.CFG_STRAP_mode 1).put F.MAP_ADOPT_phase 3;
      s.accepts .core R.CFG_RCVCMD 1 = true ∧ s.get F.CFG_STRAP_mode = 1 ∧ s.get F.MAP_ADOPT_phase = 3 := by decide +kernel

theorem witness_ReadinessSteps_7 :
    let c : CkCopy := { area := 1, copy := 0, lanes := [0, 2], ckpt := { seq := 3, map := [], zones := [], slip := [], defects := [] } };
    let g : State := { State.reset with geo := { State.reset.geo with surfaces := [(0, 0), (1, 0), (2, 0), (3, 0)] } };
    let s : State := (g.put F.CFG_RCVSTAT_phase 1).onMedia (fun d => { d with ck := [c] });
      s.get F.CFG_RCVSTAT_phase = 1 ∧ s.draining = false ∧ s.bestCkpt = some c ∧ 2 ≤ (s.keelSurfaces s.lanesIn).length := by decide +kernel

theorem witness_ReadinessSteps_8 :
    (State.reset.put F.CFG_RCVSTAT_phase 1).bestCkpt = none ∧ (State.reset.put F.CFG_RCVSTAT_phase 1).get F.CFG_RCVSTAT_phase = 1 ∧ (State.reset.put F.CFG_RCVSTAT_phase 1).draining = false := by decide +kernel

theorem witness_FlashOperations_1 :
    State.reset.accepts .core R.CFG_FLCMD 0x80000000 = true ∧ F.CFG_FLCMD_op.of 0x80000000 = 0 ∧ State.reset.flag F.CFG_FLCMD_busy = false := by decide +kernel

theorem witness_FlashOperations_2 :
    State.reset.accepts .core R.CFG_FLCMD 0x90000000 = true ∧ F.CFG_FLCMD_op.of 0x90000000 = 1 ∧ State.reset.flashBarred = false := by decide +kernel

theorem witness_FlashOperations_3 :
    State.reset.accepts .core R.CFG_FLCMD 0xA0000000 = true ∧ F.CFG_FLCMD_op.of 0xA0000000 = 2 := by decide +kernel

theorem witness_FlashOperations_4 :
    (State.reset.put F.CFG_FLADDR_page 0x38000).flashBarred = true ∧
      (State.reset.put F.CFG_FLADDR_page 0x38000).accepts .core R.CFG_FLCMD 0x90000000 = true := by decide +kernel

theorem witness_FlashOperations_5 :
    (State.reset.onBoot (fun b => { b with fl := some (2, 0) })).boot.fl = some (2, 0) := by decide +kernel

theorem witness_FlashOperations_6 :
    ((State.reset.onBoot (fun b => { b with phase := 4 })).put F.EVT_CTL_tlock 1).flag F.EVT_CTL_tlock = true := by decide +kernel

theorem witness_PowerCommandDuringEntryIsIgnored :
    ∀ ph : Fin 5, let s := State.reset.put F.PWR_PSTAT_phase ph.val
      (s.accepts .core R.PWR_CMD 0x8000007F && s.accepts .core R.PWR_CMD 0x8000007F) = true := by decide +kernel

theorem witness_PowerHandshake_1 :
    State.reset.accepts .core R.PWR_CMD 0x80000000 = true ∧ State.reset.pwrBad (State.reset.domains 0) (State.reset.domains 0) = false ∧
      State.reset.get F.PWR_PSTAT_phase = 0 := by decide +kernel

theorem witness_PowerHandshake_2 :
    let s := (State.reset.put F.PWR_PSTAT_phase 1).onPwr (fun p => { p with ask := [4] });
      s.get F.PWR_PSTAT_phase = 1 ∧ s.refusal 4 = none ∧ s.agrees 4 = true := by decide +kernel

theorem witness_PowerHandshake_3 :
    let s := ((State.reset.put F.PWR_PSTAT_phase 1).put (F.MCS_STAT_state 0) 3).onPwr (fun p => { p with ask := [0] });
      s.get F.PWR_PSTAT_phase = 1 ∧ s.refusal 0 = none ∧ s.agrees 0 = false := by decide +kernel

theorem witness_PowerHandshake_4 :
    (State.reset.put F.PWR_PSTAT_phase 3).get F.PWR_PSTAT_phase = 3 := by decide +kernel

theorem witness_PowerHandshake_5 :
    let s := (State.reset.put F.PWR_PSTAT_phase 4).onPwr (fun p => { p with emerg := [4], step := 7 });
      s.get F.PWR_PSTAT_phase = 4 ∧ (s.waits 4).find? (fun k => decide (s.pwr.step < k)) = none := by decide +kernel

theorem witness_PowerHandshake_6 :
    let s := (State.reset.put F.PWR_PSTAT_phase 4).onPwr (fun p => { p with emerg := [6], again := true });
      s.get F.PWR_PSTAT_phase = 4 ∧ s.pwr.emerg = [6] := by decide +kernel

theorem witness_PadsAndIdleDomains_1 :
    State.reset.accepts .core R.PWR_PADREL 0x2F = true ∧
      (∀ d ∈ (State.reset.domains 0x2F).filter (fun d => isLane d || d == 5), State.reset.dom d = 0) := by decide +kernel

theorem witness_PadsAndIdleDomains_2 :
    let s := (State.reset.onBoot (fun b => { b with phase := 4 })).onNvme (fun v => { v with feats := { v.feats with ps := 2 } });
      s.get F.PWR_PSTAT_phase = 0 ∧ s.runs 3 = true ∧ s.draining = false ∧ s.fitted 3 = true ∧ (s.lane 3).queue = [] ∧
      (s.lane 3).cur = none ∧ s.buf.work[3] = [] ∧ s.pwr.to_ = none := by decide +kernel

theorem witness_PadsAndIdleDomains_3 :
    let s := (((State.reset.onBoot (fun b => { b with phase := 4 })).onNvme (fun v => { v with feats := { v.feats with ps := 4 } })).setDom 5 2);
      s.runs 6 = true ∧ s.dom 5 ≠ 0 ∧ s.draining = false := by decide +kernel

theorem witness_PadsAndIdleDomains_4 :
    let s := (State.reset.onBoot (fun b => { b with phase := 4 })).onNvme (fun v => { v with feats := { v.feats with apste := true, apst := [(1, 3)], ps := 0 } });
      s.bound = false ∧ s.outstanding = false ∧ s.draining = false ∧ s.nvme.feats.apst[s.nvme.feats.ps]? = some (1, 3) := by decide +kernel

theorem witness_PadsAndIdleDomains_5 :
    3 ≤ (State.reset.onBoot (fun b => { b with phase := 3 })).boot.phase ∧ State.reset.hrvState ≠ 7 := by decide +kernel

theorem witness_PadsAndIdleDomains_6 :
    (State.reset.onHrv (fun h => { h with coreLow := true })).hrv.coreLow = true := by decide +kernel

theorem witness_PadsAndIdleDomains_7 :
    (State.reset.onHrv (fun h => { h with coreLow := true })).hrv.coreLow = true := by decide +kernel

theorem witness_PadsAndIdleDomains_8 :
    State.reset.lanesFitted.filter (fun n => State.reset.runs n) ≠ [] := by decide +kernel

theorem witness_PadsAndIdleDomains_9 :
    4 ≤ (State.reset.onBoot (fun b => { b with phase := 4 })).boot.phase := by decide +kernel

theorem witness_IoCommandsAreTaken_1 :
    (State.reset.put F.BUF_CTL_lock 1 |>.onNvme (fun v => { v with en := true, rdy := true, sqs := [{ id := 64, size := 2, cq := 64 }] })).fetches 64 = true := by decide +kernel

theorem witness_IoCommandsAreTaken_2 :
    State.reset.nvme.deletes = [] := by decide +kernel

theorem witness_IoCommandsAreTaken_3 :
    State.reset.nvme.deletes = [] := by decide +kernel

theorem witness_IoCommandsAreTaken_4 :
    State.reset.nvme.deletes = [] := by decide +kernel

theorem witness_IoCommandsAreTaken_5 :
    State.reset.nvme.deletes = [] := by decide +kernel

theorem witness_IoCommandsAreTaken_6 :
    State.reset.nvme.deletes = [] := by decide +kernel

theorem witness_IoCommandsAreTaken_7 :
    State.reset.nvme.deletes = [] := by decide +kernel

theorem witness_IoCommandsAreTaken_8 :
    State.reset.nvme.deletes = [] := by decide +kernel

theorem witness_IoCommandsAreTaken_9 :
    State.reset.nvme.deletes = [] := by decide +kernel

theorem witness_IoCommandsAreTaken_10 :
    State.reset.nvme.deletes = [] := by decide +kernel

theorem witness_IoCommandsAreTaken_11 :
    State.reset.nvme.deletes = [] := by decide +kernel

theorem witness_IoCommandsAreTaken_12 :
    State.reset.nvme.deletes = [] := by decide +kernel

theorem witness_IoCommandsAreTaken_13 :
    State.reset.nvme.deletes = [] := by decide +kernel

theorem witness_IoCommandsAreTaken_14 :
    State.reset.nvme.deletes = [] := by decide +kernel

theorem witness_IoCommandsAreTaken_15 :
    State.reset.buf.ctxs = [] := by decide +kernel

theorem witness_BufferSteps_1 :
    let c : Ctx := Tests.ctx 1 0; let d : Ctx := { Tests.ctx 1 0 with id := 8 };
    let s := (((State.reset.put F.BUF_CTL_lock 1).put F.BUF_WPOOL_size 1).onNvme (fun v => { v with en := true, rdy := true })).onBuf (fun b => { b with ctxs := [c] });
    let u := s.onBuf (fun b => { b with ctxs := [c, d] });
      s.fetchOpen = true ∧ s.powerHolds = false ∧ s.buf.ctxs.filter (fun c => c.stage == 0) = [c] ∧ s.heldByReset c = false ∧ s.canGrant c = true ∧
      (s.put F.BUF_WPOOL_size 0).canGrant c = false ∧ c.sqe.kind = 0 ∧ State.reset.fetchOpen = false ∧
      (u.put F.BUF_WPOOL_size 0).fetchOpen = true ∧ (u.put F.BUF_WPOOL_size 0).powerHolds = false ∧
      (u.put F.BUF_WPOOL_size 0).buf.ctxs.filter (fun c => c.stage == 0) = [c, d] ∧
      (u.put F.BUF_WPOOL_size 0).heldByReset c = false ∧ (u.put F.BUF_WPOOL_size 0).canGrant c = false := by decide +kernel

theorem witness_BufferSteps_2 :
    let s := State.reset.onBuf (fun b => { b with ctxs := [Tests.ctx 1 1] });
      s.ctx? 7 = some (Tests.ctx 1 1) ∧ (Tests.ctx 1 1).stage = 1 ∧ (Tests.ctx 1 1).sqe.isWrite = true ∧ (Tests.ctx 1 1).landedAll = false ∧ s.ctx? 9 = none ∧
      (let d : Ctx := { Tests.ctx 1 1 with landed := 4096 }; (s.onBuf (fun b => { b with ctxs := [d] })).ctx? 7 = some d ∧ d.landedAll = true) := by decide +kernel

theorem witness_BufferSteps_3 :
    let c : Ctx := { Tests.ctx 1 1 with landed := 4096, ord := 1 }; let d : Ctx := { Tests.ctx 1 1 with id := 8, landed := 4096, ord := 2 };
    let s := (State.reset.put F.HRV_BUDGET_kib 1024).onBuf (fun b => { b with ctxs := [c] }); let u := s.onBuf (fun b => { b with ctxs := [d, c] });
    let e : Ctx := { c with sqe := { c.sqe with nsid := 2 } };
      s.buf.closed = false ∧ s.draining = false ∧ s.buf.ctxs.filter Ctx.landedAll = [c] ∧ u.buf.ctxs.filter Ctx.landedAll = [d, c] ∧ c.ord < d.ord ∧
      ((State.reset.put F.HRV_BUDGET_kib 1024).put F.HRV_DIRTY_kib 1024).admission c = none ∧ e.sqe.nsid = 2 ∧ s.admission e = some .dirty ∧ (List.range e.sqe.nlb).any (fun i => s.noSpare (e.sqe.slba + i)) = false := by decide +kernel

theorem witness_BufferSteps_4 :
    let t : RTile := { lba := 0, st := 2, code := 0, at_ := 0, srcs := [], data := [] }; let f : RTile := { t with st := 3, code := 0xF3 };
    let c : Ctx := { Tests.ctx 2 1 with tiles := [t] }; let d : Ctx := { Tests.ctx 2 1 with tiles := [t, f] };
      c.stage = 1 ∧ c.sqe.isRead = true ∧ c.tiles.all RTile.final = true ∧ c.tiles.filter (fun t => t.st == 3) = [] ∧
      d.tiles.all RTile.final = true ∧ d.tiles.filter (fun t => t.st == 3) = [f] ∧ ({ d with tiles := [{ t with st := 0 }] } : Ctx).tiles.all RTile.final = false := by decide +kernel

theorem witness_BufferSteps_5 :
    let c : Ctx := { Tests.ctx 2 3 with sq := 0 }; let s := State.reset.onBuf (fun b => { b with ctxs := [c] });
      let u := (s.onNvme (fun v => { v with adminSize := 2, adminUsed := 2 })).consume 0 2; let f := (s.onNvme (fun v => { v with adminSize := 2, adminUsed := 2 })).consume 0 1
      u.buf.ctxs = [c] ∧ c.stage = 3 ∧ u.cqRoom (u.cqOf c.sq) = true ∧ f.buf.ctxs = [c] ∧ f.cqRoom (f.cqOf c.sq) = false := by decide +kernel

theorem witness_BufferSteps_6 :
    let c : Ctx := Tests.ctx 1 3;
    let s := { State.reset.onBuf (fun b => { b with ctxs := [c] }) with us := 1001 };
    (c ∈ s.buf.ctxs ∧ c.stage = 3 ∧ 1000 < s.us - c.since) ∧ (∀ c ∈ State.reset.buf.ctxs, c.stage = 3 → State.reset.us - c.since ≤ 1000) := by decide +kernel

theorem witness_BufferSteps_7 :
    let c : Ctx := { Tests.ctx 0x79 1 with sqe := { (Tests.ctx 0x79 1).sqe with dw13 := 4 } };
    let s := State.reset.onBuf (fun b => { b with ctxs := [c] });
      s.buf.closed = false ∧ s.draining = false ∧ s.buf.ctxs.filter Ctx.landedAll = [] ∧ s.buf.ctxs.filter (fun c => c.sqe.kind == 2) = [c] ∧
      c.stage = 1 ∧ c.sqe.op = 0x79 ∧ c.sqe.dw13.toNat % 256 = 4 ∧ c.sqe.dw13.getLsbD 8 = false ∧ (actionFrom 4).contains (s.zone c.sqe.zone).st = true ∧
      s.buf.ctxs.any (fun r => r.sqe.isRead && r.sqe.nsid == 1 && decide (1 ≤ r.stage) && r.sqe.zones.any c.resets) = false := by decide +kernel

theorem witness_BufferSteps_8 :
    let s := { State.reset.onBuf (fun b => { b with blks := [{ ns := 1, lba := 5, st := .dirty, ctx := 0, ord := 0, born := 0, written := false, queued := false, data := [] }] }) with us := 0xFFFFFFF };
      s.get F.BUF_PTILE_ms ≠ 0 ∧ s.harvesting = false ∧ s.buf.blks.filter (fun w => w.ns == 1 && w.lba / 4 * 4 == 5 / 4 * 4 && w.waits) ≠ [] ∧
      (∀ w ∈ s.buf.blks, s.get F.BUF_PTILE_ms * 1000 ≤ s.us - w.born) := by decide +kernel

theorem witness_BufferSteps_9 :
    let s := ((((State.reset.put F.BUF_WPOOL_size 1).put F.BUF_RPOOL_base 1).put F.BUF_RPOOL_size 1).put F.CRYS_BRCFG_base 8).put F.DMA_BUFPROG_base 0x800;
      s.poolsBad = false ∧ s.accepts .core R.BUF_CTL 0x80000000 = true ∧ State.reset.poolsBad = true ∧ State.reset.accepts .core R.BUF_CTL 0x80000000 = true := by decide +kernel

theorem witness_BufferSteps_10 :
    State.reset.accepts .core R.BUF_ABORT 0x80000000 = true := by decide +kernel

theorem witness_QueueCommands_1 :
    let s := State.reset.onNvme (fun v => { v with en := true, rdy := true, adminSize := 4096 });
    s.serves = true ∧ s.nvme.cqs = [] ∧ 1 ≤ mqes := by decide +kernel

theorem witness_QueueCommands_2 :
    let s := State.reset.onNvme (fun v => { v with en := true, rdy := true, adminSize := 4096, cqs := [{ id := 64, size := 2, vector := 64, used := 0 }] });
    s.serves = true ∧ s.nvme.cqs.any (fun q => q.id == 64) = true := by decide +kernel

theorem witness_QueueCommands_3 :
    (State.reset.onNvme (fun v => { v with sqs := [{ id := 64, size := 2, cq := 64 }] })).nvme.deletes = [] := by decide +kernel

theorem witness_QueueCommands_4 :
    (State.reset.onNvme (fun v => { v with cqs := [{ id := 64, size := 2, vector := 64, used := 0 }] })).nvme.sqs = [] := by decide +kernel

theorem witness_QueueCommands_5 :
    (0x10001#32).toNat % 65536 ≠ 0 := by decide +kernel

theorem witness_QueueCommands_6 :
    (0x10000#32).toNat % 65536 = 0 := by decide +kernel

theorem witness_QueueCommands_7 :
    (State.reset.onNvme (fun v => { v with aers := [1, 2, 3] })).nvme.aers.length < 4 := by decide +kernel

theorem witness_QueueCommands_8 :
    (Instr.unsupportedOpcode 0 (Tests.sqe 0xFF 0 0 0)).wf = true ∧ State.reset.ioOpcode 0xFF = false := by decide +kernel

theorem witness_FeatureCommands_1 :
    let s := State.reset.onNvme (fun v => { v with en := true, rdy := true, adminSize := 4096 });
    s.serves = true := by decide +kernel

theorem witness_FeatureCommands_2 :
    (State.reset.adminTaken).psBarred 4 = false := by decide +kernel

theorem witness_FeatureCommands_3 :
    natBits (0xF0000#32).toNat 16 4 = 15 ∧ natBits (0x1F0000#32).toNat 20 2 = 1 := by decide +kernel

theorem witness_FeatureCommands_4 :
    State.reset.nvme.sqs = [] ∧ State.reset.nvme.cqs = [] := by decide +kernel

theorem witness_FeatureCommands_5 :
    (8#32).toNat % 256 = 8 ∧ (8#32).getLsbD 31 = false := by decide +kernel

theorem witness_FeatureCommands_6 :
    (0x10040#32).toNat % 65536 ≤ 64 := by decide +kernel

theorem witness_FeatureCommands_7 :
    (0xB#32).toNat % 256 = 0xB := by decide +kernel

theorem witness_FeatureCommands_8 :
    apstBad (apstTable []) = false := by decide +kernel

theorem witness_FeatureCommands_9 :
    (State.reset.adminTaken).bound = false := by decide +kernel

theorem witness_FeatureCommands_10 :
    (((State.reset.put F.SPN_CRVHDR_npts 7).activate R.SPN_CRVHDR).adminTaken).getA F.SPN_CRVHDR_npts = 7 := by decide +kernel

theorem witness_FeatureCommands_11 :
    (0xC3#32).toNat % 256 = 0xC3 := by decide +kernel

theorem witness_FeatureCommands_12 :
    (State.reset.adminTaken.featValue State.reset.nvme.feats State.reset.adminTaken.acou (Tests.sqe 0xA 7 0 0)).isSome = true := by decide +kernel

theorem witness_FeatureCommands_13 :
    (State.reset.adminTaken.featValue State.reset.nvme.feats State.reset.adminTaken.acou (Tests.sqe 0xA 0xC3 0 0)).isSome = true := by decide +kernel

theorem witness_SaveAndSelectOfFeatures_1 :
    let s := State.reset.onNvme (fun v => { v with en := true, rdy := true, adminSize := 4096 });
    s.serves = true ∧ (0x80000001#32).getLsbD 31 = true := by decide +kernel

theorem witness_SaveAndSelectOfFeatures_2 :
    (State.reset.adminTaken.featValue Feats.default 7 (Tests.sqe 0xA 0x204 0 0)).isSome = true ∧ natBits (0x204#32).toNat 8 3 = 2 ∧
      natBits (0x304#32).toNat 8 3 = 3 := by decide +kernel

theorem witness_IdentifyAndLogPages_1 :
    (match State.reset.adminTaken.identify (Tests.sqe 6 1 0 0) with | .ok _ => true | .error _ => false) = true := by decide +kernel

theorem witness_IdentifyAndLogPages_2 :
    State.reset.logReads 0x1 4 (fun _ => List.replicate 64 0) (Tests.sqe 2 0x1 0 0) = true := by decide +kernel

theorem witness_IdentifyAndLogPages_3 :
    State.reset.logReads 0x2 4 (fun _ => List.replicate 64 0) (Tests.sqe 2 0x2 0 0) = true := by decide +kernel

theorem witness_IdentifyAndLogPages_4 :
    State.reset.logReads 0x3 4 (fun _ => List.replicate 64 0) (Tests.sqe 2 0x3 0 0) = true := by decide +kernel

theorem witness_IdentifyAndLogPages_5 :
    State.reset.logReads 0x5 4 (fun _ => List.replicate 64 0) (Tests.sqe 2 0x5 0 0) = true := by decide +kernel

theorem witness_IdentifyAndLogPages_6 :
    State.reset.logReads 0xc4 4 (fun _ => List.replicate 64 0) (Tests.sqe 2 0xc4 0 0) = true := by decide +kernel

theorem witness_IdentifyAndLogPages_7 :
    State.reset.logReads 0xc5 4 (fun _ => List.replicate 64 0) (Tests.sqe 2 0xc5 0 0) = true := by decide +kernel

theorem witness_IdentifyAndLogPages_8 :
    State.reset.logReads 0xc7 4 (fun _ => List.replicate 64 0) (Tests.sqe 2 0xc7 0 0) = true := by decide +kernel

theorem witness_IdentifyAndLogPages_9 :
    State.reset.logReads 0xc6 64 (fun _ => List.replicate 64 0) (Tests.sqe 2 0xc6 0 0) = true := by decide +kernel

theorem witness_DirectivesAndFirmware_1 :
    let s := State.reset.onNvme (fun v => { v with en := true, rdy := true, adminSize := 4096 });
    s.serves = true ∧ (Tests.sqe 0x19 0 1 0).dirOp = (0, 1) := by decide +kernel

theorem witness_DirectivesAndFirmware_2 :
    State.reset.adminTaken.binds 7 = false ∧ (Tests.sqe 0x19 0 0x70101 0).dirOp = (1, 1) := by decide +kernel

theorem witness_DirectivesAndFirmware_3 :
    State.reset.adminTaken.bound = false ∧ (Tests.sqe 0x19 0 0x102 0).dirOp = (1, 2) := by decide +kernel

theorem witness_DirectivesAndFirmware_4 :
    (Tests.sqe 0x1A 0 1 0).dirOp = (0, 1) := by decide +kernel

theorem witness_DirectivesAndFirmware_5 :
    (Tests.sqe 0x1A 0 0x102 0).dirOp = (1, 2) := by decide +kernel

theorem witness_DirectivesAndFirmware_6 :
    (0x3FF#32).toNat + 1 = 1024 ∧ 4 * (0x3FF#32).toNat + 4 ≤ 25165824 := by decide +kernel

theorem witness_DirectivesAndFirmware_7 :
    (Tests.sqe 0x10 2 0 0).commitAction = 0 ∧ (2#32).toNat % 8 ≤ 2 := by decide +kernel

theorem witness_DirectivesAndFirmware_8 :
    (Tests.sqe 0x10 8 0 0).commitAction = 1 := by decide +kernel

theorem witness_DirectivesAndFirmware_9 :
    (Tests.sqe 0x10 16 0 0).commitAction = 2 := by decide +kernel

theorem witness_DirectivesAndFirmware_10 :
    (Tests.sqe 0x10 25 0 0).commitAction = 3 := by decide +kernel

theorem witness_DirectivesAndFirmware_11 :
    (State.reset).draining = false := by decide +kernel

theorem witness_DirectivesAndFirmware_12 :
    (∀ n : Fin 4, State.reset.executing n = false) ∧ State.reset.ctr.est = none ∧ State.reset.buf.ctxs = [] := by decide +kernel

theorem witness_ContractCommands_1 :
    State.reset.fw.commit = none ∧ State.reset.adminTaken.step1 [] ≠ none := by decide +kernel

theorem witness_ContractCommands_2 :
    State.reset.map.ovl = [] ∧ State.reset.get F.HRV_DIRTY_kib + 0 ≤ State.reset.get F.HRV_BUDGET_kib := by decide +kernel

theorem witness_ContractCommands_3 :
    (State.reset.put F.SPN_STAT_locked 1).flag F.SPN_STAT_locked = true ∧ 0 ≤ State.reset.get F.SPN_STAT_point := by decide +kernel

theorem witness_ContractCommands_4 :
    (State.reset.onCtr (fun c => { c with est := some { cid := 1, desc := [], slot := 15, step := 5, p := 0, w := 0 } })).ctr.est.isSome = true := by decide +kernel

theorem witness_ContractCommands_5 :
    ((State.reset.put (F.CTR_C_CFG_state 15) 3).activate (R.CTR_C_CFG 15)).adminTaken.slotState 15 = 3 ∧ ¬(State.reset.adminTaken.slotState 0 = 2 ∨ State.reset.adminTaken.slotState 0 = 3) := by decide +kernel

theorem witness_ContractCommands_6 :
    (Tests.sqe 0xC3 0 0 0).nsid = 1 := by decide +kernel

theorem witness_ContractCommands_7 :
    (State.reset.put F.CTR_CTL_en 1).get F.CTR_CTL_en ≠ 0 ∧ (State.reset.put (F.MCS_STAT_state 3) 3).inService 3 = true ∧ State.reset.inFrame 3 = false := by decide +kernel

theorem witness_ContractCommands_8 :
    State.reset.reached ((0 + 2 ^ 32 - 100) % 2 ^ 32) = true := by decide +kernel

theorem witness_ContractCommands_9 :
    State.reset.reached ((0 + 2 ^ 32 - 10 * State.reset.get F.CRYS_SCHED_guard) % 2 ^ 32) = true := by decide +kernel

theorem witness_DiapauseServesIdentifyAndLogs :
    let s := (State.reset.onNvme (fun v => { v with en := true, rdy := true, adminSize := 4096 })).put F.HRV_DIAP_active 1;
    s.diapause = true ∧ s.cqRoom 0 = true ∧ s.harvesting = false ∧ s.fw.commit = none ∧ s.hostDown = false ∧ s.nvme.pp = false := by decide +kernel

theorem witness_WriteUnsafeEventsDropTheGate_1 :
    let s := (State.reset.put (F.LANE_STAT_lock 3) 1).put (F.LANE_STAT_wg 3) 1;
      s.laneUp 3 = true ∧ s.flag (F.LANE_STAT_lock 3) = true ∧ s.flag (F.LANE_STAT_wg 3) = true := by decide +kernel

theorem witness_WriteUnsafeEventsDropTheGate_2 :
    let s := State.reset.put (F.LANE_STAT_wg 0) 1;
      s.laneUp 0 = true ∧ (s.lane 0).paflt = false ∧ s.flag (F.LANE_STAT_wg 0) = true := by decide +kernel

theorem witness_WriteUnsafeEventsDropTheGate_3 :
    let s := State.reset.onLane 2 (fun l => { l with unit := some { Tests.lu with write := false, begun := true } });
      s.laneUp 2 = true ∧ (s.lane 2).paflt = false ∧ s.flag (F.LANE_STAT_wg 2) = false := by decide +kernel

theorem witness_PreampTransactionsWaitForTheGate_1 :
    State.reset.accepts .core (R.LANE_PASCMD 3) 0x7F80FF00 = true ∧ State.reset.flag (F.LANE_PASCMD_busy 3) = false := by decide +kernel

theorem witness_PreampTransactionsWaitForTheGate_2 :
    let s := State.reset.put (F.LANE_PASCMD_busy 0) 1;
      s.accepts .core (R.LANE_PASCMD 0) 0 = true ∧ s.flag (F.LANE_PASCMD_busy 0) = true := by decide +kernel

theorem witness_PreampTransactionsWaitForTheGate_3 :
    let s := State.reset.onLane 1 (fun l => { l with pheld := some { rd := true, addr := 127, data := 255, cmd := true } });
    let t := s.onLane 1 (fun l => { l with pq := [{ rd := false, addr := 1, data := 2, cmd := false }] });
      s.laneUp 1 = true ∧ (s.lane 1).pcur = none ∧ s.flag (F.LANE_STAT_wg 1) = false ∧ (s.put (F.LANE_STAT_wg 1) 1).flag (F.LANE_STAT_wg 1) = true ∧
      (s.lane 1).pq = [] ∧ (s.lane 1).pset = [] ∧ (t.lane 1).pq ++ (t.lane 1).pset = [{ rd := false, addr := 1, data := 2, cmd := false }] := by decide +kernel

theorem witness_ChannelEventsAndSets_1 :
    (State.reset.put (F.LANE_STAT_lock 3) 1).flag (F.LANE_STAT_lock 3) = true ∧ (State.reset.put (F.LANE_STAT_lock 3) 1).laneUp 3 = true := by decide +kernel

theorem witness_ChannelEventsAndSets_2 :
    State.reset.slice 3 = false ∧ State.reset.flag (F.LANE_STAT_lock 3) = false := by decide +kernel

theorem witness_ChannelEventsAndSets_3 :
    State.reset.laneUp 3 = true := by decide +kernel

theorem witness_ChannelEventsAndSets_4 :
    let s := State.reset.onLane 1 (fun l => { l with loading := some 127, setRam := [(16383, 0xC4A1#32)] });
      s.laneUp 1 = true ∧ (s.lane 1).loading = some 127 ∧ (s.lane 1).setBad = false ∧ (s.readWords 5 1 (64 * 127) 64 false none).1 = false ∧
        cget setRamDefault ((s.readWords 5 1 (64 * 127) 64 false none).2.lane 1).setRam (128 * 127 + 127) = 0xC4A1#32 := by decide +kernel

theorem witness_ChannelEventsAndSets_5 :
    State.reset.accepts .core (R.LANE_EQMU 1) 0x80000008 = true ∧ 8 ≤ (F.LANE_EQMU_mu 0).of 0x80000008 ∧ State.reset.laneHolds 1 = false := by decide +kernel

theorem witness_ChannelEventsAndSets_6 :
    let s := (State.reset.put (F.LANE_EQMU_save 2) 1).put (F.LANE_STAT_setv 2) 1;
      s.laneUp 2 = true ∧ s.flag (F.LANE_EQMU_save 2) = true ∧ s.flag (F.LANE_STAT_rg 2) = false ∧ s.flag (F.LANE_STAT_setv 2) = true ∧ (s.lane 2).setIdx = 0 := by decide +kernel

theorem witness_ChannelEventsAndSets_7 :
    State.reset.accepts .core (R.LANE_CALDATA 3) 7 = true := by decide +kernel

theorem witness_ChannelEventsAndSets_8 :
    State.reset.readable .core (R.LANE_CALDATA 3) = true := by decide +kernel

theorem witness_ChannelEventsAndSets_9 :
    State.reset.accepts .core (R.LANE_BRHW 0) 0x80000000 = true := by decide +kernel

theorem witness_ChannelEventsAndSets_10 :
    let s := State.reset.onLane 0 (fun l => { l with pcur := some { rd := true, addr := 3, data := 0, cmd := true } });
      (s.lane 0).pcur = some { rd := true, addr := 3, data := 0, cmd := true } := by decide +kernel

theorem witness_UnitsAndOutcomes_1 :
    let s := (State.reset.put (F.MCS_STAT_state 3) 3).put (F.LANE_STAT_setv 3) 1;
      s.runsMicro 3 = true ∧ s.flag (F.LANE_STAT_setv 3) = true ∧ State.reset.flag (F.LANE_STAT_setv 3) = false ∧ s.halfNow 3 = (false, s) ∧
      (s.lane 3).retune = false ∧ (s.lane 3).left = false ∧ (s.lane 3).wfifo = 0 ∧ (s.lane 3).portUnit 0 = false := by decide +kernel

theorem witness_UnitsAndOutcomes_2 :
    let u : LUnit := { Tests.lu with begun := true };
      ((State.reset.onLane 1 (fun l => { l with unit := some u })).lane 1).unit = some u ∧ u.begun = true ∧ u.left = 0 ∧ (State.reset.lane 1).readRoom 0 = true := by decide +kernel

theorem witness_UnitsAndOutcomes_3 :
    let p : Machine.PUnit := { Tests.pu with bad := true };
      ((State.reset.onLane 1 (fun l => { l with posted := [p] })).lane 1).posted = [p] ∧ p.loop = false ∧ (State.reset.decode 1 p (decoded [none] [.stored])).1 = 2 := by decide +kernel

theorem witness_UnitsAndOutcomes_4 :
    let p : Machine.PUnit := { Tests.pu with heard := { Heard.none with sync := some 0 } };
      p.bad = false ∧ p.heard.sync ≠ none ∧ Heard.none.sync = none ∧ (State.reset.put (F.LANE_CTL_iterg 2) 1).get (F.LANE_CTL_iterg 2) = 1 := by decide +kernel

theorem witness_DispatchTakesTheLowestClass :
    let x : CrysEnt := { Tests.ent with cls := 2 };
    let s := State.reset.onCrys (fun c => { c with queue := [x, { x with cls := 0, deadline := some 9, ord := 6 }] });
      (List.range s.variant.lanes).find? (fun e => (s.engine e).ent.isNone && !(s.bit F.CRYS_STAT_offline e)) = some 0 ∧ s.dom 4 = 0 ∧
      s.crys.queue ≠ [] ∧ (∀ y ∈ s.crys.queue, y.cls ≤ 2) := by decide +kernel

theorem witness_EnginePhases_1 :
    let x : CrysEnt := { Tests.ent with cls := 2 };
    let s := (State.reset.onEngine 3 (fun _ => { Engine.idle with ent := some x, itmax := 64 })).put (F.CRYS_ENG_phase 3) 5;
      (s.engine 3).ent = some x ∧ (s.engine 3).cancel = false ∧ s.expired x = false ∧ s.get (F.CRYS_ENG_phase 3) = 5 := by decide +kernel

theorem witness_EnginePhases_2 :
    let s := State.reset.onEngine 3 (fun _ => { Engine.idle with itmax := 64 });
      (s.engine 3).store.word = none ∧ s.expired Tests.ent = false ∧ s.get (F.CRYS_ENG_iter 3) < (s.engine 3).itmax := by decide +kernel

theorem witness_EnginePhases_3 :
    let x : CrysEnt := { Tests.ent with deadline := some 0 };
    let s := (State.reset.onEngine 0 (fun _ => { Engine.idle with ent := some x, itmax := 64 })).put (F.CRYS_ENG_phase 0) 4;
      (s.engine 0).ent = some x ∧ (s.engine 0).cancel = false ∧ s.get (F.CRYS_ENG_phase 0) = 4 ∧ (s.inc (F.CRYS_ENG_iter 0)).get (F.CRYS_ENG_iter 0) = 1 := by decide +kernel

theorem witness_EnginePhases_4 :
    let x : CrysEnt := Tests.ent;
    let s := { (State.reset.onEngine 0 (fun _ => { Engine.idle with ent := some x })) with us := 4501 };
      (s.engine 0).ent.isSome = true ∧ 4500 < s.us - (s.engine 0).at_ := by decide +kernel

theorem witness_EnginePhases_5 :
    (State.reset.put F.CRYS_SCHED_agems 1).get F.CRYS_SCHED_agems = 1 := by decide +kernel

theorem witness_EnginePhases_6 :
    let x : CrysEnt := { Tests.ent with deadline := some 0 }; let s := State.reset.onCrys (fun c => { c with queue := [x] });
      s.crys.queue.filter s.expired = [x] ∧ (∀ x ∈ State.reset.crys.queue, State.reset.expired x = false) := by decide +kernel

theorem witness_EnginePhases_7 :
    let v := 0x00000101#32;
    let s := State.reset.put F.CRYS_STAT_offline 0xF;
      s.accepts .core R.CRYS_CMD v = true ∧ (∀ i : Fin 4, (F.CRYS_CMD_engon.of v).testBit i = true → i < s.variant.lanes ∧ s.bit F.CRYS_STAT_offline i = true ∧ (s.engine i).test = false) ∧
      (∀ i : Fin 4, (F.CRYS_CMD_dirclr.of v).testBit i = true → i < s.variant.lanes) := by decide +kernel

theorem witness_EnginePhases_8 :
    ((State.reset.onEngine 2 (fun g => { g with test := true })).engine 2).test = true := by decide +kernel

theorem witness_EnginePhases_9 :
    State.reset.accepts .core R.CRYS_MAXUS 0x80000000 = true := by decide +kernel

theorem witness_StartClearsTheSequencer :
    let s := (State.reset.put (F.MCS_STAT_state 2) 5).put (F.MCS_LDCTL_match 2) 1;
      s.accepts .core (R.MCS_CTL 2) 1 = true ∧ (s.mcs 2 = 2 ∨ s.mcs 2 = 5) ∧ s.flag (F.MCS_LDCTL_match 2) = true ∧ s.slice 2 = false ∧
      State.reset.mcs 2 ≠ 2 ∧ State.reset.mcs 2 ≠ 5 ∧ State.reset.accepts .core (R.MCS_CTL 2) 1 = true := by decide +kernel

theorem witness_LoopCounterOperations :
    let s := State.reset.put (F.MCS_STAT_state 3) 4; s.runsMicro 3 = true := by decide +kernel

theorem witness_SequencingPicksTheNextWord_1 :
    let s := State.reset.put (F.MCS_STAT_state 1) 3;
      s.startsWord 1 0 0 = true := by decide +kernel

theorem witness_SequencingPicksTheNextWord_2 :
    let m : BitVec 160 := BitVec.ofNat 160 (1 * 2 ^ 145 + 0x123 * 2 ^ 148);
    let s := (State.reset.put (F.MCS_STAT_state 1) 3).onLane 1 (fun l => { l with cs := [(0, m)] });
      s.startsWord 1 1 m = true := by decide +kernel

theorem witness_SequencingPicksTheNextWord_3 :
    let m : BitVec 160 := BitVec.ofNat 160 (2 * 2 ^ 145 + 0x123 * 2 ^ 148 + 0x23 * 2 ^ 139);
    let s := (State.reset.put (F.MCS_STAT_state 1) 3).onLane 1 (fun l => { l with cs := [(0, m)] });
      s.startsWord 1 2 m = true := by decide +kernel

theorem witness_SequencingPicksTheNextWord_4 :
    let m : BitVec 160 := BitVec.ofNat 160 (3 * 2 ^ 145 + 0x123 * 2 ^ 148);
    let s := ((State.reset.put (F.MCS_STAT_state 1) 3).put (F.MCS_STAT_sp 1) 3).onLane 1 (fun l => { l with cs := [(0, m)] });
      s.startsWord 1 3 m = true := by decide +kernel

theorem witness_SequencingPicksTheNextWord_5 :
    let m : BitVec 160 := BitVec.ofNat 160 (4 * 2 ^ 145);
    let s := ((State.reset.put (F.MCS_STAT_state 1) 3).put (F.MCS_STAT_sp 1) 4).onLane 1 (fun l => { l with cs := [(0, m)] });
      s.startsWord 1 4 m = true := by decide +kernel

theorem witness_SequencingPicksTheNextWord_6 :
    let m : BitVec 160 := BitVec.ofNat 160 (5 * 2 ^ 145 + 2 ^ 139 + 0x10 * 2 ^ 148);
    let s := ((State.reset.put (F.MCS_STAT_state 1) 3).put (F.MCS_LC_lc1 1) 2).onLane 1 (fun l => { l with cs := [(0, m)] });
      s.startsWord 1 5 m = true ∧ (s.wordBody 1 m).get (F.MCS_LC_lc1 1) = 2 := by decide +kernel

theorem witness_SequencingPicksTheNextWord_7 :
    let m : BitVec 160 := BitVec.ofNat 160 (7 * 2 ^ 145);
    let s := (State.reset.put (F.MCS_STAT_state 1) 4).onLane 1 (fun l => { l with cs := [(0, m)] });
      s.startsWord 1 7 m = true ∧ mbit m 138 = false := by decide +kernel

theorem witness_SequencingPicksTheNextWord_8 :
    let m : BitVec 160 := BitVec.ofNat 160 (6 * 2 ^ 145);
    let s := (State.reset.put (F.MCS_STAT_state 1) 4).onLane 1 (fun l => { l with cs := [(0, m)] });
      s.startsWord 1 6 m = true := by decide +kernel

theorem witness_SequencingPicksTheNextWord_9 :
    let s := (State.reset.put (F.MCS_STAT_state 1) 4).onLane 1 (fun l => { l with waiting := true });
      s.runsMicro 1 = true ∧ (s.lane 1).waiting = true ∧ s.condOf 1 { wait := 0, starved := false } (s.lane 1).word = true := by decide +kernel

theorem witness_TrapsEnterTheirVector_1 :
    let s := (State.reset.put (F.MCS_STAT_state 1) 4).putBit (F.MCS_STAT_pend 1) 0 true;
      s.executing 1 = true ∧ s.bit (F.MCS_STAT_pend 1) 0 = true ∧ (s.lane 1).waiting = false ∧ (s.lane 1).last < 4096 := by decide +kernel

theorem witness_TrapsEnterTheirVector_2 :
    let s := (State.reset.put (F.MCS_STAT_state 1) 3).putBit (F.MCS_STAT_pend 1) 1 true;
      ((s.put (F.MCS_STAT_pc 1) 4095).onLane 1 (fun l => { l with last := 7 })).trapDue 1 = some 2 ∧ mbit (BitVec.ofNat 160 (2 ^ 128)) 128 = true := by decide +kernel

theorem witness_TrapsEnterTheirVector_3 :
    State.reset.get (F.MCS_STAT_pend 3) = 0 ∧ State.reset.flag (F.MCS_STAT_stopreq 3) = false := by decide +kernel

theorem witness_BufferAndTileOperations_1 :
    let s := State.reset.put (F.MCS_STAT_state 3) 3;
      s.runsMicro 3 = true ∧ (s.lane 3).cur = none ∧ (s.lane 3).queue.dropWhile (fun c => c.count == 0) = [] := by decide +kernel

theorem witness_BufferAndTileOperations_2 :
    let c : MediaCmd := Tests.media;
    let s := (State.reset.put (F.MCS_STAT_state 3) 3).setCur 3 (some c);
      s.runsMicro 3 = true ∧ (s.lane 3).cur = some c ∧ s.get (F.MCS_CC0_count 3) = 0 ∧ c.cancelled = false := by decide +kernel

theorem witness_BufferAndTileOperations_3 :
    let c : MediaCmd := Tests.media;
    let s := (State.reset.put (F.MCS_STAT_state 3) 3).setCur 3 (some c);
      s.runsMicro 3 = true ∧ (s.lane 3).cur = some c ∧ modselBad (0#8).toNat = false ∧ natBits c.modsel 4 4 = natBits (0#8).toNat 4 4 ∧
      (s.lane 3).wunsafe = false ∧ ((s.lane 3).unit.map (·.begun)).getD false = false ∧
      ((s.onLane 3 (fun l => { l with wunsafe := true })).lane 3).wunsafe = true := by decide +kernel

theorem witness_BufferAndTileOperations_4 :
    let c : MediaCmd := { Tests.media with op := 2, mask := 4 };
    let s := (State.reset.put (F.MCS_STAT_state 3) 3).setCur 3 (some c);
      s.runsMicro 3 = true ∧ (s.lane 3).cur = some c ∧ s.get (F.MCS_TPOS_qtr 3) < 3 ∧ nextGood c.mask 2048 (s.get (F.MCS_TPOS_pos 3) + 1) = some 2 ∧
      nextGood 0 2048 1 = none ∧ (s.put (F.MCS_TPOS_qtr 3) 3).get (F.MCS_TPOS_qtr 3) = 3 := by decide +kernel

theorem witness_BufferAndTileOperations_5 :
    let s := ((State.reset.put (F.MCS_STAT_state 3) 3).setCur 3 (some Tests.media)).onLane 3 (fun l => { l with unit := some { Tests.lu with begun := true } });
      s.runsMicro 3 = true ∧ (s.lane 3).cur ≠ none ∧ ((s.lane 3).unit.map (·.begun)) = some true := by decide +kernel

theorem witness_BufferAndTileOperations_6 :
    (State.reset.put (F.MCS_STAT_state 3) 3).wordWg 3 = false := by decide +kernel

theorem witness_BufferAndTileOperations_7 :
    let u : LUnit := Tests.lu;
    ((State.reset.onLane 1 (fun l => { l with unit := some u })).lane 1).unit = some u ∧ u.begun = false := by decide +kernel

theorem witness_TimersStrobesAndRequests_1 :
    (State.reset.put (F.MCS_STAT_state 3) 4).runsMicro 3 = true := by decide +kernel

theorem witness_TimersStrobesAndRequests_2 :
    let s := (State.reset.put (F.MCS_STAT_state 3) 4).onTimer 3 1 (fun x => { x with running := true });
      s.runsMicro 3 = true ∧ ((s.lane 3).timer 1).running = true ∧ ((s.lane 3).timer 1).expired = false := by decide +kernel

theorem witness_TimersStrobesAndRequests_3 :
    let s := State.reset.put (F.MCS_STAT_state 3) 4;
      s.runsMicro 3 = true ∧ s.framesFit 3 127 = true ∧ s.framesFit 3 128 = true ∧ s.wordWg 3 = false ∧ ((s.setCur 3 (some Tests.media)).lane 3).cur = some Tests.media ∧ (s.setCur 3 (some Tests.media)).framesFit 3 128 = true := by decide +kernel

theorem witness_TimersStrobesAndRequests_4 :
    let s := (State.reset.put (F.MCS_STAT_state 3) 4);
    let t : State := { s with geo := { s.geo with saltern := [(3, 1, 500, 10)] } };
      t.runsMicro 3 = true ∧ t.wordWg 3 = false ∧ t.saltBand 3 = some (1, 500) := by decide +kernel

theorem witness_TimersStrobesAndRequests_5 :
    let s := State.reset.put (F.MCS_STAT_state 0) 4;
      s.runsMicro 0 = true ∧ s.wordWg 0 = false := by decide +kernel

theorem witness_TimersStrobesAndRequests_6 :
    (State.reset.put (F.MCS_STAT_state 0) 4).runsMicro 0 = true := by decide +kernel

theorem witness_TimersStrobesAndRequests_7 :
    (State.reset.put (F.MCS_STAT_state 0) 4).runsMicro 0 = true := by decide +kernel

theorem witness_ControlStoreCommands_1 :
    let s := State.reset.put (F.MCS_STAT_state 3) 3;
      s.accepts .core (R.MCS_CTL 3) 4 = true ∧ s.accepts .core (R.MCS_CTL 3) 2 = true ∧ s.executing 3 = true := by decide +kernel

theorem witness_ControlStoreCommands_2 :
    State.reset.accepts .core (R.MCS_LDCTL 3) 0x80000000 = true ∧ State.reset.loadBarred 3 = false := by decide +kernel

theorem witness_ControlStoreCommands_3 :
    let s := State.reset.put (F.MCS_STAT_state 3) 4;
      s.accepts .core (R.MCS_LDCTL 3) 0x80000000 = true ∧ s.mcs 3 = 4 := by decide +kernel

theorem witness_ControlStoreCommands_4 :
    let s := State.reset.put (F.MCS_STAT_state 3) 1;
      s.mcs 3 = 1 ∧ s.laneUp 3 = true ∧ (s.readWords 0 0 (s.get (F.MCS_LDSRC_addr 3) * 64 / 8) 10248 true none).1 = true ∧
      (s.readWords 0 0 (s.get (F.MCS_LDSRC_addr 3) * 64 / 8) 10248 false none).1 = false := by decide +kernel

theorem witness_ControlStoreCommands_5 :
    let s := (State.reset.put F.CFG_STRAP_mode 2).put (F.MCS_CTL_wren 3) 1;
      csWord 0x211010 = some (3, 2048, 4) ∧ s.accepts .core 0x211010 7 = true ∧
      (s.factory && s.flag (F.MCS_CTL_wren 3) && (s.mcs 3 == 0 || s.mcs 3 == 2 || s.mcs 3 == 5) && s.laneUp 3 && !(s.slice 3)) = true := by decide +kernel

theorem witness_LoopOutputsAndDemandsAreLimited :
    (State.reset.put (F.SCA_SEC_SCTL_bypass 127) 1).flag (F.SCA_SEC_SCTL_bypass 127) = true := by decide +kernel

theorem witness_MotionCommandsAndEvents_1 :
    let m : SampleIn := { found := true, wnum := 1, gray := 2, nb := 3, qb := 4, interval := 100, lat := 0 };
    (State.reset.sample 3 m).coasting = false := by decide +kernel

theorem witness_MotionCommandsAndEvents_2 :
    let s := State.reset.onAct 3 (fun x => { x with ramp := some true });
    let t := (((s.onAct 3 (fun x => { x with ramp := none, free := true, pes := 0 })).putBit F.SRV_STAT_loaded 3 false).endMove 3 true).put (F.SRV_POS_valid 3) 0;
      (s.act 3).ramp = some true ∧ t.bit F.ISST_SENSEST_fail 6 = false ∧ t.spn.stop ≠ 2 ∧ t.hrvState ≠ 6 := by decide +kernel

theorem witness_MotionCommandsAndEvents_3 :
    ((State.reset.onAct 3 (fun x => { x with ramp := some false })).act 3).ramp = some false := by decide +kernel

theorem witness_MotionCommandsAndEvents_4 :
    State.reset.accepts .core (R.SCA_SKCMD 3) 0x80000007 = true ∧ State.reset.moving 3 = false ∧ (State.reset.putBit F.SRV_STAT_seek 3 true).moving 3 = true ∧
      (State.reset.putBit F.SRV_STAT_seek 3 true).accepts .core (R.SCA_SKCMD 3) 0x80000007 = true := by decide +kernel

theorem witness_MotionCommandsAndEvents_5 :
    State.reset.accepts .core R.SRV_SETCMD 0x80000007 = true ∧ (State.reset.put F.SRV_SETST_busy 1).accepts .core R.SRV_SETCMD 0x80000007 = true := by decide +kernel

theorem witness_MotionCommandsAndEvents_6 :
    (State.reset.onServo (fun x => { x with install := some (7, []) })).servo.install = some (7, []) := by decide +kernel

theorem witness_MotionCommandsAndEvents_7 :
    State.reset.accepts .core R.SRV_SSDATA 7 = true ∧ (State.reset.put F.SRV_SSADDR_addr 10240).get F.SRV_SSADDR_addr = 10240 := by decide +kernel

theorem witness_MotionCommandsAndEvents_8 :
    State.reset.readable .core R.SRV_SSDATA = true ∧ (State.reset.put F.SRV_SSADDR_addr 10239).get F.SRV_SSADDR_addr / 2 < 5120 := by decide +kernel

theorem witness_MotionCommandsAndEvents_9 :
    let s := (State.reset.put (F.SCA_LCFG_en 5) 1).put (F.SCA_LCFG_dst 5) 1;
    let t := s.activate (R.SCA_LCFG 5);
    let v := 0x80000000#32 ||| BitVec.ofNat 32 (5 * 2 ^ F.SCA_FLCTL_loop.lo + 4 * 2 ^ F.SCA_FLCTL_cycles.lo);
      t.accepts .core R.SCA_FLCTL v = true ∧ F.SCA_FLCTL_loop.of v = 5 ∧ F.SCA_FLCTL_cycles.of v = 4 ∧ t.loopOn 5 = true ∧ t.getA (F.SCA_LCFG_dst 5) = 1 ∧
      t.moving 0 = false ∧ t.servoLost 0 = false ∧ t.contracted = false ∧ t.servo.flutter = none := by decide +kernel

theorem witness_MotionCommandsAndEvents_10 :
    State.reset.accepts .core R.SCA_STAT 0x80000000 = true := by decide +kernel

theorem witness_MotionCommandsAndEvents_11 :
    let s := State.reset.put F.SRV_VIBCFG_en 1;
      s.runs 5 = true ∧ s.flag F.SRV_VIBCFG_en = true ∧ (s.put F.SRV_SHOCK_level 0).get F.SRV_SHOCK_level = 0 ∧ (s.put F.EVT_MEASCFG_period 0).get F.EVT_MEASCFG_period = 0 := by decide +kernel

theorem witness_MotionCommandsAndEvents_12 :
    State.reset.runs 5 = true ∧ State.reset.fitted 3 = true ∧ State.reset.loaded 3 = false ∧ (State.reset.act 3).ramp = none ∧
      (State.reset.putBit F.SRV_STAT_loaded 3 true).loaded 3 = true := by decide +kernel

theorem witness_ProbeChoosesTheVector :
    let s := (State.reset.put F.SPN_STAT_state 3).onSpn (fun x => { x with used := [5, 0] });
    let peaks := [10, 20, 30, 10, 5, 90];
      s.spnState = 3 ∧ peaks.length = 6 ∧ (∀ i < 6, peaks.getD i 0 ≤ peaks.getD 5 0) ∧ 30 * (100 + s.get F.SPN_ALIGN_pdiff) ≤ 90 * 100 ∧
      s.spn.used.contains 1 = false ∧ (∀ k < (1 + 6 - 5) % 6, s.spn.used.contains ((5 + k) % 6) = true) := by decide +kernel

theorem witness_SpindleDriveEvents_1 :
    let v := 0x00000001#32;
      State.reset.accepts .core R.SPN_CTL v = true ∧ State.reset.spnCtlBad 0 = false ∧ State.reset.spnCtlBad 0x80000000 = true := by decide +kernel

theorem witness_SpindleDriveEvents_2 :
    let s := State.reset.put F.SPN_STAT_state 7;
      s.runs 5 = true ∧ s.spnState = 7 ∧ s.flag F.SPN_STAT_obslock = false := by decide +kernel

theorem witness_SpindleDriveEvents_3 :
    let s := State.reset.onSpn (fun x => { x with ocRow := 15 });
      s.runs 5 = true ∧ s.spn.oc = false ∧ s.spn.ocRow = 15 := by decide +kernel

theorem witness_SpindleDriveEvents_4 :
    State.reset.runs 5 = true := by decide +kernel

theorem witness_SpindleDriveEvents_5 :
    (State.reset.put F.SPN_STAT_upok 1).flag F.SPN_STAT_upok = true := by decide +kernel

theorem witness_SpindleDriveEvents_6 :
    let s := State.reset.onSpn (fun x => { x with wait := some (5400, 2) });
      s.spn.wait = some (5400, 2) ∧ s.get F.HRV_DIRTY_kib = 0 := by decide +kernel

theorem witness_SpindleDriveEvents_7 :
    let s := (State.reset.put F.SPN_STAT_state 1).put F.SPN_STAT_obslock 1;
      s.spnState = 1 ∧ s.flag F.SPN_STAT_rev = false ∧ ((s.put F.SPN_CATCH_rpm 300).put F.SPN_STAT_obsrpm 300).get F.SPN_CATCH_rpm ≤ ((s.put F.SPN_CATCH_rpm 300).put F.SPN_STAT_obsrpm 300).get F.SPN_STAT_obsrpm := by decide +kernel

theorem witness_SpindleDriveEvents_8 :
    (State.reset.put F.SPN_STAT_state 2).spnState = 2 := by decide +kernel

theorem witness_SpindleDriveEvents_9 :
    (State.reset.put F.SPN_STAT_state 4).spnState = 4 := by decide +kernel

theorem witness_SpindleDriveEvents_10 :
    let s := State.reset.onSpn (fun x => { x with stop := 1 });
      s.spn.stop = 1 ∧ s.clean = true := by decide +kernel

theorem witness_LaterCausesAreOnlyRecorded_1 :
    let s := State.reset.onHrv (fun h => { h with ramped := true });
      s.hrv.ramped = true ∧ s.hrvState ≤ 1 ∧ (s.put F.HRV_STAT_state 4).hrv.ramped = true ∧ 2 ≤ (s.put F.HRV_STAT_state 4).hrvState := by decide +kernel

theorem witness_LaterCausesAreOnlyRecorded_2 :
    let s := State.reset.onHrv (fun h => { h with ramped := true });
      s.accepts .core R.HRV_CMD 0x80000000 = true ∧ s.factory = false ∧ (s.put F.CFG_STRAP_mode 2).factory = true ∧
      (s.put F.CFG_STRAP_mode 2).accepts .core R.HRV_CMD 0x80000000 = true ∧ (s.put F.CFG_STRAP_mode 2).hrvState ≤ 1 ∧
      ((s.put F.CFG_STRAP_mode 2).put F.HRV_STAT_state 7).accepts .core R.HRV_CMD 0x80000000 = true := by decide +kernel

theorem witness_LaterCausesAreOnlyRecorded_3 :
    let s := State.reset;
      s.hrv.ramped = false ∧ s.boot.phase ≤ 1 ∧ (1 < ({ s with boot := { s.boot with phase := 6 } } : State).boot.phase) := by decide +kernel

theorem witness_DiapauseKeepsItsFirstCause_1 :
    let s := State.reset.onHrv (fun h => { h with critSince := some 0 });
      s.hrv.critSince.isSome = true ∧ s.diapause = false ∧ (s.put F.HRV_DIAP_active 1).diapause = true ∧ State.reset.hrv.critSince = none := by decide +kernel

theorem witness_DiapauseKeepsItsFirstCause_2 :
    let s := State.reset.onHrv (fun h => { h with chopOpen := true });
      s.chopFaulty = true ∧ s.diapause = false ∧ (s.put F.HRV_DIAP_active 1).diapause = true ∧ State.reset.chopFaulty = false := by decide +kernel

theorem witness_DiapauseKeepsItsFirstCause_3 :
    let s := State.reset.onHrv (fun h => { h with commit := 2, phase := 6 });
      s.hrv.commit ≠ 0 ∧ s.hrv.phase = 6 ∧ s.hrv.commit ≠ 1 ∧ (s.onHrv (fun h => { h with commit := 1 })).hrv.commit = 1 := by decide +kernel

theorem witness_BudgetArmingAndChopper_1 :
    State.reset.flag F.HRV_CTL_arm = false ∧ (State.reset.put F.HRV_CTL_arm 1).flag F.HRV_CTL_arm = true := by decide +kernel

theorem witness_BudgetArmingAndChopper_2 :
    let s := State.reset;
      s.accepts .core R.HRV_CTL 1 = true ∧ s.diapause = false ∧ (s.take R.HRV_CTL 1).flag F.HRV_CTL_arm = true ∧ (s.take R.HRV_CTL 1).hrvState ≤ 1 ∧
      s.accepts .core R.HRV_CTL 0 = true ∧ (s.take R.HRV_CTL 0).flag F.HRV_CTL_arm = false ∧
      (s.put F.HRV_DIAP_active 1).accepts .core R.HRV_CTL 1 = true ∧ (s.put F.HRV_DIAP_active 1).diapause = true ∧
      (s.put F.HRV_STAT_state 7).accepts .core R.HRV_CTL 1 = true ∧ ((s.put F.HRV_STAT_state 7).take R.HRV_CTL 1).hrvState = 7 := by decide +kernel

theorem witness_BudgetArmingAndChopper_3 :
    let t := State.reset.put F.HRV_MSNS_mbus 1650;
      State.reset.hrv.chopShort = false ∧ t.get F.HRV_BUS_chon * 100 < 65000 ∧ (State.reset.put F.HRV_MSNS_mbus 0).get F.HRV_BUS_choff * 100 ≤ 65000 := by decide +kernel

theorem witness_BudgetArmingAndChopper_4 :
    let t := (State.reset.put F.HRV_CHOP_imin 20).put F.HRV_MSNS_chop 255;
      (State.reset.onHrv (fun h => { h with chop := true })).hrv.chop = true ∧ 5 < ((State.reset.put F.HRV_CHOP_imin 20).put F.HRV_MSNS_chop 5).get F.HRV_CHOP_imin ∧
      State.reset.hrv.chop = false ∧ (t.put F.HRV_CHOP_ileak 3).get F.HRV_CHOP_ileak < 255 := by decide +kernel

theorem witness_BudgetArmingAndChopper_5 :
    State.reset.accepts .core R.HRV_CMD 0x40000000 = true ∧ State.reset.harvesting = false := by decide +kernel

theorem witness_BudgetArmingAndChopper_6 :
    (State.reset.onHrv (fun h => { h with chopTest := true })).hrv.chopTest = true := by decide +kernel

theorem witness_BudgetArmingAndChopper_7 :
    let s := (State.reset.put F.HRV_STAT_state 4).put F.HRV_VSNS_hold 900;
      s.coasting = true ∧ s.hrv.holdLow = false ∧ s.hstep = 4 ∧ State.reset.coasting = false := by decide +kernel

theorem witness_BudgetArmingAndChopper_8 :
    (State.reset.put F.HRV_STAT_state 6).hrvState = 6 ∧ State.reset.hrv.parked = false := by decide +kernel

theorem witness_InstructionsOfAChannel_1 :
    ∀ op ∈ [0x00#8, 0x01#8, 0x02#8, 0x10#8, 0x11#8, 0x20#8, 0x30#8, 0x40#8], let s := (State.reset.put (F.DMA_CH_STAT_state 9) 1).setHbm 0 op
      s.chState 9 = 1 ∧ s.dma[(9 : Fin 16)].mv = none ∧ s.dma[(9 : Fin 16)].pc + 16 ≤ s.variant.hbmBytes ∧ insReserved (s.insAt 0) = true ∧ byteAt (s.insAt 0) 0 = op ∧
      s.dma[(9 : Fin 16)].loops.length < 2 ∧ s.sig 0 = false ∧ (s.setSig 0 true).sig 0 = true ∧ insField (s.insAt 0) 6 5 % 16 = 0 := by decide +kernel

theorem witness_InstructionsOfAChannel_2 :
    let s := State.reset.put (F.DMA_CH_STAT_state 9) 1;
      s.chState 9 = 1 ∧ byteAt ((s.setHbm 0 0x50).insAt 0) 0 = 0x50 ∧ insReserved (((s.setHbm 0 0x10).setHbm 15 1).insAt 0) = false := by decide +kernel

theorem witness_ChannelsSignalsAndBursts_1 :
    let s := State.reset;
      s.accepts .core (R.DMA_CH_CTL 9) 0x80000000 = true ∧ s.chState 9 = 0 ∧ s.accepts .core (R.DMA_CH_CTL 9) 0x20000000 = true ∧ s.accepts .core (R.DMA_CH_CTL 3) 0x80000000 = true ∧
      (s.put (F.DMA_CH_STAT_state 9) 4).accepts .core (R.DMA_CH_CTL 9) 0x40000000 = true ∧ (s.put (F.DMA_CH_STAT_state 9) 4).chState 9 = 4 := by decide +kernel

theorem witness_ChannelsSignalsAndBursts_2 :
    let s := State.reset;
      s.accepts .core (R.DMA_CH_DB 8) 1 = true ∧ s.chState 8 ≠ 3 ∧ (s.put (F.DMA_CH_STAT_state 8) 3).chState 8 = 3 ∧ (s.put (F.DMA_CH_STAT_state 8) 3).accepts .core (R.DMA_CH_DB 8) 1 = true ∧
      s.accepts .core (R.DMA_CH_DB 7) 1 = true := by decide +kernel

theorem witness_ChannelsSignalsAndBursts_3 :
    ∀ a ∈ [R.DMA_SIGSET0, R.DMA_SIGSET1, R.DMA_SIGCLR0, R.DMA_SIGCLR1], State.reset.accepts .core a 0xFFFFFFFF = true := by decide +kernel

theorem witness_ChannelsSignalsAndBursts_4 :
    let s := (State.reset.onDma 9 (fun c => { c with wait := some (40, true) })).setSig 40 true;
      s.dma[(9 : Fin 16)].wait = some (40, true) ∧ s.sig 40 = true ∧ (List.range 9).any (fun k => (s.dma[Fin.ofNat 16 k]).wait == some (40, true)) = false := by decide +kernel

theorem witness_ChannelsSignalsAndBursts_5 :
    let s := (State.reset.put (F.DMA_CH_STAT_state 9) 1).onDma 9 (fun c => { c with mv := some { ins := 1 + 64 * 2 ^ 24, off := 0, src := 0, dst := 4096 } });
      s.dma[(9 : Fin 16)].mv = some { ins := 1 + 64 * 2 ^ 24, off := 0, src := 0, dst := 4096 } ∧ s.chState 9 = 1 ∧ s.portWaits false 0 = false ∧ s.portWaits false 4096 = false := by decide +kernel

theorem witness_ChannelsSignalsAndBursts_6 :
    let s := State.reset;
      s.accepts .core (R.SHF_SLOT_D0 12) 0x00000201 = true ∧ s.accepts .core (R.SHF_SLOT_D0 3) 1 = true ∧ s.accepts .core (R.SHF_SLOT_D1 12) 0 = true ∧
      ((s.setReg (R.SHF_SLOT_D0 12) 0x00010201).setReg (R.SHF_SLOT_D1 12) 0).descOk (((s.setReg (R.SHF_SLOT_D0 12) 0x00010201).setReg (R.SHF_SLOT_D1 12) 0).slotDesc 12) = true ∧
      (s.setReg (R.SHF_SLOT_D1 12) 1).descOk ((s.setReg (R.SHF_SLOT_D1 12) 1).slotDesc 12) = false := by decide +kernel

theorem witness_MapCacheJournalAndReturnHome_1 :
    let s := State.reset;
      s.accepts .core R.MAP_CTL 0x00001001 = true ∧ 4 ≤ F.MAP_CTL_ckpt_mib.of 0x00001001 ∧ F.MAP_CTL_ckpt_mib.of 0x00001001 ≤ 32 ∧ s.get F.MAP_CSTAT_state = 0 ∧
      (∀ k ≤ 3, ((s.put F.MAP_CSTAT_state k).accepts .core R.MAP_CTL 0x00001000 = true ∧ (s.put F.MAP_CSTAT_state k).get F.MAP_CSTAT_state = k)) := by decide +kernel

theorem witness_MapCacheJournalAndReturnHome_2 :
    let s := State.reset;
      s.accepts .core R.MAP_CMD 1 = true ∧ s.get F.MAP_CSTAT_state ≠ 1 ∧ (s.put F.MAP_CSTAT_state 1).get F.MAP_CSTAT_state = 1 ∧ (s.put F.MAP_CSTAT_state 1).accepts .core R.MAP_CMD 1 = true ∧
      s.accepts .core R.MAP_CMD 2 = true ∧ s.flag F.MAP_CKSTAT_busy = false ∧ 4 ≤ (s.onBoot (fun b => { b with ready := 4 })).boot.ready ∧ (s.onBoot (fun b => { b with ready := 4 })).accepts .core R.MAP_CMD 2 = true ∧ (s.put F.MAP_CKSTAT_busy 1).flag F.MAP_CKSTAT_busy = true := by decide +kernel

theorem witness_MapCacheJournalAndReturnHome_3 :
    (State.reset.onMap (fun m => { m with fills := [(7, true)] })).map.fills = (7, true) :: [] := by decide +kernel

theorem witness_MapCacheJournalAndReturnHome_4 :
    (State.reset.put F.MAP_CSTAT_state 2).get F.MAP_CSTAT_state = 2 ∧ (State.reset.put F.MAP_CSTAT_state 3).get F.MAP_CSTAT_state = 3 := by decide +kernel

theorem witness_MapCacheJournalAndReturnHome_5 :
    let s := { State.reset.journal 4 1 1 with us := 100000 };
      s.openRecs ≠ [] ∧ 100000 ≤ s.us - s.map.jsince ∧ s.draining = false := by decide +kernel

theorem witness_MapCacheJournalAndReturnHome_6 :
    let s := State.reset.onMap (fun m => { m with jout := [{ num := 0, first := 1, last := 3, done := 2 }] });
      s.draining = false ∧ s.map.jout = [{ num := 0, first := 1, last := 3, done := 2 }] := by decide +kernel

theorem witness_MapCacheJournalAndReturnHome_7 :
    let j : CkJob := { seq := 5, area := 1, lanes := [], copied := false, retried := false, fill := 0 };
    let s := State.reset.onMap (fun m => { m with ckpt := some j });
      s.map.ckpt = some j ∧ s.draining = false ∧ 9 ∉ s.lanesIn := by decide +kernel

theorem witness_MapCacheJournalAndReturnHome_8 :
    let g : State := { State.reset.setReg R.PWR_DSTAT 0 with geo := { State.reset.geo with saltern := [(0, 0, 500, 10)], rings := [{ first := 0, symbols := 1000, wedge := 0, slots := [4, 4, 4, 4], skew := 0 }], surfaces := [(0, 0)], stripes := [(0, 0, 0, 100)], conv := [(0, 0, 900, 10)] } };
    let s : State := ((g.onMap (fun m => { m with hbm := [(0, mkEntry 0 0 100 0 2 false 0)] })).setOvl 0 (ovlW0 1 0 0 1, ovlW1 0 0 0 0 1 5)).onBoot (fun b => { b with ready := 4 });
      s.draining = false ∧ 4 ≤ s.boot.ready ∧ entLane (s.entry 0) = 0 ∧ s.returnBusy 1 0 0 = false ∧ s.returnNext 0 0 = some 0 ∧ s.backgroundFits 0 = true ∧
      (s.overlay 1 0 (s.zone 0).gen).length = 1 ∧ 0 ∈ s.lanesIn ∧ s.runs 0 = true ∧
      (s.resolve1 0 15).map (fun l => !l.isEmpty && l.all (fun y => s.lanesIn.contains y.lane && s.runs y.lane)) = some true := by decide +kernel

theorem witness_MapCacheJournalAndReturnHome_9 :
    let g : State := { State.reset.setReg R.PWR_DSTAT 0 with geo := { State.reset.geo with saltern := [(0, 0, 500, 10)], rings := [{ first := 0, symbols := 1000, wedge := 0, slots := [4, 4, 4, 4], skew := 0 }], surfaces := [(0, 0)], stripes := [(0, 0, 0, 100)], conv := [(0, 0, 900, 10)] } };
    let s : State := (g.setOvl 0 (ovlW0 1 0 0 1, ovlW1 0 0 0 0 2 5)).onBoot (fun b => { b with ready := 4 });
      s.draining = false ∧ 4 ≤ s.boot.ready ∧ s.sectorOf 0 = some (0, 0, 900, 0) ∧ s.returnBusy 2 0 0 = false ∧ s.backgroundFits 0 = true ∧
      (s.overlay 2 0 0).length = 1 ∧ 0 ∈ s.lanesIn ∧ s.runs 0 = true ∧ (∀ k : Fin 4, s.poolBlk 2 (0 + k) = none) ∧
      (s.resolve2 0 15).map (fun l => !(l.filter (·.coast)).isEmpty && (l.filter (·.coast)).all (fun y => s.lanesIn.contains y.lane && s.runs y.lane)) = some true := by decide +kernel

theorem witness_MapCacheJournalAndReturnHome_10 :
    let g : State := { State.reset with geo := { State.reset.geo with rings := [{ first := 0, symbols := 1000, wedge := 0, slots := [4, 4, 4, 4], skew := 0 }], surfaces := [(0, 0)], stripes := [(0, 0, 0, 100)] } };
    let tile : RTile := { lba := 0, st := 2, code := 0, at_ := 0, srcs := [], data := [] };
    let r : RetJob := { ns := 1, key := 0, gen := 0, tile := tile, left := 0, ents := [0], urgent := true, lane := 0, since := 0 };
    let s : State := (g.onMap (fun m => { m with hbm := [(0, mkEntry 0 0 100 0 2 false 0)], ret := [r] })).setOvl 0 (ovlW0 1 0 0 1, ovlW1 0 0 0 0 1 5);
    let more (s : State) : Bool := s.map.ovl.any (fun e => ovlUse e.2 == 1 && ovlNs e.2 == 1 && ovlKey e.2 / 128 == r.key / 128 && ovlGen e.2 == r.gen && !(r.ents.contains e.1));
      r.ns = 1 ∧ r.urgent = true ∧ s.tileSlot (s.entry 0) (s.zone 0).rate 0 = some (100, 0) ∧ more s = false ∧
      more (s.setOvl 1 (ovlW0 1 1 0 1, ovlW1 0 0 0 0 1 5)) = true := by decide +kernel

theorem witness_VoterCorrectsACopy_1 :
    let v := 0x81020000#32;
    let s := State.reset.setReg R.TMR_INJD 5;
      s.accepts .core R.TMR_INJ v = true ∧ v.getLsbD 31 = true ∧ F.TMR_INJ_word.of v = 2 ∧ F.TMR_INJ_copy.of v = 1 ∧
      (∀ c : Fin 3, s.reg (copyReg 2 c) = 0) ∧ s.reg R.TMR_INJD ≠ 0 ∧ s.accepts .core R.TMR_INJ 0x83000000 = true ∧ F.TMR_INJ_copy.of 0x83000000 = 3 := by decide +kernel

theorem witness_VoterCorrectsACopy_2 :
    let s := (State.reset.setReg (copyReg 3 0) 4).setReg (copyReg 3 1) 8;
    let u := s.setReg (copyReg 3 2) (s.reg (copyReg 3 2) ^^^ BitVec.ofNat 32 (2 ^ 1));
      (∀ c d : Fin 3, c ≠ d → u.reg (copyReg 3 c) ≠ u.reg (copyReg 3 d)) ∧ (∀ c : Fin 3, c ≠ 2 → State.reset.reg (copyReg 3 c) = 0) := by decide +kernel

theorem witness_VoterCorrectsACopy_3 :
    State.reset.instOk 0 0 = true ∧ State.reset.memDown 1 0 = false ∧ State.reset.instOk 1 0 = true := by decide +kernel

theorem witness_CheckersRakeAndSelfTest_1 :
    let s := State.reset.put F.ECC_FLIPD0_m 1;
      s.accepts .core R.ECC_FLIPCTL 0x80000000 = true ∧ s.flag F.ECC_FLIPCTL_arm = false ∧ s.flipWeight = 1 ∧ s.instOk 1 0 = true ∧ s.memDown 1 0 = false ∧
      State.reset.accepts .core R.ECC_FLIPCTL 0x80000000 = true ∧ State.reset.flipWeight = 0 := by decide +kernel

theorem witness_CheckersRakeAndSelfTest_2 :
    let s := State.reset.put F.CFG_STRAP_mode 2;
    let v := F.ECC_SPLITCTL_mem.into 5 0x80000000;
      s.accepts .core R.ECC_SPLITCTL v = true ∧ v.getLsbD 31 = true ∧ s.factory = true ∧ F.ECC_SPLITCTL_mem.of v = 5 ∧ s.flag F.ECC_FLIPCTL_arm = false ∧
      State.reset.accepts .core R.ECC_SPLITCTL v = true ∧ State.reset.factory = false := by decide +kernel

theorem witness_CheckersRakeAndSelfTest_3 :
    State.reset.accepts .core R.ECC_CTL 0x80000000 = true := by decide +kernel

theorem witness_CheckersRakeAndSelfTest_4 :
    let s := State.reset.put F.CFG_STRAP_mode 2;
      s.accepts .core R.TMR_LSCTL 0x40000000 = true ∧ s.factory = true ∧ s.flag F.BUF_CTL_lock = false ∧ State.reset.accepts .core R.TMR_LSCTL 0x40000000 = true := by decide +kernel

theorem witness_CheckersRakeAndSelfTest_5 :
    let s := { State.reset with coreUp := true };
      s.coreUp = true ∧ s.flag F.BUF_CTL_lock = false ∧ s.flag F.TMR_LSSTAT_mism = false ∧ s.diverted = false ∧
      ((s.put F.CFG_STRAP_mode 2).put F.TMR_LSCTL_test 1).diverted = true := by decide +kernel

theorem witness_CheckersRakeAndSelfTest_6 :
    let s := (State.reset.put F.RAKE_CTL_en 1).onBoot (fun b => { b with phase := 4 });
      s.raking 3 = true ∧ ((s.put (F.MCS_LDCTL_match 1) 1).put (F.MCS_STAT_state 1) 2).raking 9 = true := by decide +kernel

theorem witness_CheckersRakeAndSelfTest_7 :
    let v := 0xA3000010#32;
      State.reset.accepts .core R.ISST_CMD v = true ∧ v.getLsbD 31 = true ∧ F.ISST_CMD_len.of v = 16 ∧ F.ISST_CMD_part.of v = 3 ∧ State.reset.get F.ISST_STAT_state = 0 ∧
      (State.reset.setReg R.PWR_DSTAT 0).laneUp 2 = true ∧ State.reset.mcs 2 = 0 ∧ (State.reset.lane 2).wfifo = 0 ∧ (State.reset.lane 2).port = [] ∧ State.reset.flag (F.LANE_STAT_wg 2) = false ∧
      State.reset.flag (F.LANE_STAT_rg 2) = false ∧ State.reset.harvesting = false ∧ State.reset.diapause = false := by decide +kernel

theorem witness_CheckersRakeAndSelfTest_8 :
    (State.reset.put F.ISST_STAT_state 1).get F.ISST_STAT_state = 1 := by decide +kernel

theorem witness_CheckersRakeAndSelfTest_9 :
    let s := (State.reset.put F.ISST_SENSECFG_en 1).onBoot (fun b => { b with phase := 4 });
      s.flag F.ISST_SENSECFG_en = true ∧ s.fitted 3 = true ∧ 3 ≤ s.boot.phase := by decide +kernel

theorem witness_CausesEventsAndMeasurements_1 :
    let s := (State.reset.put F.ALR_CAUSE_c 0x202).setReg R.HRV_ERR 0x80000000;
      s.accepts .smbus R.ALR_CAUSE 0x202 = true ∧ s.sourcesClear 1 = false ∧ s.sourcesClear 9 = true := by decide +kernel

theorem witness_CausesEventsAndMeasurements_2 :
    let v := (F.EVT_SW_HDR_src 1).into 0x20 0x80000000;
      State.reset.accepts .core (R.EVT_SW_HDR 1) v = true ∧ v.getLsbD 31 = true ∧ (F.EVT_SW_HDR_src 1).of v = 0x20 ∧
      State.reset.accepts .core (R.EVT_SW_HDR 3) 0x80000000 = true ∧ State.reset.accepts .core (R.EVT_SW_HDR 0) 0x80000000 = true ∧ (F.EVT_SW_HDR_src 0).of 0x80000000 ≠ 0x20 := by decide +kernel

theorem witness_CausesEventsAndMeasurements_3 :
    State.reset.accepts .core R.EVT_CTL 0x80000000 = true ∧ State.reset.accepts .smbus R.EVT_CMD 0x80000000 = true := by decide +kernel

theorem witness_CausesEventsAndMeasurements_4 :
    let t := (State.reset.post 1 1 []).put F.EVT_CTL_tlock 1;
    let s := t.askFlush;
      s.flag F.EVT_STAT_flush = true ∧ s.flushBlocked = false ∧ s.flushLeft ≠ [] := by decide +kernel

theorem witness_CausesEventsAndMeasurements_5 :
    let s := State.reset.put F.EVT_STAT_flush 1;
      s.flag F.EVT_STAT_flush = true ∧ s.flushLeft = [] ∧ (s.put F.EVT_STAT_flush 0).evt.again = false ∧ (s.put F.EVT_STAT_flush 0).hrvState ≠ 6 ∧
      ({ s with evt := { s.evt with again := true } } : State).flushLeft = [] := by decide +kernel

theorem witness_CausesEventsAndMeasurements_6 :
    ({ State.reset with evt := { State.reset.evt with erase := some 3 } } : State).evt.erase = some 3 := by decide +kernel

theorem witness_CausesEventsAndMeasurements_7 :
    (State.reset.put F.EVT_MEASCFG_period 1).get F.EVT_MEASCFG_period ≠ 0 ∧ (State.reset.put F.EVT_MEASCFG_period 0).get F.EVT_MEASCFG_period = 0 := by decide +kernel

theorem witness_SidebandAnswersAndAddresses_1 :
    (0x6A#7).toNat = State.reset.get F.ALR_SMB_addr ∧ ({ State.reset with boot := { State.reset.boot with phase := 4 } } : State).boot.phase ≠ 6 ∧ (0x6B#7).toNat ≠ State.reset.get F.ALR_SMB_addr := by decide +kernel

theorem witness_SidebandAnswersAndAddresses_2 :
    let s := ((State.reset.put F.ALR_CTL_ara 1).put F.ALR_CAUSE_c 0x200).put F.ALR_PINEN_en 0x200;
      ({ s with boot := { s.boot with phase := 4 } } : State).boot.phase ≠ 6 ∧ s.flag F.ALR_CTL_ara = true ∧ s.alert = true := by decide +kernel

theorem witness_SidebandAnswersAndAddresses_3 :
    (State.reset.put F.CFG_STRAP_mode 2).factory = true ∧ State.reset.factory = false := by decide +kernel

theorem witness_SidebandAnswersAndAddresses_4 :
    let s : State := { State.reset with nvme := { State.reset.nvme with linkUp := true, perst := false }, hostDown := false };
      s.nvme.linkUp = true ∧ s.nvme.perst = false ∧ s.hostDown = false := by decide +kernel

end Witnesses
end

section
/-! PROOFS. The statements about the register window and the commands as a whole (00_scope.md): what every command answers and keeps,
ignored accesses, accesses by width and alignment, writes by access type, reads, and staged values with their GO registers. -/

namespace Sys2Proof.Machine
open Sys2Proof

/-! ## What every command answers and keeps -/

/-- No command faults and none is refused: each meaning is a next state (R18). -/
theorem exec_answers (c : Instr) (s : State) : ∃ t, exec c s = .next t := by
  cases c <;> exact ⟨_, rfl⟩

/-- Every command keeps what `Keeps` names, by the law of its meaning; the arms are those of `exec`. -/
theorem exec_keeps (c : Instr) (s : State) : KeepsOut s (exec c s) :=
  have kept := Keeps.refl s
  match c with
  | .registerWrite p a w v => execRegisterWrite_keeps p a w v kept
  | .blkIgncntClr p b v => execBlkIgncntClr_keeps p b v kept
  | .laneGo p n v => execLaneGo_keeps p n v kept
  | .laneShadowActivate n => execLaneShadowActivate_keeps n kept
  | .scaGo p v => execScaGo_keeps p v kept
  | .scaLcfgActivate => execScaLcfgActivate_keeps kept
  | .spnGo p v => execSpnGo_keeps p v kept
  | .hrvGo p v => execHrvGo_keeps p v kept
  | .ctrGo p v => execCtrGo_keeps p v kept
  | .coldReset strap => execColdReset_keeps strap kept
  | .vdd3v3Loss => execVdd3v3Loss_keeps kept
  | .sysRst p v => execSysRst_keeps p v kept
  | .warmResetTakesEffect => execWarmResetTakesEffect_keeps kept
  | .perstNAssert => execPerstNAssert_keeps kept
  | .functionLevelReset => execFunctionLevelReset_keeps kept
  | .hotReset => execHotReset_keeps kept
  | .dlDown => execDlDown_keeps kept
  | .controllerReset => execControllerReset_keeps kept
  | .controllerEnable cc acqs => execControllerEnable_keeps cc acqs kept
  | .crystalTimeout => execCrystalTimeout_keeps kept
  | .supplyQualified => execSupplyQualified_keeps kept
  | .isoRampStep vin mbus => execIsoRampStep_keeps vin mbus kept
  | .rampTimeout => execRampTimeout_keeps kept
  | .pgoodCoreRise => execPgoodCoreRise_keeps kept
  | .pgoodCoreLate => execPgoodCoreLate_keeps kept
  | .imageLoadDone m => execImageLoadDone_keeps m kept
  | .pgoodCoreLow => execPgoodCoreLow_keeps kept
  | .pgoodCoreReturn => execPgoodCoreReturn_keeps kept
  | .pgoodCoreTimeout => execPgoodCoreTimeout_keeps kept
  | .pgoodALow => execPgoodALow_keeps kept
  | .pgoodBLow => execPgoodBLow_keeps kept
  | .linkRetrain rate width => execLinkRetrain_keeps rate width kept
  | .synthLockLoss n => execSynthLockLoss_keeps n kept
  | .synthLockAcquired n => execSynthLockAcquired_keeps n kept
  | .pafltAssert n level => execPafltAssert_keeps n level kept
  | .commandFetch q e => execCommandFetch_keeps q e kept
  | .grant => execGrant_keeps kept
  | .hostDataTlp id n => execHostDataTlp_keeps id n kept
  | .sealWrites => execSealWrites_keeps kept
  | .readSeal => execReadSeal_keeps kept
  | .completionStage cq n => execCompletionStage_keeps cq n kept
  | .cqWaitLong => execCqWaitLong_keeps kept
  | .partialTileTimeout t => execPartialTileTimeout_keeps t kept
  | .writeDeadlineMiss id => execWriteDeadlineMiss_keeps id kept
  | .contractStopTime id => execContractStopTime_keeps id kept
  | .frameStart n => execFrameStart_keeps n kept
  | .bufCtlLock p v => execBufCtlLock_keeps p v kept
  | .bufAbortWrite p v => execBufAbortWrite_keeps p v kept
  | .flush q e => execFlush_keeps q e kept
  | .write q e => execWrite_keeps q e kept
  | .read q e => execRead_keeps q e kept
  | .zoneAppend q e => execZoneAppend_keeps q e kept
  | .planeRead q e => execPlaneRead_keeps q e kept
  | .zoneCodeRate q e => execZoneCodeRate_keeps q e kept
  | .zoneClose q e => execZoneClose_keeps q e kept
  | .zoneFinish q e => execZoneFinish_keeps q e kept
  | .zoneOpen q e => execZoneOpen_keeps q e kept
  | .zoneReset q e => execZoneReset_keeps q e kept
  | .zoneResetSeal => execZoneResetSeal_keeps kept
  | .offlineZone q e => execOfflineZone_keeps q e kept
  | .setZoneDescriptorExtension q e => execSetZoneDescriptorExtension_keeps q e kept
  | .reportZones q e => execReportZones_keeps q e kept
  | .extendedReportZones q e => execExtendedReportZones_keeps q e kept
  | .createIoSubmissionQueue e => execCreateIoSubmissionQueue_keeps e kept
  | .createIoCompletionQueue e => execCreateIoCompletionQueue_keeps e kept
  | .deleteIoSubmissionQueue e => execDeleteIoSubmissionQueue_keeps e kept
  | .deleteIoCompletionQueue e => execDeleteIoCompletionQueue_keeps e kept
  | .identify e => execIdentify_keeps e kept
  | .abort e => execAbort_keeps e kept
  | .asynchronousEventRequest e => execAsynchronousEventRequest_keeps e kept
  | .setArbitration e => execSetArbitration_keeps e kept
  | .setPowerManagement e => execSetPowerManagement_keeps e kept
  | .setTemperatureThreshold e => execSetTemperatureThreshold_keeps e kept
  | .setNumberOfQueues e => execSetNumberOfQueues_keeps e kept
  | .setInterruptCoalescing e => execSetInterruptCoalescing_keeps e kept
  | .setInterruptVectorConfiguration e => execSetInterruptVectorConfiguration_keeps e kept
  | .setAsyncEventConfiguration e => execSetAsyncEventConfiguration_keeps e kept
  | .setApst e => execSetApst_keeps e kept
  | .setAcousticCeiling e => execSetAcousticCeiling_keeps e kept
  | .setMagazineEnergy e => execSetMagazineEnergy_keeps e kept
  | .getFeatures e => execGetFeatures_keeps e kept
  | .getMagazineEnergy e => execGetMagazineEnergy_keeps e kept
  | .errorInformationLog e => execErrorInformationLog_keeps e kept
  | .smartHealthLog e => execSmartHealthLog_keeps e kept
  | .firmwareSlotLog e => execFirmwareSlotLog_keeps e kept
  | .commandsSupportedLog e => execCommandsSupportedLog_keeps e kept
  | .contractLog e => execContractLog_keeps e kept
  | .harvestLossLog e => execHarvestLossLog_keeps e kept
  | .eventHistoryLog e => execEventHistoryLog_keeps e kept
  | .measurementLog e => execMeasurementLog_keeps e kept
  | .enableDirective e => execEnableDirective_keeps e kept
  | .releaseIdentifier e => execReleaseIdentifier_keeps e kept
  | .releaseResources e => execReleaseResources_keeps e kept
  | .directiveReceive e => execDirectiveReceive_keeps e kept
  | .firmwareImageDownload e => execFirmwareImageDownload_keeps e kept
  | .firmwareCommit000 e => execFirmwareCommit000_keeps e kept
  | .firmwareCommit001 e => execFirmwareCommit001_keeps e kept
  | .firmwareCommit010 e => execFirmwareCommit010_keeps e kept
  | .firmwareCommit011 e => execFirmwareCommit011_keeps e kept
  | .fwSlotProgrammed => execFwSlotProgrammed_keeps kept
  | .fwActivationQuiesced => execFwActivationQuiesced_keeps kept
  | .establishContract e => execEstablishContract_keeps e kept
  | .establishDrainDone => execEstablishDrainDone_keeps kept
  | .establishLocked => execEstablishLocked_keeps kept
  | .establishLockTimeout => execEstablishLockTimeout_keeps kept
  | .releaseContract e => execReleaseContract_keeps e kept
  | .queryContracts e => execQueryContracts_keeps e kept
  | .contractRecheck why => execContractRecheck_keeps why kept
  | .shutdownNotificationNormal => execShutdownNotificationNormal_keeps kept
  | .shutdownNotificationAbrupt => execShutdownNotificationAbrupt_keeps kept
  | .shutdownComplete => execShutdownComplete_keeps kept
  | .namespaceReady => execNamespaceReady_keeps kept
  | .headLoadRequest => execHeadLoadRequest_keeps kept
  | .adoptionStart lost => execAdoptionStart_keeps lost kept
  | .adoptionComplete segs lost => execAdoptionComplete_keeps segs lost kept
  | .flutterStartupDone rs => execFlutterStartupDone_keeps rs kept
  | .cfgRcvcmdKeel p v => execCfgRcvcmdKeel_keeps p v kept
  | .keelRebuildDone => execKeelRebuildDone_keeps kept
  | .cfgRevoke p v => execCfgRevoke_keeps p v kept
  | .flashReadPage p v => execFlashReadPage_keeps p v kept
  | .flashProgram p v => execFlashProgram_keeps p v kept
  | .flashErase p v => execFlashErase_keeps p v kept
  | .flashOpDone ok => execFlashOpDone_keeps ok kept
  | .unitBegin n m => execUnitBegin_keeps n m kept
  | .unitEndMark n err => execUnitEndMark_keeps n err kept
  | .tileOutcomePost n its words ecc => execTileOutcomePost_keeps n its words ecc kept
  | .setLoadComplete n ecc => execSetLoadComplete_keeps n ecc kept
  | .eqmuSave p n v => execEqmuSave_keeps p n v kept
  | .eqTapCopy n k => execEqTapCopy_keeps n k kept
  | .caldataAccess p n wr ecc => execCaldataAccess_keeps p n wr ecc kept
  | .brhwClr p n v => execBrhwClr_keeps p n v kept
  | .pascmdWrite p n v => execPascmdWrite_keeps p n v kept
  | .pasFrameSend n => execPasFrameSend_keeps n kept
  | .pasFrameDone n rdata => execPasFrameDone_keeps n rdata kept
  | .crysDispatch => execCrysDispatch_keeps kept
  | .enginePhaseEnd e brine store sync => execEnginePhaseEnd_keeps e brine store sync kept
  | .engineIterationEnd e w store => execEngineIterationEnd_keeps e w store kept
  | .engineWatchdog e => execEngineWatchdog_keeps e kept
  | .class2Ageing => execClass2Ageing_keeps kept
  | .class0ExpireUndispatched => execClass0ExpireUndispatched_keeps kept
  | .crysEngon p v => execCrysEngon_keeps p v kept
  | .engineReturnTestDone e ok => execEngineReturnTestDone_keeps e ok kept
  | .crysDirclr p v => execCrysDirclr_keeps p v kept
  | .crysMaxusClr p v => execCrysMaxusClr_keeps p v kept
  | .mcsStart p n v => execMcsStart_keeps p n v kept
  | .mcsStop p n v => execMcsStop_keeps p n v kept
  | .mcsKill p n v => execMcsKill_keeps p n v kept
  | .mcsLoadGo p n v => execMcsLoadGo_keeps p n v kept
  | .mcsLoadDone n ecc => execMcsLoadDone_keeps n ecc kept
  | .csWindowWrite p a v => execCsWindowWrite_keeps p a v kept
  | .cont n e => execCont_keeps n e kept
  | .jump n e => execJump_keeps n e kept
  | .jcond n e => execJcond_keeps n e kept
  | .call n e => execCall_keeps n e kept
  | .ret n e => execRet_keeps n e kept
  | .loop n e => execLoop_keeps n e kept
  | .waitc n e => execWaitc_keeps n e kept
  | .waitcEnd n e => execWaitcEnd_keeps n e kept
  | .trapret n e => execTrapret_keeps n e kept
  | .forcedHarvestTrap n => execForcedHarvestTrap_keeps n kept
  | .cmdpop n => execCmdpop_keeps n kept
  | .cmddone n => execCmddone_keeps n kept
  | .cmderr n code => execCmderr_keeps n code kept
  | .requeue n => execRequeue_keeps n kept
  | .flushq n => execFlushq_keeps n kept
  | .start n dpath modsel sync => execStart_keeps n dpath modsel sync kept
  | .setload n => execSetload_keeps n kept
  | .next n => execNext_keeps n kept
  | .rewind n => execRewind_keeps n kept
  | .defect n => execDefect_keeps n kept
  | .abandon n => execAbandon_keeps n kept
  | .clrst n => execClrst_keeps n kept
  | .ld0 n imm => execLd0_keeps n imm kept
  | .ld1 n imm => execLd1_keeps n imm kept
  | .ldb n imm => execLdb_keeps n imm kept
  | .cnt0 n => execCnt0_keeps n kept
  | .cnt1 n => execCnt1_keeps n kept
  | .dec0 n => execDec0_keeps n kept
  | .dec1 n => execDec1_keeps n kept
  | .inc0 n => execInc0_keeps n kept
  | .inc1 n => execInc1_keeps n kept
  | .timerLoad n sel unit imm => execTimerLoad_keeps n sel unit imm kept
  | .timerStop n sel => execTimerStop_keeps n sel kept
  | .timerRestart n sel => execTimerRestart_keeps n sel kept
  | .timerExpire n t => execTimerExpire_keeps n t kept
  | .preampStrobe n strobes => execPreampStrobe_keeps n strobes kept
  | .hsel n => execHsel_keeps n kept
  | .seek n => execSeek_keeps n kept
  | .seeksalt n => execSeeksalt_keeps n kept
  | .offset n imm => execOffset_keeps n imm kept
  | .clroff n => execClroff_keeps n kept
  | .unload n => execUnload_keeps n kept
  | .load n => execLoad_keeps n kept
  | .widen n => execWiden_keeps n kept
  | .agchold n => execAgchold_keeps n kept
  | .microcodeEvent n code imm => execMicrocodeEvent_keeps n code imm kept
  | .statCount n mask => execStatCount_keeps n mask kept
  | .servoSample a m => execServoSample_keeps a m kept
  | .unloadComplete a => execUnloadComplete_keeps a kept
  | .loadComplete a pos => execLoadComplete_keeps a pos kept
  | .scaSkcmdGo p a v => execScaSkcmdGo_keeps p a v kept
  | .srvSetcmdGo p v => execSrvSetcmdGo_keeps p v kept
  | .setInstallDone ecc => execSetInstallDone_keeps ecc kept
  | .srvSsdataAccess p wr ecc => execSrvSsdataAccess_keeps p wr ecc kept
  | .flutterGo p v => execFlutterGo_keeps p v kept
  | .flutterAbort p v => execFlutterAbort_keeps p v kept
  | .scaStatClr p v => execScaStatClr_keeps p v kept
  | .vibFrame reading => execVibFrame_keeps reading kept
  | .vcmPwmPeriod a isns => execVcmPwmPeriod_keeps a isns kept
  | .pwmPeriod m => execPwmPeriod_keeps m kept
  | .phaseOvercurrent => execPhaseOvercurrent_keeps kept
  | .spindleTick m => execSpindleTick_keeps m kept
  | .turnOnWindowEnd => execTurnOnWindowEnd_keeps kept
  | .lowerTargetRelease => execLowerTargetRelease_keeps kept
  | .spnCtlArm p v => execSpnCtlArm_keeps p v kept
  | .spnCtlRun p v => execSpnCtlRun_keeps p v kept
  | .spnCtlSrc p v => execSpnCtlSrc_keeps p v kept
  | .senseEnd => execSenseEnd_keeps kept
  | .standstill => execStandstill_keeps kept
  | .probeEnd peaks => execProbeEnd_keeps peaks kept
  | .alignEnd => execAlignEnd_keeps kept
  | .stopDrainDone => execStopDrainDone_keeps kept
  | .connDetBreak => execConnDetBreak_keeps kept
  | .reverseCurrent => execReverseCurrent_keeps kept
  | .supplyLoss => execSupplyLoss_keeps kept
  | .hrvForce p v => execHrvForce_keeps p v kept
  | .parkTimeout => execParkTimeout_keeps kept
  | .rejoinReset => execRejoinReset_keeps kept
  | .hrvBudgetCompute => execHrvBudgetCompute_keeps kept
  | .hrvCtlArm p v => execHrvCtlArm_keeps p v kept
  | .chopperOn mbus => execChopperOn_keeps mbus kept
  | .chopperOff mbus => execChopperOff_keeps mbus kept
  | .chopperFault isns => execChopperFault_keeps isns kept
  | .chopTest p v => execChopTest_keeps p v kept
  | .chopTestEnd isns => execChopTestEnd_keeps isns kept
  | .holdLow hold => execHoldLow_keeps hold kept
  | .doubleFault => execDoubleFault_keeps kept
  | .thermalCritical => execThermalCritical_keeps kept
  | .diapauseCommitDone => execDiapauseCommitDone_keeps kept
  | .lockstepMismatch g cyc => execLockstepMismatch_keeps g cyc kept
  | .journalTileTimeout => execJournalTileTimeout_keeps kept
  | .journalTileOnMedia => execJournalTileOnMedia_keeps kept
  | .mapCmdCkpt p v => execMapCmdCkpt_keeps p v kept
  | .checkpointDone retried => execCheckpointDone_keeps retried kept
  | .returnHome ns key => execReturnHome_keeps ns key kept
  | .mapCtlEn p v => execMapCtlEn_keeps p v kept
  | .mapCmdInv p v => execMapCmdInv_keeps p v kept
  | .mapFillLand => execMapFillLand_keeps kept
  | .mapCacheCleanDone => execMapCacheCleanDone_keeps kept
  | .dmaChStart p n v => execDmaChStart_keeps p n v kept
  | .dmaChResume p n v => execDmaChResume_keeps p n v kept
  | .dmaChAbort p n v => execDmaChAbort_keeps p n v kept
  | .dmaDoorbell p n v => execDmaDoorbell_keeps p n v kept
  | .dmaSigset p k v => execDmaSigset_keeps p k v kept
  | .dmaSigclr p k v => execDmaSigclr_keeps p k v kept
  | .dmaEnd n => execDmaEnd_keeps n kept
  | .dmaMove n => execDmaMove_keeps n kept
  | .movs n => execMovs_keeps n kept
  | .dmaLoop n => execDmaLoop_keeps n kept
  | .endl n => execEndl_keeps n kept
  | .dmaWait n => execDmaWait_keeps n kept
  | .dmaWaitSatisfied n => execDmaWaitSatisfied_keeps n kept
  | .sig n => execSig_keeps n kept
  | .dmaJump n => execDmaJump_keeps n kept
  | .dmaBurst n rest bad inp => execDmaBurst_keeps n rest bad inp kept
  | .shfSlotWrite p k hi v => execShfSlotWrite_keeps p k hi v kept
  | .pwrCmdGo p v => execPwrCmdGo_keeps p v kept
  | .cocoonAgree => execCocoonAgree_keeps kept
  | .cocoonDelayTimeout => execCocoonDelayTimeout_keeps kept
  | .entryRetry => execEntryRetry_keeps kept
  | .emergenceStepDone => execEmergenceStepDone_keeps kept
  | .emergenceStepTimeout => execEmergenceStepTimeout_keeps kept
  | .pwrPadrel p v => execPwrPadrel_keeps p v kept
  | .domainIdleCocoon d => execDomainIdleCocoon_keeps d kept
  | .apstTransition => execApstTransition_keeps kept
  | .eccFlipArm p v => execEccFlipArm_keeps p v kept
  | .eccSplitEn p v => execEccSplitEn_keeps p v kept
  | .eccCtlClr p v => execEccCtlClr_keeps p v kept
  | .tmrInj p v => execTmrInj_keeps p v kept
  | .tmrLsctlInj p v => execTmrLsctlInj_keeps p v kept
  | .rakeScrub t place => execRakeScrub_keeps t place kept
  | .rakeLapEnd t ms => execRakeLapEnd_keeps t ms kept
  | .rakeLapSlow t => execRakeLapSlow_keeps t kept
  | .isstCmdGo p v => execIsstCmdGo_keeps p v kept
  | .isstBlockEnd ok => execIsstBlockEnd_keeps ok kept
  | .senseAdcCheck a ok => execSenseAdcCheck_keeps a ok kept
  | .tempSensorUpdate tj td hbm => execTempSensorUpdate_keeps tj td hbm kept
  | .alrCauseWrite p v => execAlrCauseWrite_keeps p v kept
  | .evtSwPost p c v => execEvtSwPost_keeps p c v kept
  | .evtTlock p v => execEvtTlock_keeps p v kept
  | .evtCmdFlush p v => execEvtCmdFlush_keeps p v kept
  | .evtFlushPageDone ok => execEvtFlushPageDone_keeps ok kept
  | .evtFlushDone => execEvtFlushDone_keeps kept
  | .evtSectorEraseDone => execEvtSectorEraseDone_keeps kept
  | .measurementIntervalEnd vin hold mbus => execMeasurementIntervalEnd_keeps vin hold mbus kept
  | .nvmeMiBasicManagement tgt off len => execNvmeMiBasicManagement_keeps tgt off len kept
  | .smbusSetAddress tgt a pec => execSmbusSetAddress_keeps tgt a pec kept
  | .smbusRegisterRead tgt => execSmbusRegisterRead_keeps tgt kept
  | .smbusRegisterWrite tgt a v pec => execSmbusRegisterWrite_keeps tgt a v pec kept
  | .alertResponse won => execAlertResponse_keeps won kept
  | .smbusTimeout => execSmbusTimeout_keeps kept
  | .tapInstruction ir => execTapInstruction_keeps ir kept
  | .perstNDeassert => execPerstNDeassert_keeps kept
  | .linkUp rate width => execLinkUp_keeps rate width kept
  | .countersRecord => execCountersRecord_keeps kept
  | .ignoredRead p a w => execIgnoredRead_keeps p a w kept
  | .unsupportedOpcode q e => execUnsupportedOpcode_keeps q e kept
  | .pcieError corr xfer => execPcieError_keeps corr xfer kept
  | .memoryBitError e => execMemoryBitError_keeps e kept

/-- Settles O3: a command answers a next state (`exec_answers`), and that state keeps the queue, the variant and the blown fuses
(`exec_keeps`). -/
theorem commandKeepsQueueAndVariant : Obligations.CommandKeepsQueueAndVariant := by
  intro c s
  obtain ⟨t, ht⟩ := exec_answers c s
  have k := exec_keeps c s t ht
  exact ⟨t, ht, k.pending, k.variant, k.fuses⟩

/-! ## Ignored accesses -/

/-- The word that BLK_IGNADDR takes of an ignored access. -/
def ignWord (p : Path) (a c : Nat) (rd : Bool) : Word :=
  BitVec.ofNat 32 (2 ^ 31 + c * 2 ^ 28 + pathCode p * 2 ^ 26 + a / 0x10000 % 64 * 2 ^ 20 + a / 4 % 2 ^ 14 * 4 + (if rd then 1 else 0))

theorem State.ignore_eq (p : Path) (k a c : Nat) (rd : Bool) (s : State) :
    s.ignore p k a c rd = (s.incStop (F.BLK_IGNCNT_count k)).setReg (R.BLK_IGNADDR k) (ignWord p a c rd) := rfl

theorem State.get_lt (s : State) (f : Field) : s.get f < 2 ^ f.width := by
  rw [State.get, Field.of_eq]
  exact Nat.mod_lt _ (Nat.two_pow_pos _)

theorem State.get_incStop_self (f : Field) (s : State) (h : f.lo + f.width ≤ 32) :
    (s.incStop f).get f = min (2 ^ f.width - 1) (s.get f + 1) := by
  have lt := s.get_lt f
  unfold State.incStop
  split
  · rename_i below
    rw [State.inc, State.get_put_self f _ s h, Nat.mod_eq_of_lt below]
    omega
  · omega

theorem State.reg_incStop_ne {f : Field} {b : Nat} (s : State) (h : b ≠ f.addr) : (s.incStop f).reg b = s.reg b := by
  unfold State.incStop
  split
  · exact reg_put_ne h
  · rfl

theorem State.incStop_eq (f : Field) (s : State) : s.incStop f = { s with regs := (s.incStop f).regs } := by
  unfold State.incStop
  split <;> rfl

theorem State.reg_ignore_addr (p : Path) (k a c : Nat) (rd : Bool) (s : State) :
    (s.ignore p k a c rd).reg (R.BLK_IGNADDR k) = ignWord p a c rd := State.reg_setReg_self _ _ _

theorem pathCode_lt (p : Path) : pathCode p < 3 := by cases p <;> decide

theorem toNat_ignWord (p : Path) (a c : Nat) (rd : Bool) (h : c < 8) : (ignWord p a c rd).toNat =
    2 ^ 31 + c * 2 ^ 28 + pathCode p * 2 ^ 26 + a / 0x10000 % 64 * 2 ^ 20 + a / 4 % 2 ^ 14 * 4 + rd.toNat := by
  have path := pathCode_lt p
  rw [ignWord, BitVec.toNat_ofNat]
  cases rd <;> simp <;> omega

/-- The fields of BLK_IGNADDR, in the order of the register: valid, cause, path, block, word offset, read. -/
theorem ignWord_fields (p : Path) (a c k : Nat) (rd : Bool) (h : c < 8) : let w := ignWord p a c rd
    (F.BLK_IGNADDR_valid k).of w = 1 ∧ (F.BLK_IGNADDR_cause k).of w = c ∧ (F.BLK_IGNADDR_src k).of w = pathCode p ∧
    (F.BLK_IGNADDR_blk k).of w = a / 0x10000 % 64 ∧ (F.BLK_IGNADDR_off k).of w = a % 0x10000 / 4 ∧
    (F.BLK_IGNADDR_rd k).of w = rd.toNat := by
  have path := pathCode_lt p
  have read := rd.toNat_le
  simp only [Field.of_eq, toNat_ignWord p a c rd h, F.BLK_IGNADDR_valid, F.BLK_IGNADDR_cause, F.BLK_IGNADDR_src, F.BLK_IGNADDR_blk,
    F.BLK_IGNADDR_off, F.BLK_IGNADDR_rd]
  refine ⟨?_, ?_, ?_, ?_, ?_, ?_⟩ <;> omega

/-- Settles O8: the count is a field that stops (`get_incStop_self`), and the record is one word, whose fields are read off
(`ignWord_fields`). -/
theorem ignoredAccessIsCounted : Obligations.IgnoredAccessIsCounted := by
  intro p k a c rd s hc t
  obtain ⟨valid, cause, src, blk, off, read⟩ := ignWord_fields p a c k rd hc
  have field (f : Field) (hf : f.addr = R.BLK_IGNADDR k) : t.get f = f.of (ignWord p a c rd) := by
    rw [State.get, hf, State.reg_ignore_addr]
  refine ⟨?count, (field _ rfl).trans valid, (field _ rfl).trans cause, (field _ rfl).trans src, (field _ rfl).trans blk,
    (field _ rfl).trans off, ((field _ rfl).trans read).trans ?_, ?regs, ?rest⟩
  case count =>
    have apart : (F.BLK_IGNCNT_count k).addr ≠ R.BLK_IGNADDR k := by simp [F.BLK_IGNCNT_count, R.BLK_IGNCNT, R.BLK_IGNADDR]
    exact (State.get_setReg_ne _ _ _ _ apart).trans (State.get_incStop_self _ s (by simp [F.BLK_IGNCNT_count]))
  case regs =>
    intro b hcnt haddr
    exact (State.reg_setReg_ne _ _ haddr).trans (s.reg_incStop_ne hcnt)
  case rest =>
    simp only [t, State.ignore_eq]
    rw [State.incStop_eq]
    rfl
  · cases rd <;> rfl

/-! ## Accesses by their width and alignment -/

theorem pathOpen_of_writeOpen {s : State} {p : Path} (h : s.writeOpen p = true) : s.pathOpen p = true := by
  simp only [State.writeOpen, Bool.and_eq_true] at h
  exact h.1

/-- The access lies in the window, and over SMBus in one of its blocks. -/
def InReach (p : Path) (a : Nat) : Prop := a < 0x400000 ∧ (p = .smbus → smbBlock (a / 0x10000) = true)

section
variable {p : Path} {a : Nat} (h : InReach p a)
include h

theorem InReach.window : (p != .smbus && decide (0x400000 ≤ a)) = false := by
  have below : ¬ 0x400000 ≤ a := by have := h.1; omega
  simp [below]

theorem InReach.block : ¬(p = .smbus ∧ smbBlock (a / 0x10000) = false) := by
  rintro ⟨hp, hb⟩
  simp [h.2 hp] at hb

/-- The second word of an aligned 64-bit access lies in the block of the first. -/
theorem InReach.next (ha : a % 8 = 0) : InReach p (a + 4) := by
  have block : (a + 4) / 0x10000 = a / 0x10000 := by omega
  exact ⟨by have := h.1; omega, by rw [block]; exact h.2⟩

theorem State.writeAccess_narrow {s : State} (v : BitVec 64) (hp : s.writeOpen p = true) :
    s.writeAccess p a .narrow v = s.ignore p (s.countBlock p a) a 6 false := by
  simp [State.writeAccess, hp, h.window, h.block]

theorem State.writeAccess_word_misaligned {s : State} (v : BitVec 64) (hp : s.writeOpen p = true) (ha : a % 4 ≠ 0) :
    s.writeAccess p a .word v = s.ignore p (s.countBlock p a) a 6 false := by
  simp [State.writeAccess, hp, h.window, h.block, ha]

/-- An aligned 32-bit write, whether or not its path can carry it. -/
theorem State.writeAccess_word (s : State) (v : BitVec 64) (ha : a % 4 = 0) :
    s.writeAccess p a .word v = s.writeOne p a (v.setWidth 32) := by
  cases hp : s.writeOpen p with
  | false => simp [State.writeAccess, hp, State.writeOne_closed]
  | true => simp [State.writeAccess, hp, h.window, h.block, ha]

theorem State.writeAccess_double_misaligned {s : State} (v : BitVec 64) (hp : s.writeOpen p = true) (ha : a % 8 ≠ 0) :
    s.writeAccess p a .double v = s.ignore p (s.countBlock p a) a 6 false := by
  simp [State.writeAccess, hp, h.window, h.block, ha]

theorem State.writeAccess_double {s : State} (v : BitVec 64) (hp : s.writeOpen p = true) (ha : a % 8 = 0) :
    s.writeAccess p a .double v = (s.writeAccess p a .word v).writeAccess p (a + 4) .word (v >>> 32) := by
  rw [State.writeAccess_word (h.next ha) _ _ (by omega), State.writeAccess_word h _ _ (by omega)]
  simp [State.writeAccess, hp, h.window, h.block, ha]

theorem execIgnoredRead_narrow {s : State} {b : Word} (hb : b.toNat = a) (hp : s.pathOpen p = true) :
    execIgnoredRead p b .narrow s = .next (s.ignore p (s.countBlock p a) a 6 true) := by
  subst hb
  simp [execIgnoredRead, hp, h.window, h.block]

/-- A 32-bit read, whether or not its path can carry it. -/
theorem execIgnoredRead_word (s : State) {b : Word} (hb : b.toNat = a) : execIgnoredRead p b .word s = .next (s.readOne p a) := by
  subst hb
  cases hp : s.pathOpen p with
  | false => simp [execIgnoredRead, hp, readOne_closed hp]
  | true => simp [execIgnoredRead, hp, h.window, h.block]

theorem State.readOne_misaligned {s : State} (hp : s.pathOpen p = true) (ha : a % 4 ≠ 0) :
    s.readOne p a = s.ignore p (s.countBlock p a) a 6 true := by
  simp [State.readOne, hp, h.block, ha]

theorem execIgnoredRead_double_misaligned {s : State} {b : Word} (hb : b.toNat = a) (hp : s.pathOpen p = true) (ha : a % 8 ≠ 0) :
    execIgnoredRead p b .double s = .next (s.ignore p (s.countBlock p a) a 6 true) := by
  subst hb
  simp [execIgnoredRead, hp, h.window, h.block, ha]

theorem execIgnoredRead_double {s : State} {b : Word} (hb : b.toNat = a) (hp : s.pathOpen p = true) (ha : a % 8 = 0) :
    execIgnoredRead p b .double s = .next ((s.readOne p a).readOne p (a + 4)) := by
  subst hb
  simp [execIgnoredRead, hp, h.window, h.block, ha]

end

/-- Settles O9: below the window's end the width and the alignment alone decide, and an aligned 64-bit access acts word by word,
also where the first word closes the path. -/
theorem narrowOrMisalignedIsIgnored : Obligations.NarrowOrMisalignedIsIgnored := by
  intro p a v s n hopen hn hs w r
  have reach : InReach p n := ⟨by omega, hs⟩
  have path := pathOpen_of_writeOpen hopen
  have next : (a + 4).toNat = n + 4 := by rw [BitVec.toNat_add]; simp; omega
  refine ⟨?_, execIgnoredRead_narrow reach rfl path, fun ha => ⟨?_, ?_, ?_⟩, fun ha => ⟨?_, ?_⟩, fun ha => ⟨⟨_, rfl, ?_⟩, ?_⟩⟩
  · exact congrArg _ (State.writeAccess_narrow reach v hopen)
  · exact congrArg _ (State.writeAccess_word_misaligned reach v hopen ha)
  · exact (execIgnoredRead_word reach s rfl).trans (congrArg _ (State.readOne_misaligned reach path ha))
  · exact if_pos (Or.inl ha)
  · exact congrArg _ (State.writeAccess_double_misaligned reach v hopen ha)
  · exact execIgnoredRead_double_misaligned reach rfl path ha
  · exact congrArg _ ((State.writeAccess_double reach v hopen ha).trans (by rw [← next]))
  · exact ⟨_, execIgnoredRead_word reach s rfl,
      (execIgnoredRead_double reach rfl path ha).trans (execIgnoredRead_word (reach.next ha) _ next).symm⟩

/-! ## Writes by the access types -/

theorem lt_of_regDesc {a : Nat} {d : RegDesc} (h : regDesc a = some d) : a < 0x220000 := by
  by_contra out
  have block : ¬ a / 0x10000 < 0x22 := by omega
  simp [regDesc, block] at h

/-- A write that no cause of R664 stops comes over SMBus only to the blocks of its subset. -/
theorem smbBlock_of_writeCause {s : State} {p : Path} {a : Nat} {v : Word} (h : s.writeCause p a v = none) :
    p = .smbus → smbBlock (a / 0x10000) = true := by
  intro hp
  by_contra hb
  rw [Bool.not_eq_true] at hb
  simp [State.writeCause, hp, hb] at h

/-- A write that reaches a plain register and breaks no rule of it: the access types, then what follows at once. -/
theorem State.writeOne_of_plain {s : State} {p : Path} {a : Nat} {v : Word} (h : s.plain a = true) (hopen : s.writeOpen p = true)
    (hcause : s.writeCause p a v = none) (hgood : s.valueBad a v = false) : s.writeOne p a v = (s.take a v).afterTake a := by
  simp only [State.plain, Bool.and_eq_true, Bool.not_eq_true', decide_eq_false_iff_not, Option.isNone_iff_eq_none] at h
  obtain ⟨⟨⟨⟨count, window⟩, own⟩, lane⟩, servo⟩ := h
  have notLane : ¬(0x13 ≤ a / 0x10000 ∧ a / 0x10000 ≤ 0x16 ∧
      (a = R.LANE_CTL (a / 0x10000 - 0x13) ∨ a = R.LANE_TATH (a / 0x10000 - 0x13))) :=
    fun ⟨low, high, _⟩ => lane ⟨low, high⟩
  have notHeld : ¬(0x10 ≤ a / 0x10000 ∧ a / 0x10000 ≤ 0x12 ∧ s.installing a = true) := by
    rintro ⟨low, high, held⟩
    simp [low, high, held] at servo
  simp only [State.writeOne, if_neg count, window, own, State.writePlain, State.gated_of_open hopen hcause hgood, if_neg notLane,
    if_neg notHeld, Option.isSome_none, Bool.false_eq_true, if_false]

theorem State.take_of_regDesc {a : Nat} {d : RegDesc} (h : regDesc a = some d) (v : Word) (s : State) :
    s.take a v = s.setReg a (d.apply (s.reg a) v) := by simp [State.take, h]

theorem State.afterTake_of_ne {a : Nat} (s : State) (h1 : a ≠ R.CTR_DEMAND) (h2 : a ≠ R.CTR_CTL) (h3 : a ≠ R.BUF_RPRSV)
    (h4 : a ≠ R.SRV_VIBCFG) : s.afterTake a = s := by
  simp [State.afterTake, h1, h2, h3, h4]

/-- Settles O7: a plain register's write is `take` (`writeOne_of_plain`), and the masks of a row of the map are apart, so that each
bit of the stored word has one access type (`apply_of_masksApart`). -/
theorem writeFollowsAccessTypes : Obligations.WriteFollowsAccessTypes := by
  intro p a w s d n v hd ha hacc hplain hgood
  obtain ⟨hopen, hcause⟩ := open_of_accepts hacc
  have reach : InReach p n := ⟨by have := lt_of_regDesc hd; omega, smbBlock_of_writeCause hcause⟩
  refine ⟨?_, ?_, fun b hb => reg_take_ne v s hb, ?_, State.afterTake_of_ne _⟩
  · refine congrArg Host.Outcome.next ((State.writeAccess_word reach s w ha).trans ?_)
    exact State.writeOne_of_plain hplain hopen hcause hgood
  · intro m r old
    have stored : r = d.apply old v := by simp only [r, State.take_of_regDesc hd, State.reg_setReg_self, old]
    rw [stored]
    exact apply_of_masksApart d old v (masksApart_of_regDesc hd)
  · rw [State.take_of_regDesc hd]; rfl

/-! ## Reads -/

theorem smbBlock_of_readCause {s : State} {p : Path} {a : Nat} (h : s.readCause p a = none) :
    p = .smbus → smbBlock (a / 0x10000) = true := by
  intro hp
  by_contra hb
  rw [Bool.not_eq_true] at hb
  simp [State.readCause, hp, hb] at h

theorem open_of_readable {s : State} {p : Path} {a : Nat} (h : s.readable p a = true) : s.pathOpen p = true ∧ s.readCause p a = none := by
  simpa only [State.readable, Bool.and_eq_true, Option.isNone_iff_eq_none] using h

theorem State.readOut_of_readable {s : State} {p : Path} {a : Nat} (h : s.readable p a = true) (ha : a % 4 = 0) :
    s.readOut p a = s.readVal a := by
  simp [State.readOut, (open_of_readable h).2, ha]

theorem State.readVal_blkId (b : Fin 34) (s : State) : s.readVal (R.BLK_ID b) = blkId b := by
  have block := blkId_block b
  have lt := b.isLt
  simp [State.readVal, block, blkId_offset b]

/-- The registers of an actuator that is not fitted lie in SCA and SRV. -/
theorem State.actAbsent_of_lt {a : Nat} (s : State) (h : a < 0x100000) : s.actAbsent a = false := by
  have apart : ¬ R.SCA_SKCMD 2 ≤ a ∧ ¬ R.SRV_WLIM 2 ≤ a ∧ ¬ R.SRV_VCMCFG 2 ≤ a ∧ ¬ R.SCA_FFG 0 0 ≤ a := by
    simp only [R.SCA_SKCMD, R.SRV_WLIM, R.SRV_VCMCFG, R.SCA_FFG]; omega
  simp [State.actAbsent, apart]

theorem State.readVal_sysCap (s : State) : s.readVal R.SYS_CAP = s.variant.cap := by
  have header : ¬ R.SYS_CAP % 0x10000 = 0 := by decide
  have window : csWord R.SYS_CAP = none := by decide
  simp [State.readVal, s.actAbsent_of_lt (a := R.SYS_CAP) (by decide), window, header]

/-- The reads that step an address register on are those of CALDATA and SSDATA. -/
theorem State.readOne_of_readable {s : State} {p : Path} {a : Nat} (h : s.readable p a = true) (ha : a % 4 = 0)
    (hcal : ∀ n : Fin 4, a ≠ R.LANE_CALDATA n) (hss : a ≠ R.SRV_SSDATA) : s.readOne p a = s := by
  obtain ⟨hopen, hcause⟩ := open_of_readable h
  have cal : ¬(0x13 ≤ a / 0x10000 ∧ a / 0x10000 ≤ 0x16 ∧ a = R.LANE_CALDATA (a / 0x10000 - 0x13)) :=
    fun ⟨_, _, e⟩ => hcal ⟨a / 0x10000 - 0x13, by omega⟩ e
  simp only [State.readOne, hopen, hcause, ha, cal, hss]
  simp

/-- Settles O11: of the reads that no cause stops only those of CALDATA and SSDATA have an effect (`readOne_of_readable`), and the
identities are what `readVal` answers before it asks the stored registers. -/
theorem permittedReadChangesNothing : Obligations.PermittedReadChangesNothing := by
  refine ⟨fun p a s ha hlt h hcal hss => ?_, fun p b s h => ?_, fun p s h => ?_⟩
  · have reach : InReach p a.toNat := ⟨hlt, smbBlock_of_readCause (open_of_readable h).2⟩
    exact (execIgnoredRead_word reach s rfl).trans (congrArg _ (State.readOne_of_readable h ha hcal hss))
  · rw [State.readOut_of_readable h (by simp [R.BLK_ID]; omega), State.readVal_blkId]
  · rw [State.readOut_of_readable h (by decide), State.readVal_sysCap]

/-! ## Staged values -/

theorem State.laneActivate_eq {n : Fin 4} {s : State} (h : s.flag (F.LANE_GO_pending n) = true) : s.laneActivate n =
    ((((s.activate (R.LANE_CALSEL n)).activate (R.LANE_TR n)).activate (R.LANE_AGC n)).put (F.LANE_GO_pending n) 0).onLane n
      (fun l => { l with goHeld := false }) := if_pos h

@[simp] theorem State.actReg_put (f : Field) (v : Nat) (s : State) (a : Nat) : (s.put f v).actReg a = s.actReg a :=
  State.actReg_setReg _ _ _ _

theorem State.get_laneActivate_pending {n : Fin 4} {s : State} (h : s.flag (F.LANE_GO_pending n) = true) :
    (s.laneActivate n).get (F.LANE_GO_pending n) = 0 := by
  rw [State.laneActivate_eq h, State.get_onLane, State.get_put_self _ _ _ (by simp [F.LANE_GO_pending]), Nat.zero_mod]

theorem State.reg_laneActivate_ne {n : Fin 4} {s : State} {a : Nat} (h : s.flag (F.LANE_GO_pending n) = true) (ha : a ≠ R.LANE_GO n) :
    (s.laneActivate n).reg a = s.reg a := by
  rw [State.laneActivate_eq h, State.reg_onLane, reg_put_ne ha]
  simp only [State.reg_activate]

theorem State.actReg_laneActivate {n : Fin 4} {s : State} (h : s.flag (F.LANE_GO_pending n) = true) (a : Nat) :
    (s.laneActivate n).actReg a =
      if a = R.LANE_CALSEL n ∨ a = R.LANE_TR n ∨ a = R.LANE_AGC n then s.reg a else s.actReg a := by
  rw [State.laneActivate_eq h, State.actReg_onLane, State.actReg_put]
  simp only [State.actReg_activate, State.reg_activate]
  split_ifs <;> simp_all

theorem State.stopLoop_eq (n : Nat) (s : State) : s.stopLoop n =
    (doAll (List.range 8) (fun k => State.zeroSection (8 * n + k)) (s.setReg (R.SCA_LOUT n) 0)).onServo
      (fun x => { x with dest := x.dest.set! n 0 }) := by
  unfold State.stopLoop State.onServo
  rfl

/-- `t` has the active registers of `s` and the same SCA_GO.pending. -/
def SameScaGo (s t : State) : Prop := t.get F.SCA_GO_pending = s.get F.SCA_GO_pending ∧ ∀ a, t.actReg a = s.actReg a

namespace SameScaGo
variable {r s : State} (h : SameScaGo r s)
include h

theorem setReg {a : Nat} (v : Word) (ha : F.SCA_GO_pending.addr ≠ a) : SameScaGo r (s.setReg a v) :=
  ⟨(State.get_setReg_ne a v _ s ha).trans h.1, fun b => (State.actReg_setReg a b v s).trans (h.2 b)⟩

theorem zeroSection {i : Nat} (hi : i < 128) : SameScaGo r (s.zeroSection i) := by
  obtain ⟨s1, s2, s3, sexp⟩ := scaGo_ne_section i hi
  exact (((h.setReg 0 s1).setReg 0 s2).setReg 0 s3).setReg 0 sexp

/-- The eight sections of a loop. -/
theorem zeroSections {n : Nat} (hn : n < 16) : SameScaGo r (doAll (List.range 8) (fun k => State.zeroSection (8 * n + k)) s) :=
  doAll_invariant _ _ (SameScaGo r) (fun k hk _ ht => ht.zeroSection (by have := List.mem_range.1 hk; omega)) s h

theorem onServo (f : Servo → Servo) : SameScaGo r (s.onServo f) :=
  ⟨(State.get_onServo f s _).trans h.1, fun a => (State.actReg_onServo f s a).trans (h.2 a)⟩

theorem stopLoop {n : Nat} (hn : n < 16) : SameScaGo r (s.stopLoop n) :=
  State.stopLoop_eq n s ▸ ((h.setReg 0 (scaGo_ne_lout n hn)).zeroSections hn).onServo _

end SameScaGo

/-- The activation of the loops, up to the sections it clears. -/
theorem State.lcfgActivate_same {s : State} (hgo : s.flag F.SCA_GO_pending = true) (hrun : s.runs 5 = true) :
    SameScaGo ((doAll (List.range 16) (fun n => State.activate (R.SCA_LCFG n)) s).put F.SCA_GO_pending 0) s.lcfgActivate := by
  simp only [State.lcfgActivate, hgo, hrun, Bool.not_true, Bool.or_self, Bool.false_eq_true, if_false]
  refine doAll_invariant _ _ (SameScaGo _) (fun n hn t ht => ?_) _ ⟨rfl, fun _ => rfl⟩
  have lt := List.mem_range.1 hn
  split
  · exact ht.stopLoop lt
  · split
    · exact ht
    · exact ht.zeroSections lt

theorem State.get_lcfgActivate_pending {s : State} (hgo : s.flag F.SCA_GO_pending = true) (hrun : s.runs 5 = true) :
    s.lcfgActivate.get F.SCA_GO_pending = 0 := by
  rw [(State.lcfgActivate_same hgo hrun).1, State.get_put_self _ _ _ (by decide), Nat.zero_mod]

theorem State.actReg_lcfgActivate {s : State} (hgo : s.flag F.SCA_GO_pending = true) (hrun : s.runs 5 = true) (a : Nat) :
    s.lcfgActivate.actReg a = if ∃ n, n ∈ List.range 16 ∧ a = R.SCA_LCFG n then s.reg a else s.actReg a := by
  rw [(State.lcfgActivate_same hgo hrun).2, State.actReg_put, doAll_activate]

/-- Settles O13: `activate` takes the shadow values as they stand, no activation touches another's register, and what clears the
sections of the loops that stop leaves both (`SameScaGo`). -/
theorem stagedValuesActTogether : Obligations.StagedValuesActTogether := by
  refine ⟨fun n s hidle hup hgo hheld => ?_, fun s hgo hrun => ?_⟩
  · have active := State.actReg_laneActivate hgo
    refine ⟨s.laneActivate n, ?_, State.get_laneActivate_pending hgo, by simp [active], by simp [active], by simp [active],
      fun a h1 h2 h3 => by simp [active, h1, h2, h3], fun a ha => State.reg_laneActivate_ne hgo ha⟩
    exact congrArg Host.Outcome.next (if_neg (by simp [hidle, hup, hheld]))
  · have active := State.actReg_lcfgActivate hgo hrun
    refine ⟨s.lcfgActivate, rfl, State.get_lcfgActivate_pending hgo hrun, fun n => ?_, fun a ha => ?_⟩
    · rw [active, if_pos ⟨n, List.mem_range.2 n.isLt, rfl⟩]
    · rw [active, if_neg (fun ⟨n, hn, e⟩ => ha ⟨n, List.mem_range.1 hn⟩ e)]

/-! ## GO writes -/

theorem State.writeLaneGo_of_accepts {s : State} {p : Path} {n : Fin 4} {v : Word} (hacc : s.accepts p (R.LANE_GO n) v = true)
    (hv : v.getLsbD 0 = true) (hfree : s.flag (F.LANE_GO_pending n) = false ∨ (s.lane n).setBad = true) :
    let t := (s.put (F.LANE_GO_pending n) 1).onLane n (fun l => { l with goHeld := !(s.laneUp n) })
    s.writeLaneGo p n v = if (s.lane n).setBad then (t.laneActivate n).onLane n (fun l =>
      { l with setBad := false, pset := (l.loading.map l.setFrames).getD [] }) else t := by
  obtain ⟨hopen, hcause⟩ := open_of_accepts hacc
  have hok : (v.getLsbD 0 && s.flag (F.LANE_GO_pending n) && !(s.lane n).setBad) = false := by
    rcases hfree with h | h <;> simp [h]
  have go : ¬(!v.getLsbD 0) = true := by simp [hv]
  unfold State.writeLaneGo
  exact (State.gated_of_open hopen hcause hok).trans (by rw [if_neg go])

/-- The GO writes that only set their pending bit. -/
theorem State.gated_sets_pending {s : State} {p : Path} {a : Nat} {v : Word} {bad : Bool} (f : Field) (hacc : s.accepts p a v = true)
    (hv : v.getLsbD 0 = true) (hok : bad = false) :
    s.gated p a v (v.getLsbD 0 && bad) (fun s => if v.getLsbD 0 then s.put f 1 else s) = s.put f 1 := by
  obtain ⟨hopen, hcause⟩ := open_of_accepts hacc
  rw [State.gated_of_open hopen hcause (by simp [hok]), if_pos hv]

theorem State.writeCtrGo_of_accepts {s : State} {p : Path} {v : Word} (hacc : s.accepts p R.CTR_GO v = true)
    (hv : v.toNat % 65536 ≠ 0) (hgo : s.flag F.CTR_GO_pending = false)
    (hrate : ∀ i < 16, (v.toNat % 65536).testBit i = true → s.get (F.CTR_C_CFG_state i) = 1 ∨ s.get (F.CTR_C_CFG_state i) = 2 →
      s.get (F.CTR_C_RATE_mbps i) ≠ 0) :
    s.writeCtrGo p v =
      let t := (s.onCtr (fun c => { c with take := s.lanesIn, takeMask := v.toNat % 65536 })).put F.CTR_GO_pending 1
      if t.lanesIn.isEmpty ∨ t.get F.CTR_CTL_en = 0 then State.ctrApply (t.onCtr (fun c => { c with take := [] })) else t := by
  obtain ⟨hopen, hcause⟩ := open_of_accepts hacc
  have hok : (((List.range 16).filter (v.toNat % 65536).testBit).any (fun i =>
      (s.get (F.CTR_C_CFG_state i) == 1 || s.get (F.CTR_C_CFG_state i) == 2) && s.get (F.CTR_C_RATE_mbps i) == 0) ||
      (v.toNat % 65536 != 0 && s.flag F.CTR_GO_pending)) = false := by
    rw [Bool.or_eq_false_iff, List.any_eq_false]
    refine ⟨fun i hi => ?_, by simp [hgo]⟩
    obtain ⟨lt, named⟩ := List.mem_filter.1 hi
    simpa using hrate i (List.mem_range.1 lt) named
  unfold State.writeCtrGo
  exact (State.gated_of_open hopen hcause hok).trans (by rw [if_neg hv])

/-- Settles O12: with the checks passed, each writer comes to its effect, which sets pending; LANEn_GO also repeats a failed load,
and CTR_GO acts at once where no frames run. -/
theorem goWriteSetsPending : Obligations.GoWriteSetsPending := by
  refine ⟨?lane, ?sca, ?spn, ?hrv, ?ctr⟩
  case lane =>
    intro p n v s hacc hv hfree t
    have written := State.writeLaneGo_of_accepts hacc hv hfree
    exact ⟨fun hset => congrArg Host.Outcome.next (written.trans (if_neg (by simp [hset]))),
      fun hset => congrArg Host.Outcome.next (written.trans (if_pos hset))⟩
  case sca =>
    intro p v s hacc hv hgo hcfg
    exact congrArg Host.Outcome.next (State.gated_sets_pending _ hacc hv (by simp [hgo, hcfg]))
  case spn =>
    intro p v s hacc hv hgo hcurve hpoints
    have hok : (s.flag F.SPN_GO_pending || !s.curveGood || (s.get F.SPN_CRVHDR_nbp == 0 && s.get F.SPN_CTL_src == 1)) = false := by
      simpa [hgo, hcurve] using hpoints
    exact congrArg Host.Outcome.next (State.gated_sets_pending _ hacc hv hok)
  case hrv =>
    intro p v s hacc hv hgo
    exact congrArg Host.Outcome.next (State.gated_sets_pending _ hacc hv hgo)
  case ctr =>
    intro p v s hacc hv hgo hrate
    exact congrArg Host.Outcome.next (State.writeCtrGo_of_accepts hacc hv hgo hrate)

end Sys2Proof.Machine
end

section
/-! PROOFS. The events of a lane that runs, its calibration sets and its preamp port (01_architecture.md R32 and R33,
03_read_write_channel.md R108 to R149). -/

namespace Sys2Proof.Machine
open Sys2Proof

/-! ## Accesses that no cause stops -/

theorem State.gated_of_accepts {s : State} {p : Path} {a : Nat} {v : Word} {bad : Bool} {eff : State → State}
    (hacc : s.accepts p a v = true) (hok : bad = false) : s.gated p a v bad eff = eff s :=
  have ⟨hopen, hcause⟩ := open_of_accepts hacc
  State.gated_of_open hopen hcause hok

theorem State.gatedRead_of_readable {s : State} {p : Path} {a : Nat} {eff : State → State} (h : s.readable p a = true) :
    s.gatedRead p a eff = eff s := by
  obtain ⟨hopen, hcause⟩ := open_of_readable h
  simp [State.gatedRead, hopen, hcause]

/-! ## The synthesizer's lock -/

/-- LANEn_STAT.lock and what a lane holds are no part of whether its domain runs. -/
theorem laneUp_of_lock (n : Fin 4) (f : Lane → Lane) (s : State) :
    ((s.put (F.LANE_STAT_lock n) 1).onLane n f).laneUp n = s.laneUp n := by
  have apart : R.PWR_DSTAT ≠ (F.LANE_STAT_lock n).addr := by revert n; decide
  have dstat : ((s.put (F.LANE_STAT_lock n) 1).onLane n f).reg R.PWR_DSTAT = s.reg R.PWR_DSTAT := by
    rw [State.reg_onLane, reg_put_ne apart]
  have variant : ((s.put (F.LANE_STAT_lock n) 1).onLane n f).variant = s.variant := by
    rw [State.variant_onLane, State.variant_put]
  rw [State.laneUp, State.laneUp, State.fitted, State.fitted, State.runs, State.runs, State.dom, State.dom, dstat, variant]

/-- A lane that runs and that no self-test slice has holds no live write once its retune has ended (R32). -/
theorem laneHolds_of_lock {n : Fin 4} {s : State} (hup : s.laneUp n = true) (hslice : s.slice n.val = false) :
    ((s.put (F.LANE_STAT_lock n) 1).onLane n (fun l => { l with retune := false })).laneHolds n = false := by
  simp only [State.laneHolds, State.lane_onLane_self, laneUp_of_lock, slice_of_lock, hup, hslice]
  rfl

/-! ## High-water marks -/

/-- Both marks lie in LANEn_BRHW, apart from each other (R140). -/
theorem clearMarks_spec (n : Fin 4) (s : State) : let t := (s.put (F.LANE_BRHW_a n) 0).put (F.LANE_BRHW_b n) 0
    t.get (F.LANE_BRHW_a n) = 0 ∧ t.get (F.LANE_BRHW_b n) = 0 ∧ ∀ a, a ≠ R.LANE_BRHW n → t.reg a = s.reg a := by
  refine ⟨?_, ?_, fun a ha => ?_⟩
  · rw [State.get_put_apart _ _ _ _ (by simp [F.LANE_BRHW_b]) (by simp [F.LANE_BRHW_a, F.LANE_BRHW_b]),
      State.get_put_self _ _ _ (by simp [F.LANE_BRHW_a]), Nat.zero_mod]
  · rw [State.get_put_self _ _ _ (by simp [F.LANE_BRHW_b]), Nat.zero_mod]
  · rw [reg_put_ne (f := F.LANE_BRHW_b n) ha, reg_put_ne (f := F.LANE_BRHW_a n) ha]

/-- Settles O36: what each event does follows from its guards; the held writes act because the lane holds nothing once the lock is
back (`laneHolds_of_lock`), and the writes and reads of the set registers come to their effect (`gated_of_accepts`,
`gatedRead_of_readable`). -/
theorem channelEventsAndSets : Obligations.ChannelEventsAndSets := by
  refine ⟨?lockLost, ?lockBack, ?faultOver, ?setLoad, ?saveWrite, ?tapCopy, ?calWrite, ?calRead, ?marks, ?frameDone⟩
  case lockLost =>
    intro n s hup hlock
    exact congrArg Host.Outcome.next (if_neg (by simp [hup, hlock]))
  case lockBack =>
    intro n s hup hlock hslice t
    have holds : ¬ t.laneHolds n = true := by simp [t, laneHolds_of_lock hup hslice]
    exact congrArg Host.Outcome.next ((if_neg (by simp [hup, hlock])).trans (if_neg holds))
  case faultOver =>
    intro n s hup
    exact congrArg Host.Outcome.next ((if_neg (by simp [hup])).trans (if_pos (by simp)))
  case setLoad =>
    intro n i s hup hload hgood u bad
    have complete : exec (.setLoadComplete n false) s = execSetLoadComplete n false s := rfl
    rw [complete, execSetLoadComplete, hload]
    have proceeds : ¬ ((s.lane n).setBad || !s.laneUp n) = true := by simp [hgood, hup]
    exact ⟨fun h => congrArg Host.Outcome.next ((if_neg proceeds).trans (if_pos h)),
      fun h => congrArg Host.Outcome.next ((if_neg proceeds).trans (if_neg (ne_true_of_eq_false h)))⟩
  case saveWrite =>
    intro p n v s hacc hmu hheld
    refine congrArg Host.Outcome.next ((State.gated_of_accepts hacc ?_).trans (if_neg ?_))
    · simpa using hmu
    · simp [hheld]
  case tapCopy =>
    intro n k s hup hsave hrg hset
    refine ⟨fun hk => congrArg Host.Outcome.next (if_neg ?_), fun hk => congrArg Host.Outcome.next (if_pos ?_)⟩
    · simp [hup, hsave, hrg, hset, hk]
    · simpa [hup, hsave, hrg, hset] using Ne.symm hk
  case calWrite =>
    intro p n v ecc s hacc a t
    exact congrArg Host.Outcome.next (State.gated_of_accepts hacc rfl)
  case calRead =>
    intro p n s hread a u
    exact congrArg Host.Outcome.next (State.gatedRead_of_readable hread)
  case marks =>
    intro p n v s hacc hclr
    exact ⟨_, congrArg Host.Outcome.next ((State.gated_of_accepts hacc rfl).trans (if_pos hclr)), clearMarks_spec n s⟩
  case frameDone =>
    intro n b f s hcur t fin
    have done : exec (.pasFrameDone n b) s = execPasFrameDone n b s := rfl
    have write : ∀ o, f.rd = false → t.headOfFrame n f = o →
        exec (.pasFrameDone n b) s = .next (fin (o.elim t (fun h => t.selectHead n h))) := by
      intro o hrd hhead
      simp only [t, hrd, Bool.false_eq_true, if_false] at hhead
      rw [done, execPasFrameDone, hcur]
      cases hcmd : f.cmd <;> cases o <;> simp [t, fin, hrd, hcmd, hhead]
    refine ⟨fun hrd => ?_, write none, fun h => write (some h)⟩
    rw [done, execPasFrameDone, hcur]
    cases hcmd : f.cmd <;> simp [t, fin, hrd, hcmd]

end Sys2Proof.Machine
end

section
/-! PROOFS. MAP's cache, journal, checkpoints and the return home of a tile (02_media_and_map.md R76 to R97). -/

namespace Sys2Proof.Machine
open Sys2Proof

/-! ## Accepted writes of MAP_CTL and MAP_CMD -/

theorem State.gated_bad_of_accepts {s : State} {p : Path} {a : Nat} {v : Word} {bad : Bool} {eff : State → State}
    (hacc : s.accepts p a v = true) (hbad : bad = true) : s.gated p a v bad eff = s.ignoreRule p a :=
  have ⟨hopen, hcause⟩ := open_of_accepts hacc
  State.gated_of_bad hopen hcause hbad

section MapCtl
variable {p : Path} {v : Word} {s : State} (hacc : s.accepts p R.MAP_CTL v = true)
  (hlow : 4 ≤ F.MAP_CTL_ckpt_mib.of v) (hhigh : F.MAP_CTL_ckpt_mib.of v ≤ 32)
include hacc hlow hhigh

/-- What MAP_CTL.en at 1 makes of each state of the cache (R88). -/
theorem writeMapCtl_enable (hen : v.getLsbD 0 = true) :
    s.writeMapCtl p v = if s.get F.MAP_CSTAT_state = 2 then s.ignoreRule p R.MAP_CTL
      else if s.get F.MAP_CSTAT_state = 0 then (s.take R.MAP_CTL v).put F.MAP_CSTAT_state 1 else s.take R.MAP_CTL v := by
  have size : ¬ (F.MAP_CTL_ckpt_mib.of v < 4 ∨ 0x20 < F.MAP_CTL_ckpt_mib.of v) := by omega
  unfold State.writeMapCtl
  split
  case isTrue drains => exact State.gated_bad_of_accepts hacc (by simp [hen, drains])
  case isFalse other => exact (State.gated_of_accepts hacc (by simp [size, other])).trans (by simp only [hen]; simp)

/-- What MAP_CTL.en at 0 makes of each state of the cache (R88, R90). -/
theorem writeMapCtl_disable (hen : v.getLsbD 0 = false) :
    s.writeMapCtl p v = if s.get F.MAP_CSTAT_state = 1 then ((s.take R.MAP_CTL v).put F.MAP_CSTAT_state 2).staleFills
      else if s.get F.MAP_CSTAT_state = 3 then (s.take R.MAP_CTL v).put F.MAP_CSTAT_state 2 else s.take R.MAP_CTL v := by
  have size : ¬ (F.MAP_CTL_ckpt_mib.of v < 4 ∨ 0x20 < F.MAP_CTL_ckpt_mib.of v) := by omega
  unfold State.writeMapCtl
  exact (State.gated_of_accepts hacc (by simp only [hen]; simp [size])).trans (by simp only [hen]; simp)

end MapCtl

/-- MAP_CMD.inv invalidates an enabled cache, and is bad in any other state (R89, R91). -/
theorem writeMapCmd_inv {p : Path} {s : State} (hacc : s.accepts p R.MAP_CMD 1 = true) :
    s.writeMapCmd p 1 = if s.get F.MAP_CSTAT_state = 1 then (s.put F.MAP_CSTAT_state 3).staleFills else s.ignoreRule p R.MAP_CMD := by
  unfold State.writeMapCmd
  split
  case isTrue enabled => exact (State.gated_of_accepts hacc (by simp [enabled])).trans (by simp)
  case isFalse other => exact State.gated_bad_of_accepts hacc (by simp [other])

/-- MAP_CMD.ckpt is bad while a checkpoint is busy, and else starts one once the namespaces are ready (R81, R93). -/
theorem writeMapCmd_ckpt {p : Path} {s : State} (hacc : s.accepts p R.MAP_CMD 2 = true) :
    s.writeMapCmd p 2 = if s.flag F.MAP_CKSTAT_busy then s.ignoreRule p R.MAP_CMD else if 4 ≤ s.boot.ready then s.ckptStart else s := by
  unfold State.writeMapCmd
  split
  case isTrue busy => exact State.gated_bad_of_accepts hacc (by simp [busy])
  case isFalse free => exact (State.gated_of_accepts hacc (by simp [free])).trans (by simp)

/-! ## Fills and journal tiles -/

/-- The oldest fill lands with every fill of its line, as its own stale mark says (R90). -/
theorem landFill_of_oldest {line : Nat} {stale : Bool} {rest : List (Nat × Bool)} {s : State}
    (hfills : s.map.fills = (line, stale) :: rest) :
    let left := rest.filter (fun f => f.1 != line)
    let t := (s.onMap (fun m => { m with fills := left })).put F.MAP_CSTAT_fill (if left.isEmpty then 0 else 1)
    s.landFill = if stale then t.inc F.MAP_STALECNT_count else t.install line := by
  intro left t
  have found : s.map.fills.find? (fun f => f.1 == line) = some (line, stale) := by simp [hfills]
  have others : s.map.fills.filter (fun f => f.1 != line) = left := by simp [hfills, left]
  have landed : s.landFill = s.landLine line := by rw [State.landFill, hfills]
  rw [landed, State.landLine, found, others]

/-- A journal tile whose two copies are on media lands, and asks for a checkpoint that is due and not busy (R79, R81). -/
theorem landJournal_of_done {t : JTile} {rest : List JTile} {s : State} (hout : s.map.jout = t :: rest) (hdone : 2 ≤ t.done) :
    let u := ((s.onMap (fun m => { m with jout := rest })).add F.MAP_JFILL_kib 16).landRecords t.last
    s.landJournal = if u.get F.MAP_CTL_ckpt_mib * 1024 ≤ u.get F.MAP_JFILL_kib then
      (if u.flag F.MAP_CKSTAT_busy then u else u.put F.MAP_CKSTAT_req 1) else u := by
  intro u
  rw [State.landJournal, hout]
  refine (if_neg (by omega)).trans ?_
  change (if (decide (u.get F.MAP_CTL_ckpt_mib * 1024 ≤ u.get F.MAP_JFILL_kib) && !(u.flag F.MAP_CKSTAT_busy)) = true
    then u.put F.MAP_CKSTAT_req 1 else u) = _
  cases u.flag F.MAP_CKSTAT_busy <;> simp

theorem landJournal_of_undone {t : JTile} {rest : List JTile} {s : State} (hout : s.map.jout = t :: rest) (hdone : t.done < 2) :
    s.landJournal = s := by
  rw [State.landJournal, hout]
  exact if_pos hdone

/-! ## The return home -/

/-- No guard of a background return holds it back where its sources and its home lane are in service and run (R95, R97, R523). -/
theorem returnStart_free {α : Type} {es : List α} {srcs : List RSrc} {home : Nat} {held : Bool} {s : State} (hes : es ≠ [])
    (hsrcs : srcs ≠ []) (hlanes : ∀ y ∈ srcs, y.lane ∈ s.lanesIn ∧ s.runs y.lane = true) (hhome : home ∈ s.lanesIn)
    (hruns : s.runs home = true) (hheld : held = false) :
    ¬ (es.isEmpty || srcs.isEmpty || srcs.any (fun x => !(s.lanesIn.contains x.lane)) || !(s.lanesIn.contains home) || held ||
      (!false && (home :: srcs.map (·.lane)).any (fun d => !(s.runs d)))) = true := by
  have served : ∀ y ∈ srcs, y.lane ∈ s.lanesIn := fun y hy => (hlanes y hy).1
  have running : ∀ y ∈ srcs, s.runs y.lane = true := fun y hy => (hlanes y hy).2
  simpa [hes, hsrcs, hhome, hruns, hheld] using ⟨served, running⟩

/-- The tile of NSID 1 that goes home in the background: its places are queued to their lanes (R95 step 1). -/
theorem returnStart_tile {key : Nat} {srcs : List RSrc} {s : State} (hes : s.overlay 1 key (s.zone (key / 16384)).gen ≠ [])
    (hfound : s.resolve1 key 15 = some srcs) (hsrcs : srcs ≠ []) (hlanes : ∀ y ∈ srcs, y.lane ∈ s.lanesIn ∧ s.runs y.lane = true)
    (hhome : entLane (s.entry (key / 128)) ∈ s.lanesIn) (hruns : s.runs (entLane (s.entry (key / 128))) = true) :
    let tile : RTile := { lba := 4 * key, st := 0, code := 0, at_ := s.us, srcs := srcs, data := List.replicate 16384 0 }
    s.returnStart 1 key false = doAll srcs (fun x u => u.addWork (Fin.ofNat 4 x.lane) (u.readCmd 0 1 (4 * key) none x))
      (s.onMap (fun m => { m with ret := m.ret ++ [
        { ns := 1, key := key, gen := (s.zone (key / 16384)).gen, tile := tile, left := 0
          ents := (s.overlay 1 key (s.zone (key / 16384)).gen).map (·.1), urgent := false, lane := entLane (s.entry (key / 128))
          since := s.us }] })) := by
  have found : (if 1 = 1 then s.resolve1 key 15 else (s.resolve2 key 15).map (fun l => l.filter (·.coast))) = some srcs := hfound
  rw [State.returnStart, found]
  exact if_neg (returnStart_free hes hsrcs hlanes hhome hruns rfl)

/-- The group of NSID 2 that goes home in the background: its coast places are queued to their lanes (R95 step 1). -/
theorem returnStart_group {key l : Nat} {pl : Nat × Nat × Nat} {found : List RSrc} {s : State} (hsec : s.sectorOf key = some (l, pl))
    (hes : s.overlay 2 key 0 ≠ []) (hfound : s.resolve2 key 15 = some found) (hsrcs : found.filter (·.coast) ≠ [])
    (hlanes : ∀ y ∈ found.filter (·.coast), y.lane ∈ s.lanesIn ∧ s.runs y.lane = true) (hhome : l ∈ s.lanesIn) (hruns : s.runs l = true)
    (hpool : ∀ k < 4, s.poolBlk 2 (key + k) = none) :
    let srcs := found.filter (·.coast)
    let tile : RTile := { lba := key, st := 0, code := 0, at_ := s.us, srcs := srcs, data := List.replicate 16384 0 }
    s.returnStart 2 key false = doAll srcs (fun x u => u.addWork (Fin.ofNat 4 x.lane) (u.readCmd 0 2 key none x))
      (s.onMap (fun m => { m with ret := m.ret ++ [
        { ns := 2, key := key, gen := 0, tile := tile, left := 0, ents := (s.overlay 2 key 0).map (·.1), urgent := false
          lane := (srcs.head?.map (·.lane)).getD l, since := s.us }] })) := by
  have places : (if 2 = 1 then s.resolve1 key 15 else (s.resolve2 key 15).map (fun l => l.filter (·.coast))) =
      some (found.filter (·.coast)) := by simp [hfound]
  have pool : (2 == 2 && (List.range 4).any (fun k => (s.poolBlk 2 (key + k)).isSome)) = false := by simpa using hpool
  rw [State.returnStart, places, hsec]
  exact if_neg (returnStart_free hes hsrcs hlanes hhome hruns pool)

/-- A tile of NSID 1 that has been read and merged is queued to its home slot; that it waits for one unit changes neither the good
slots nor the order of its bytes (R95 step 3). -/
theorem returnWrite_tile {r : RetJob} {s : State} {tr sl : Nat} (hns : r.ns = 1)
    (hslot : s.tileSlot (s.entry (r.key / 128)) (s.zone (r.key / 16384)).rate (r.key % 128) = some (tr, sl)) :
    let v := s.entry (r.key / 128); let d := s.zone (r.key / 16384)
    let w := s.onMap (fun m => { m with ret := m.ret.map (fun x => if x = r then { x with left := 1 } else x) })
    s.returnWrite r = w.addWork (Fin.ofNat 4 (entLane v)) {
      op := 1, surface := entSurface v, track := tr, start := sl, qtr := 0, count := 1, modsel := tileModsel d.rate,
      mask := w.goodMask (entSurface v) tr (w.slotsAt tr d.rate), tag := 0, deadline := none, cancelled := false,
      units := [MUnit.mk 0 (4 * r.key) d.gen 0 d.shuf 0 (w.homeOrder (4 * r.key) false r.tile.data)] } := by
  intro v d w
  have slots : w.goodMask (entSurface v) tr (w.slotsAt tr d.rate) = s.goodMask (entSurface v) tr (s.slotsAt tr d.rate) := rfl
  have order : w.homeOrder (4 * r.key) false r.tile.data = s.homeOrder (4 * r.key) false r.tile.data := rfl
  rw [slots, order, State.returnWrite, if_pos hns]
  dsimp only
  rw [hslot]

/-- Settles O56: the writes of MAP_CTL and MAP_CMD by the state of the cache (`writeMapCtl_enable`, `writeMapCtl_disable`,
`writeMapCmd_inv`, `writeMapCmd_ckpt`), fills and journal tiles as they land, and a return home from its sources (`returnStart_tile`,
`returnStart_group`) to its slot. -/
theorem mapCacheJournalAndReturnHome : Obligations.MapCacheJournalAndReturnHome := by
  refine ⟨?ctl, ?cmd, ?fill, ?clean, ?timeout, ?tile, ?checkpoint, ?tileHome, ?groupHome, ?written⟩
  case ctl =>
    intro p v s hacc hlow hhigh st t
    refine ⟨fun hen => ?_, fun hen => ?_⟩
    · have enable : exec (.mapCtlEn p v) s = .next _ := congrArg Host.Outcome.next (writeMapCtl_enable hacc hlow hhigh hen)
      refine ⟨fun h => ?_, fun h => ?_, ?_⟩
      · simp [enable, t, show s.get F.MAP_CSTAT_state = 0 from h]
      · simp [enable, show s.get F.MAP_CSTAT_state = 2 from h]
      · rintro (h | h) <;> simp [enable, t, show s.get F.MAP_CSTAT_state = _ from h]
    · have disable : exec (.mapCtlEn p v) s = .next _ := congrArg Host.Outcome.next (writeMapCtl_disable hacc hlow hhigh hen)
      refine ⟨fun h => ?_, fun h => ?_, ?_⟩
      · simp [disable, t, show s.get F.MAP_CSTAT_state = 1 from h]
      · simp [disable, t, show s.get F.MAP_CSTAT_state = 3 from h]
      · rintro (h | h) <;> simp [disable, t, show s.get F.MAP_CSTAT_state = _ from h]
  case cmd =>
    intro p s
    refine ⟨fun hacc => ⟨fun h => ?_, fun h => ?_⟩, fun hacc => ⟨fun h hready => ?_, fun h => ?_⟩⟩
    · exact congrArg Host.Outcome.next ((writeMapCmd_inv hacc).trans (if_pos h))
    · exact congrArg Host.Outcome.next ((writeMapCmd_inv hacc).trans (if_neg h))
    · exact congrArg Host.Outcome.next ((writeMapCmd_ckpt hacc).trans ((if_neg (by simp [h])).trans (if_pos hready)))
    · exact congrArg Host.Outcome.next ((writeMapCmd_ckpt hacc).trans (if_pos h))
  case fill =>
    intro line stale rest s hfills left t
    exact congrArg Host.Outcome.next (landFill_of_oldest hfills)
  case clean =>
    intro s
    have done : exec .mapCacheCleanDone s = execMapCacheCleanDone s := rfl
    exact ⟨fun h => by rw [done, execMapCacheCleanDone, h]; rfl, fun h => by rw [done, execMapCacheCleanDone, h]; rfl⟩
  case timeout =>
    intro s hopen hold hdrain
    exact congrArg Host.Outcome.next (if_pos ⟨by simpa using hopen, hold, by simp [hdrain]⟩)
  case tile =>
    intro t rest s hdrain hout u
    have landed : exec .journalTileOnMedia s = .next s.landJournal.pump := congrArg Host.Outcome.next (if_neg (by simp [hdrain]))
    exact ⟨fun h => by rw [landed, landJournal_of_done hout h], fun h => by rw [landed, landJournal_of_undone hout h]⟩
  case checkpoint =>
    intro retried j s hjob hcopied hdrain
    have ended : exec (.checkpointDone retried) s = execCheckpointDone retried s := rfl
    rw [ended, execCheckpointDone, hjob]
    have proceeds : ¬ (j.copied || s.draining) = true := by simp [hcopied, hdrain]
    refine ⟨fun hleft => congrArg Host.Outcome.next ((if_neg proceeds).trans (if_pos ?_)),
      fun hall => congrArg Host.Outcome.next ((if_neg proceeds).trans (if_neg ?_))⟩
    · simpa using hleft
    · simpa using hall
  case tileHome =>
    intro key srcs s hdrain hready z home es tile hbusy hnext hfits hes hfound hsrcs hlanes hhome hruns
    refine congrArg Host.Outcome.next (.trans ((if_neg ?_).trans ((if_neg (by decide)).trans (if_neg ?_)))
      (congrArg State.pump (returnStart_tile hes hfound hsrcs hlanes hhome hruns)))
    · simp [hdrain, hready]
    · simp [show s.returnBusy 1 (key / 16384) (entLane (s.entry (key / 128))) = false from hbusy,
        show s.returnNext (key / 16384) (entLane (s.entry (key / 128))) = some key from hnext,
        show s.backgroundFits (entLane (s.entry (key / 128))) = true from hfits]
  case groupHome =>
    intro key l pl found s hdrain hready hsec es srcs tile hbusy hfits hes hfound hsrcs hlanes hhome hruns hpool
    have goes : exec (.returnHome 2 key) s = execReturnHome 2 key s := rfl
    rw [goes, execReturnHome, hsec]
    refine congrArg Host.Outcome.next (.trans ((if_neg ?_).trans ((if_pos rfl).trans (if_neg ?_)))
      (congrArg State.pump (returnStart_group hsec hes hfound hsrcs hlanes hhome hruns hpool)))
    · simp [hdrain, hready]
    · simp [hbusy, hfits]
  case written =>
    intro r s hns hurgent v d u es more w
    refine ⟨fun tr sl hslot => ?_, fun hmore => ?_, fun hmore => ?_⟩
    · exact returnWrite_tile hns hslot
    · have last : (!more) = true := by rw [hmore]; rfl
      exact (if_pos hurgent).trans (congrArg (State.deleteEntries es) (if_pos ⟨hns, last⟩))
    · have others : ¬ (!more) = true := by rw [hmore]; exact Bool.false_ne_true
      exact (if_pos hurgent).trans (congrArg (State.deleteEntries es) (if_neg fun h => others h.2))

end Sys2Proof.Machine
end

section
/-! PROOFS. The transactions of the preamp port, the units that pass under a head and the outcomes of their decoding
(03_read_write_channel.md R106 to R149). -/

namespace Sys2Proof.Machine
open Sys2Proof

/-! ## The transaction of LANEn_PASCMD -/

/-- The transaction that a word written to LANEn_PASCMD asks for (R143). -/
def paFrameOf (n : Fin 4) (v : Word) : PaFrame :=
  { rd := (F.LANE_PASCMD_rd n).of v != 0, addr := (F.LANE_PASCMD_addr n).of v, data := (F.LANE_PASCMD_wdata n).of v, cmd := true }

/-- With busy at 0, the write sets busy and the transaction waits. -/
theorem writePascmd_of_free {p : Path} {n : Fin 4} {v : Word} {s : State} (hacc : s.accepts p (R.LANE_PASCMD n) v = true)
    (hfree : s.flag (F.LANE_PASCMD_busy n) = false) :
    s.writePascmd p n v = ((s.take (R.LANE_PASCMD n) v).put (F.LANE_PASCMD_busy n) 1).onLane n
      (fun l => { l with pheld := some (paFrameOf n v) }) := by
  obtain ⟨hrd, haddr, hdata⟩ := pascmd_take n v s
  refine (State.gated_of_accepts hacc hfree).trans ?_
  simp only [State.flag, hrd, haddr, hdata, paFrameOf]

/-- With busy at 1, the write breaks the rule of R143. -/
theorem writePascmd_of_busy {p : Path} {n : Fin 4} {v : Word} {s : State} (hacc : s.accepts p (R.LANE_PASCMD n) v = true)
    (hbusy : s.flag (F.LANE_PASCMD_busy n) = true) : s.writePascmd p n v = s.ignoreRule p (R.LANE_PASCMD n) :=
  State.gated_bad_of_accepts hacc hbusy

/-! ## The next frame of the port -/

section PortFree
variable {n : Fin 4} {f : PaFrame} {s : State} (hup : s.laneUp n = true) (hcur : (s.lane n).pcur = none)
include hup hcur

theorem portFree : ¬ ((s.lane n).pcur.isSome || !(s.laneUp n)) = true := by simp [hup, hcur]

/-- A frame of a strobe is sent ahead of all others (R199). -/
theorem pasFrameSend_strobe {rest : List PaFrame} (hq : (s.lane n).pq = f :: rest) :
    execPasFrameSend n s = .next (s.onLane n (fun l => { l with pq := rest, pcur := some f, pas := f.bits })) := by
  rw [execPasFrameSend, hq]
  exact congrArg Host.Outcome.next (if_neg (portFree hup hcur))

/-- A frame of a set load is sent where no strobe's waits (R146). -/
theorem pasFrameSend_setLoad {rest : List PaFrame} (hq : (s.lane n).pq = []) (hset : (s.lane n).pset = f :: rest) :
    execPasFrameSend n s = .next (s.onLane n (fun l => { l with pset := rest, pcur := some f, pas := f.bits })) := by
  rw [execPasFrameSend, hq, hset]
  exact congrArg Host.Outcome.next (if_neg (portFree hup hcur))

/-- The transaction is sent last, and with `WGn` low only (R143). -/
theorem pasFrameSend_held (hq : (s.lane n).pq = []) (hset : (s.lane n).pset = []) (hheld : (s.lane n).pheld = some f) :
    execPasFrameSend n s = .next (if s.flag (F.LANE_STAT_wg n) then s
      else s.onLane n (fun l => { l with pheld := none, pcur := some f, pas := f.bits })) := by
  rw [execPasFrameSend, hq, hset, hheld]
  exact congrArg Host.Outcome.next (if_neg (portFree hup hcur))

end PortFree

/-- Settles O35: a write that reaches the register acts by busy (`writePascmd_of_free`, `writePascmd_of_busy`), and an idle port
takes the frames of strobes, of set loads and of the transaction in this order, the last with `WGn` low only. -/
theorem preampTransactionsWaitForTheGate : Obligations.PreampTransactionsWaitForTheGate := by
  refine ⟨?free, ?busy, ?port⟩
  case free =>
    intro p n v s hacc hfree
    refine ⟨_, congrArg Host.Outcome.next (writePascmd_of_free hacc hfree), ?_, ?_, fun a ha => ?_⟩
    · rw [State.get_onLane, State.get_put_self _ _ _ (by simp [F.LANE_PASCMD_busy])]
      simp [F.LANE_PASCMD_busy]
    · rw [State.lane_onLane_self, paFrameOf]
    · rw [State.reg_onLane, reg_put_ne (f := F.LANE_PASCMD_busy n) ha, reg_take_ne v s ha]
  case busy =>
    intro p n v s hacc hbusy
    exact congrArg Host.Outcome.next (writePascmd_of_busy hacc hbusy)
  case port =>
    intro n f s hup hcur hheld
    have sends : exec (.pasFrameSend n) s = execPasFrameSend n s := rfl
    rw [sends]
    refine ⟨fun hq hset hlow => ?_, fun hq hset hhigh => ?_, fun g rest hahead => ?_⟩
    · rw [pasFrameSend_held hup hcur hq hset hheld, hlow]
      exact ⟨_, rfl, by simp⟩
    · rw [pasFrameSend_held hup hcur hq hset hheld, hhigh]
      rfl
    · rcases List.append_eq_cons_iff.mp hahead with ⟨hq, hset⟩ | ⟨strobes, hq, rfl⟩
      · exact ⟨_, pasFrameSend_setLoad hup hcur hq hset, by simp [hq, hheld]⟩
      · exact ⟨_, pasFrameSend_strobe hup hcur hq, by simp [hheld]⟩

/-! ## The begin of a unit -/

/-- Without a loaded set no unit begins (R149). -/
theorem unitBegin_of_unset {n : Fin 4} {m : BeginIn} {u : LUnit} {c : MediaCmd} {s : State} (hunit : (s.lane n).unit = some u)
    (hcur : (s.lane n).cur = some c) (hset : s.flag (F.LANE_STAT_setv n) = false) : execUnitBegin n m s = .next s := by
  rw [execUnitBegin, hunit, hcur]
  exact congrArg Host.Outcome.next (if_pos (by simp [hset]))

/-- With a loaded set, the unit that is due begins on a lane that executes, with no retune (R131, R138). -/
theorem unitBegin_of_set {n : Fin 4} {m : BeginIn} {u : LUnit} {c : MediaCmd} {s : State} (hunit : (s.lane n).unit = some u)
    (hcur : (s.lane n).cur = some c) (hbegun : u.begun = false) (hdue : u.due = true) (hruns : s.runsMicro n = true)
    (hlock : (s.lane n).retune = false) (hcoast : c.op = 2 → (s.lane n).left = false) (hset : s.flag (F.LANE_STAT_setv n) = true) :
    execUnitBegin n m s = .next (if u.write then s.beginWrite n u c m else s.beginRead n u c m) := by
  obtain ⟨hexec, hup⟩ : s.executing n = true ∧ s.laneUp n = true := by simpa [State.runsMicro] using hruns
  rw [execUnitBegin, hunit, hcur]
  exact congrArg Host.Outcome.next (if_neg (by simpa [hbegun, hdue, hexec, hup, hlock, hset] using hcoast))

/-- On a lane that stays at its rate, a write unit for which neither the command's FIFO nor a firmware channel's holds the whole
data is a write miss (R132, R217). -/
theorem beginWrite_miss {n : Fin 4} {m : BeginIn} {u : LUnit} {c : MediaCmd} {s : State} (hrate : s.halfNow n = (false, s))
    (hfw : decide ((s.lane n).wfifo = 0 ∨ m.starved = true) = true) (hport : (s.lane n).portUnit u.modsel = false) :
    s.beginWrite n u c m = s.writeMiss n := by
  rw [State.beginWrite, hrate]
  exact (if_neg Bool.false_ne_true).trans (if_pos ⟨of_decide_eq_true hfw, by simp [hport]⟩)

/-- With its whole data there, its transitions go out, and what lay at its place is lost while `WGn` is high (R131). -/
theorem beginWrite_goes {n : Fin 4} {m : BeginIn} {u : LUnit} {c : MediaCmd} {s : State} (hrate : s.halfNow n = (false, s))
    (hdata : decide ((s.lane n).wfifo = 0 ∨ m.starved = true) = false ∨ (s.lane n).portUnit u.modsel = true) :
    let w := { u with fw := decide ((s.lane n).wfifo = 0 ∨ m.starved = true) }
    let t := s.headTile n c w
    let v := (s.onLane n (fun l => { l with
      unit := some { w with begun := true }, wd := t.written l.front.precomp (s.fieldsOf n w) })).setGates n
    s.beginWrite n u c m = if v.flag (F.LANE_STAT_wg n) then v.onMedia (fun d => { d with
      tiles := d.tiles.filter (fun x => x.1 != physKey (v.under n).1 (v.under n).2 u.pos t.place.qtr) }) else v := by
  intro w t v
  rw [State.beginWrite, hrate]
  refine (if_neg Bool.false_ne_true).trans (if_neg ?_)
  rintro ⟨hempty, hport⟩
  rcases hdata with hfull | hthere
  · exact of_decide_eq_false hfull hempty
  · simp [hthere] at hport

/-! ## The end mark of a unit -/

theorem unitEndMark_passed {n : Fin 4} {err : List Nat} {u : LUnit} {c : MediaCmd} {s : State} (hunit : (s.lane n).unit = some u)
    (hcur : (s.lane n).cur = some c) (hbegun : u.begun = true) (hleft : u.left = 0) :
    execUnitEndMark n err s = .next (if u.write then s.endWrite n u c err
      else if u.loop || (s.lane n).readRoom u.modsel then s.endRead n u c else s) := by
  rw [execUnitEndMark, hunit, hcur]
  exact congrArg Host.Outcome.next (if_neg (by simp [hbegun, hleft]))

/-! ## On-the-fly decoding -/

/-- The zero syndromes of a decode that the limits of LANEn_CTL allow, each with its global iteration and its codeword (R115). -/
def State.zeroSyndromes (s : State) (n : Fin 4) (p : Machine.PUnit) (dec : List (Option (Nat × Codeword))) : List (Nat × Codeword) :=
  (dec.take (s.get (F.LANE_CTL_iterg n))).zipIdx.filterMap (fun d => match d.1 with
    | some (l, w) => if l ≤ s.get (F.LANE_CTL_iterl n) ∧ (w = .stored → (s.thereAt n p).isSome) then some (d.2, w) else none
    | none => none)

/-- A zero syndrome that counts lies within both limits. -/
theorem mem_zeroSyndromes {n : Fin 4} {p : Machine.PUnit} {dec : List (Option (Nat × Codeword))} {s : State} {g : Nat} {w : Codeword}
    (h : (g, w) ∈ s.zeroSyndromes n p dec) : g < s.get (F.LANE_CTL_iterg n) ∧
      ∃ l, some (l, w) ∈ dec.take (s.get (F.LANE_CTL_iterg n)) ∧ l ≤ s.get (F.LANE_CTL_iterl n) := by
  obtain ⟨⟨_ | ⟨l, v⟩, i⟩, hmem, hends⟩ := List.mem_filterMap.mp h
  · simp at hends
  obtain ⟨⟨hl, -⟩, rfl, rfl⟩ : (l ≤ s.get (F.LANE_CTL_iterl n) ∧ _) ∧ i = g ∧ v = w := by simpa using hends
  have index : i < (dec.take (s.get (F.LANE_CTL_iterg n))).length := by simpa using List.snd_lt_add_of_mem_zipIdx hmem
  exact ⟨index.trans_le (List.length_take_le ..), l, List.fst_mem_of_mem_zipIdx hmem, hl⟩

section Decodes
variable {n : Fin 4} {dec : List (Option (Nat × Codeword))} {p : Machine.PUnit} {s : State} (hgood : p.bad = false)
include hgood

/-- Without a sync mark nothing is decoded: NOSYNC. -/
theorem decode_of_nosync (hsync : p.heard.sync = none) : s.decode n p dec = (4, none) := by
  simp [State.decode, hgood, hsync]

/-- What a decode ends with: FAIL without a zero syndrome; with the first one, OK1 or OK2 where its codeword is a tile, else MISC. -/
theorem decode_of_sync (hsync : p.heard.sync ≠ none) : s.decode n p dec = (s.zeroSyndromes n p dec).head?.elim (2, none)
    (fun z => (z.2.tile (s.thereAt n p) (p.slot n)).elim (3, none) (fun t => (if z.1 = 0 then 0 else 1, some t))) := by
  rw [State.decode]
  refine (if_neg (by simp [hgood])).trans ((if_neg (by simpa using hsync)).trans ?_)
  split
  case h_1 ends => rw [show s.zeroSyndromes n p dec = [] from ends]; rfl
  case h_2 g w rest ends =>
    rw [show s.zeroSyndromes n p dec = (g, w) :: rest from ends]
    change _ = (w.tile (s.thereAt n p) (p.slot n)).elim _ _
    cases w.tile (s.thereAt n p) (p.slot n) <;> rfl

/-- Where every zero syndrome comes after the last local iteration, the decode ends FAIL. -/
theorem decode_of_late (hsync : p.heard.sync ≠ none) (hlate : ∀ x ∈ dec.take (s.get (F.LANE_CTL_iterg n)), ∀ l w, x = some (l, w) →
    s.get (F.LANE_CTL_iterl n) < l) : s.decode n p dec = (2, none) := by
  have none_counts : s.zeroSyndromes n p dec = [] := List.eq_nil_iff_forall_not_mem.mpr fun z hz => by
    obtain ⟨-, l, hmem, hl⟩ := mem_zeroSyndromes hz
    exact absurd (hlate _ hmem l _ rfl) (by omega)
  rw [decode_of_sync hgood hsync, none_counts]
  rfl

/-- OK2 takes a second global iteration. -/
theorem decode_ne_ok2 (hone : s.get (F.LANE_CTL_iterg n) = 1) : (s.decode n p dec).1 ≠ 1 := by
  by_cases hsync : p.heard.sync = none
  · simp [decode_of_nosync hgood hsync]
  rw [decode_of_sync hgood hsync]
  rcases hz : (s.zeroSyndromes n p dec).head? with _ | ⟨g, w⟩
  · simp
  have first : g = 0 := by
    have := (mem_zeroSyndromes (List.mem_of_head? hz)).1
    omega
  change Prod.fst ((w.tile (s.thereAt n p) (p.slot n)).elim _ _) ≠ 1
  cases w.tile (s.thereAt n p) (p.slot n) <;> simp [first]

end Decodes

/-! ## The outcome of a decode -/

/-- What the oldest posted unit does once its decode `d` has ended, where the read FIFO had no uncorrectable error: an outcome that is
neither OK1 nor OK2 is INCOMPLETE (5) where the brine is not whole (R117). -/
theorem tileOutcomePost_of_posted {n : Fin 4} (its : List (Option Nat)) (words : List Codeword) {p : Machine.PUnit}
    {rest : List Machine.PUnit} {s : State} (hposted : (s.lane n).posted = p :: rest) :
    let s0 := s.onLane n (fun l => { l with posted := rest })
    let d := s0.decode n p (decoded its words); let whole := p.captured && s0.crysOn && s0.recorded n p
    let o := if d.1 ≤ 1 ∨ whole = true then d.1 else 5
    let s1 := (s0.learn n p o).headRecord n p o; let s2 := doIf (o == 1) (State.inc (F.LANE_OK2CNT_count n)) s1
    exec (.tileOutcomePost n its words false) s = .next (if p.loop = true then s1
      else if o = 5 then (((s1.inc (F.LANE_INCCNT_count n)).markRead p).reread n p 0xF3).pump
      else if o ≤ 1 then (d.2.filter (fun t => t.wanted p.mu)).elim
        (if whole = true then (s2.markRead p).crysQueue n p else ((s2.markRead p).reread n p 0xF3).pump)
        (fun t => ((s2.bufMoved n false (natBits p.modsel 6 2 == 0) p.mu).unitRead p t.data).pump)
      else ((s1.inc (if o = 4 then F.LANE_NOSYNCCNT_count n else F.LANE_FAILCNT_count n)).markRead p).crysQueue n p) := by
  intro s0 d whole o s1 s2
  have incomplete : (if (false || (decide (2 ≤ d.1) && !whole)) = true then 5 else d.1) = o := by
    by_cases hd : d.1 ≤ 1
    · simp [o, hd, show ¬ 2 ≤ d.1 by omega]
    · cases hw : whole <;> simp [o, hd, hw, show 2 ≤ d.1 by omega]
  have posts : exec (.tileOutcomePost n its words false) s = execTileOutcomePost n its words false s := rfl
  rw [posts, execTileOutcomePost, hposted]
  simp only [Bool.false_eq_true, if_false]
  rw [incomplete]
  refine congrArg Host.Outcome.next (if_congr Iff.rfl rfl (if_congr Iff.rfl rfl (if_congr Iff.rfl ?_ rfl)))
  split
  case h_1 t found => rw [show d.2.filter (fun t => t.wanted p.mu) = some t from found]; rfl
  case h_2 found => rw [show d.2.filter (fun t => t.wanted p.mu) = none from found]; rfl

/-- Settles O37: a unit that is due begins, or is a write miss, as its set and its data are there (`unitBegin_of_set`,
`beginWrite_miss`, `beginWrite_goes`); what has begun ends at its mark (`unitEndMark_passed`); the outcome follows the class of the
decode (`tileOutcomePost_of_posted`); and a decode is bounded by the limits of LANEn_CTL (`decode_of_late`, `decode_ne_ok2`). -/
theorem unitsAndOutcomes : Obligations.UnitsAndOutcomes := by
  refine ⟨?begin, ?endMark, ?outcome, ?decode⟩
  case begin =>
    intro n m u c s hunit hcur hbegun hdue hruns hlock hcoast fw w t v
    have begins (hset : s.flag (F.LANE_STAT_setv n) = true) :
        exec (.unitBegin n m) s = .next (if u.write then s.beginWrite n u c m else s.beginRead n u c m) :=
      unitBegin_of_set hunit hcur hbegun hdue hruns hlock hcoast hset
    refine ⟨unitBegin_of_unset hunit hcur, fun hset hread => ?_, fun hset hwrite hrate hfw hport => ?_,
      fun hset hwrite hrate hdata => ?_⟩
    · rw [begins hset, hread]
      rfl
    · rw [begins hset, if_pos hwrite, beginWrite_miss hrate hfw hport]
    · rw [begins hset, if_pos hwrite, beginWrite_goes hrate hdata]
  case endMark =>
    intro n err u c s hunit hcur hbegun hleft
    have ends : exec (.unitEndMark n err) s = .next (if u.write then s.endWrite n u c err
        else if u.loop || (s.lane n).readRoom u.modsel then s.endRead n u c else s) :=
      unitEndMark_passed hunit hcur hbegun hleft
    refine ⟨fun hwrite => ?_, fun hread hroom => ?_, fun hread hloop hroom => ?_⟩
    · rw [ends, if_pos hwrite]
    · rw [ends, hread]
      exact congrArg Host.Outcome.next ((if_neg Bool.false_ne_true).trans (if_pos (by simpa using hroom)))
    · rw [ends, hread, hloop, hroom]
      rfl
  case outcome =>
    intro n its words p rest s hposted s0 d whole o s1 s2
    have posts := tileOutcomePost_of_posted its words hposted
    have once {x y : State} (h : p.loop = false) : (if p.loop = true then x else y) = y := if_neg (by simp [h])
    have good (hloop : p.loop = false) (hgood : d.1 ≤ 1) : exec (.tileOutcomePost n its words false) s =
        .next ((d.2.filter (fun t => t.wanted p.mu)).elim
          (if whole = true then (s2.markRead p).crysQueue n p else ((s2.markRead p).reread n p 0xF3).pump)
          (fun t => ((s2.bufMoved n false (natBits p.modsel 6 2 == 0) p.mu).unitRead p t.data).pump)) :=
      have ho : o = d.1 := if_pos (.inl hgood)
      posts.trans (congrArg Host.Outcome.next ((once hloop).trans ((if_neg (show ¬ o = 5 by omega)).trans
        (if_pos (show o ≤ 1 by omega)))))
    refine ⟨fun hloop => ?loop, fun hloop hbad hbrine => ?incomplete, fun hloop hbad hmost hbrine => ?crystallized,
      fun t hloop hgood htile hwanted => ?delivered, fun t hloop hgood htile hother => ?other⟩
    case loop => exact posts.trans (congrArg Host.Outcome.next (if_pos hloop))
    case incomplete =>
      have ho : o = 5 := if_neg (by simp [hbrine]; omega)
      exact posts.trans (congrArg Host.Outcome.next ((once hloop).trans (if_pos ho)))
    case crystallized =>
      have ho : o = d.1 := if_pos (.inr hbrine)
      refine posts.trans (congrArg Host.Outcome.next ((once hloop).trans ((if_neg (show ¬ o = 5 by omega)).trans
        ((if_neg (show ¬ o ≤ 1 by omega)).trans ?_))))
      exact congrArg (fun x => ((s1.inc (if x = 4 then _ else _)).markRead p).crysQueue n p) ho
    case delivered =>
      have found : d.2.filter (fun t => t.wanted p.mu) = some t := by simp [htile, hwanted]
      exact (good hloop hgood).trans (by rw [found]; rfl)
    case other =>
      have found : d.2.filter (fun t => t.wanted p.mu) = none := by simp [htile, hother]
      exact (good hloop hgood).trans (by rw [found]; rfl)
  case decode =>
    intro n dec p s hgood
    exact ⟨decode_of_nosync hgood, decode_of_late hgood, decode_ne_ok2 hgood⟩

end Sys2Proof.Machine
end

section
/-! PROOFS. The dispatch of the crystallizer's queue (04_crystallizer.md R166 and R168). -/

namespace Sys2Proof.Machine
open Sys2Proof

/-- The time left to an entry's deadline, as CRYS compares it (R166). -/
def State.timeLeft (s : State) (x : CrysEnt) : Nat := (x.deadline.getD 0 + 2 ^ 32 - s.ctrTime + 2 ^ 31) % 2 ^ 32

section NextEntry
variable {s : State}

/-- With class 0 entries queued, the next entry is one of them, with the least time left among them. -/
theorem nextEntry_of_class0 {x : CrysEnt} {xs : List CrysEnt} (hzero : s.crys.queue.filter (fun y => y.cls == 0) = x :: xs) :
    ∃ m, s.nextEntry = some m ∧ m ∈ s.crys.queue ∧ m.cls = 0 ∧ ∀ y ∈ s.crys.queue, y.cls = 0 → s.timeLeft m ≤ s.timeLeft y := by
  obtain ⟨hmem, hleast⟩ := foldl_min s.timeLeft xs x
  rw [← hzero] at hmem hleast
  obtain ⟨hqueued, hcls⟩ := List.mem_filter.mp hmem
  refine ⟨_, ?_, hqueued, by simpa using hcls, fun y hy hy0 => hleast y (List.mem_filter.mpr ⟨hy, by simp [hy0]⟩)⟩
  rw [State.nextEntry, hzero]
  rfl

/-- With no class 0 entry queued, the next entry is the first of class 1, or else the head of the queue. -/
theorem nextEntry_of_no_class0 (hzero : s.crys.queue.filter (fun y => y.cls == 0) = []) :
    s.nextEntry = (s.crys.queue.find? (fun y => y.cls == 1)).or s.crys.queue.head? := by
  rw [State.nextEntry, hzero]
  exact Option.orElse_eq_or

/-- The next entry is queued, of the lowest class queued, and in class 0 of the least time left. -/
theorem nextEntry_spec (hqueue : s.crys.queue ≠ []) (hcls : ∀ y ∈ s.crys.queue, y.cls ≤ 2) :
    ∃ x ∈ s.crys.queue, s.nextEntry = some x ∧ (∀ y ∈ s.crys.queue, x.cls ≤ y.cls) ∧
      (x.cls = 0 → ∀ y ∈ s.crys.queue, y.cls = 0 → s.timeLeft x ≤ s.timeLeft y) := by
  cases hzero : s.crys.queue.filter (fun y => y.cls == 0) with
  | cons x xs =>
    obtain ⟨m, hnext, hmem, hm, hleast⟩ := nextEntry_of_class0 hzero
    exact ⟨m, hmem, hnext, fun y _ => by omega, fun _ => hleast⟩
  | nil =>
    have above0 : ∀ y ∈ s.crys.queue, y.cls ≠ 0 := by simpa using List.filter_eq_nil_iff.mp hzero
    have next := nextEntry_of_no_class0 hzero
    cases hone : s.crys.queue.find? (fun y => y.cls == 1) with
    | some x =>
      have hx : x.cls = 1 := by simpa using List.find?_some hone
      refine ⟨x, List.mem_of_find?_eq_some hone, by rw [next, hone]; rfl, fun y hy => ?_, fun h => by omega⟩
      have := above0 y hy
      omega
    | none =>
      have above1 : ∀ y ∈ s.crys.queue, y.cls ≠ 1 := by simpa using List.find?_eq_none.mp hone
      obtain ⟨x, rest, hcons⟩ := List.exists_cons_of_ne_nil hqueue
      have hx : x ∈ s.crys.queue := by simp [hcons]
      refine ⟨x, hx, by rw [next, hone, hcons]; rfl, fun y hy => ?_, fun h => absurd h (above0 x hx)⟩
      have := hcls x hx
      have := above0 y hy
      have := above1 y hy
      omega

end NextEntry

/-- With CRYS running, the first idle engine in service takes the next entry and begins its load phase (R168). -/
theorem crysDispatch_takes {e : Nat} {x : CrysEnt} {s : State}
    (hidle : (List.range s.variant.lanes).find? (fun e => (s.engine e).ent.isNone && !(s.bit F.CRYS_STAT_offline e)) = some e)
    (hnext : s.nextEntry = some x) (hruns : s.dom 4 ≤ 1) :
    exec .crysDispatch s = .next ((((((s.onCrys (fun c => { c with queue := c.queue.filter (fun y => y.ord != x.ord) })).onEngine e (fun _ => {
        Engine.idle with ent := some x, at_ := s.us, itmax := s.get F.CRYS_CTL_itmax, iti := s.flag F.CRYS_CTL_iti && !x.neigh.isEmpty })).put
          (F.CRYS_ENG_phase e) 1).put (F.CRYS_ENG_iter e) 0)).syncCrys) := by
  have dispatch : exec .crysDispatch s = execCrysDispatch s := rfl
  rw [dispatch, execCrysDispatch, hidle, hnext]
  exact congrArg Host.Outcome.next (if_neg (by omega))

/-- Settles O38: the entry that CRYS_DISPATCH takes is `State.nextEntry`, which is of the lowest class and in class 0 of the earliest
deadline (`nextEntry_spec`, `crysDispatch_takes`). -/
theorem dispatchTakesTheLowestClass : Obligations.DispatchTakesTheLowestClass := by
  intro e s hidle hruns hqueue hcls left
  obtain ⟨x, hmem, hnext, hlow, hleast⟩ := nextEntry_spec hqueue hcls
  exact ⟨x, hmem, hlow, hleast, crysDispatch_takes hidle hnext hruns⟩

end Sys2Proof.Machine
end

section
/-! PROOFS. The engines of the crystallizer, the ageing and expiry of its queue, and its commands (04_crystallizer.md R159 to R184). -/

namespace Sys2Proof.Machine
open Sys2Proof

/-! ## Engines -/

/-- An engine that holds an entry is one of the engines. -/
theorem engine_lt_of_ent {e : Nat} {x : CrysEnt} {s : State} (hent : (s.engine e).ent = some x) : e < s.crys.eng.length := by
  by_contra hout
  have idle : s.engine e = Engine.idle := List.getD_eq_default _ _ (by omega)
  simp [idle, Engine.idle] at hent

theorem engine_onEngine_self {e : Nat} (f : Engine → Engine) {s : State} (he : e < s.crys.eng.length) :
    (s.onEngine e f).engine e = f (s.engine e) := by
  simp [State.engine, State.onEngine, State.onCrys, he]

/-- Without a local store error, an engine whose entry is not cancelled goes on (R175, R182). -/
theorem engineStops_of_clear {e : Nat} {s : State} (hcancel : (s.engine e).cancel = false) : s.engineStops e false = none := by
  simp [State.engineStops, hcancel]

/-! ## The end of a phase -/

/-- What the end of phase `ph` makes of an entry that nothing stops (R170): load, sync, prepare, and else finish. -/
def State.phaseResult (e : Nat) (brine : List Nat) (sync : Option Nat) (x : CrysEnt) (s : State) (ph : Nat) : State :=
  match ph with
  | 1 => s.engineLoad e x brine
  | 2 => if !x.nosync || sync.any (fun k => decide (k ≤ 12)) then s.put (F.CRYS_ENG_phase e) 3 else s.engineEnd e 3 []
  | 3 => (s.onEngine e (fun g => { g with store := g.store.prepare })).put (F.CRYS_ENG_phase e) 4
  | _ => s.engineFinish e x

section PhaseEnd
variable {e : Fin 4} (brine : List Nat) (sync : Option Nat) {x : CrysEnt} {ph : Nat} {s : State}
  (hent : (s.engine e).ent = some x) (hcancel : (s.engine e).cancel = false) (hphase : s.get (F.CRYS_ENG_phase e) = ph)
include hent hcancel hphase

/-- A phase but idle and iterate ends EXPIRED where the entry has expired before finish, and else with the phase's own result. -/
theorem enginePhaseEnd_of_held (hbusy : ph ≠ 0) (hiter : ph ≠ 4) : exec (.enginePhaseEnd e brine false sync) s =
    .next (if ph ≠ 5 ∧ s.expired x = true then s.engineEnd e 4 [] else s.phaseResult e brine sync x ph) := by
  have ends : exec (.enginePhaseEnd e brine false sync) s = execEnginePhaseEnd e brine false sync s := rfl
  rw [ends, execEnginePhaseEnd, hent, engineStops_of_clear hcancel, hphase]
  exact congrArg Host.Outcome.next (if_neg (by omega))

theorem enginePhaseEnd_of_expired (hbusy : 1 ≤ ph) (hearly : ph ≤ 3) (hexp : s.expired x = true) :
    exec (.enginePhaseEnd e brine false sync) s = .next (s.engineEnd e 4 []) := by
  rw [enginePhaseEnd_of_held brine sync hent hcancel hphase (by omega) (by omega), if_pos ⟨by omega, hexp⟩]

theorem enginePhaseEnd_of_unexpired (hbusy : ph ≠ 0) (hiter : ph ≠ 4) (hgoes : ph = 5 ∨ s.expired x = false) :
    exec (.enginePhaseEnd e brine false sync) s = .next (s.phaseResult e brine sync x ph) := by
  rw [enginePhaseEnd_of_held brine sync hent hcancel hphase hbusy hiter, if_neg]
  rintro ⟨hearly, hexp⟩
  simp [hearly, hexp] at hgoes

end PhaseEnd

/-- The sync phase goes on where the mark was found on the fly or its best match has at most 12 symbol errors (R170). -/
theorem phaseResult_sync (e : Nat) (brine : List Nat) (sync : Option Nat) (x : CrysEnt) (s : State) :
    s.phaseResult e brine sync x 2 = if x.nosync = false ∨ (∃ k, sync = some k ∧ k ≤ 12) then s.put (F.CRYS_ENG_phase e) 3
      else s.engineEnd e 3 [] := by
  refine if_congr ?_ rfl rfl
  cases sync <;> simp

/-! ## The finish phase -/

section Finish
variable {e : Nat} {x : CrysEnt} {s : State}

/-- The codeword found is a tile: the one wanted, or a miscorrection (R174, R178). -/
theorem engineFinish_of_tile {t : Tile} (hfound : (s.engine e).store.word.bind
    (fun w => w.tile (s.thereAt x.lane x.unit) (x.unit.slot x.lane)) = some t) :
    s.engineFinish e x = if t.wanted x.unit.mu then s.engineEnd e 0 t.data else s.engineEnd e 1 [] := by
  rw [State.engineFinish, hfound]

/-- The codeword found is no tile: MISC where the stop time or the last iteration has come, else iterating goes on (R174). -/
theorem engineFinish_of_no_tile (hfound : (s.engine e).store.word.bind
    (fun w => w.tile (s.thereAt x.lane x.unit) (x.unit.slot x.lane)) = none) :
    s.engineFinish e x = if s.expired x ∨ (s.engine e).itmax ≤ s.get (F.CRYS_ENG_iter e) then s.engineEnd e 1 []
      else (s.onEngine e (fun g => { g with misc := true, store := { (s.engine e).store with word := none, damp := true } })).put
        (F.CRYS_ENG_phase e) 4 := by
  rw [State.engineFinish, hfound]
  rfl

end Finish

/-! ## The end of an iteration -/

/-- The state after the engine's work on its local store, with codeword `w` found in it, and the count of the iteration (R171). -/
def State.iterated (e : Nat) (x : CrysEnt) (w : Option Codeword) (s : State) : State :=
  (s.onEngine e (fun g => { g with store := { (s.engine e).store.iterate (codeIdx (s.fieldsAt x.unit)) (s.engine e).iti
    (s.get (F.CRYS_ENG_iter e)) (s.get (F.LANE_EQMU_mu x.lane)) with word := w } })).inc (F.CRYS_ENG_iter e)

theorem cancel_iterated {e : Nat} {x : CrysEnt} {s : State} (w : Option Codeword) (hent : (s.engine e).ent = some x) :
    ((s.iterated e x w).engine e).cancel = (s.engine e).cancel := by
  have same : (s.iterated e x w).engine e = (s.onEngine e (fun g => { g with store := { (s.engine e).store.iterate
    (codeIdx (s.fieldsAt x.unit)) (s.engine e).iti (s.get (F.CRYS_ENG_iter e)) (s.get (F.LANE_EQMU_mu x.lane)) with
      word := w } })).engine e := rfl
  rw [same, engine_onEngine_self _ (engine_lt_of_ent hent)]

/-- An iteration ends with a zero syndrome, EXPIRED, without an iteration over, or with the next to come (R171, R174, R176). -/
theorem engineIterationEnd_of_held {e : Fin 4} {x : CrysEnt} (w : Option Codeword) {s : State} (hent : (s.engine e).ent = some x)
    (hcancel : (s.engine e).cancel = false) (hphase : s.get (F.CRYS_ENG_phase e) = 4) :
    let z := w.filter (fun w => w != .stored || (s.thereAt x.lane x.unit).isSome)
    let t := s.iterated e x z
    exec (.engineIterationEnd e w false) s = .next (if z.isSome then t.put (F.CRYS_ENG_phase e) 5
      else if t.expired x then t.engineEnd e 4 []
      else if (t.engine e).itmax ≤ t.get (F.CRYS_ENG_iter e) then t.engineEnd e (if (t.engine e).misc then 1 else 2) []
      else t) := by
  intro z t
  have ends : exec (.engineIterationEnd e w false) s = execEngineIterationEnd e w false s := rfl
  have goes : t.engineStops e false = none := engineStops_of_clear ((cancel_iterated z hent).trans hcancel)
  rw [ends, execEngineIterationEnd, hent]
  refine congrArg Host.Outcome.next ((if_neg (by simp [hphase])).trans ?_)
  change (match t.engineStops e false with | some u => u | none => _) = _
  rw [goes]
  rfl

/-! ## The queue -/

/-- Entries that none has expired stay as they are (R176). -/
theorem class0Expire_of_none {s : State} (hlive : ∀ x ∈ s.crys.queue, s.expired x = false) :
    exec .class0ExpireUndispatched s = .next s := by
  have late : s.crys.queue.filter s.expired = [] := by simpa using hlive
  have stay : s.crys.queue.filter (fun x => !(s.expired x)) = s.crys.queue := by simpa using hlive
  have ends : exec .class0ExpireUndispatched s = execClass0ExpireUndispatched s := rfl
  rw [ends, execClass0ExpireUndispatched, late, State.onCrys, stay]
  rfl

/-! ## Commands -/

/-- An accepted write of CRYS_CMD that names only engines offline and not under test, and lanes that are there, starts the tests and
clears the records without a pin (R159, R184). -/
theorem writeCrysCmd_of_accepts {p : Path} {v : Word} {s : State} (hacc : s.accepts p R.CRYS_CMD v = true)
    (hon : ∀ i : Fin 4, (F.CRYS_CMD_engon.of v).testBit i = true →
      i < s.variant.lanes ∧ s.bit F.CRYS_STAT_offline i = true ∧ (s.engine i).test = false)
    (hclr : ∀ i : Fin 4, (F.CRYS_CMD_dirclr.of v).testBit i = true → i < s.variant.lanes) :
    s.writeCrysCmd p v =
      doAll ((List.range 4).filter (F.CRYS_CMD_dirclr.of v).testBit) (fun n t => t.onDir n (fun d => d.filter (fun r => decide (0 < r.pins))))
        (doAll ((List.range 4).filter (F.CRYS_CMD_engon.of v).testBit) (fun e t => t.onEngine e (fun g => { g with test := true })) s) := by
  unfold State.writeCrysCmd
  refine State.gated_of_accepts hacc (List.any_eq_false.mpr fun i hi => ?_)
  have lt : i < 4 := List.mem_range.mp hi
  have on := hon ⟨i, lt⟩
  have clr := hclr ⟨i, lt⟩
  simp only [Bool.or_eq_true, Bool.and_eq_true, Bool.not_eq_true', decide_eq_true_eq]
  rintro (⟨hbit, (hlane | honline) | htest⟩ | ⟨hbit, hlane⟩)
  · exact absurd (on hbit).1 (by simpa using hlane)
  · simp [(on hbit).2.1] at honline
  · simp [(on hbit).2.2] at htest
  · exact absurd (clr hbit) (by simpa using hlane)

/-- Settles O39: an engine's phase ends EXPIRED or with the phase's own result (`enginePhaseEnd_of_expired`,
`enginePhaseEnd_of_unexpired`), the finish follows the codeword found (`engineFinish_of_tile`, `engineFinish_of_no_tile`), an iteration
ends in one of four ways (`engineIterationEnd_of_held`), and the events and commands do what their guards let them do. -/
theorem enginePhases : Obligations.EnginePhases := by
  refine ⟨?phase, ?finish, ?iteration, ?watchdog, ?ageing, ?expiry, ?command, ?test, ?longest⟩
  case phase =>
    intro e brine sync x s hent hcancel
    have goes {ph : Nat} (hphase : s.get (F.CRYS_ENG_phase e) = ph) := enginePhaseEnd_of_unexpired brine sync hent hcancel hphase
    refine ⟨fun hexp hphase => goes hphase (by decide) (by decide) (.inr hexp), fun hexp hphase => ?_,
      fun hexp hphase => goes hphase (by decide) (by decide) (.inr hexp),
      fun hexp hbusy hearly => enginePhaseEnd_of_expired brine sync hent hcancel rfl hbusy hearly hexp,
      fun hphase => goes hphase (by decide) (by decide) (.inl rfl)⟩
    rw [goes hphase (by decide) (by decide) (.inr hexp), phaseResult_sync]
  case finish =>
    intro e x s found
    refine ⟨fun t hfound => engineFinish_of_tile hfound, fun hfound hlive hleft => ?_, fun hfound hlast => ?_⟩
    · rw [engineFinish_of_no_tile hfound, if_neg (by simp [hlive, hleft])]
    · rw [engineFinish_of_no_tile hfound, if_pos hlast]
  case iteration =>
    intro e x w s hent hcancel hphase z t
    have ends := engineIterationEnd_of_held w hent hcancel hphase
    have nothing (hz : z = none) : ¬ z.isSome = true := by simp [hz]
    refine ⟨fun hz => ?zero, fun hz hexp => ?expired, fun hz hlive hlast => ?last, fun hz hlive hleft => ?next⟩
    case zero => exact ends.trans (congrArg Host.Outcome.next (if_pos (Option.isSome_iff_ne_none.mpr hz)))
    case expired => exact ends.trans (congrArg Host.Outcome.next ((if_neg (nothing hz)).trans (if_pos hexp)))
    case last =>
      exact ends.trans (congrArg Host.Outcome.next ((if_neg (nothing hz)).trans ((if_neg (ne_true_of_eq_false hlive)).trans (if_pos hlast))))
    case next =>
      exact ends.trans (congrArg Host.Outcome.next ((if_neg (nothing hz)).trans ((if_neg (ne_true_of_eq_false hlive)).trans
        (if_neg (Nat.not_le.mpr hleft)))))
  case watchdog =>
    intro e s hent hlong
    exact congrArg Host.Outcome.next (if_pos ⟨hent, hlong⟩)
  case ageing =>
    intro s hage
    exact congrArg Host.Outcome.next (if_neg hage)
  case expiry =>
    intro s
    have ends : exec .class0ExpireUndispatched s = .next (doAll (s.crys.queue.filter s.expired) (fun x t => (t.unpin x).crysEnd x 4 false [])
        (s.onCrys (fun c => { c with queue := c.queue.filter (fun x => !(s.expired x)) }))) := rfl
    exact ⟨class0Expire_of_none, fun x hone => by rw [ends, hone]; rfl, ends⟩
  case command =>
    intro p v s hacc hon hclr t u
    have acts : exec (.crysEngon p v) s = .next u := congrArg Host.Outcome.next (writeCrysCmd_of_accepts hacc hon hclr)
    exact ⟨acts, acts⟩
  case test =>
    intro e s htest t
    have runs : ¬ (!(s.engine e).test) = true := by simp [htest]
    exact ⟨congrArg Host.Outcome.next (if_neg runs), congrArg Host.Outcome.next (if_neg runs)⟩
  case longest =>
    intro p v s hacc hclr
    refine ⟨_, congrArg Host.Outcome.next ((State.gated_of_accepts hacc rfl).trans (if_pos hclr)), ?_, fun a ha => ?_⟩
    · rw [State.get_put_self _ _ _ (by decide), Nat.zero_mod]
    · rw [reg_put_ne (f := F.CRYS_MAXUS_max) ha]

end Sys2Proof.Machine
end

section
/-! PROOFS. The buffer and tile operations of a lane that executes microcode (05_track_sequencer.md R189 to R216, R228). -/

namespace Sys2Proof.Machine
open Sys2Proof

/-! ## Operations without a fault -/

/-- On a lane that executes, an operation without a fault has its effect (R228). -/
theorem micro_of_good {n : Fin 4} {fault : Option Nat} {f : State → State} {s : State} (hruns : s.runsMicro n = true) (hgood : fault = none) :
    s.micro n fault f = f s := by
  rw [micro_of_runs s n hruns, hgood]

theorem faultIf_false {b : Bool} (hb : b = false) (c : Nat) : faultIf b c = none := by rw [hb]; rfl

section Held
variable {n : Fin 4} {c : MediaCmd} {s : State} (hcur : (s.lane n).cur = some c)
include hcur

theorem bufopBad_cmddone (hdone : s.get (F.MCS_CC0_count n) = 0 ∨ c.cancelled = true) : s.bufopBad n 2 = false := by
  rcases hdone with hzero | hcancelled
  · simp [State.bufopBad, hcur, hzero]
  · simp [State.bufopBad, Lane.cancelled, hcur, hcancelled]

/-- With a command held, CMDERR, REQUEUE and FLUSHQ are no fault. -/
theorem bufopBad_of_held {b : Nat} (hb : 3 ≤ b) : s.bufopBad n b = false := by
  unfold State.bufopBad
  split
  · omega
  · omega
  · omega
  · simp [hcur]

/-- With a command held, no TILEOP but START can be a fault of code 8h. -/
theorem tileopBad_of_held {t : Nat} (d : Nat) (ht : t ≠ 1) : s.tileopBad n (s.lane n).cur.isSome t d = false := by
  simp [State.tileopBad, hcur, ht]

theorem tileopBad_start {d : Nat} (hd : d ≠ 0) (hbegun : ((s.lane n).unit.map (·.begun)).getD false = false) :
    s.tileopBad n (s.lane n).cur.isSome 1 d = false := by
  simp [State.tileopBad, hcur, hd, hbegun]

theorem modselWrong_of_same {m : Nat} (hgood : modselBad m = false) (hsame : natBits c.modsel 4 4 = natBits m 4 4) :
    s.modselWrong n 0 m = false := by
  simp [State.modselWrong, State.cmdAfter, hcur, hgood, hsame]

theorem curLeft_of_held : s.curLeft n = some { c with
    start := (s.firstOpen n).1, qtr := (s.firstOpen n).2, units := c.units.drop (s.get (F.MCS_TPOS_tidx n)) } := by
  rw [State.curLeft, hcur]
  rfl

end Held

/-! ## BUFOP -/

section BufOp
variable {n : Fin 4} {s : State} (hruns : s.runsMicro n = true)
include hruns

theorem cmdpop_acts (hcur : (s.lane n).cur = none) : exec (.cmdpop n) s = .next (s.opCmdpop n) :=
  congrArg Host.Outcome.next (micro_of_good hruns (faultIf_false (by simp [State.bufopBad, hcur]) 8))

variable {c : MediaCmd} (hcur : (s.lane n).cur = some c)
include hcur

theorem cmderr_acts (code : Byte) : exec (.cmderr n code) s = .next (s.opCmderr n (code.toNat % 256)) :=
  congrArg Host.Outcome.next (micro_of_good hruns (faultIf_false (bufopBad_of_held hcur (by decide)) 8))

theorem requeue_acts : exec (.requeue n) s = .next (s.opRequeue n) :=
  congrArg Host.Outcome.next (micro_of_good hruns (faultIf_false (bufopBad_of_held hcur (by decide)) 8))

end BufOp

/-- CMDERR retires the current command; what is left of a read fails, and of a write returns to BUF (R195). -/
theorem opCmderr_of_left {n : Fin 4} {u : MediaCmd} {s : State} (code : Nat) (hleft : s.curLeft n = some u) :
    s.opCmderr n code = if u.cancelled then s.setCur n none
      else if u.op = 0 ∨ u.op = 3 then (s.setCur n none).laneError u code else ((s.setCur n none).unqueue u).pump := by
  rw [State.opCmderr, hleft]

/-- REQUEUE returns what is left, unless the command was cancelled (R195, R182). -/
theorem opRequeue_of_left {n : Fin 4} {u : MediaCmd} {s : State} (hleft : s.curLeft n = some u) :
    s.opRequeue n = (s.setCur n none).returnCmds n (if u.cancelled then [] else [u]) := by
  rw [State.opRequeue, hleft]
  cases h : u.cancelled <;> simp [h]

/-! ## START -/

/-- START of a datapath mode and a SYNCOP that are there, with the command's MODSEL and no unit begun, is no fault. -/
theorem start_acts {n : Fin 4} {d : BitVec 4} {ms sy : Byte} {c : MediaCmd} {s : State} (hruns : s.runsMicro n = true)
    (hcur : (s.lane n).cur = some c) (hlow : 1 ≤ d.toNat) (hhigh : d.toNat ≤ 5) (hsync : sy.toNat ≤ 2) (hgood : modselBad ms.toNat = false)
    (hsame : natBits c.modsel 4 4 = natBits ms.toNat 4 4) (hbegun : ((s.lane n).unit.map (·.begun)).getD false = false) :
    exec (.start n d ms sy) s = .next (s.opStart n d.toNat ms.toNat (sy.toNat == 1) (sy.toNat == 2)) := by
  refine congrArg Host.Outcome.next (micro_of_good hruns ?_)
  rw [if_neg (by omega), modselWrong_of_same hcur hgood hsame]
  exact faultIf_false (tileopBad_start hcur (by omega) hbegun) 8

section OpStart
variable {n : Fin 4} (ms : Nat) (widen agc : Bool) {s : State}

/-- With the lane's wunsafe latch set, a START in WRITE mode only latches its cause (R216). -/
theorem opStart_latched (hlatched : (s.lane n).wunsafe = true) :
    s.opStart n 2 ms widen agc = (s.onLane n (fun l => { l with tdone := false })).latchTrap n 2 none := by
  unfold State.opStart
  exact if_pos ⟨rfl, by simp [hlatched]⟩

/-- START in READ, WRITE or LOOPBACK mode arms one unit at POS (R196). -/
theorem opStart_arms {d : Nat} (hd : d = 1 ∨ d = 2 ∨ d = 5) (hsafe : d = 2 → (s.lane n).wunsafe = false) :
    s.opStart n d ms widen agc = (s.onLane n (fun l => { l with tdone := false })).onLane n (fun l => { l with unit := some {
      write := d == 2, loop := d == 5, modsel := ms, pos := s.get (F.MCS_TPOS_pos n), qtr := s.get (F.MCS_TPOS_qtr n),
      widen := widen, agchold := agc, due := false, left := 0, begun := false, short := false, nocap := false, bad := false,
      heard := Heard.none, fw := false } }) := by
  unfold State.opStart
  refine (if_neg ?_).trans (if_pos hd)
  rintro ⟨hwrite, hlatched⟩
  simp [hsafe hwrite] at hlatched

/-- START in ERASE or PATTERN mode arms nothing (log entry 25). -/
theorem opStart_raw {d : Nat} (hd : d = 3 ∨ d = 4) : s.opStart n d ms widen agc = s.onLane n (fun l => { l with tdone := false }) := by
  unfold State.opStart
  exact (if_neg (by omega)).trans (if_neg (by omega))

end OpStart

/-! ## The other operations on a tile -/

/-- TILEOP `t` of a word is no fault with a command held, START and CLRST apart. -/
theorem tileop_acts {n : Fin 4} {t : Nat} {c : MediaCmd} {s : State} (hruns : s.runsMicro n = true) (hcur : (s.lane n).cur = some c)
    (ht : t ≠ 1) : s.micro n (faultIf (s.tileopBad n (s.lane n).cur.isSome t 0) 8) (State.opTile n t 0 0 0) = s.opTile n t 0 0 0 :=
  micro_of_good hruns (faultIf_false (tileopBad_of_held hcur 0 ht) 8)

theorem geo_laneActivate (n : Fin 4) (s : State) : (s.laneActivate n).geo = s.geo := by
  unfold State.laneActivate
  split
  · simp
  · rfl

section TileOp
variable {n : Fin 4} {c : MediaCmd} {s : State} (hcur : (s.lane n).cur = some c)
include hcur

/-- SETLOAD activates the staged values and begins the load of the set of the head and ring (R144, R152). -/
theorem opSetload_of_held : s.opSetload n =
    let i := ((s.laneActivate n).setIndex n c).1 * s.geo.rings.length + ((s.laneActivate n).setIndex n c).2
    (s.laneActivate n).onLane n (fun l => { l with setok := false, loading := some i, setBad := false, pset := l.setFrames i }) := by
  rw [State.opSetload, hcur, ← geo_laneActivate n s]

/-- NEXT within a coast slot goes to its next quarter (R196). -/
theorem opNext_quarter (hcoast : c.op = 2) (hqtr : s.get (F.MCS_TPOS_qtr n) < 3) : s.opNext n =
    (s.onLane n (fun l => { l with posDone := false })).put (F.MCS_TPOS_qtr n) (s.get (F.MCS_TPOS_qtr n) + 1) := by
  rw [State.opNext, hcur]
  exact if_pos ⟨hcoast, hqtr⟩

/-- NEXT past a whole position goes to the next usable one, or sets TRKEND (R196). -/
theorem opNext_position (hpast : c.op ≠ 2 ∨ s.get (F.MCS_TPOS_qtr n) = 3) : s.opNext n =
    let t := s.onLane n (fun l => { l with posDone := false })
    (nextGood c.mask 2048 (s.get (F.MCS_TPOS_pos n) + 1)).elim (t.onLane n (fun l => { l with trkend := true }))
      (fun p => (t.put (F.MCS_TPOS_pos n) p).put (F.MCS_TPOS_qtr n) 0) := by
  rw [State.opNext, hcur]
  refine (if_neg (by omega)).trans ?_
  cases nextGood c.mask 2048 (s.get (F.MCS_TPOS_pos n) + 1) <;> rfl

theorem opRewind_of_held : s.opRewind n =
    let t := s.setCur n (some { c with count := c.count + (s.get (F.MCS_TPOS_tidx n) - s.get (F.MCS_TF2_tidx n)) })
    let u := t.setPos n (t.get (F.MCS_TF2_pos n)) (t.get (F.MCS_TF2_qtr n)) (t.get (F.MCS_TF2_tidx n))
    u.onLane n (fun l => { l with boff := u.get (F.MCS_TF3_boff n), trkend := false, posDone := false }) := by
  rw [State.opRewind, hcur]

theorem opDefect_of_held : s.opDefect n = (s.onLane n (fun l => { l with
    cur := some { c with mask := withBit c.mask (s.get (F.MCS_TPOS_pos n)) false } })).grownDefect n c.op c.surface c.track
      (s.get (F.MCS_TPOS_pos n)) := by
  rw [State.opDefect, hcur]

end TileOp

theorem gates_low (n : Fin 4) (s : State) : let t := (s.put (F.LANE_STAT_wg n) 0).put (F.LANE_STAT_rg n) 0
    t.get (F.LANE_STAT_wg n) = 0 ∧ t.get (F.LANE_STAT_rg n) = 0 := by
  refine ⟨?_, ?_⟩
  · rw [State.get_put_apart _ _ _ _ (by simp [F.LANE_STAT_rg]) (by simp [F.LANE_STAT_rg, F.LANE_STAT_wg]),
      State.get_put_self _ _ _ (by simp [F.LANE_STAT_wg]), Nat.zero_mod]
  · rw [State.get_put_self _ _ _ (by simp [F.LANE_STAT_rg]), Nat.zero_mod]

theorem endUnit_eq {n : Fin 4} {u : LUnit} {s : State} (hunit : (s.lane n).unit = some u) :
    let low := ((s.onLane n (fun l => { l with unit := none })).put (F.LANE_STAT_wg n) 0).put (F.LANE_STAT_rg n) 0
    s.endUnit n = if u.begun && !u.write && !u.loop then (low.inc (F.LANE_INCCNT_count n)).onLane n
      (fun l => { l with outok := false, outCode := 5, outTa := !u.heard.ta.isEmpty }) else low := by
  rw [State.endUnit, hunit]

/-- The end of a unit leaves the lane without one, and both gates low (R213, R214). -/
theorem endUnit_of_unit {n : Fin 4} {u : LUnit} {s : State} (hunit : (s.lane n).unit = some u) :
    ((s.endUnit n).lane n).unit = none ∧ (s.endUnit n).get (F.LANE_STAT_wg n) = 0 ∧ (s.endUnit n).get (F.LANE_STAT_rg n) = 0 := by
  have counts (f : Field) (hf : f.addr = R.LANE_STAT n) (t : State) : (t.inc (F.LANE_INCCNT_count n)).get f = t.get f :=
    State.get_put_apart _ _ _ _ (by simp [F.LANE_INCCNT_count]) (.inl (by rw [hf]; clear * -; decide +revert))
  have gates := gates_low n (s.onLane n (fun l => { l with unit := none }))
  rw [endUnit_eq hunit]
  split
  case isFalse => exact ⟨by simp, gates⟩
  case isTrue =>
    refine ⟨by simp [State.inc], ?_, ?_⟩
    · rw [State.get_onLane, counts _ rfl, gates.1]
    · rw [State.get_onLane, counts _ rfl, gates.2]

/-- A change of a lane is what it does to that lane as it stands. -/
theorem onLane_congr {n : Fin 4} {f g : Lane → Lane} {s : State} (h : f (s.lane n) = g (s.lane n)) : s.onLane n f = s.onLane n g := by
  unfold State.onLane
  exact congrArg (fun l => { s with lanes := s.lanes.set n l }) h

/-- Settles O44: with no fault (`micro_of_good`), each operation acts on the command held as its own lemma says. -/
theorem bufferAndTileOperations : Obligations.BufferAndTileOperations := by
  refine ⟨?cmdpop, ?bufop, ?start, ?tileop, ?abandon, ?clrst, ?sync⟩
  case cmdpop =>
    intro n s hruns hcur
    have pops := cmdpop_acts hruns hcur
    rw [State.opCmdpop] at pops
    exact ⟨fun hempty => by rw [pops, hempty], fun c rest hnext => by rw [pops, hnext]⟩
  case bufop =>
    intro n code c s hruns hcur u
    have left : s.curLeft n = some u := curLeft_of_held hcur
    have fails := (cmderr_acts hruns hcur code).trans (congrArg Host.Outcome.next (opCmderr_of_left _ left))
    have returns := (requeue_acts hruns hcur).trans (congrArg Host.Outcome.next (opRequeue_of_left left))
    have same : u.cancelled = c.cancelled ∧ u.op = c.op := ⟨rfl, rfl⟩
    rw [same.1, same.2] at fails
    rw [same.1] at returns
    refine ⟨fun hdone => ?done, fun hcancelled => ?retired, fun hlive hread => ?read, fun hlive hwrite => ?write,
      fun hlive => ?requeued, fun hcancelled => ?dropped, ?flushed⟩
    case done => exact congrArg Host.Outcome.next (micro_of_good hruns (faultIf_false (bufopBad_cmddone hcur hdone) 8))
    case retired => rw [fails, if_pos hcancelled]
    case read =>
      have byte : code.toNat % 256 % 256 = code.toNat := by omega
      rw [fails, if_neg (by simp [hlive]), if_pos hread, State.laneError, byte]
    case write => rw [fails, if_neg (by simp [hlive]), if_neg hwrite]
    case requeued => rw [returns, if_neg (by simp [hlive])]
    case dropped => rw [returns, if_pos hcancelled]
    case flushed => exact congrArg Host.Outcome.next (micro_of_good hruns (faultIf_false (bufopBad_of_held hcur (by decide)) 8))
  case start =>
    intro n d ms sy c s hruns hcur hlow hhigh hsync hgood hsame hbegun u
    have starts := start_acts hruns hcur hlow hhigh hsync hgood hsame hbegun
    refine ⟨fun hd hlatched => ?latched, fun hd hsafe => ?arms, fun hd => ?raw⟩
    case latched =>
      subst hd
      rw [starts]
      exact congrArg Host.Outcome.next (opStart_latched _ _ _ hlatched)
    case arms =>
      rw [starts]
      rcases hd with rfl | rfl | rfl
      · exact congrArg Host.Outcome.next (opStart_arms _ _ _ (.inl rfl) (fun h => absurd h (by decide)))
      · exact congrArg Host.Outcome.next (opStart_arms _ _ _ (.inr (.inl rfl)) (fun _ => hsafe rfl))
      · exact congrArg Host.Outcome.next (opStart_arms _ _ _ (.inr (.inr rfl)) (fun h => absurd h (by decide)))
    case raw =>
      rw [starts]
      exact congrArg Host.Outcome.next (opStart_raw _ _ _ (by rcases hd with rfl | rfl <;> decide))
  case tileop =>
    intro n c s hruns hcur idx up back i
    have next : exec (.next n) s = .next (s.opNext n) := congrArg Host.Outcome.next (tileop_acts hruns hcur (by decide))
    refine ⟨?setload, fun hcoast hqtr => ?quarter, fun p hpast hgood => ?position, fun hpast hend => ?trackEnd, ?rewind, ?defect⟩
    case setload => exact congrArg Host.Outcome.next ((tileop_acts hruns hcur (by decide)).trans (opSetload_of_held hcur))
    case quarter => rw [next, opNext_quarter hcur hcoast hqtr]
    case position => rw [next, opNext_position hcur hpast, hgood]; rfl
    case trackEnd => rw [next, opNext_position hcur hpast, hend]; rfl
    case rewind => exact congrArg Host.Outcome.next ((tileop_acts hruns hcur (by decide)).trans (opRewind_of_held hcur))
    case defect => exact congrArg Host.Outcome.next ((tileop_acts hruns hcur (by decide)).trans (opDefect_of_held hcur))
  case abandon =>
    intro n u s hruns hheld hunit
    obtain ⟨c, hcur⟩ := Option.ne_none_iff_exists'.mp hheld
    have acts : exec (.abandon n) s = .next (s.opAbandon n) := congrArg Host.Outcome.next (tileop_acts hruns hcur (by decide))
    rw [acts, State.opAbandon, hunit]
    exact ⟨fun hbegun => ⟨_, congrArg Host.Outcome.next (if_pos hbegun), rfl, endUnit_of_unit hunit⟩,
      fun hidle => congrArg Host.Outcome.next (if_neg (ne_true_of_eq_false hidle))⟩
  case clrst =>
    intro n c s hruns hcur hgate
    have good : (if s.wordWg n then some 5 else faultIf (s.tileopBad n (s.lane n).cur.isSome 7 0) 8) = none :=
      (if_neg (ne_true_of_eq_false hgate)).trans (faultIf_false (tileopBad_of_held hcur 0 (by decide)) 8)
    exact ⟨s.opClrst n, congrArg Host.Outcome.next (micro_of_good hruns good), State.lane_onLane_self .., fun m hm => State.lane_onLane_ne _ _ hm, rfl⟩
  case sync =>
    intro n u s hruns hunit hidle
    exact ⟨congrArg Host.Outcome.next ((micro_of_good hruns rfl).trans (onLane_congr (by simp [hunit, hidle]))),
      congrArg Host.Outcome.next ((micro_of_good hruns rfl).trans (onLane_congr (by simp [hunit, hidle])))⟩

end Sys2Proof.Machine
end

section
/-! PROOFS. The start of a track sequencer, its loop counters and the sequencing of its words, and its timers, strobes, requests and
control store (05_track_sequencer.md R187 to R238). -/

namespace Sys2Proof.Machine
open Sys2Proof

/-! ## Writes of MCSn_CTL -/

/-- No write sets wren outside factory test mode (R238). -/
theorem wren_permitted {v : Word} {s : State} (hwren : v.getLsbD 3 = true → s.factory = true) : (v.getLsbD 3 && !s.factory) = false := by
  cases h : v.getLsbD 3
  · rfl
  · simp [hwren h]

/-- To a sequencer that executes, a write of MCSn_CTL without start breaks no rule, and kill goes before stop (R226, R227). -/
theorem writeMcsCtl_of_executing {p : Path} {n : Fin 4} {v : Word} {s : State} (hacc : s.accepts p (R.MCS_CTL n) v = true)
    (hexec : s.executing n = true) (hstart : v.getLsbD 0 = false) (hwren : v.getLsbD 3 = true → s.factory = true) :
    s.writeMcsCtl p n v = if v.getLsbD 2 then (s.take (R.MCS_CTL n) v).mcsKill n
      else if v.getLsbD 1 then (s.take (R.MCS_CTL n) v).put (F.MCS_STAT_stopreq n) 1 else s.take (R.MCS_CTL n) v := by
  unfold State.writeMcsCtl
  exact (State.gated_of_accepts hacc (by simp only [wren_permitted hwren, hexec, hstart]; simp)).trans
    (if_neg (ne_true_of_eq_false hstart))

/-- A write of start alone, where a start is permitted (R187). -/
theorem writeMcsCtl_start {p : Path} {n : Fin 4} {v : Word} {s : State} (hacc : s.accepts p (R.MCS_CTL n) v = true)
    (hstart : v.getLsbD 0 = true) (hst : s.mcs n = 2 ∨ s.mcs n = 5) (hmatch : s.factory = true ∨ s.flag (F.MCS_LDCTL_match n) = true)
    (hslice : s.slice n = false) (hstop : v.getLsbD 1 = false) (hkill : v.getLsbD 2 = false)
    (hwren : v.getLsbD 3 = true → s.factory = true) : s.writeMcsCtl p n v = (s.take (R.MCS_CTL n) v).mcsStart n := by
  have state : (s.mcs n == 2 || s.mcs n == 5) = true := by simpa using hst
  have permitted : (!s.factory && !(s.flag (F.MCS_LDCTL_match n))) = false := by rcases hmatch with h | h <;> simp [h]
  unfold State.writeMcsCtl
  refine (State.gated_of_accepts hacc ?_).trans (if_pos hstart)
  simp only [wren_permitted hwren, hstop, hkill, hslice, state, permitted]
  simp

/-- A write of start elsewhere is ignored (R187). -/
theorem writeMcsCtl_start_barred {p : Path} {n : Fin 4} {v : Word} {s : State} (hacc : s.accepts p (R.MCS_CTL n) v = true)
    (hstart : v.getLsbD 0 = true)
    (hbar : s.mcs n ≠ 2 ∧ s.mcs n ≠ 5 ∨ s.factory = false ∧ s.flag (F.MCS_LDCTL_match n) = false) :
    s.writeMcsCtl p n v = s.ignoreRule p (R.MCS_CTL n) := by
  have barred : (!(s.mcs n == 2 || s.mcs n == 5) || (!s.factory && !(s.flag (F.MCS_LDCTL_match n)))) = true := by
    rcases hbar with ⟨h2, h5⟩ | ⟨hfact, hmatch⟩
    · simp [h2, h5]
    · simp [hfact, hmatch]
  unfold State.writeMcsCtl
  refine State.gated_bad_of_accepts hacc ?_
  simp only [hstart, Bool.or_assoc, barred]
  simp

/-! ## The start -/

/-- What a start leaves in the sequencer's registers (R187). -/
theorem mcsStart_regs (n : Fin 4) (s : State) : let t := s.mcsStart n
    t.mcs n = 3 ∧ t.get (F.MCS_STAT_pc n) = s.get (F.MCS_START_addr n) ∧ t.get (F.MCS_STAT_sp n) = 0 ∧ t.reg (R.MCS_STK0 n) = 0 ∧
    t.reg (R.MCS_STK1 n) = 0 ∧ t.reg (R.MCS_LC n) = 0 ∧ t.reg (R.MCS_TM n) = 0 ∧ t.get (F.MCS_STAT_pend n) = 0 := by
  have addr : s.get (F.MCS_START_addr n) < 4096 := s.get_lt _
  intro t
  simp (disch := (clear * -; decide +revert)) only [t, State.mcsStart, State.mcs, State.get_put_self, State.get_put_apart,
    State.get_setReg_ne, State.get_onLane, State.reg_onLane, reg_put_ne, State.reg_setReg_self, State.reg_setReg_ne]
  exact ⟨rfl, Nat.mod_eq_of_lt addr, rfl, trivial, trivial, trivial, trivial, rfl⟩

/-- Settles O40: a write of start alone is a start (`writeMcsCtl_start`), which clears the registers (`mcsStart_regs`) and the lane's
timers and latches (`mcsStart_lane`); elsewhere it breaks a rule (`writeMcsCtl_start_barred`). -/
theorem startClearsTheSequencer : Obligations.StartClearsTheSequencer := by
  intro p n v s hacc hstart
  refine ⟨fun hst hmatch hslice hstop hkill hwren => ?_,
    fun hbar => congrArg Host.Outcome.next (writeMcsCtl_start_barred hacc hstart hbar)⟩
  refine ⟨_, congrArg Host.Outcome.next (writeMcsCtl_start hacc hstart hst hmatch hslice hstop hkill hwren), ?_⟩
  obtain ⟨state, addr, sp, stk0, stk1, lc, tm, pend⟩ := mcsStart_regs n (s.take (R.MCS_CTL n) v)
  rw [get_take_ne _ v s (by clear * -; decide +revert)] at addr
  have lane := mcsStart_lane n (s.take (R.MCS_CTL n) v)
  exact ⟨state, addr, sp, stk0, stk1, lc, tm, by rw [lane], by rw [lane], pend, by rw [lane], by rw [lane], by rw [lane]⟩

/-! ## Loop counters -/

/-- `t` holds `x` and `y` in the loop counters of lane `n`, and is `s` in everything but MCSn_LC. -/
def LcValues (n : Fin 4) (s t : State) (x y : Nat) : Prop :=
  t.get (F.MCS_LC_lc0 n) = x ∧ t.get (F.MCS_LC_lc1 n) = y ∧ (∀ a, a ≠ R.MCS_LC n → t.reg a = s.reg a) ∧ t = { s with regs := t.regs }

theorem regsOnly_trans {s t u : State} (h : t = { s with regs := t.regs }) (k : u = { t with regs := u.regs }) :
    u = { s with regs := u.regs } := k.trans (congrArg (fun x : State => { x with regs := u.regs }) h)

theorem get_incStop_apart {f g : Field} (s : State) (h : f.lo + f.width ≤ 32)
    (d : g.addr ≠ f.addr ∨ f.lo + f.width ≤ g.lo ∨ g.lo + g.width ≤ f.lo) : (s.incStop f).get g = s.get g := by
  unfold State.incStop
  split
  · exact State.get_put_apart f g _ s h d
  · rfl

namespace LcValues
variable {n : Fin 4} {s t : State} {x y v : Nat}

theorem refl (n : Fin 4) (s : State) : LcValues n s s (s.get (F.MCS_LC_lc0 n)) (s.get (F.MCS_LC_lc1 n)) := ⟨rfl, rfl, fun _ _ => rfl, rfl⟩

theorem putLc0 (h : LcValues n s t x y) (hv : v < 4096) : LcValues n s (t.put (F.MCS_LC_lc0 n) v) v y := by
  obtain ⟨-, lc1, regs, only⟩ := h
  refine ⟨?_, ?_, fun a ha => (reg_put_ne ha).trans (regs a ha), regsOnly_trans only rfl⟩
  · exact (State.get_put_self _ v t (by simp [F.MCS_LC_lc0])).trans (Nat.mod_eq_of_lt hv)
  · exact (State.get_put_apart _ _ v t (by simp [F.MCS_LC_lc0]) (by simp [F.MCS_LC_lc0, F.MCS_LC_lc1])).trans lc1

theorem putLc1 (h : LcValues n s t x y) (hv : v < 4096) : LcValues n s (t.put (F.MCS_LC_lc1 n) v) x v := by
  obtain ⟨lc0, -, regs, only⟩ := h
  refine ⟨?_, ?_, fun a ha => (reg_put_ne ha).trans (regs a ha), regsOnly_trans only rfl⟩
  · exact (State.get_put_apart _ _ v t (by simp [F.MCS_LC_lc1]) (by simp [F.MCS_LC_lc0, F.MCS_LC_lc1])).trans lc0
  · exact (State.get_put_self _ v t (by simp [F.MCS_LC_lc1])).trans (Nat.mod_eq_of_lt hv)

theorem incStopLc0 (n : Fin 4) (s : State) :
    LcValues n s (s.incStop (F.MCS_LC_lc0 n)) (min (s.get (F.MCS_LC_lc0 n) + 1) 0xFFF) (s.get (F.MCS_LC_lc1 n)) :=
  ⟨(State.get_incStop_self _ s (by simp [F.MCS_LC_lc0])).trans (Nat.min_comm _ _),
    get_incStop_apart s (by simp [F.MCS_LC_lc0]) (by simp [F.MCS_LC_lc0, F.MCS_LC_lc1]),
    fun _ ha => State.reg_incStop_ne s ha, State.incStop_eq _ s⟩

theorem incStopLc1 (n : Fin 4) (s : State) :
    LcValues n s (s.incStop (F.MCS_LC_lc1 n)) (s.get (F.MCS_LC_lc0 n)) (min (s.get (F.MCS_LC_lc1 n) + 1) 0xFFF) :=
  ⟨get_incStop_apart s (by simp [F.MCS_LC_lc1]) (by simp [F.MCS_LC_lc0, F.MCS_LC_lc1]),
    (State.get_incStop_self _ s (by simp [F.MCS_LC_lc1])).trans (Nat.min_comm _ _),
    fun _ ha => State.reg_incStop_ne s ha, State.incStop_eq _ s⟩

end LcValues

/-- Settles O41: the nine operations are writes of counters (`LcValues.putLc0`, `LcValues.putLc1`) and counts that stop
(`LcValues.incStopLc0`, `LcValues.incStopLc1`). -/
theorem loopCounterOperations : Obligations.LoopCounterOperations := by
  intro n imm s hruns lc0 lc1 count gives
  have acts {c : Instr} {k i x y : Nat} (hexec : exec c s = .next (s.micro n none (State.opLc n k i)))
      (h : LcValues n s (s.opLc n k i) x y) : gives c x y :=
    ⟨_, hexec.trans (congrArg Host.Outcome.next (micro_of_good hruns rfl)), h⟩
  have start := LcValues.refl n s
  have lt0 : lc0 < 4096 := s.get_lt _
  have lt1 : lc1 < 4096 := s.get_lt _
  have countLt : count < 4096 := Nat.lt_trans (s.get_lt (F.MCS_CC0_count n)) (by simp [F.MCS_CC0_count])
  exact ⟨acts rfl (start.putLc0 imm.isLt), acts rfl (start.putLc1 imm.isLt), acts rfl ((start.putLc0 imm.isLt).putLc1 imm.isLt),
    acts rfl (start.putLc0 countLt), acts rfl (start.putLc1 countLt), acts rfl (start.putLc0 (v := lc0 - 1) (by omega)),
    acts rfl (start.putLc1 (v := lc1 - 1) (by omega)), acts rfl (LcValues.incStopLc0 n s), acts rfl (LcValues.incStopLc1 n s)⟩

/-! ## Sequencing -/

section Seq
variable {n : Fin 4} {m : BitVec 160} (e : WordEnv) (pc : Nat) (s : State)

theorem seq_cont (hq : wordBits m 145 3 = 0) : s.seq n e m pc = ((pc + 1) % 4096, s) := by
  unfold State.seq
  rw [hq]
  rfl

theorem seq_jump (hq : wordBits m 145 3 = 1) : s.seq n e m pc = (wordBits m 148 12, s) := by
  unfold State.seq
  rw [hq]
  rfl

theorem seq_jcond (hq : wordBits m 145 3 = 2) :
    s.seq n e m pc = (if s.condOf n e m then wordBits m 148 12 else (pc + 1) % 4096, s) := by
  unfold State.seq
  rw [hq]
  rfl

theorem seq_call (hq : wordBits m 145 3 = 3) : s.seq n e m pc = (wordBits m 148 12,
    (s.put (stackField n (s.get (F.MCS_STAT_sp n))) ((pc + 1) % 4096)).put (F.MCS_STAT_sp n) (s.get (F.MCS_STAT_sp n) + 1)) := by
  unfold State.seq
  rw [hq]
  rfl

theorem seq_ret (hq : wordBits m 145 3 = 4) : s.seq n e m pc = (s.get (stackField n (s.get (F.MCS_STAT_sp n) - 1)),
    (s.put (stackField n (s.get (F.MCS_STAT_sp n) - 1)) 0).put (F.MCS_STAT_sp n) (s.get (F.MCS_STAT_sp n) - 1)) := by
  unfold State.seq
  rw [hq]
  rfl

/-- LOOP by the count that it finds, of LC1 where COND bit 0 is set and else of LC0 (R192). -/
theorem seq_loop {f : Field} (hf : (if mbit m 139 then F.MCS_LC_lc1 n else F.MCS_LC_lc0 n) = f) (hq : wordBits m 145 3 = 5) :
    s.seq n e m pc = if s.get f = 0 then ((pc + 1) % 4096, s)
      else (if s.get f = 1 then (pc + 1) % 4096 else wordBits m 148 12, s.put f (s.get f - 1)) := by
  unfold State.seq
  rw [hq]
  subst hf
  rfl

/-- TRAPRET to the frame's next address, or with CPOL 1 to NADDR with the stack clear (R224). -/
theorem seq_trapret (hq : wordBits m 145 3 = 7) : let u := s.put (F.MCS_STAT_state n) 3
    s.seq n e m pc = if mbit m 138 then (wordBits m 148 12, ((u.put (F.MCS_STAT_sp n) 0).setReg (R.MCS_STK0 n) 0).setReg (R.MCS_STK1 n) 0)
      else (u.get (F.MCS_TF0_next n), (u.put (F.MCS_LC_lc0 n) (u.get (F.MCS_TF1_lc0 n))).put (F.MCS_LC_lc1 n) (u.get (F.MCS_TF1_lc1 n))) := by
  unfold State.seq
  rw [hq]
  rfl

end Seq

/-- A word but WAITC goes where its SEQ says, after its LCOP (R207). -/
theorem runWord_of_seq {n : Fin 4} {q : Nat} {m : BitVec 160} {e : WordEnv} {s u : State} {next : Nat} (hstarts : s.startsWord n q m = true)
    (hq : q ≠ 6) (hseq : (s.wordBody n m).seq n e m (s.get (F.MCS_STAT_pc n)) = (next, u)) :
    s.runWord n q e = (u.wordLc n m).wordEnd n m (s.get (F.MCS_STAT_pc n)) next := by
  rw [word_of_starts s n q m e hstarts, if_neg hq, hseq]

theorem waiting_of_starts {n : Fin 4} {q : Nat} {m : BitVec 160} {s : State} (hstarts : s.startsWord n q m = true) :
    (s.lane n).waiting = false := by
  simp only [State.startsWord, Bool.and_eq_true, Bool.not_eq_true'] at hstarts
  obtain ⟨⟨⟨⟨⟨-, waits⟩, -⟩, -⟩, -⟩, -⟩ := hstarts
  exact waits

/-- Settles O42: a word but WAITC ends as its SEQ says (`runWord_of_seq`, with one lemma for each SEQ), and a WAITC word waits from its
dwell on (`word_of_starts`) until its condition is true. -/
theorem sequencingPicksTheNextWord : Obligations.SequencingPicksTheNextWord := by
  have ends {c : Instr} {n : Fin 4} {q : Nat} {m : BitVec 160} {e : WordEnv} {s u : State} {next : Nat} (hstarts : s.startsWord n q m = true)
      (hexec : exec c s = .next (s.runWord n q e)) (hq : q ≠ 6)
      (hseq : (s.wordBody n m).seq n e m (s.get (F.MCS_STAT_pc n)) = (next, u)) :
      exec c s = .next ((u.wordLc n m).wordEnd n m (s.get (F.MCS_STAT_pc n)) next) :=
    hexec.trans (congrArg Host.Outcome.next (runWord_of_seq hstarts hq hseq))
  refine ⟨?cont, ?jump, ?jcond, ?call, ?ret, ?loop, ?trapret, ?waitc, ?waitcEnd⟩
  case cont => exact fun n e m s h => ends h rfl (by decide) (seq_cont e _ _ (seq_of_starts h))
  case jump => exact fun n e m s h => ends h rfl (by decide) (seq_jump e _ _ (seq_of_starts h))
  case jcond => exact fun n e m s h => ends h rfl (by decide) (seq_jcond e _ _ (seq_of_starts h))
  case call => exact fun n e m s h => ends h rfl (by decide) (seq_call e _ _ (seq_of_starts h))
  case ret => exact fun n e m s h => ends h rfl (by decide) (seq_ret e _ _ (seq_of_starts h))
  case loop =>
    intro n e m s h pc u f
    have loops : u.seq n e m pc = _ := seq_loop e pc u (f := f) rfl (seq_of_starts h)
    refine ⟨fun hzero => ends h rfl (by decide) (loops.trans (if_pos hzero)), fun hone => ends h rfl (by decide) ?_,
      fun hmore => ends h rfl (by decide) ?_⟩
    · have nonzero : u.get f ≠ 0 := by omega
      exact loops.trans ((if_neg nonzero).trans (by rw [if_pos hone, hone]))
    · have nonzero : u.get f ≠ 0 := by omega
      have notOne : u.get f ≠ 1 := by omega
      exact loops.trans ((if_neg nonzero).trans (by rw [if_neg notOne]))
  case trapret =>
    intro n e m s h pc u
    have returns := seq_trapret e pc (s.wordBody n m) (n := n) (seq_of_starts h)
    exact ⟨fun hframe => ends h rfl (by decide) (returns.trans (if_neg (by simp [hframe]))),
      fun hclear => ends h rfl (by decide) (returns.trans (if_pos hclear))⟩
  case waitc =>
    intro n e m s h pc
    have fresh : ¬ ((s.lane n).waiting && s.executing n && s.laneUp n) = true := by simp [waiting_of_starts h]
    exact congrArg Host.Outcome.next ((if_neg fresh).trans (word_of_starts s n 6 m e h))
  case waitcEnd =>
    intro n e s hruns hwaiting htrue m pc
    have ready : ((s.lane n).waiting && s.executing n && s.laneUp n && s.condOf n e m) = true := by
      rw [State.runsMicro, Bool.and_eq_true] at hruns
      simp [hwaiting, hruns, m, htrue]
    exact congrArg Host.Outcome.next (if_pos ready)

/-! ## Timers -/

theorem timer_onTimer_self (n : Fin 4) (t : Nat) (f : Timer → Timer) (s : State) :
    ((s.onTimer n t f).lane n).timer t = f ((s.lane n).timer t) := by
  rw [State.onTimer, State.lane_onLane_self, Lane.timer, Lane.timer]
  split <;> rfl

/-- A running timer whose count passes expires, and its count is zero (R198). -/
theorem tickTimer_expires {n : Fin 4} {t k : Nat} {s : State} (hrun : ((s.lane n).timer t).running = true)
    (hcounts : ((s.lane n).timer t).expired = false) (hk : k ≠ 0) (hpass : s.get (tmField n t) ≤ k) :
    s.tickTimer n t k = (s.onTimer n t (fun x => { x with expired := true })).put (tmField n t) 0 := by
  have ticks : ¬ (!((s.lane n).timer t).running || ((s.lane n).timer t).expired || k == 0) = true := by simp [hrun, hcounts, hk]
  rw [State.tickTimer]
  exact (if_neg ticks).trans (by rw [decide_eq_true hpass, Nat.sub_eq_zero_of_le hpass])

theorem tmField_fits (n : Fin 4) (t : Nat) : (tmField n t).lo + (tmField n t).width ≤ 32 := by
  unfold tmField
  split
  · simp [F.MCS_TM_tm0]
  · simp [F.MCS_TM_tm1]

/-! ## Strobes -/

/-- The frames of strobes 0 to 6 (R199). -/
theorem strobeFrames_of_lt (n : Fin 4) {k : Nat} (hk : k < 128) (s : State) : s.strobeFrames n k =
    ((List.range 7).filter (fun i => k.testBit i && s.flag (F.MCS_PSTRB_en n i))).map (fun i =>
      { rd := false, addr := s.get (F.MCS_PSTRB_addr n i), data := s.get (F.MCS_PSTRB_data n i), cmd := false }) := by
  rw [State.strobeFrames, if_neg (by simp [Nat.testBit_lt_two_pow (i := 7) hk]), List.nil_append]

/-- Strobe 7 alone is HSEL (R199). -/
theorem strobeFrames_hsel (n : Fin 4) (s : State) : s.strobeFrames n 128 = s.hselFrame n := by
  have others : ∀ i ∈ List.range 7, (128).testBit i = false := by decide
  have none : (List.range 7).filter (fun i => (128).testBit i && s.flag (F.MCS_PSTRB_en n i)) = [] :=
    List.filter_eq_nil_iff.mpr fun i hi => by simp [others i hi]
  rw [State.strobeFrames, if_pos (by decide), none, List.map_nil, List.append_nil]

theorem hselFrame_of_held {n : Fin 4} {c : MediaCmd} {s : State} (hcur : (s.lane n).cur = some c) : s.hselFrame n =
    if s.flag (F.MCS_PHSEL_en n) then [{ rd := false, addr := s.get (F.MCS_PHSEL_addr n), cmd := false
                                         data := (s.get (F.MCS_PHSEL_base n) ||| (s.headOf c.surface * 2 ^ s.get (F.MCS_PHSEL_shift n))) % 256 }]
    else [] := by
  rw [State.hselFrame, hcur]

/-! ## Requests to MOTION and events -/

/-- SEEK goes to the current command's track, with the head of its surface (R201, R275). -/
theorem opServo_seek {n : Fin 4} {c : MediaCmd} {s : State} (imm : Nat) (hcur : (s.lane n).cur = some c) : s.opServo n 1 imm =
    (((s.onAct n (fun a => { a with skReq := true, skdone := false })).retuneFor n c.track).selectHead n (s.headOf c.surface)).seek n c.track := by
  simp only [State.opServo, hcur]

/-- SEEKSALT goes to the saltern band that HRV names (R201, R276). -/
theorem opServo_seeksalt {n : Fin 4} {sf tr : Nat} {s : State} (imm : Nat) (hband : s.saltBand n = some (sf, tr)) : s.opServo n 2 imm =
    (((s.onAct n (fun a => { a with skReq := true, skdone := false })).retuneFor n tr).selectHead n (s.headOf sf)).seekSalt n tr := by
  simp only [State.opServo, hband]

/-- EVT with a code posts its record, and from 80h on raises the microcode cause (R204). -/
theorem opEvt_of_ne {n : Fin 4} {code : Nat} (imm : Nat) (s : State) (hcode : code ≠ 0) :
    let t := s.post (0x14 + n.val) 2 (leBytes 1 code ++ [0] ++ leBytes 2 (s.get (F.MCS_STAT_pc n)) ++ leBytes 2 imm)
    s.opEvt n code imm = if 0x80 ≤ code then (t.putBit F.ALR_UCODE_lane n true).latchCause (20 + n.val) else t := if_neg hcode

/-- Settles O45: without a fault (`micro_of_good`) a timer expires (`tickTimer_expires`), strobes and HSEL give their frames
(`strobeFrames_of_lt`, `strobeFrames_hsel`), seeks have their target (`opServo_seek`, `opServo_seeksalt`) and EVT its record
(`opEvt_of_ne`); the other operations are their effect by definition. -/
theorem timersStrobesAndRequests : Obligations.TimersStrobesAndRequests := by
  have acts {c : Instr} {n : Fin 4} {f : State → State} {s : State} (hruns : s.runsMicro n = true)
      (hexec : exec c s = .next (s.micro n none f)) : exec c s = .next (f s) :=
    hexec.trans (congrArg Host.Outcome.next (micro_of_good hruns rfl))
  have actsBelow {c : Instr} {n : Fin 4} {f : State → State} {s : State} (hruns : s.runsMicro n = true) (hgate : s.wordWg n = false)
      (hexec : exec c s = .next (s.micro n (faultIf (s.wordWg n) 5) f)) : exec c s = .next (f s) :=
    hexec.trans (congrArg Host.Outcome.next (micro_of_good hruns (faultIf_false hgate 5)))
  refine ⟨?timers, ?expiry, ?strobes, ?seeks, ?offsets, ?events, ?counts⟩
  case timers => exact fun n sel unit imm s hruns => ⟨acts hruns rfl, acts hruns rfl, acts hruns rfl⟩
  case expiry =>
    intro n t s hruns hrun hcounts
    refine ⟨_, (acts hruns rfl).trans (congrArg Host.Outcome.next (tickTimer_expires hrun hcounts (by omega) (by omega))), ?_, ?_⟩
    · rw [State.lane_put, timer_onTimer_self]
    · rw [State.get_put_self _ _ _ (tmField_fits n t), Nat.zero_mod]
  case strobes =>
    intro n k s hruns
    refine ⟨fun hfit => (acts hruns rfl).trans ?_, fun c hgate hfit hcur => (actsBelow hruns hgate rfl).trans ?_⟩
    · rw [doIf, if_pos hfit, State.opPreamp, strobeFrames_of_lt n k.isLt s]
    · rw [doIf, if_pos hfit, State.opPreamp, strobeFrames_hsel, hselFrame_of_held hcur]
      split <;> rfl
  case seeks =>
    intro n c s hruns hgate u
    exact ⟨fun hcur => (actsBelow hruns hgate rfl).trans (congrArg Host.Outcome.next (opServo_seek 0 hcur)),
      fun sf tr hband => (actsBelow hruns hgate rfl).trans (congrArg Host.Outcome.next (opServo_seeksalt 0 hband))⟩
  case offsets =>
    intro n imm s hruns
    exact ⟨acts hruns rfl, acts hruns rfl, fun hgate => actsBelow (f := State.opServo n 5 0) hruns hgate rfl,
      acts (f := State.opServo n 6 0) hruns rfl⟩
  case events =>
    intro n code imm s hruns hcode
    have nonzero : code.toNat ≠ 0 := fun h => hcode (BitVec.eq_of_toNat_eq h)
    exact ⟨acts (f := State.opEvt n 0 imm.toNat) hruns rfl,
      (acts hruns rfl).trans (congrArg Host.Outcome.next (opEvt_of_ne imm.toNat s nonzero))⟩
  case counts => exact fun n mask s hruns => acts hruns rfl

/-! ## The control store -/

/-- A write of MCSn_LDCTL.go where a load is permitted begins it, at once on a lane that runs (R230). -/
theorem writeLdctl_go {p : Path} {n : Fin 4} {v : Word} {s : State} (hacc : s.accepts p (R.MCS_LDCTL n) v = true)
    (hgo : v.getLsbD 31 = true) (hfree : s.loadBarred n = false) : let t := s.put (F.MCS_LDCTL_busy n) 1
    s.writeLdctl p n v = if t.laneUp n then t.put (F.MCS_STAT_state n) 1 else t := by
  unfold State.writeLdctl
  exact (State.gated_of_accepts hacc (by simp [hfree])).trans (if_pos hgo)

/-- No load begins in LOADING, RUNNING or TRAP (R233). -/
theorem loadBarred_of_state {n : Fin 4} {s : State} (hst : s.mcs n = 1 ∨ s.mcs n = 3 ∨ s.mcs n = 4) : s.loadBarred n = true := by
  rcases hst with h | h | h <;> simp [State.loadBarred, State.executing, h]

/-- What start-up or a reload does once a load has ended (R554, R581). -/
def State.afterLoad (n : Fin 4) (s : State) : State :=
  if s.boot.relo.contains n.val then s.reloaded n
  else if s.boot.loading.contains n.val || s.boot.reloads.getD n 0 != 0 then s.startLoad n else s

/-- The end of a load, by whether its source read without an uncorrectable error (R231, R232). -/
theorem mcsLoadDone_of_loading {n : Fin 4} (ecc : Bool) {s : State} (hst : s.mcs n = 1) (hup : s.laneUp n = true) :
    let r := s.readWords 0 0 (s.get (F.MCS_LDSRC_addr n) * 64 / 8) 10248 ecc none
    exec (.mcsLoadDone n ecc) s = .next (State.afterLoad n (if r.1 then
        (((r.2.put (F.MCS_LDCTL_busy n) 0).put (F.MCS_LDCTL_match n) 0).put (F.MCS_STAT_state n) 0).raise (F.MCS_ERR_ldecc n)
      else (r.2.loadStore n).autoLane n)) :=
  congrArg Host.Outcome.next (if_neg (by simp [hst, hup]))

section Window
variable {p : Path} {a v : Word} {n : Fin 4} {w k : Nat} {s : State} (hword : csWord a.toNat = some (n, w, k))
include hword

/-- A window write of a control-store word goes the way of register writes (R238). -/
theorem csWindowWrite_gated : exec (.csWindowWrite p a v) s = .next (s.writeWindow p a.toNat v) := by
  have writes : exec (.csWindowWrite p a v) s = execCsWindowWrite p a v s := rfl
  rw [writes, execCsWindowWrite, hword]

/-- In factory test mode with wren, words 0 to 3 are held and word 4 stores all 160 bits; else the write is ignored (R238). -/
theorem writeWindow_of_accepts (hacc : s.accepts p a.toNat v = true) :
    let ok := s.factory && s.flag (F.MCS_CTL_wren n) && (s.mcs n == 0 || s.mcs n == 2 || s.mcs n == 5) && s.laneUp n && !(s.slice n)
    let h (i : Nat) : Nat := ((s.lane n).csHold.toList.getD i 0).toNat
    let word := BitVec.ofNat 160 (h 0 + h 1 * 2 ^ 32 + h 2 * 2 ^ 64 + h 3 * 2 ^ 96 + v.toNat * 2 ^ 128)
    s.writeWindow p a.toNat v = if ok then
        (if k < 4 then s.onLane n (fun l => { l with csHold := l.csHold.set! k v })
        else ((s.onLane n (fun l => { l with cs := cset (fun _ => (0 : BitVec 160)) w word l.cs })).put (F.MCS_LDCTL_match n) 0).put
          (F.RAKE_CUR_addr (8 + n)) 0)
      else s.ignoreRule p a.toNat := by
  intro ok h word
  rw [State.writeWindow, hword]
  by_cases hok : ok = true
  · refine (State.gated_of_accepts hacc ?_).trans (if_pos hok).symm
    simpa only [ok, Bool.not_and, Bool.not_not, Bool.not_true] using congrArg not hok
  · refine (State.gated_bad_of_accepts hacc ?_).trans (if_neg hok).symm
    simpa only [ok, Bool.not_and, Bool.not_not, Bool.not_false] using congrArg not (eq_false_of_ne_true hok)

end Window

/-- Settles O46: stop and kill of a sequencer that executes (`writeMcsCtl_of_executing`), a load's beginning (`writeLdctl_go`) and end
(`mcsLoadDone_of_loading`), and the window's writes (`writeWindow_of_accepts`). -/
theorem controlStoreCommands : Obligations.ControlStoreCommands := by
  refine ⟨?ctl, ?go, ?barred, ?done, ?window⟩
  case ctl =>
    intro p n v s hacc hexec hstart hwren
    have written := writeMcsCtl_of_executing hacc hexec hstart hwren
    exact ⟨fun hstop hkill => congrArg Host.Outcome.next (written.trans ((if_neg (ne_true_of_eq_false hkill)).trans (if_pos hstop))),
      fun hkill => congrArg Host.Outcome.next (written.trans (if_pos hkill))⟩
  case go => exact fun p n v s hacc hgo hfree => congrArg Host.Outcome.next (writeLdctl_go hacc hgo hfree)
  case barred =>
    intro p n v s hacc hgo hst
    exact congrArg Host.Outcome.next (State.gated_bad_of_accepts hacc (by simp [hgo, loadBarred_of_state hst]))
  case done =>
    intro n ecc s hst hup r
    have ends := mcsLoadDone_of_loading ecc hst hup
    exact ⟨fun hue => ends.trans (congrArg (fun t => Host.Outcome.next (State.afterLoad n t)) (if_pos hue)),
      fun hread => ends.trans (congrArg (fun t => Host.Outcome.next (State.afterLoad n t)) (if_neg (ne_true_of_eq_false hread)))⟩
  case window =>
    intro p a v n w k s hword hacc ok h word
    have writes : exec (.csWindowWrite p a v) s = .next _ :=
      (csWindowWrite_gated hword).trans (congrArg Host.Outcome.next (writeWindow_of_accepts hword hacc))
    exact ⟨fun hbar => writes.trans (congrArg Host.Outcome.next (if_neg (ne_true_of_eq_false hbar))),
      fun hopen hk => writes.trans (congrArg Host.Outcome.next ((if_pos hopen).trans (if_pos hk))),
      fun hopen hk => writes.trans (congrArg Host.Outcome.next ((if_pos hopen).trans (if_neg (Nat.not_lt.mpr hk))))⟩

end Sys2Proof.Machine
end

section
/-! PROOFS. The arithmetic of the servo compute array: the limits of a loop's output and of an actuator's demands, and a bypassed
section (06_servo_compute.md R250 to R263). -/

namespace Sys2Proof.Machine
open Sys2Proof

/-! ## Registers read as integers -/

theorem State.regInt_setReg_ne {a b : Nat} (v : Word) (s : State) (h : b ≠ a) : (s.setReg a v).regInt b = s.regInt b :=
  congrArg BitVec.toInt (s.reg_setReg_ne v h)

theorem State.regInt_onServo (f : Servo → Servo) (s : State) (a : Nat) : (s.onServo f).regInt a = s.regInt a := Eq.trans rfl rfl

/-- A register that takes an integer clamped to a limit below 2³¹ reads as that integer. -/
theorem State.regInt_setReg_clampI (a : Nat) {l : Int} (x : Int) (s : State) (h : 0 ≤ l) (hl : l < 2 ^ 31) :
    (s.setReg a (BitVec.ofInt 32 (clampI (-l) l x))).regInt a = clampI (-l) l x := by
  obtain ⟨low, high⟩ := clampI_abs l x h
  rw [State.regInt, State.reg_setReg_self, toInt_ofInt _ (by omega) (by omega)]

/-! ## Loops -/

/-- A loop keeps the output of its last section and sends that or its tap's, each clamped to ±SCA_LLIMn.lim (R251, R254). -/
theorem State.runLoop_eq (n : Nat) (s : State) :
    let lim : Int := s.get (F.SCA_LLIM_lim n)
    let r := s.cascade n (s.getA (F.SCA_LCFG_nsec n)) 0 (s.loopInput n) []
    let tap := s.getA (F.SCA_LCFG_tap n)
    let sent := if tap = 0 then r.1 else r.2.1.reverse.getD (tap - 1) 0
    s.runLoop n = (r.2.2.setReg (R.SCA_LOUT n) (BitVec.ofInt 32 (clampI (-lim) lim r.1))).onServo
      (fun x => { x with dest := x.dest.set! n (clampI (-lim) lim sent) }) := by
  intro lim r tap sent
  rw [apply_ite (clampI (-lim) lim)]
  rfl

/-- The clamp of R254 bounds the output and the value sent: SCA_LLIMn.lim has 16 bits, so that the stored word holds the output. -/
theorem State.runLoop_limited (n : Fin 16) (s : State) : let t := s.runLoop n; let lim : Int := s.get (F.SCA_LLIM_lim n)
    (-lim ≤ t.regInt (R.SCA_LOUT n)) ∧ t.regInt (R.SCA_LOUT n) ≤ lim ∧ -lim ≤ t.servo.dest[n] ∧ t.servo.dest[n] ≤ lim := by
  have small : s.get (F.SCA_LLIM_lim n) < 2 ^ 16 := s.get_lt _
  intro t lim
  have nonneg : 0 ≤ lim := Int.natCast_nonneg _
  obtain ⟨last, output⟩ : ∃ y, t.regInt (R.SCA_LOUT n) = clampI (-lim) lim y := by
    simp only [t, State.runLoop_eq, State.regInt_onServo]
    exact ⟨_, State.regInt_setReg_clampI _ _ _ nonneg (by omega)⟩
  obtain ⟨value, sent⟩ : ∃ y, t.servo.dest[n] = clampI (-lim) lim y := by
    simp only [t, State.runLoop_eq]
    exact ⟨_, Vector.getElem_setIfInBounds_self _⟩
  rw [output, sent]
  exact and_assoc.mp ⟨clampI_abs _ _ nonneg, clampI_abs _ _ nonneg⟩

/-! ## Demands -/

/-- The demands of an actuator are two sums, each clamped to ±1.0 (R253). -/
theorem State.demands_clamps (a : Fin 4) (s : State) : ∃ coil micro : Int, s.demands a =
    (s.setReg (R.SCA_VDM a) (BitVec.ofInt 32 (clampI (-65536) 65536 coil))).setReg (R.SCA_MDM a)
      (BitVec.ofInt 32 (clampI (-65536) 65536 micro)) := ⟨_, _, rfl⟩

theorem State.demands_limited (a : Fin 4) (s : State) : let t := s.demands a
    (-65536 ≤ t.regInt (R.SCA_VDM a)) ∧ t.regInt (R.SCA_VDM a) ≤ 65536 ∧
      -65536 ≤ t.regInt (R.SCA_MDM a) ∧ t.regInt (R.SCA_MDM a) ≤ 65536 := by
  obtain ⟨coil, micro, stored⟩ := s.demands_clamps a
  have apart : R.SCA_VDM a ≠ R.SCA_MDM a := by simp only [R.SCA_VDM, R.SCA_MDM]; omega
  intro t
  have hcoil : t.regInt (R.SCA_VDM a) = clampI (-65536) 65536 coil := by
    simp only [t, stored, State.regInt_setReg_ne _ _ apart]
    exact State.regInt_setReg_clampI _ _ _ (by decide) (by decide)
  have hmicro : t.regInt (R.SCA_MDM a) = clampI (-65536) 65536 micro := by
    simp only [t, stored]
    exact State.regInt_setReg_clampI _ _ _ (by decide) (by decide)
  rw [hcoil, hmicro]
  exact and_assoc.mp ⟨clampI_abs _ _ (by decide), clampI_abs _ _ (by decide)⟩

/-! ## Bypassed sections -/

/-- A bypassed section passes its input on and zeroes its states (R262). -/
theorem State.section_of_bypass {i : Nat} (x : Int) {s : State} (h : s.flag (F.SCA_SEC_SCTL_bypass i) = true) :
    s.section i x = (x, s.zeroSection i) := if_pos h

theorem State.reg_zeroSection (i b : Nat) (s : State) : (s.zeroSection i).reg b =
    if b = R.SCA_SEC_SEXP i ∨ b = R.SCA_SEC_S3 i ∨ b = R.SCA_SEC_S2 i ∨ b = R.SCA_SEC_S1 i then 0 else s.reg b := by
  simp only [State.zeroSection, State.reg_setReg, ite_or]

/-- Settles O47: a loop stores clamped values only (`State.runLoop_limited`), and so do the sums of an actuator's loops
(`State.demands_limited`); a bypassed section is `State.zeroSection` on its input (`State.section_of_bypass`). -/
theorem loopOutputsAndDemandsAreLimited : Obligations.LoopOutputsAndDemandsAreLimited := by
  refine ⟨fun n s => s.runLoop_limited n, fun a s => s.demands_limited a, fun i x s hbypass => ?bypass⟩
  case bypass =>
    simp only [State.section_of_bypass x hbypass, State.reg_zeroSection]
    refine ⟨trivial, if_pos (by simp), if_pos (by simp), if_pos (by simp), if_pos (by simp), fun a h1 h2 h3 he => if_neg ?_⟩
    simp only [h1, h2, h3, he, or_self, not_false_eq_true]

end Sys2Proof.Machine
end

section
/-! PROOFS. The spindle's probe, and the writes, periods, ticks and events of its drive (07_spindle.md R287 to R319). -/

namespace Sys2Proof.Machine
open Sys2Proof

/-! ## The probe -/

/-- The search of R301 ends at the first vector forward from `m` that no attempt used. -/
theorem nextVec_eq {used : List Nat} {m v : Nat} (hm : m < 6) (hv : v < 6) (hfree : used.contains v = false)
    (hused : ∀ k, k < (v + 6 - m) % 6 → used.contains ((m + k) % 6) = true) : nextVec used m = v := by
  have lands : (m + (v + 6 - m) % 6) % 6 = v := by omega
  have found := find_range_map (fun k => (m + k) % 6) (fun x => !used.contains x) 6 ((v + 6 - m) % 6) (by omega)
    (by simp only [lands, hfree, Bool.not_false]) (fun k hk => by simp only [hused k hk, Bool.not_true])
  rw [nextVec, found, Option.getD_some, lands]

/-- A state but FAULT, entered from any state but RUN, takes its gates and leaves the budget as it is (R295, R297). -/
theorem spnTo_of_not_run {k : Nat} {s : State} (hrun : s.spnState ≠ 6) (hfault : k ≠ 9) :
    s.spnTo k = (s.put F.SPN_STAT_state k).onSpn (fun x => { x with gates := gatesOf k }) := by
  rw [State.spnTo, if_neg (fun h => hrun h.1), if_neg hfault]

/-- In PROBE the vector `m` of the first largest of six peaks decides by its margin over the opposite one (R300, R303). -/
theorem probeEnd_of_probe {peaks : List Nat} {m : Nat} {s : State} (hprobe : s.spnState = 3) (hlen : peaks.length = 6) (hm : m < 6)
    (hmax : ∀ i, i < 6 → peaks.getD i 0 ≤ peaks.getD m 0) (hfirst : ∀ i, i < m → peaks.getD i 0 < peaks.getD m 0) :
    let top := peaks.getD m 0
    let opp := peaks.getD ((m + 3) % 6) 0
    let v := nextVec s.spn.used m
    exec (.probeEnd peaks) s = .next (if opp < top ∧ opp * (100 + s.get F.SPN_ALIGN_pdiff) ≤ top * 100 then
        (s.onSpn (fun x => { x with vec := v, used := x.used ++ [v] })).spnTo 4
      else (s.onSpn (fun x => { x with probes := x.probes + 1 })).attemptFail) := by
  have largest : argMax (peaks.take 6) = m := by
    rw [List.take_of_length_le (by omega)]
    exact argMax_eq peaks m (by omega) (fun i hi => hmax i (by omega)) hfirst
  have ends : exec (.probeEnd peaks) s = execProbeEnd peaks s := rfl
  rw [ends, execProbeEnd, if_neg (not_not_intro hprobe), largest]

/-- Settles O49: the largest peak decides the attempt (`probeEnd_of_probe`), and a conclusive one aligns to the vector that the
search forward finds (`nextVec_eq`). -/
theorem probeChoosesTheVector : Obligations.ProbeChoosesTheVector := by
  intro peaks m s hprobe hlen hm hmax hfirst top opp
  have ends := probeEnd_of_probe hprobe hlen hm hmax hfirst
  refine ⟨fun v hmore hmargin hv hfree hused => ?conclusive,
    fun hnot => ends.trans (congrArg Host.Outcome.next (if_neg hnot))⟩
  case conclusive =>
    refine ⟨_, ends.trans (congrArg Host.Outcome.next (if_pos ⟨hmore, hmargin⟩)), spnTo_state 4 (by decide) _, ?_⟩
    have notRun : s.spnState ≠ 6 := by omega
    have entered (f : Spn → Spn) : (s.onSpn f).spnTo 4 = _ := spnTo_of_not_run notRun (by decide)
    rw [nextVec_eq hm hv hfree hused, entered]
    exact ⟨rfl, rfl⟩

/-! ## Writes of SPN_CTL -/

/-- What a write of SPN_CTL makes of the spindle once the register has taken its value (R296, R309, R319). -/
def State.afterSpnCtl (s t : State) : State :=
  let want := s.wantsSpin && s.flag F.SPN_CTL_arm
  if s.flag F.SPN_CTL_run && !(t.flag F.SPN_CTL_run) && t.get F.SPN_CTL_src == 1 then t.stopSpin
  else if t.get F.SPN_CTL_src != s.get F.SPN_CTL_src && t.get F.SPN_CTL_src == 2 && t.flag F.SPN_SPDV_stop then t.stopSpin
  else if t.wantsSpin && !want then t.startSpin
  else if t.get F.SPN_CTL_src != s.get F.SPN_CTL_src && t.spnState == 6 && t.spn.stop == 0 then t.sourceTarget
  else t

theorem writeSpnCtl_of_good {p : Path} {v : Word} {s : State} (hacc : s.accepts p R.SPN_CTL v = true) (hgood : s.spnCtlBad v = false) :
    s.writeSpnCtl p v = s.afterSpnCtl (s.take R.SPN_CTL v) := State.gated_of_accepts hacc hgood

theorem writeSpnCtl_of_bad {p : Path} {v : Word} {s : State} (hacc : s.accepts p R.SPN_CTL v = true) (hbad : s.spnCtlBad v = true) :
    s.writeSpnCtl p v = s.ignoreRule p R.SPN_CTL := State.gated_bad_of_accepts hacc hbad

/-! ## Periods and ticks -/

/-- What a period makes of the spindle after the observer: open-loop rotation in GO, and in RUN and STOP the loss of control without the
observer's lock (R287, R302, R306). -/
def State.afterObserver (m : PwmIn) (t : State) : State :=
  if t.spnState = 5 then t.openLoop m
  else if (t.spnState = 6 ∨ t.spnState = 7) ∧ !(t.flag F.SPN_STAT_obslock) then t.loseControl F.SPN_ERR_obslost
  else t

section AfterObserver
variable (m : PwmIn) {t : State}

theorem afterObserver_of_go (hgo : t.spnState = 5) : t.afterObserver m = t.openLoop m := if_pos hgo

theorem afterObserver_of_lost (hrun : t.spnState = 6 ∨ t.spnState = 7) (hlost : t.flag F.SPN_STAT_obslock = false) :
    t.afterObserver m = t.loseControl F.SPN_ERR_obslost := by
  have notGo : t.spnState ≠ 5 := by omega
  rw [State.afterObserver, if_neg notGo, if_pos ⟨hrun, by rw [hlost, Bool.not_false]⟩]

theorem afterObserver_of_kept (hgo : t.spnState ≠ 5)
    (hkept : t.spnState ≠ 6 ∧ t.spnState ≠ 7 ∨ t.flag F.SPN_STAT_obslock = true) : t.afterObserver m = t := by
  rw [State.afterObserver, if_neg hgo, if_neg]
  rintro ⟨hrun, hlost⟩
  rcases hkept with hother | hlock
  · omega
  · rw [hlock] at hlost
    exact absurd hlost (by decide)

end AfterObserver

theorem guard_of_runs {b : Nat} {s : State} (hruns : s.runs b = true) : ¬(!(s.runs b)) = true := by rw [hruns]; decide

/-- A period of a drive that runs: the observer, what follows from it, and the gates (R287). -/
theorem pwmPeriod_of_runs (m : PwmIn) {s : State} (hruns : s.runs 5 = true) :
    let t := (s.onSpn (fun x => { x with ocRow := if x.oc then x.ocRow else 0, oc := false })).observe m
    exec (.pwmPeriod m) s = .next ((t.afterObserver m).periodGates m) :=
  congrArg Host.Outcome.next (if_neg (guard_of_runs hruns))

/-- A tick of a drive that runs, to the end of STOP below the speed of the zero vector (R249, R309). -/
theorem spindleTick_of_runs (m : SpdIn) {s : State} (hruns : s.runs 5 = true) :
    let t := ((s.curveActivate.takeSpd m).sourceTick s.pinRuns).rampStep.spindleLoops.lockStep.flyCheck
    exec (.spindleTick m) s = .next (if t.spnState = 7 ∧ t.rpm < t.get F.SPN_FLY_zvrpm then
      ((t.onSpn (fun x => { x with stop := 4, startPend := false })).spnTo 2).autoset else t.autoset) := by
  intro t
  rw [← apply_ite State.autoset]
  exact congrArg Host.Outcome.next (if_neg (guard_of_runs hruns))

/-- The first overcurrent of a period turns the gates off and counts; the sixteenth in a row is a fault (R291, R306). -/
theorem phaseOvercurrent_of_runs {s : State} (hruns : s.runs 5 = true) (hoc : s.spn.oc = false) :
    let t := s.onSpn (fun x => { x with gates := .off, oc := true, ocRow := x.ocRow + 1 })
    exec .phaseOvercurrent s = .next (if s.spn.ocRow + 1 = 16 then
        (if t.spnState = 6 ∨ t.spnState = 7 then t.loseControl F.SPN_ERR_ocur else t.raise F.SPN_ERR_ocur)
      else t) :=
  congrArg Host.Outcome.next (if_neg (by simp [hruns, hoc]))

/-! ## Ends of waits and states -/

theorem lowerTargetRelease_of_wait {rpm pt : Nat} {s : State} (hwait : s.spn.wait = some (rpm, pt))
    (hfits : s.get F.HRV_DIRTY_kib = 0 ∨ s.spn.tbFresh = true ∧ s.get F.HRV_DIRTY_kib < s.get F.HRV_TBUDGET_kib) :
    exec .lowerTargetRelease s = .next (s.passTarget rpm pt) := by
  have releases : exec .lowerTargetRelease s = execLowerTargetRelease s := rfl
  rw [releases, execLowerTargetRelease, hwait]
  exact congrArg Host.Outcome.next (if_pos hfits)

/-- SENSE ends in RUN with a rotor that turns forward under the observer's lock, fast enough to catch, and else in BRAKE (R298). -/
theorem senseEnd_of_sense {s : State} (hsense : s.spnState = 1) :
    let t := ((s.put F.SPN_STAT_caught 1).inc F.SPN_STARTCNT_catch).enterRun
    exec .senseEnd s = .next (
      if s.flag F.SPN_STAT_obslock = true ∧ s.flag F.SPN_STAT_rev = false ∧ s.get F.SPN_CATCH_rpm ≤ s.get F.SPN_STAT_obsrpm then
        (if t.wantsSpin then t else t.stopSpin)
      else s.spnTo 2) := by
  have ends : exec .senseEnd s = execSenseEnd s := rfl
  rw [ends, execSenseEnd, if_neg (not_not_intro hsense)]
  simp only [Bool.and_eq_true, Bool.not_eq_true', decide_eq_true_eq, and_assoc]

theorem stopDrainDone_of_clean {s : State} (hstop : s.spn.stop = 1) (hdirty : s.get F.HRV_DIRTY_kib = 0)
    (hwt : s.get F.HRV_WTDIRTY_kib = 0) : exec .stopDrainDone s = .next s.stopUnload := by
  have clean : s.clean = true := by simp [State.clean, hdirty, hwt]
  exact congrArg Host.Outcome.next (if_pos ⟨hstop, clean⟩)

/-- Settles O50: a write of SPN_CTL by whether it breaks a rule (`writeSpnCtl_of_good`, `writeSpnCtl_of_bad`), a period by what
follows from its observer (`pwmPeriod_of_runs`), a tick by the state it comes to (`spindleTick_of_runs`), an overcurrent by its count
(`phaseOvercurrent_of_runs`), and each event by the guard that its premise meets. -/
theorem spindleDriveEvents : Obligations.SpindleDriveEvents := by
  refine ⟨?write, ?period, ?overcurrent, ?tick, ?window, ?lower, ?sense, ?standstill, ?align, ?drain⟩
  case write =>
    intro p v s hacc take t want r
    have written {u : State} (h : s.writeSpnCtl p v = u) : exec (.spnCtlArm p v) s = .next u ∧ exec (.spnCtlRun p v) s = .next u ∧
        exec (.spnCtlSrc p v) s = .next u :=
      ⟨congrArg Host.Outcome.next h, congrArg Host.Outcome.next h, congrArg Host.Outcome.next h⟩
    exact ⟨fun hgood => written (writeSpnCtl_of_good hacc hgood), fun hbad => written (writeSpnCtl_of_bad hacc hbad)⟩
  case period =>
    intro m s hruns t
    have passes := pwmPeriod_of_runs m hruns
    have ends {u : State} (h : t.afterObserver m = u) : exec (.pwmPeriod m) s = .next (u.periodGates m) :=
      passes.trans (congrArg (fun u => Host.Outcome.next (State.periodGates m u)) h)
    exact ⟨fun hgo => ends (afterObserver_of_go m hgo), fun hrun hlost => ends (afterObserver_of_lost m hrun hlost),
      fun hgo hkept => ends (afterObserver_of_kept m hgo hkept)⟩
  case overcurrent =>
    intro s hruns hoc t
    have limits := phaseOvercurrent_of_runs hruns hoc
    exact ⟨fun hrow => limits.trans (congrArg Host.Outcome.next (if_neg (by omega))),
      fun hrow => limits.trans (congrArg Host.Outcome.next (if_pos (by omega)))⟩
  case tick => exact fun m s hruns => spindleTick_of_runs m hruns
  case window => exact fun s hupok => congrArg Host.Outcome.next (if_pos hupok)
  case lower => exact fun rpm pt s hwait hfits => lowerTargetRelease_of_wait hwait hfits
  case sense =>
    intro s hsense c
    have ends := senseEnd_of_sense hsense
    exact ⟨fun hcaught => ends.trans (congrArg Host.Outcome.next (if_pos hcaught)),
      fun hnot => ends.trans (congrArg Host.Outcome.next (if_neg hnot))⟩
  case standstill => exact fun s hbrake => congrArg Host.Outcome.next (if_neg (not_not_intro hbrake))
  case align => exact fun s halign => congrArg Host.Outcome.next (if_neg (not_not_intro halign))
  case drain => exact fun s hstop hdirty hwt => stopDrainDone_of_clean hstop hdirty hwt

end Sys2Proof.Machine
end

section
/-! PROOFS. What a path may not write it cannot change, the admin commands in diapause, the causes of a harvest, the steps of a cold
start, and the budget's arming with the chopper and the end of coast writing (00_scope.md R18 to R25, 08_harvest.md R325 to R362,
13_startup_and_image.md R532 to R550). -/

namespace Sys2Proof.Machine
open Sys2Proof

/-! ## Accesses that a path may not make -/

/-- From `s` to `t` only registers at the places of BLK_IGNCNT and BLK_IGNADDR may differ. -/
def MarksOnly (s t : State) : Prop :=
  t = { s with regs := t.regs } ∧ ∀ b, b % 0x10000 ≠ 4 → b % 0x10000 ≠ 8 → t.reg b = s.reg b

theorem MarksOnly.refl (s : State) : MarksOnly s s := ⟨rfl, fun _ _ _ => rfl⟩

theorem State.ignore_marksOnly (p : Path) (k a c : Nat) (rd : Bool) (s : State) : MarksOnly s (s.ignore p k a c rd) := by
  refine ⟨?rest, fun b hcnt haddr => ?regs⟩
  case rest =>
    rw [State.ignore_eq, State.incStop_eq]
    rfl
  case regs =>
    have notCount : b ≠ (F.BLK_IGNCNT_count k).addr := by simp only [F.BLK_IGNCNT_count, R.BLK_IGNCNT]; omega
    have notAddr : b ≠ R.BLK_IGNADDR k := by simp only [R.BLK_IGNADDR]; omega
    rw [State.ignore_eq, State.reg_setReg_ne _ _ notAddr, State.reg_incStop_ne _ notCount]

/-- A register that the path may not write has a cause of R664, whether or not it is implemented. -/
theorem writeCause_of_not_pathWrites {p : Path} {a : Nat} (v : Word) (s : State) (h : pathWrites p a = false) :
    ∃ c, s.writeCause p a v = some c := by
  -- The cores may write every register; the words of a control store, which only they may write, ask for this below.
  have notCore : p ≠ .core := by rintro rfl; simp [pathWrites] at h
  unfold State.writeCause
  extract_lets b
  split
  · exact ⟨1, rfl⟩
  split
  · exact ⟨2, rfl⟩
  split
  case h_1 =>
    by_cases word : (csWord a).isSome = true
    · exact ⟨1, if_pos word⟩
    · exact ⟨7, if_neg word⟩
  case h_2 => exact ⟨1, if_pos (by simp [h])⟩

/-- A path that is closed carries no write of any width. -/
theorem State.writeAccess_closed {s : State} {p : Path} (a : Nat) (z : Width) (v : BitVec 64) (hp : s.writeOpen p = false) :
    s.writeAccess p a z v = s := by simp [State.writeAccess, hp]

/-- A word that the path may not write is not carried, or is ignored: over SMBus outside its blocks, and else for its cause. -/
theorem State.writeAccess_forbidden {p : Path} {a : Nat} (v : BitVec 64) (s : State) (ha : a % 4 = 0) (h : pathWrites p a = false) :
    MarksOnly s (s.writeAccess p a .word v) := by
  obtain ⟨c, hc⟩ := writeCause_of_not_pathWrites (v.setWidth 32) s h
  unfold State.writeAccess
  extract_lets narrow
  split
  case isTrue => exact .refl s
  case isFalse carried =>
    have hp : s.writeOpen p = true := by
      by_contra closed
      simp [closed] at carried
    split
    case isTrue => exact State.ignore_marksOnly ..
    case isFalse =>
      simp only [ha, ne_eq, not_true_eq_false, if_false, State.writeOne_cause hp hc]
      exact State.ignore_marksOnly ..

theorem State.readOne_cause {s : State} {p : Path} {a c : Nat} (hp : s.pathOpen p = true) (ha : a % 4 = 0)
    (hc : s.readCause p a = some c) : s.readOne p a = s.ignore p (s.countBlock p a) a c true := by
  simp [State.readOne, hp, ha, hc]

/-- An aligned 32-bit read in the window, also one over SMBus outside its blocks. -/
theorem ignoredRead_word {a : Word} (p : Path) (s : State) (h : a.toNat < 0x400000) :
    exec (.ignoredRead p a .word) s = .next (s.readOne p a.toNat) := by
  by_cases outside : p = .smbus ∧ smbBlock (a.toNat / 0x10000) = false
  · have reads : exec (.ignoredRead p a .word) s = execIgnoredRead p a .word s := rfl
    rw [reads, execIgnoredRead]
    cases hp : s.pathOpen p with
    | false => simp [readOne_closed hp]
    | true => simp [outside]
  · exact execIgnoredRead_word ⟨h, fun hs => by simpa [hs] using outside⟩ s rfl

/-- Settles O10: a cause of R664 is asked before the register is (`writeOne_cause`, `readOne_cause`), a register that the path may not
write has one (`writeCause_of_not_pathWrites`), and a harvest closes every path. -/
theorem forbiddenAccessDoesNothingElse : Obligations.ForbiddenAccessDoesNothingElse := by
  refine ⟨?write, ?read, ?forbidden, ?clear, ?harvest⟩
  case write =>
    intro p a v s c hopen ha hlt hcause hsmb
    exact congrArg Host.Outcome.next ((State.writeAccess_word ⟨hlt, hsmb⟩ s v ha).trans (State.writeOne_cause hopen hcause))
  case read =>
    intro p a s c hopen ha hlt hcause
    exact ⟨(ignoredRead_word p s hlt).trans (congrArg _ (State.readOne_cause hopen ha hcause)), if_pos (Or.inr (by simp [hcause]))⟩
  case forbidden =>
    intro p a v s t ha hpath hexec
    have barred : pathWrites p a.toNat = false := by
      obtain ⟨rfl, h⟩ | ⟨rfl, h⟩ := hpath <;> exact h
    obtain rfl : s.writeAccess p a.toNat .word v = t := Host.Outcome.next.inj hexec
    exact State.writeAccess_forbidden v s ha barred
  case clear =>
    intro p b v s hacc hclr
    exact congrArg Host.Outcome.next ((State.gated_of_accepts hacc rfl).trans (if_pos hclr))
  case harvest =>
    intro p a z v s hharv
    exact congrArg Host.Outcome.next (State.writeAccess_closed _ z v (by simp [State.writeOpen, hharv]))

/-! ## Admin commands in diapause -/

/-- In diapause an admin command that is fetched completes with Diapause, whatever it would do (R362). -/
theorem State.admin_of_diapause {s : State} {e : Sqe} (f : State → State) (hen : s.nvme.en = true) (hrdy : s.nvme.rdy = true)
    (hpp : s.nvme.pp = false) (hharv : s.harvesting = false) (hdown : s.hostDown = false) (hroom : s.cqRoom 0 = true)
    (hdiap : s.diapause = true) : s.admin false f e = s.adminTaken.adminDone e.cid (CplRec.bad 7 0xC0) := by
  have taken : s.adminTaken.diapause = true := by
    rw [← hdiap]
    simp only [State.diapause, State.flag, State.adminTaken, State.inc]
    rw [State.get_put_apart _ _ _ _ (by decide) (by decide), State.get_put_apart _ _ _ _ (by decide) (by decide)]
  have fetched : s.admin false f e = if s.adminTaken.diapause && !false then s.adminTaken.adminDone e.cid (CplRec.bad 7 0xC0)
      else match (if s.adminTaken.boot.phase = 5 then loaderBad e else none) with
        | some r => s.adminTaken.adminDone e.cid r
        | none => f s.adminTaken := if_neg (by simp [hen, hrdy, hpp, hharv, hdown, hroom])
  rw [fetched, if_pos (by simp [taken])]

/-- A Firmware Commit with none in progress is an admin command like the others. -/
theorem State.fwCommitCmd_of_free {s : State} (ca : Nat) (f : Nat → State → State) (e : Sqe) (h : s.fw.commit = none) :
    ∃ g, s.fwCommitCmd ca f e = s.admin false g e := ⟨_, if_neg (by simp [h])⟩

/-- `c` is the admin command of entry `e` that diapause does not serve: what it does, it does once `admin` has fetched it. -/
def AdminOnly (c : Instr) (e : Sqe) (s : State) : Prop := ∃ f, exec c s = .next (s.admin false f e)

theorem AdminOnly.fwCommit {c : Instr} {e : Sqe} {s : State} {ca : Nat} {f : Nat → State → State}
    (h : s.fw.commit = none) (hexec : exec c s = .next (s.fwCommitCmd ca f e)) : AdminOnly c e s := by
  obtain ⟨g, hg⟩ := State.fwCommitCmd_of_free ca f e h
  exact ⟨g, hexec.trans (congrArg _ hg)⟩

/-- Settles O32: each of the commands is `admin` of what it does (`AdminOnly`), which in diapause asks no more. -/
theorem diapauseServesIdentifyAndLogs : Obligations.DiapauseServesIdentifyAndLogs := by
  refine ⟨by decide, fun e s hen hrdy hpp hharv hdown hroom hdiap hfree c hc => ?_⟩
  have only : AdminOnly c e s := by
    revert c
    simp only [List.forall_mem_cons, List.not_mem_nil, false_imp_iff, implies_true, and_true]
    exact ⟨⟨_, rfl⟩, ⟨_, rfl⟩, ⟨_, rfl⟩, ⟨_, rfl⟩, ⟨_, rfl⟩, ⟨_, rfl⟩, ⟨_, rfl⟩, ⟨_, rfl⟩, ⟨_, rfl⟩, ⟨_, rfl⟩, ⟨_, rfl⟩,
      ⟨_, rfl⟩, ⟨_, rfl⟩, ⟨_, rfl⟩, ⟨_, rfl⟩, ⟨_, rfl⟩, ⟨_, rfl⟩, ⟨_, rfl⟩, ⟨_, rfl⟩, ⟨_, rfl⟩, ⟨_, rfl⟩, ⟨_, rfl⟩, ⟨_, rfl⟩,
      .fwCommit hfree rfl, .fwCommit hfree rfl, .fwCommit hfree rfl, .fwCommit hfree rfl, ⟨_, rfl⟩, ⟨_, rfl⟩, ⟨_, rfl⟩⟩
  obtain ⟨f, hf⟩ := only
  rw [hf, State.admin_of_diapause f hen hrdy hpp hharv hdown hroom hdiap]

/-! ## The causes of a harvest -/

/-- The first closing ramp starts its qualification again: the switch open, no ramp, and the supply not yet qualified (R326). -/
def State.requalify (s : State) : State := { (s.setIso false).put F.HRV_STAT_ramp 0 with boot := { s.boot with phase := 0 } }

/-- Before the first closing ramp has ended, a broken supply restarts its qualification while that goes on (R329). -/
theorem trigger_unramped {s : State} {c : Nat} (hramp : s.hrv.ramped = false) (hc : c ≤ 2) :
    (s.boot.phase ≤ 1 → s.trigger c = s.requalify) ∧ (1 < s.boot.phase → s.trigger c = s) := by
  have asks : s.trigger c = if s.boot.phase ≤ 1 ∧ c ≤ 2 then s.requalify else s := if_pos (by simp [hramp])
  exact ⟨fun h => asks.trans (if_pos ⟨h, hc⟩), fun h => asks.trans (if_neg (by omega))⟩

theorem boot_raise (f : Field) (s : State) : (s.raise f).boot = s.boot := (boot_of_eventsOnly (s.raise_only f)).trans rfl

section HrvCmd
variable {p : Path} {v : Word} {s : State} (hacc : s.accepts p R.HRV_CMD v = true)
include hacc

/-- The force outside factory test mode, or a test pulse in a harvest: what R329 and R353 do not permit. -/
theorem writeHrvCmd_of_bad (hbad : ((v.getLsbD 31 && !s.factory) || (v.getLsbD 30 && s.harvesting)) = true) :
    s.writeHrvCmd p v = s.ignoreRule p R.HRV_CMD := by
  unfold State.writeHrvCmd
  exact State.gated_bad_of_accepts hacc hbad

/-- A permitted write of HRV_CMD: the test pulse, unless one goes on, and then the trigger. -/
theorem writeHrvCmd_of_good (hgood : ((v.getLsbD 31 && !s.factory) || (v.getLsbD 30 && s.harvesting)) = false) :
    s.writeHrvCmd p v = doIf (v.getLsbD 31) (State.trigger 3)
      (doIf (v.getLsbD 30 && !s.hrv.chopTest) (fun s => s.onHrv (fun h => { h with chopTest := true, chop := !h.chopShort })) s) := by
  unfold State.writeHrvCmd
  exact State.gated_of_accepts hacc hgood

end HrvCmd

/-- Settles O51: each cause is `trigger` of its bit, after what the cause does to the switch and to HRV_ERR, which leaves what `trigger`
asks for: the state, the end of the first ramp and the start-up. -/
theorem laterCausesAreOnlyRecorded : Obligations.LaterCausesAreOnlyRecorded := by
  refine ⟨?ramped, ?forced, ?unramped⟩
  case ramped =>
    intro s hramp
    have rev : ((s.setIso false).raise F.HRV_ERR_rev).hrv.ramped = true := by rw [raise_hrv, setIso_hrv, hramp]
    have state : ((s.setIso false).raise F.HRV_ERR_rev).hrvState = s.hrvState := by rw [hrvState_raise_rev, setIso_state]
    refine ⟨fun later => ⟨?_, ?_, ?_⟩, fun first => ⟨?_, ?_, ?_⟩⟩
    · exact congrArg Host.Outcome.next (trigger_later 0 hramp (by rwa [setIso_state]))
    · exact congrArg Host.Outcome.next (trigger_later 1 rev (by rwa [state]))
    · exact congrArg Host.Outcome.next (trigger_later 2 hramp later)
    · exact congrArg Host.Outcome.next (trigger_first 0 hramp (by rwa [setIso_state]))
    · exact congrArg Host.Outcome.next (trigger_first 1 rev (by rwa [state]))
    · exact congrArg Host.Outcome.next (trigger_first 2 hramp first)
  case forced =>
    intro p v s hacc hforce htest
    refine ⟨fun hfac => ?_, fun hfac hramp => ?_⟩
    · exact congrArg Host.Outcome.next (writeHrvCmd_of_bad hacc (by rw [hforce, htest, hfac]; rfl))
    · have triggers : exec (.hrvForce p v) s = .next (s.trigger 3) := by
        refine congrArg Host.Outcome.next ((writeHrvCmd_of_good hacc (by rw [hforce, htest, hfac]; rfl)).trans ?_)
        rw [hforce, htest]
        rfl
      exact ⟨fun later => triggers.trans (congrArg _ (trigger_later 3 hramp later)),
        fun first => triggers.trans (congrArg _ (trigger_first 3 hramp first))⟩
  case unramped =>
    intro s hramp u back
    have rev : (u.raise F.HRV_ERR_rev).hrv.ramped = false := by rw [raise_hrv, setIso_hrv, hramp]
    have boot : (u.raise F.HRV_ERR_rev).boot = s.boot := boot_raise _ u
    obtain ⟨conn, conn'⟩ := trigger_unramped (s := u) (c := 0) hramp (by decide)
    obtain ⟨cur, cur'⟩ := trigger_unramped (c := 1) rev (by decide)
    obtain ⟨loss, loss'⟩ := trigger_unramped (c := 2) hramp (by decide)
    rw [boot] at cur cur'
    exact ⟨fun early => ⟨congrArg Host.Outcome.next (conn early), congrArg Host.Outcome.next (cur early),
        congrArg Host.Outcome.next (loss early)⟩,
      fun past => ⟨congrArg Host.Outcome.next (conn' past), congrArg Host.Outcome.next (cur' past),
        congrArg Host.Outcome.next (loss' past)⟩⟩

/-! ## The steps of a cold start -/

/-- With no failed domain, a cold start's image trains the HBM and starts from the slot that the loader chooses (R549 to R553, R634). -/
theorem imageLoadDone_of_cold {m : ImageIn} {s : State} (hphase : s.boot.phase = 3) (hcold : s.flag F.CFG_BOOT_warm = false)
    (hup : m.failed = []) : exec (.imageLoadDone m) s = .next (
      match (((s.put F.HBM_STAT_trained 1).inc F.HBM_TRAIN_count).onBoot (fun b => { b with vddq := true })).coldSlot m with
      | (some k, t) => (t.startImage (t.slotImage k) m k).installRest
      | (none, t) => t.minimal) := by
  have loads : exec (.imageLoadDone m) s = execImageLoadDone m s := rfl
  have notStaged : ¬(s.boot.phase = 5 ∧ (s.fw.commit.map (·.step)) = some 5) := by omega
  rw [loads, execImageLoadDone, if_neg notStaged, if_neg (not_not_intro hphase), hup]
  exact congrArg Host.Outcome.next ((if_neg Bool.false_ne_true).trans (if_neg (ne_true_of_eq_false hcold)))

/-- Settles O18: each step is one arm of its event, which the phase of the start-up or the ramp's flag selects. -/
theorem powerUpSequence : Obligations.PowerUpSequence := by
  refine ⟨?qualified, ?step, ?late, ?rise, ?coreLate, ?crystal, ?image⟩
  case qualified =>
    intro s hphase hstate hdouble
    refine congrArg Host.Outcome.next (if_neg ?_)
    rintro (h | h | h)
    · exact h hphase
    · omega
    · exact hdouble h
  case step => exact fun vin mbus s hramp => congrArg Host.Outcome.next (if_pos hramp)
  case late => exact fun s hramp => congrArg Host.Outcome.next (if_pos hramp)
  case rise => exact fun s hphase => congrArg Host.Outcome.next (if_neg (not_not_intro hphase))
  case coreLate => exact fun s hphase => congrArg Host.Outcome.next (if_neg (not_not_intro hphase))
  case crystal =>
    intro s hphase hcold hdiap
    exact congrArg Host.Outcome.next (if_neg (by simp [hphase, hcold, hdiap]))
  case image => exact fun m s hphase hcold hup => imageLoadDone_of_cold hphase hcold hup

/-! ## The budget's arming, the chopper and the end of coast writing -/

/-- A permitted write of HRV_CTL takes its value; in a harvest and in DONE nothing follows, and else the arming does (R335). -/
theorem writeHrvCtl_of_good {p : Path} {v : Word} {s : State} (hacc : s.accepts p R.HRV_CTL v = true)
    (hgood : (v.getLsbD 0 && s.diapause) = false) : let t := s.take R.HRV_CTL v
    s.writeHrvCtl p v = if t.harvesting = true ∨ t.hrvState = 7 then t
      else if t.flag F.HRV_CTL_arm then (if t.hrvState = 0 then t.put F.HRV_STAT_state 1 else t)
      else (t.put F.HRV_STAT_state 0).setBudget 0 := by
  unfold State.writeHrvCtl
  exact State.gated_of_accepts hacc hgood

/-- With no harvest and no test pulse, HRV_CMD.chtest drives `CHOP` unless the chopper is short (R353). -/
theorem chopTest_of_accepts {p : Path} {v : Word} {s : State} (hacc : s.accepts p R.HRV_CMD v = true) (hforce : v.getLsbD 31 = false)
    (htest : v.getLsbD 30 = true) (hharv : s.harvesting = false) : exec (.chopTest p v) s =
      .next (if s.hrv.chopTest then s else s.onHrv (fun h => { h with chopTest := true, chop := !h.chopShort })) := by
  refine congrArg Host.Outcome.next ((writeHrvCmd_of_good hacc (by rw [hforce, htest, hharv]; rfl)).trans ?_)
  rw [hforce, htest]
  cases s.hrv.chopTest <;> simp [doIf]

section ChopCheck
variable {isns : Byte} {s : State}

/-- With `CHOP` high, a current below HRV_CHOP.imin is an open chopper (R353). -/
theorem chopCheck_of_open (hchop : s.hrv.chop = true)
    (hmin : isns.toNat < (s.put F.HRV_MSNS_chop isns.toNat).get F.HRV_CHOP_imin) : s.chopCheck isns =
      ((s.put F.HRV_MSNS_chop isns.toNat).raise F.HRV_ERR_chopopen).onHrv (fun h => { h with chopOpen := true }) :=
  if_pos (by simp [hchop, hmin])

/-- With `CHOP` low, a current above HRV_CHOP.ileak is a short one (R353). -/
theorem chopCheck_of_short (hchop : s.hrv.chop = false)
    (hleak : (s.put F.HRV_MSNS_chop isns.toNat).get F.HRV_CHOP_ileak < isns.toNat) : s.chopCheck isns =
      ((s.put F.HRV_MSNS_chop isns.toNat).raise F.HRV_ERR_chopshort).onHrv (fun h => { h with chopShort := true }) :=
  (if_neg (by simp [hchop])).trans (if_pos (by simp [hchop, hleak]))

end ChopCheck

/-- `HOLD_SENSE` not below 10.0 V, no coast path, or a low HOLD met before: only the sample is shown (R355). -/
theorem holdLow_of_idle {hold : Nat} {s : State}
    (h : 10000 ≤ hold ∨ (s.put F.HRV_VSNS_hold (hold / 10)).coasting = false ∨ s.hrv.holdLow = true) :
    exec (.holdLow hold) s = .next (s.put F.HRV_VSNS_hold (hold / 10)) := by
  refine congrArg Host.Outcome.next (if_pos ?_)
  obtain h | h | h := h <;> simp [h]

/-- The first low HOLD of a coast path in SEEK or COAST ends coast writing (R355, R361). -/
theorem holdLow_of_coasting {hold : Nat} {s : State} (hlow : hold < 10000) (hcoast : (s.put F.HRV_VSNS_hold (hold / 10)).coasting = true)
    (hfirst : s.hrv.holdLow = false) : let v := (s.put F.HRV_VSNS_hold (hold / 10)).onHrv (fun h => { h with holdLow := true })
    v.hstep = 3 ∨ v.hstep = 4 → let w := v.onHrv (fun h => { h with dealt := [] })
    exec (.holdLow hold) s = .next (
      if w.coastLanes.isEmpty then (if w.harvesting then w.beginPark else w.onHrv (fun h => { h with phase := 6 }))
      else w.beginCommit) := by
  intro v hstep w
  have asks : (v.hstep == 3 || v.hstep == 4) = true := by simpa using hstep
  have first : ¬(!(s.put F.HRV_VSNS_hold (hold / 10)).coasting || (s.put F.HRV_VSNS_hold (hold / 10)).hrv.holdLow ||
      decide (10000 ≤ hold)) = true := by simp [hcoast, hfirst, hlow]
  exact congrArg Host.Outcome.next ((if_neg first).trans (if_pos asks))

/-- Settles O53: the writes of HRV_CTL and HRV_CMD by `writeHrvCtl_of_good` and `chopTest_of_accepts`, the low HOLD by whether it is the
first of a coast path, and the samples by the comparison that each makes. -/
theorem budgetArmingAndChopper : Obligations.BudgetArmingAndChopper := by
  refine ⟨?compute, ?arm, ?chopper, ?fault, ?test, ?testEnd, ?hold, ?park⟩
  case compute =>
    exact fun s => ⟨fun harm => congrArg Host.Outcome.next (if_pos harm),
      fun hoff => congrArg Host.Outcome.next (if_neg (ne_true_of_eq_false hoff))⟩
  case arm =>
    intro p v s hacc t
    refine ⟨fun hv hdiap => ?refused, fun hgood => ?taken⟩
    case refused => exact congrArg Host.Outcome.next (State.gated_bad_of_accepts hacc (by rw [hv, hdiap]; rfl))
    case taken =>
      have takes := writeHrvCtl_of_good hacc (by simpa using hgood)
      have idle (h : t.hrvState ≤ 1) : ¬(t.harvesting = true ∨ t.hrvState = 7) := by simp [State.harvesting]; omega
      exact ⟨fun busy => congrArg Host.Outcome.next (takes.trans (if_pos busy)),
        fun h harm => congrArg Host.Outcome.next (takes.trans ((if_neg (idle h)).trans (if_pos harm))),
        fun h hoff => congrArg Host.Outcome.next (takes.trans ((if_neg (idle h)).trans (if_neg (ne_true_of_eq_false hoff))))⟩
  case chopper =>
    intro mbus s t
    refine ⟨fun hsound habove => ?drives, fun hnot => ?stays, fun hbelow => ?releases, fun hnot => ?remains⟩
    case drives => exact congrArg Host.Outcome.next (if_pos ⟨habove, by simp [hsound]⟩)
    case stays =>
      have off : ¬(t.get F.HRV_BUS_chon * 100 < mbus ∧ (!s.hrv.chopShort) = true) := by
        rintro ⟨above, sound⟩
        obtain short | below := hnot
        · simp [short] at sound
        · omega
      exact congrArg Host.Outcome.next (if_neg off)
    case releases => exact congrArg Host.Outcome.next (if_pos hbelow)
    case remains => exact congrArg Host.Outcome.next (if_neg (Nat.not_lt.2 hnot))
  case fault =>
    exact fun isns s => ⟨fun hchop hmin => congrArg Host.Outcome.next (chopCheck_of_open hchop hmin),
      fun hchop hleak => congrArg Host.Outcome.next (chopCheck_of_short hchop hleak)⟩
  case test => exact fun p v s hacc hforce htest hharv => chopTest_of_accepts hacc hforce htest hharv
  case testEnd => exact fun isns s htest => congrArg Host.Outcome.next (if_neg (by simp [htest]))
  case hold =>
    intro hold s u
    refine ⟨holdLow_of_idle, fun hlow hcoast hfirst => ?_⟩
    intro v hstep w
    have ends := holdLow_of_coasting hlow hcoast hfirst hstep
    exact ⟨fun live => ends.trans (congrArg _ (if_neg (by simpa using live))),
      fun none => ends.trans (congrArg _ (if_pos (List.isEmpty_iff.2 none)))⟩
  case park => exact fun s hpark hparked => congrArg Host.Outcome.next (if_pos ⟨hpark, by simp [hparked]⟩)

end Sys2Proof.Machine
end

section
/-! PROOFS. The rate contracts: the steps of an establishment, the release, the query and the recheck, and what frames and deadlines
do with them (09_rate_contracts.md R371 to R400). -/

namespace Sys2Proof.Machine
open Sys2Proof

/-! ## The commands of the host -/

/-- What Establish Contract completes with when it refuses for reason `r`, which the contract log records (R388, R399). -/
def State.refuseContract (e : Sqe) (r : Nat) (t : State) : State :=
  (t.ctrLogRec 3 0xFF (ofLe (bytesAt e.data 0 2)) (byteAt e.data 2).toNat r (word4 e.data 4)).adminDone e.cid (refused r)

/-- The rate that CTR would report to SPN with the contract of `e` in the set (R386). -/
def State.demandWith (e : Sqe) (t : State) : Nat :=
  max (t.get F.CTR_DEMAND_sum + (termsOfDesc e.data).rate) (t.get F.CTR_DEMAND_floor)

/-- The terms of the pending and active slots, and those of `e` behind them. -/
def State.termsWith (e : Sqe) (t : State) : List Terms := t.termsOf (t.slotsIn [1, 2]) ++ [termsOfDesc e.data]

/-- The first empty slot pending with the contract of `e`, and its establishment in progress (R388, step 3). -/
def State.pendContract (e : Sqe) (t : State) : State :=
  let i := (t.slotsIn [0]).headD 0
  let p := (t.pointOf (t.demandWith e)).2
  let w := ((t.plan (t.termsWith e) (t.speedOf p)).map (fun pl => Rat.units (reservation (t.termsWith e) pl / 1024))).getD 0
  let step := if (termsOfDesc e.data).read then 5 else 4
  ((t.installSlot i e.data).setGuard.onCtr (fun c => { c with
    est := some { cid := e.cid.toNat, desc := bytesAt e.data 0 64, slot := i, step := step, p := p, w := w } })).pump

/-- An Establish Contract that is taken: it is served, names namespace 1, its reserved dwords are zero, and no Firmware Commit is in
progress (R387, R394). -/
structure TakesContract (e : Sqe) (s : State) : Prop where
  serves : s.serves = true
  nsid : e.nsid = 1
  reserved : (e.dw10 != 0 || e.dw11 != 0 || e.dw12 != 0 || e.dw13 != 0 || e.dw14 != 0 || e.dw15 != 0) = false
  free : s.fw.commit = none

/-- Past the checks of the command itself, step 1 and the admission of the set decide. -/
theorem establishContract_of_takes {e : Sqe} {s : State} (h : TakesContract e s) : exec (.establishContract e) s = .next (
    match s.adminTaken.step1 e.data with
    | some r => s.adminTaken.refuseContract e r
    | none => match s.adminTaken.contractReason (s.adminTaken.termsWith e) (s.adminTaken.demandWith e) with
      | some r => s.adminTaken.refuseContract e r
      | none => s.adminTaken.pendContract e) := by
  have idle : ¬(s.adminTaken.fw.commit.any (fun c => c.action == 3)) = true := by
    have keeps : s.adminTaken.fw = s.fw := rfl
    simp [keeps, h.free]
  exact congrArg Host.Outcome.next ((admin_of_serves h.serves ..).trans ((if_neg (not_not_intro h.nsid)).trans
    ((if_neg (ne_true_of_eq_false h.reserved)).trans (if_neg idle))))

section Waiting
variable {s : State} {e : Est} (hest : s.ctr.est = some e)
include hest

/-- Step 4 ends once no block of the set's zones waits in the overlay and the budget has room for the reservation (R388). -/
theorem establishDrainDone_of_drained (hstep : e.step = 4)
    (hdrained : s.map.ovl.any (fun x => ovlUse x.2 == 1 && ovlNs x.2 == 1 && s.inZoneSet e.slot (ovlKey x.2 / 16384)) = false)
    (hroom : s.get F.HRV_DIRTY_kib + e.w ≤ s.get F.HRV_BUDGET_kib) :
    exec .establishDrainDone s = .next (s.onCtr (fun c => { c with est := some { e with step := 5 } })) := by
  have drains : exec .establishDrainDone s = execEstablishDrainDone s := rfl
  simp [drains, execEstablishDrainDone, hest, hstep, hdrained, hroom]

/-- Step 6 asks the budget again at the point of the lock (R388). -/
theorem establishLocked_of_locked (hstep : e.step = 5) (hlock : s.flag F.SPN_STAT_locked = true) (hpoint : e.p ≤ s.get F.SPN_STAT_point) :
    exec .establishLocked s = .next (if s.get F.HRV_BUDGET_kib < s.wresAt e.p then s.dropEst 7 (refused 7) else s.step7 e) := by
  have locks : exec .establishLocked s = execEstablishLocked s := rfl
  simp [locks, execEstablishLocked, hest, hstep, hlock, hpoint]

/-- An establishment that waits for the lock ends without it, refused for reason 09h (R395). -/
theorem establishLockTimeout_of_waiting (hstep : e.step = 5) : exec .establishLockTimeout s = .next (s.dropEst 9 (refused 9)) := by
  have expires : exec .establishLockTimeout s = execEstablishLockTimeout s := rfl
  simp [expires, execEstablishLockTimeout, hest, hstep]

end Waiting

/-- Release Contract of one of the sixteen slots frees a slot that is active or broken, and no other (R396). -/
theorem releaseContract_of_serves {e : Sqe} {s : State} (hserves : s.serves = true) (hns : e.nsid = 1) (hslot : e.dw10.toNat < 16) :
    let t := s.adminTaken
    let i := e.dw10.toNat
    exec (.releaseContract e) s = .next (
      if t.slotState i = 2 ∨ t.slotState i = 3 then
        (((t.setSlot i 0).logSlot 2 i 0).onContract i (fun _ => Contract.none)).afterRelease.adminDone e.cid
          (CplRec.good 0 (t.queryEntry i))
      else t.adminDone e.cid CplRec.field) :=
  congrArg Host.Outcome.next ((admin_of_serves hserves ..).trans ((if_neg (not_not_intro hns)).trans (if_neg (Nat.not_le.2 hslot))))

/-! ## The deadlines of conforming commands -/

/-- A tile of a conforming read at the read's stop time: one that is not final fails, as never read or as waiting for a reread, unless
a source of it is in the crystallizer, which ends it by its own stop time (R372). -/
def State.stopTile (s : State) (t : RTile) : RTile :=
  if t.final || t.srcs.any (fun x => !x.done && s.inCrys x.surface x.track x.pos x.qtr) then t
  else { t with st := 3, code := if t.st = 0 then 0xFF else 0xF3, at_ := s.us }

section Deadline
variable {id : Nat} {s : State} {c : Ctx} {d : Nat} (hctx : s.ctx? id = some c) (hdead : c.deadline = some d)
include hctx hdead

/-- A conforming write still not admitted 100 µs before its deadline fails (R371). -/
theorem writeDeadlineMiss_of_reached (hwrite : c.sqe.isWrite = true) (hstage : c.stage ≤ 1)
    (hreached : s.reached ((d + 2 ^ 32 - 100) % 2 ^ 32) = true) :
    exec (.writeDeadlineMiss id) s = .next ((s.failWrite c (CplRec.bad 7 0xC1)).postAll).pump.reclass := by
  have misses : exec (.writeDeadlineMiss id) s = execWriteDeadlineMiss id s := rfl
  simp only [misses, execWriteDeadlineMiss, hctx, hdead]
  exact congrArg Host.Outcome.next (if_pos (by rw [hwrite, decide_eq_true hstage, hreached]; rfl))

/-- A conforming read ends at its stop time: the deadline less the guard, which counts in units of 10 µs (R176, R372). -/
theorem contractStopTime_of_reached (hread : c.sqe.isRead = true) (hstage : c.stage = 1)
    (hreached : s.reached ((d + 2 ^ 32 - 10 * s.get F.CRYS_SCHED_guard) % 2 ^ 32) = true) :
    exec (.contractStopTime id) s = .next
      (((s.onCtx id (fun c => { c with tiles := c.tiles.map s.stopTile })).sealReads.withdraw).postAll).pump.reclass := by
  have stops : exec (.contractStopTime id) s = execContractStopTime id s := rfl
  simp only [stops, execContractStopTime, hctx, hdead]
  exact congrArg Host.Outcome.next (if_pos (by rw [hread, hstage, hreached]; rfl))

end Deadline

/-- Settles O31: an Establish Contract past its own checks does what step 1 and the admission decide (`establishContract_of_takes`),
the events of an establishment act in the step that waits for them, and a deadline acts once it is reached. -/
theorem contractCommands : Obligations.ContractCommands := by
  refine ⟨?establish, ?drained, ?locked, ?timeout, ?release, ?query, ?recheck, ?frame, ?miss, ?stop⟩
  case establish =>
    intro e s hserves hns h10 h11 h12 h13 h14 h15 hfree
    have takes : TakesContract e s := ⟨hserves, hns, by simp [h10, h11, h12, h13, h14, h15], hfree⟩
    have decides := establishContract_of_takes takes
    refine ⟨fun r hstep1 => ?_, fun hstep1 r hreason => ?_, fun hstep1 hreason => ?_⟩
    · rw [decides, hstep1]
      rfl
    · rw [decides, hstep1]
      exact congrArg Host.Outcome.next (by rw [State.termsWith, State.demandWith, hreason]; rfl)
    · rw [decides, hstep1]
      exact congrArg Host.Outcome.next (by rw [State.termsWith, State.demandWith, hreason]; rfl)
  case drained => exact fun s e => establishDrainDone_of_drained
  case locked => exact fun s e => establishLocked_of_locked
  case timeout => exact fun s e => establishLockTimeout_of_waiting
  case release =>
    intro e s hserves hns hslot t i
    have releases := releaseContract_of_serves hserves hns hslot
    exact ⟨fun held => releases.trans (congrArg _ (if_pos held)), fun idle => releases.trans (congrArg _ (if_neg idle))⟩
  case query =>
    exact fun e s hserves hns => congrArg Host.Outcome.next ((admin_of_serves hserves ..).trans (if_neg (not_not_intro hns)))
  case recheck => exact fun why s => rfl
  case frame =>
    exact fun n s hen hup hover => congrArg Host.Outcome.next (if_neg (by simp [hen, hup, hover]))
  case miss => exact fun id s c d => writeDeadlineMiss_of_reached
  case stop => exact fun id s c d => contractStopTime_of_reached

end Sys2Proof.Machine
end

section
/-! PROOFS. The I/O commands that HST fetches, and the events of the write and read paths of the commit and buffer manager
(10_buffer_and_dma.md R402 to R419). -/

namespace Sys2Proof.Machine
open Sys2Proof

/-! ## I/O commands -/

/-- A command that executes as an I/O command gets its context at the fetch and goes on from there (R409). -/
theorem taken_of_ioCommand {act : Sqe → Sqe} (c : Fin 65 → Sqe → Instr)
    (hexec : ∀ q e s, exec (c q e) s = .next (s.ioCommand q (act e))) (q : Fin 65) (e : Sqe) (s : State) (hq : q.val ≠ 0)
    (hfetch : s.fetches q = true) :
    exec (c q e) s = .next (s.ioTaken q (act e)) ∧ s.holdsCommand q (act e) := by
  have taken : s.ioCommand q (act e) = s.ioTaken q (act e) := by rw [State.ioCommand, if_neg hq]; rfl
  exact ⟨(hexec q e s).trans (congrArg _ taken), holdsCommand_of_fetches _ _ _ hfetch⟩

/-- Settles O24: every I/O command executes as one with its opcode and action (`taken_of_ioCommand`), and the fetch alone takes the
context and stops. -/
theorem ioCommandsAreTaken : Obligations.IoCommandsAreTaken := by
  refine ⟨taken_of_ioCommand .flush fun _ _ _ => rfl, taken_of_ioCommand .write fun _ _ _ => rfl,
    taken_of_ioCommand .read fun _ _ _ => rfl, taken_of_ioCommand .zoneAppend fun _ _ _ => rfl,
    taken_of_ioCommand .planeRead fun _ _ _ => rfl, taken_of_ioCommand .zoneCodeRate fun _ _ _ => rfl,
    taken_of_ioCommand .zoneClose fun _ _ _ => rfl, taken_of_ioCommand .zoneFinish fun _ _ _ => rfl,
    taken_of_ioCommand .zoneOpen fun _ _ _ => rfl, taken_of_ioCommand .zoneReset fun _ _ _ => rfl,
    taken_of_ioCommand .offlineZone fun _ _ _ => rfl, taken_of_ioCommand .setZoneDescriptorExtension fun _ _ _ => rfl,
    taken_of_ioCommand .reportZones fun _ _ _ => rfl, taken_of_ioCommand .extendedReportZones fun _ _ _ => rfl, ?fetch⟩
  case fetch =>
    exact fun q e s hq hfetch => ⟨congrArg Host.Outcome.next (if_neg hq), holdsCommand_of_fetches _ _ _ hfetch⟩

/-! ## Grant -/

section Grant
variable {s : State}

theorem grantAll_of_closed (hopen : s.fetchOpen = false) : s.grantAll = s := if_pos (by simp [hopen])

variable {c : Ctx} (hopen : s.fetchOpen = true) (hpower : s.powerHolds = false) (hheld : s.heldByReset c = false)
include hopen hpower hheld

/-- A command that waits alone is granted if its credits are free (R410). -/
theorem grantAll_of_alone (halone : s.buf.ctxs.filter (fun c => c.stage == 0) = [c]) :
    s.grantAll = (if s.canGrant c then s.grantCtx c else s).syncBuf := by
  rw [State.grantAll, if_neg (by simp [hopen, hpower]), halone]
  cases hcan : s.canGrant c <;> simp [hheld, hcan]

/-- A command without its credits holds back the later ones of its kind (R410). -/
theorem grantAll_of_stalled {d : Ctx} (hpair : s.buf.ctxs.filter (fun c => c.stage == 0) = [c, d]) (hcan : s.canGrant c = false)
    (hkind : d.sqe.kind = c.sqe.kind) : s.grantAll = s.syncBuf := by
  rw [State.grantAll, if_neg (by simp [hopen, hpower]), hpair]
  simp [hheld, hcan, hkind]

end Grant

/-- The grant of a write takes a landing block for each of its blocks, and nothing else of the pool (R410, R411). -/
theorem grantCtx_of_write {c : Ctx} {s : State} (hkind : c.sqe.kind = 0) : ∃ bs : List WBlk,
    bs.length = c.sqe.nlb ∧ (∀ w ∈ bs, w.st = .landing ∧ w.ctx = c.id) ∧
      s.grantCtx c = (s.onBuf (fun b => { b with blks := b.blks ++ bs })).onCtx c.id (fun c => { c with stage := 1 }) := by
  rw [State.grantCtx, hkind]
  refine ⟨_, ?_, ?_, rfl⟩ <;> simp

/-! ## Landing -/

theorem land_of_absent {id n : Nat} {s : State} (hctx : s.ctx? id = none) : s.land id n = s := by rw [State.land, hctx]

theorem land_of_landed {id n : Nat} {c : Ctx} {s : State} (hctx : s.ctx? id = some c) (hall : c.landedAll = true) : s.land id n = s := by
  rw [State.land, hctx]
  exact if_neg (by simp [hall])

/-- Data of a granted write fills its landing blocks, and gives it the next place in the order of sealing (R411). -/
theorem land_of_granted {id n : Nat} {c : Ctx} {s : State} (hctx : s.ctx? id = some c) (hstage : c.stage = 1)
    (hwrite : c.sqe.isWrite = true) (hall : c.landedAll = false) :
    s.land id n = (s.onBuf (fun b => { b with seals := b.seals + 1 })).onCtx id
      (fun c => { c with landed := min (c.sqe.nlb * 4096) (c.landed + n), ord := s.buf.seals + 1 }) := by
  rw [State.land, hctx]
  exact if_pos (by simp [hstage, hwrite, hall])

/-! ## Sealing -/

theorem sealAll_of_closed {s : State} (hclosed : s.buf.closed = true) : s.sealAll = s := if_pos (by simp [hclosed])

/-- With admission open, the writes whose data has landed are tried in their order, and then the commands without blocks (R412 to
R414). -/
theorem sealAll_of_open {s : State} {ws : List Ctx} (hclosed : s.buf.closed = false) (hdrain : s.draining = false)
    (horder : (s.buf.ctxs.filter Ctx.landedAll).mergeSort (fun a b => decide (a.ord ≤ b.ord)) = ws) :
    let t := doAll ws State.sealWrite s
    s.sealAll = doAll (t.buf.ctxs.filter (fun c => c.sqe.kind == 2)) State.sealOther t := by
  rw [State.sealAll, if_neg (by simp [hclosed, hdrain]), horder]

/-- The places of two writes decide which is tried first, whichever context is the older. -/
theorem mergeSort_ord_pair {c d : Ctx} {l : List Ctx} (hpair : l = [c, d] ∨ l = [d, c]) (hord : c.ord < d.ord) :
    l.mergeSort (fun a b => decide (a.ord ≤ b.ord)) = [c, d] := by
  have before : c.ord ≤ d.ord := hord.le
  have behind : ¬ d.ord ≤ c.ord := hord.not_ge
  rcases hpair with rfl | rfl <;> simp [List.mergeSort, List.MergeSort.Internal.splitInTwo, before, behind]

/-- A write that may not be admitted waits, whether or not an earlier command of its zone blocks it (R412). -/
theorem sealWrite_of_unadmitted {c : Ctx} {s : State} (hadm : s.admission c = none) : s.sealWrite c = s := by
  rw [State.sealWrite, hadm]
  exact ite_self s

/-- A write of NSID 2 waits for no zone: it is admitted where all its blocks have their places (R63, R412). -/
theorem sealWrite_of_nsid2 {c : Ctx} {st : BlkSt} {s : State} (hns : c.sqe.nsid = 2) (hadm : s.admission c = some st)
    (hspare : (List.range c.sqe.nlb).any (fun i => s.noSpare (c.sqe.slba + i)) = false) :
    s.sealWrite c = s.admitWrite c st c.sqe.slba CplRec.ok := by
  rw [State.sealWrite, hadm]
  refine (if_neg (by simp [hns])).trans ((if_neg (by simp [hns])).trans (if_neg (by simp [hspare])))

/-- The tile that failed first stays the first where no later one of the list failed before it. -/
theorem firstFailed_of_least {t : RTile} {ts : List RTile} (hleast : ∀ x ∈ ts, t.at_ ≤ x.at_) :
    ts.foldl (fun m x => if x.at_ < m.at_ then x else m) t = t := by
  induction ts with
  | nil => rfl
  | cons x ts ih =>
    obtain ⟨hx, hts⟩ := List.forall_mem_cons.1 hleast
    rw [List.foldl_cons, if_neg hx.not_gt, ih hts]

section ReadSeal
variable {c : Ctx} {s : State} (hstage : c.stage = 1) (hread : c.sqe.isRead = true) (hfinal : c.tiles.all RTile.final = true)
include hstage hread hfinal

/-- A read none of whose tiles failed is sealed with its data (R413). -/
theorem sealRead_of_complete (hgood : c.tiles.filter (fun t => t.st == 3) = []) :
    let u := s.inc F.BUF_SEALCNT_count
    s.sealRead c = u.stageRecord c.id (CplRec.good 0 (u.readData c)) := by
  rw [State.sealRead, if_pos ⟨hstage, hread, hfinal⟩, hgood]

omit hstage hread hfinal in
/-- An entry of the Error Information log changes nothing that a read returns. -/
theorem readData_logError (sq cid : Nat) (r : CplRec) (lba ns code : Nat) :
    (s.logError sq cid r lba ns code).readData c = s.readData c := rfl

/-- A read with a failed tile is sealed with the status of the one that failed first (R470). -/
theorem sealRead_of_failed {t : RTile} {ts : List RTile} (hbad : c.tiles.filter (fun t => t.st == 3) = t :: ts)
    (hleast : ∀ x ∈ ts, t.at_ ≤ x.at_) :
    let u := (s.inc F.BUF_SEALCNT_count).logError c.sq c.sqe.cid.toNat (codeStatus t.code) (max t.lba c.sqe.slba) c.sqe.nsid.toNat
      (t.code % 256)
    s.sealRead c = u.stageRecord c.id { codeStatus t.code with data := u.readData c } := by
  rw [State.sealRead, if_pos ⟨hstage, hread, hfinal⟩, hbad]
  simp only [firstFailed_of_least hleast, readData_logError]

end ReadSeal

theorem sealRead_of_unfinished {c : Ctx} {s : State} (hfinal : c.tiles.all RTile.final = false) : s.sealRead c = s :=
  if_neg (by simp [hfinal])

/-- A granted Reset of one zone from a state that takes it resets the zone, unless a granted read of the zone is outstanding
(R414, R474). -/
theorem sealOther_of_reset {c : Ctx} {s : State} (hstage : c.stage = 1) (hop : c.sqe.op = 0x79) (hact : c.sqe.dw13.toNat % 256 = 4)
    (hone : c.sqe.dw13.getLsbD 8 = false) :
    let busy := s.buf.ctxs.any (fun r => r.sqe.isRead && r.sqe.nsid == 1 && decide (1 ≤ r.stage) && r.sqe.zones.any c.resets)
    (busy = true → s.sealOther c = s) ∧
    (busy = false → (actionFrom 4).contains (s.zone c.sqe.zone).st = true →
      s.sealOther c = ((s.resetZone c.sqe.zone).inc F.BUF_SEALCNT_count).stageRecord c.id CplRec.ok) := by
  intro busy
  have decides : s.sealOther c = if busy then s else s.sealSend c := by
    rw [State.sealOther, if_neg (not_not_intro hstage), hop, hact]
    rfl
  refine ⟨fun hbusy => by rw [decides, if_pos hbusy], fun hfree hfrom => ?_⟩
  rw [decides, if_neg (ne_true_of_eq_false hfree), State.sealSend, hone, hact, if_neg Bool.false_ne_true,
    if_neg (by rw [hfrom]; decide), if_neg (by decide), if_neg (by simp)]
  rfl

/-! ## Completion -/

/-- A record that is staged alone is posted if its queue has room, and else waits (R419). -/
theorem postAll_of_staged {c : Ctx} {s : State} (halone : s.buf.ctxs = [c]) (hstage : c.stage = 3) :
    s.postAll = (if s.cqRoom (s.cqOf c.sq) then s.postCtx c else s).endDeletes.syncBuf := by
  have postable : s.postable c = true := by simp [State.postable, hstage]
  rw [State.postAll, halone]
  simp [doAll, postable, hstage]

/-! ## Partial tiles -/

/-- The blocks of a partial tile that wait have not changed for BUF_PTILE.ms: the tile is queued and counted (R416). -/
theorem partialTileTimeout_of_due {t : Nat} {s : State} (hms : s.get F.BUF_PTILE_ms ≠ 0) (hharvest : s.harvesting = false)
    (hsome : s.buf.blks.filter (fun w => w.ns == 1 && w.lba / 4 * 4 == t / 4 * 4 && w.waits) ≠ [])
    (hdue : ∀ w ∈ s.buf.blks.filter (fun w => w.ns == 1 && w.lba / 4 * 4 == t / 4 * 4 && w.waits),
      s.get F.BUF_PTILE_ms * 1000 ≤ s.us - w.born) :
    exec (.partialTileTimeout t) s = .next (doAll allLanes State.feed ((s.queueWrite (t / 4 * 4)).inc F.BUF_PTCNT_count)) := by
  refine congrArg Host.Outcome.next (if_neg ?_)
  rintro (zero | none | early | harvest)
  · exact hms zero
  · exact hsome (List.isEmpty_iff.1 none)
  · obtain ⟨w, hw, hyoung⟩ := List.any_eq_true.1 early
    exact absurd (of_decide_eq_true hyoung) (Nat.not_lt.2 (hdue w hw))
  · exact absurd harvest (by simp [hharvest])

/-! ## BUF_ABORT -/

section Abort
variable {sq cid : Nat} {s : State}

theorem abortIo_of_absent (hfind : s.buf.ctxs.find? (fun c => c.sq == sq && c.sqe.cid.toNat == cid) = none) :
    s.abortIo sq cid = (3, s) := by
  rw [State.abortIo, hfind]

variable {c : Ctx} (hfind : s.buf.ctxs.find? (fun c => c.sq == sq && c.sqe.cid.toNat == cid) = some c)
include hfind

theorem abortIo_of_sealed (hsealed : 2 ≤ c.stage ∨ c.sqe.op = 0) : s.abortIo sq cid = (2, s) := by
  rw [State.abortIo, hfind]
  exact if_pos hsealed

/-- A command that is not sealed ends, and what it held goes on to the others (R414). -/
theorem abortIo_of_unsealed (hunsealed : ¬(2 ≤ c.stage ∨ c.sqe.op = 0)) :
    s.abortIo sq cid = (1, (((s.failWrite c (CplRec.bad 0 7)).inc F.BUF_ABORTCNT_count).withdraw.postAll).pump.reclass) := by
  rw [State.abortIo, hfind]
  exact if_neg hunsealed

end Abort

/-- Settles O25: each event goes through the lemma of its stage above, and the writes of BUF_CTL and BUF_ABORT come to their effect
(`gated_of_accepts`). -/
theorem bufferSteps : Obligations.BufferSteps := by
  refine ⟨?grant, ?land, ?sealWrites, ?readSeal, ?completion, ?cqWait, ?reset, ?partialTile, ?ctl, ?abort⟩
  case grant =>
    refine fun s => ⟨rfl, grantAll_of_closed, fun hopen hpower => ⟨fun c halone hheld => grantAll_of_alone hopen hpower hheld halone,
      fun c d hpair hheld hcan hkind => grantAll_of_stalled hopen hpower hheld hpair hcan hkind⟩, fun c hkind => ?_⟩
    obtain ⟨bs, hlen, hland, hgrant⟩ := grantCtx_of_write (s := s) hkind
    have blocks : (s.grantCtx c).buf.blks = s.buf.blks ++ bs := by rw [hgrant]; rfl
    refine ⟨by rw [blocks, List.length_append, hlen], ?_, by rw [hgrant]; rfl⟩
    rw [blocks, List.drop_left]
    exact hland
  case land =>
    exact fun id n s => ⟨rfl, fun hctx k => land_of_absent hctx, fun c hctx hall k => land_of_landed hctx hall,
      fun c hctx hstage hwrite hall k => land_of_granted hctx hstage hwrite hall⟩
  case sealWrites =>
    refine fun s => ⟨rfl, sealAll_of_closed, ?_, fun c => sealWrite_of_unadmitted,
      fun c st hns hadm hspare => sealWrite_of_nsid2 hns hadm hspare⟩
    intro hclosed hdrain others
    refine ⟨fun c hone => ?_, fun c d hpair hord => ?_⟩
    · exact sealAll_of_open hclosed hdrain (by rw [hone, List.mergeSort_singleton])
    · exact sealAll_of_open hclosed hdrain (mergeSort_ord_pair hpair hord)
  case readSeal =>
    refine fun s => ⟨rfl, fun c hone => by rw [State.sealReads, hone]; rfl, ?_, fun c => sealRead_of_unfinished⟩
    intro c hstage hread hfinal u
    exact ⟨sealRead_of_complete hstage hread hfinal, fun t ts hbad hleast => sealRead_of_failed hstage hread hfinal hbad hleast⟩
  case completion =>
    refine fun cq n s => ⟨rfl, fun c halone hstage => ⟨fun hroom => ?_, fun hfull => ?_⟩⟩
    · rw [postAll_of_staged halone hstage, if_pos hroom]
    · rw [postAll_of_staged halone hstage, if_neg (ne_true_of_eq_false hfull)]
  case cqWait =>
    refine fun s => ⟨fun hlong => congrArg Host.Outcome.next (if_pos ?_), fun hshort => congrArg Host.Outcome.next (if_neg ?_)⟩
    · simpa using hlong
    · simpa using hshort
  case reset =>
    refine fun s => ⟨rfl, fun hclosed hdrain hnone c hone => ?_, fun c => sealOther_of_reset⟩
    refine (sealAll_of_open hclosed hdrain (ws := []) (by rw [hnone, List.mergeSort_nil])).trans ?_
    change doAll (s.buf.ctxs.filter (fun c => c.sqe.kind == 2)) State.sealOther s = s.sealOther c
    rw [hone]
    rfl
  case partialTile =>
    exact fun t s => ⟨fun hms => congrArg Host.Outcome.next (if_pos (.inl hms)), partialTileTimeout_of_due⟩
  case ctl =>
    refine fun p v s hacc => ⟨fun hlock hbad => ?_, fun hgood => ?_⟩
    · exact congrArg Host.Outcome.next (State.gated_bad_of_accepts hacc (by simp [hlock, hbad]))
    · exact congrArg Host.Outcome.next (State.gated_of_accepts hacc (by simp [hgood]))
  case abort =>
    intro p v s hacc hgo t r
    refine ⟨congrArg Host.Outcome.next ((State.gated_of_accepts hacc rfl).trans (if_pos hgo)), ?_⟩
    split
    next hnone => exact abortIo_of_absent hnone
    next c hfound =>
      split
      next hsealed => exact abortIo_of_sealed hfound hsealed
      next hunsealed => exact abortIo_of_unsealed hfound hunsealed

end Sys2Proof.Machine
end

section
/-! PROOFS. The channels of the DMA engine: their registers, their signals, their bursts, and the slots of the plane shuffler
(10_buffer_and_dma.md R420 to R443). -/

namespace Sys2Proof.Machine
open Sys2Proof

/-! ## DMA_CHn_CTL and DMA_CHn_DB -/

section ChannelWrite
variable {p : Path} {n : Fin 16} {v : Word} {s : State}

/-- The channels of BUF are not started, resumed, aborted or rung by a write (R420). -/
theorem writeDmaCtl_of_buf (hacc : s.accepts p (R.DMA_CH_CTL n) v = true) (hbuf : n.val < 8) :
    s.writeDmaCtl p n v = s.ignoreRule p (R.DMA_CH_CTL n) := by
  unfold State.writeDmaCtl
  exact State.gated_bad_of_accepts hacc (by simp [hbuf])

theorem writeDmaDb_of_buf (hacc : s.accepts p (R.DMA_CH_DB n) v = true) (hbuf : n.val < 8) :
    s.writeDmaDb p n v = s.ignoreRule p (R.DMA_CH_DB n) :=
  State.gated_bad_of_accepts hacc (by simp [hbuf])

/-- A doorbell of a firmware channel fetches again at the END that halted it, and else is kept in its flag (R430). -/
theorem writeDmaDb_of_firmware (hacc : s.accepts p (R.DMA_CH_DB n) v = true) (hfw : 8 ≤ n.val) (hring : v.getLsbD 0 = true) :
    s.writeDmaDb p n v = if s.chState n = 3 then
        ((s.goTo n (s.get (F.DMA_CH_ENDALO_a n) * 16 + s.get (F.DMA_CH_ENDAHI_a n) * 2 ^ 32)).put (F.DMA_CH_STAT_db n) 0).put
          (F.DMA_CH_STAT_state n) 1
      else s.put (F.DMA_CH_STAT_db n) 1 :=
  (State.gated_of_accepts hacc (by simpa using hfw)).trans (if_neg (by simp [hring]))

variable (hacc : s.accepts p (R.DMA_CH_CTL n) v = true)
include hacc

/-- A channel that runs, waits, is halted at an END or has an error is not started (R429). -/
theorem writeDmaCtl_start_of_busy (hstart : v.getLsbD 31 = true) (hlow : 1 ≤ s.chState n) (hhigh : s.chState n ≤ 4) :
    s.writeDmaCtl p n v = s.ignoreRule p (R.DMA_CH_CTL n) := by
  unfold State.writeDmaCtl
  exact State.gated_bad_of_accepts hacc (by simp [hstart, hlow, hhigh])

/-- Only a channel in ERROR is resumed (R434). -/
theorem writeDmaCtl_resume_of_other (hresume : v.getLsbD 30 = true) (hst : s.chState n ≠ 4) :
    s.writeDmaCtl p n v = s.ignoreRule p (R.DMA_CH_CTL n) := by
  unfold State.writeDmaCtl
  exact State.gated_bad_of_accepts hacc (by simp [hresume, hst])

/-- A write of DMA_CHn_CTL for a firmware channel that breaks no rule starts, resumes and aborts as its bits say. -/
theorem writeDmaCtl_of_firmware (hfw : 8 ≤ n.val) (hstart : v.getLsbD 31 = true → s.chState n = 0 ∨ s.chState n = 5)
    (hresume : v.getLsbD 30 = true → s.chState n = 4) :
    s.writeDmaCtl p n v =
      let a := if v.getLsbD 31 then
          (((s.setLoops n []).goTo n (s.get (F.DMA_CH_PCLO_a n) * 16 + s.get (F.DMA_CH_PCHI_a n) * 2 ^ 32)).put
            (F.DMA_CH_STAT_db n) 0).put (F.DMA_CH_STAT_state n) 1
        else s
      let b := if v.getLsbD 30 then a.put (F.DMA_CH_STAT_state n) 1 else a
      if v.getLsbD 29 then ((b.setLoops n []).goTo n 0).put (F.DMA_CH_STAT_state n) 0 else b := by
  have other : ¬ n.val < 8 := Nat.not_lt.2 hfw
  have idle : v.getLsbD 31 = true → ¬ (1 ≤ s.chState n ∧ s.chState n ≤ 4) := fun h => by
    have := hstart h
    omega
  unfold State.writeDmaCtl
  refine State.gated_of_accepts hacc ?_
  simp only [Bool.or_eq_false_iff, Bool.and_eq_false_imp, decide_eq_false_iff_not, bne_eq_false_iff_eq]
  exact ⟨⟨other, idle⟩, hresume⟩

end ChannelWrite

/-! ## A satisfied wait -/

/-- Channel `n` goes on from a WAIT whose signal is set, unless a lower channel consumes the signal that it would consume (R426). -/
theorem dmaWaitSatisfied_of_set {n : Fin 16} {g : Nat} {eat : Bool} {s : State} (hwait : s.dma[n].wait = some (g, eat))
    (hset : s.sig g = true) :
    exec (.dmaWaitSatisfied n) s = .next (
      if eat && (List.range n).any (fun k => (s.dma[Fin.ofNat 16 k]).wait == some (g, true)) then s
      else ((if eat then s.setSig g false else s).goTo n (s.dma[n].pc + 16)).put (F.DMA_CH_STAT_state n) 1) := by
  have goes : exec (.dmaWaitSatisfied n) s = execDmaWaitSatisfied n s := rfl
  rw [goes, execDmaWaitSatisfied, hwait]
  simp only [hset, Bool.not_true, Bool.false_or]

/-! ## A burst -/

/-- The burst of a move: one tile of a MOVS, or up to 64 beats of a MOVE (R424). -/
def State.moveBurst (n : Fin 16) (m : DmaMove) (bad : Option Nat) (inp : List Byte) (s : State) : State :=
  if byteAt m.bytes 0 = 2 then s.moveTile n m bad inp else s.beats n m bad inp 65 0 0

/-- The end of a burst: the move whose last byte it moved retires, while the channel runs (R424). -/
def State.endBurst (n : Fin 16) (s : State) : State :=
  match s.dma[n].mv with
  | some m => if s.chState n = 1 ∧ m.len ≤ m.off then s.retire n m else s
  | none => s

theorem endBurst_of_none {n : Fin 16} {s : State} (hmove : s.dma[n].mv = none) : s.endBurst n = s := by
  rw [State.endBurst, hmove]

theorem endBurst_of_some {n : Fin 16} {m : DmaMove} {s : State} (hmove : s.dma[n].mv = some m) :
    s.endBurst n = if s.chState n = 1 ∧ m.len ≤ m.off then s.retire n m else s := by
  rw [State.endBurst, hmove]

/-- A burst waits for the request of its port, or moves and ends (R424, R432). -/
theorem dmaBurst_of_move {n : Fin 16} {rest : Bool} {bad : Option Nat} {inp : List Byte} {m : DmaMove} {s : State}
    (hmove : s.dma[n].mv = some m) (hruns : s.chState n = 1 ∨ s.chState n = 2) :
    exec (.dmaBurst n rest bad inp) s = .next (
      if s.portWaits rest m.src || s.portWaits rest m.dst then s.put (F.DMA_CH_STAT_state n) 2
      else ((s.put (F.DMA_CH_STAT_state n) 1).moveBurst n m bad inp).endBurst n) := by
  have bursts : exec (.dmaBurst n rest bad inp) s = execDmaBurst n rest bad inp s := rfl
  rw [bursts, execDmaBurst, hmove]
  exact congrArg Host.Outcome.next (if_neg (by omega))

/-! ## The shuffler's slots -/

/-- The slots below 12 are BUF's (R443). -/
theorem writeSlot_of_buf {p : Path} {k : Fin 16} {v : Word} {s : State} (hacc : s.accepts p (R.SHF_SLOT_D0 k) v = true)
    (hbuf : k.val < 12) : s.writeSlot p k false v = s.ignoreRule p (R.SHF_SLOT_D0 k) := by
  unfold State.writeSlot
  exact State.gated_bad_of_accepts hacc (by simp [hbuf])

/-- The first word of a slot is only stored; the slot is checked as its second word is written (R443). -/
theorem writeSlot_first {p : Path} {k : Fin 16} {v : Word} {s : State} (hacc : s.accepts p (R.SHF_SLOT_D0 k) v = true)
    (hfw : 12 ≤ k.val) : s.writeSlot p k false v = s.setReg (R.SHF_SLOT_D0 k) v := by
  unfold State.writeSlot
  exact State.gated_of_accepts hacc (by simpa using hfw)

theorem writeSlot_second {p : Path} {k : Fin 16} {v : Word} {s : State} (hacc : s.accepts p (R.SHF_SLOT_D1 k) v = true)
    (hfw : 12 ≤ k.val) : let t := s.setReg (R.SHF_SLOT_D1 k) v
    s.writeSlot p k true v = if t.descOk (t.slotDesc k) then t.putBit F.SHF_STAT_valid k true
      else (t.putBit F.SHF_STAT_valid k false).raise F.SHF_ERR_desc := by
  unfold State.writeSlot
  exact State.gated_of_accepts hacc (by simpa using hfw)

/-- Settles O55: the writes of a channel's registers by whose channel it is and by its state (`writeDmaCtl_of_firmware`,
`writeDmaDb_of_firmware`), a satisfied wait (`dmaWaitSatisfied_of_set`), a burst (`dmaBurst_of_move`) and a shuffle slot
(`writeSlot_second`). -/
theorem channelsSignalsAndBursts : Obligations.ChannelsSignalsAndBursts := by
  refine ⟨?ctl, ?doorbell, ?signals, ?wait, ?burst, ?slot⟩
  case ctl =>
    refine fun p n v s hacc => ⟨fun hbuf => ?_, fun hfw => ⟨fun hstart hlow hhigh => ?_, ?_, ?_, ?_, ?_⟩⟩
    · exact ⟨congrArg Host.Outcome.next (writeDmaCtl_of_buf hacc hbuf), congrArg Host.Outcome.next (writeDmaCtl_of_buf hacc hbuf)⟩
    · exact congrArg Host.Outcome.next (writeDmaCtl_start_of_busy hacc hstart hlow hhigh)
    · rintro rfl hidle
      exact congrArg Host.Outcome.next (writeDmaCtl_of_firmware hacc hfw (fun _ => hidle) (by simp))
    · rintro rfl herror
      exact congrArg Host.Outcome.next (writeDmaCtl_of_firmware hacc hfw (by simp) (fun _ => herror))
    · rintro rfl hother
      exact congrArg Host.Outcome.next (writeDmaCtl_resume_of_other hacc (by decide) hother)
    · rintro rfl
      exact congrArg Host.Outcome.next (writeDmaCtl_of_firmware hacc hfw (by simp) (by simp))
  case doorbell =>
    refine fun p n v s hacc hring => ⟨fun hbuf => ?_, fun hfw => ⟨fun hhalt => ?_, fun hother => ?_⟩⟩
    · exact congrArg Host.Outcome.next (writeDmaDb_of_buf hacc hbuf)
    · exact congrArg Host.Outcome.next ((writeDmaDb_of_firmware hacc hfw hring).trans (if_pos hhalt))
    · exact congrArg Host.Outcome.next ((writeDmaDb_of_firmware hacc hfw hring).trans (if_neg hother))
  case signals =>
    exact fun p v s => ⟨fun hacc => congrArg Host.Outcome.next (State.gated_of_accepts hacc rfl),
      fun hacc => congrArg Host.Outcome.next (State.gated_of_accepts hacc rfl),
      fun hacc => congrArg Host.Outcome.next (State.gated_of_accepts hacc rfl),
      fun hacc => congrArg Host.Outcome.next (State.gated_of_accepts hacc rfl)⟩
  case wait =>
    intro n g eat s hwait hset ahead
    refine ⟨fun hfree => ?_, fun heat hahead => ?_⟩
    · refine (dmaWaitSatisfied_of_set hwait hset).trans (congrArg Host.Outcome.next (if_neg ?_))
      change ¬ (eat && ahead) = true
      rcases hfree with h | h <;> simp [h]
    · exact (dmaWaitSatisfied_of_set hwait hset).trans (congrArg Host.Outcome.next (if_pos (Bool.and_eq_true_iff.2 ⟨heat, hahead⟩)))
  case burst =>
    intro n rest bad inp m s hmove hruns
    have bursts := dmaBurst_of_move (rest := rest) (bad := bad) (inp := inp) hmove hruns
    refine ⟨fun hwaits => bursts.trans (congrArg Host.Outcome.next (if_pos (by simpa using hwaits))), ?_⟩
    intro hsrc hdst a t
    have moves : exec (.dmaBurst n rest bad inp) s = .next (t.endBurst n) :=
      bursts.trans (congrArg Host.Outcome.next (if_neg (by simp [hsrc, hdst])))
    exact ⟨fun hnone => by rw [moves, endBurst_of_none hnone], fun m' hsome => by rw [moves, endBurst_of_some hsome]⟩
  case slot =>
    refine fun p k v s => ⟨fun hacc => ⟨fun hbuf => ?_, fun hfw => ?_⟩, ?_⟩
    · exact congrArg Host.Outcome.next (writeSlot_of_buf hacc hbuf)
    · exact congrArg Host.Outcome.next (writeSlot_first hacc hfw)
    · intro hacc hfw t
      exact ⟨fun hok => congrArg Host.Outcome.next ((writeSlot_second hacc hfw).trans (if_pos hok)),
        fun hbad => congrArg Host.Outcome.next ((writeSlot_second hacc hfw).trans (if_neg (ne_true_of_eq_false hbad)))⟩

end Sys2Proof.Machine
end

section
/-! PROOFS. The step and what every step keeps: the front command, the passing of a microsecond, the canonical form of the stores,
the fuses, and the state after reset (00_scope.md R12, 13_startup_and_image.md R529 to R548). -/

namespace Sys2Proof.Machine
open Sys2Proof

/-! ## The two cases of a step -/

theorem step_of_front {s : State} {c : Instr} {rest : List Instr} (h : s.pending = c :: rest) :
    step s = exec c { s with pending := rest } := by
  rw [step, h]

theorem step_of_idle {s : State} (h : s.pending = []) : step s = .next s.tick := by
  rw [step, h]

/-- Settles O1: the match of `step` on the queue (`step_of_front`). -/
theorem stepRunsFrontCommand : Obligations.StepRunsFrontCommand :=
  fun _ _ _ h => step_of_front h

/-! ## An idle microsecond -/

/-- `t` is `s` but for the stored registers. -/
def RegsOnly (s t : State) : Prop := ∃ r, t = { s with regs := r }

namespace RegsOnly
variable {s t : State}

theorem refl (s : State) : RegsOnly s s := ⟨s.regs, rfl⟩

theorem setReg (h : RegsOnly s t) (a : Nat) (v : Word) : RegsOnly s (t.setReg a v) := by
  obtain ⟨r, rfl⟩ := h
  exact ⟨_, rfl⟩

theorem put (h : RegsOnly s t) (f : Field) (v : Nat) : RegsOnly s (t.put f v) := h.setReg _ _

theorem putBit (h : RegsOnly s t) (f : Field) (i : Nat) (b : Bool) : RegsOnly s (t.putBit f i b) := h.put _ _

theorem doAll {α : Type} {l : List α} {f : α → State → State} (hf : ∀ x ∈ l, ∀ u, RegsOnly s u → RegsOnly s (f x u))
    (h : RegsOnly s t) : RegsOnly s (doAll l f t) := doAll_invariant l f (RegsOnly s) hf t h

theorem boot (h : RegsOnly s t) : t.boot = s.boot := by obtain ⟨r, rfl⟩ := h; rfl

theorem pwr (h : RegsOnly s t) : t.pwr = s.pwr := by obtain ⟨r, rfl⟩ := h; rfl

end RegsOnly

/-- The registers of CRYS are all that its display writes. -/
theorem syncCrys_regsOnly (s : State) : RegsOnly s s.syncCrys := by
  refine RegsOnly.doAll (fun e _ u hu => ?_) ((RegsOnly.refl s).put _ _)
  have busy := hu.putBit F.CRYS_STAT_busy e (u.engine e).ent.isSome
  dsimp only
  split
  · exact (((busy.put _ _).put _ _).put _ _).put _ _
  · exact (((((busy.put _ _).put _ _).put _ _).put _ _).put _ _).put _ _

theorem drainBack_of_empty {s : State} (h : s.map.wback = []) : s.drainBack = s := by
  unfold State.drainBack
  rw [h]
  change { s with map := { s.map with wback := [] } } = s
  rw [← h]

theorem curveSource_of_source {s : State} (h : s.boot.toCurve = false) : s.curveSource = s := by
  simp [State.curveSource, h]

theorem senseStop_of_phase {s : State} (h : s.boot.phase ≠ 4) : s.senseStop = s := by
  simp [State.senseStop, h]

theorem pmStep_of_settled {s : State} (h : s.pwr.to_ = none) : s.pmStep = s := by
  rw [State.pmStep, h]

theorem ps2Step_of_phase {s : State} (h : s.boot.phase ≠ 4) : s.ps2Step = s := by
  simp [State.ps2Step, h]

/-- A microsecond in which no millisecond ends and nothing of the tick's other work waits. -/
theorem tick_of_quiet {s : State} (hms : (s.us + 1) % 1000 ≠ 0) (hcurve : s.boot.toCurve = false) (hphase : s.boot.phase ≠ 4)
    (hpwr : s.pwr.to_ = none) (hback : s.map.wback = []) : s.tick = State.syncCrys { s with us := s.us + 1 } := by
  let u : State := { s with us := s.us + 1 }
  have shown := syncCrys_regsOnly u
  have boot : u.syncCrys.boot = s.boot := shown.boot
  have pwr : u.syncCrys.pwr = s.pwr := shown.pwr
  have drained : u.drainBack = u := drainBack_of_empty hback
  change (State.drainBack (if (s.us + 1) % 1000 = 0 then u.idleMs.setRewrite else u)).syncCrys.curveSource.senseStop.pmStep.ps2Step =
    u.syncCrys
  rw [if_neg hms, drained, curveSource_of_source (by rw [boot, hcurve]), senseStop_of_phase (by rw [boot]; exact hphase),
    pmStep_of_settled (by rw [pwr, hpwr]), ps2Step_of_phase (by rw [boot]; exact hphase)]

/-- Settles O2: the empty queue's case of `step`, and the tick with none of its other work waiting (`tick_of_quiet`). -/
theorem idleStepIsOneMicrosecond : Obligations.IdleStepIsOneMicrosecond :=
  ⟨fun _ h => step_of_idle h, fun _ hms hcurve hphase hpwr hback => tick_of_quiet hms hcurve hphase hpwr hback⟩

/-! ## What every step keeps -/

/-- The canonical form is kept with the memories, the registers and the variant that their reset values depend on. -/
theorem Keeps.canonical {s t : State} (h : Keeps s t) (hs : s.canonical = true) : t.canonical = true := by
  simp only [State.canonical, State.memoryWf, State.registersWf, Memory.wf, Bool.and_eq_true] at hs ⊢
  obtain ⟨⟨hbm, flash⟩, regs, active⟩ := hs
  rw [h.variant]
  exact ⟨⟨h.hbm hbm, h.flash flash⟩, h.regs regs, h.active active⟩

/-- A step keeps what every command keeps of the state without the command that it takes. -/
theorem step_keeps {s t : State} (h : step s = .next t) : Keeps { s with pending := s.pending.tail } t := by
  cases hp : s.pending with
  | nil =>
    obtain rfl : s.tick = t := Host.Outcome.next.inj ((step_of_idle hp).symm.trans h)
    have same : ({ s with pending := [] } : State) = s := by rw [← hp]
    rw [List.tail_nil, same]
    exact State.tick_keeps (Keeps.refl s)
  | cons c rest => exact exec_keeps c _ t ((step_of_front hp).symm.trans h)

/-- Settles O4: the queue is no part of the canonical form, and every command and every microsecond keeps it (`step_keeps`). -/
theorem stepKeepsCanonical : Obligations.StepKeepsCanonical :=
  fun _ _ hs h => (step_keeps h).canonical hs

/-- Settles O5: no table lists a register at reset, so that each reads its reset value. -/
theorem resetCanonical : Obligations.ResetCanonical := by
  refine ⟨?_, rfl, fun _ => rfl, ?_⟩
  · simp [State.canonical, State.memoryWf, State.registersWf, Memory.wf, State.reset]
  · decide

/-! ## The revocation fuses -/

theorem writeRevoke_of_factory {p : Path} {v : Word} {s : State} (hacc : s.accepts p R.CFG_REVOKE v = true) (hf : s.factory = true) :
    s.writeRevoke p v = { s with fuses := s.fuses ||| v.toNat % 2 ^ 16 } :=
  State.gated_of_accepts hacc (by simp [hf])

theorem writeRevoke_of_mission {p : Path} {v : Word} {s : State} (hacc : s.accepts p R.CFG_REVOKE v = true) (hf : s.factory = false) :
    s.writeRevoke p v = s.ignoreRule p R.CFG_REVOKE :=
  State.gated_bad_of_accepts hacc (by simp [hf])

/-- Settles O6: every step keeps the blown fuses (`step_keeps`), and a write ors the 16 low bits of its word into them. -/
theorem blownFusesStay : Obligations.BlownFusesStay := by
  refine ⟨fun s t h => (step_keeps h).fuses, fun p v s hacc hf => ⟨?_, fun k => ?_⟩, fun p v s hacc hf => ?_⟩
  · exact congrArg Host.Outcome.next (writeRevoke_of_factory hacc hf)
  · rw [Nat.testBit_or, Nat.testBit_mod_two_pow, BitVec.testBit_toNat]
  · exact congrArg Host.Outcome.next (writeRevoke_of_mission hacc hf)

end Sys2Proof.Machine
end

section
/-! PROOFS. The resets of the function and of the controller, the link, and the shutdown (11_host_interface.md R447 to R449, R482 to
R485). -/

namespace Sys2Proof.Machine
open Sys2Proof

/-! ## Guards of the link's events -/

/-- A link event is met where the HOST domain is there, PERST_N is deasserted and the link is up. -/
theorem linkThere {s : State} (hhost : s.hostDown = false) (hperst : s.nvme.perst = false) (hlink : s.nvme.linkUp = true) :
    ¬ (s.hostDown = true ∨ s.nvme.perst = true ∨ (!s.nvme.linkUp) = true) := by
  simp [hhost, hperst, hlink]

theorem widthGood {w : Fin 5} (h : w.val = 1 ∨ w.val = 2 ∨ w.val = 4) : (!([1, 2, 4].contains w.val)) = false := by
  rcases h with h | h | h <;> rw [h] <;> rfl

/-- Settles O15: each reset of the function is one `hostReset` where its guard lets it through. -/
theorem controllerAndFunctionResets : Obligations.ControllerAndFunctionResets := by
  refine ⟨?perst, ?perstAgain, fun _ => rfl, ?function, ?hot, ?down, ?controller⟩
  case perst =>
    intro s hhost hperst
    have met : ¬ (s.hostDown = true ∨ s.nvme.perst = true) := by simp [hhost, hperst]
    exact congrArg (fun t : State => Host.Outcome.next (t.onNvme _)) (if_neg met)
  case perstAgain =>
    intro s h
    exact congrArg (fun t : State => Host.Outcome.next (t.onNvme _)) (if_pos h)
  case function =>
    intro s hans
    exact congrArg Host.Outcome.next (if_neg (by simp [hans]))
  case hot =>
    intro s hhost hperst hlink
    exact congrArg Host.Outcome.next (if_neg (linkThere hhost hperst hlink))
  case down =>
    intro s hhost hperst hlink
    exact congrArg Host.Outcome.next (if_neg (linkThere hhost hperst hlink))
  case controller =>
    intro s hans hen
    exact congrArg Host.Outcome.next (if_neg (by simp [hans, hen]))

/-- Settles O17: the link's events and the shutdown's steps are what their guards let through. -/
theorem linkAndShutdown : Obligations.LinkAndShutdown := by
  refine ⟨?up, ?retrain, ?normal, ?abrupt, ?complete⟩
  case up =>
    intro rate width s hhost hperst hboot hrate hwidth
    have trained : ¬ s.boot.phase < 3 := by omega
    exact congrArg Host.Outcome.next (if_neg (by simp only [hhost, hperst, trained, hrate, widthGood hwidth]; decide))
  case retrain =>
    intro rate width s hhost hperst hlink hrate hwidth
    refine congrArg Host.Outcome.next ((if_neg ?_).trans (congrArg State.setGuard ?_))
    · simp only [hhost, hperst, hlink, hrate, widthGood hwidth]
      decide
    · simp only [doIf, decide_eq_true_eq]
  case normal =>
    intro s hans hen hshst
    exact congrArg Host.Outcome.next (if_neg (by simp [hans, hen, hshst]))
  case abrupt =>
    intro s hans hen
    exact congrArg Host.Outcome.next (if_neg (by simp [hans, hen]))
  case complete =>
    intro s hshst hclean hflush hwait
    exact congrArg Host.Outcome.next (if_pos (by simp [hshst, hclean, hflush, hwait]))

end Sys2Proof.Machine
end

section
/-! PROOFS. The admin commands for queues, Abort and asynchronous events, and the features (11_host_interface.md R455 to R498). -/

namespace Sys2Proof.Machine
open Sys2Proof

/-! ## Served admin commands -/

/-- The count of admin commands and the idle time are registers: the controller is as it was. -/
@[simp] theorem State.nvme_adminTaken (s : State) : s.adminTaken.nvme = s.nvme := rfl

@[simp] theorem State.ctr_adminTaken (s : State) : s.adminTaken.ctr = s.ctr := rfl

/-- A served command does to the state after its fetch what its meaning says. -/
theorem admin_next {s t : State} {f : State → State} (h : s.serves = true) (b : Bool) (e : Sqe) (hf : f s.adminTaken = t) :
    (Host.Outcome.next (s.admin b f e) : Host.Outcome State Fault Refusal) = .next t :=
  congrArg Host.Outcome.next ((admin_of_serves h b f e).trans hf)

/-- Settles O26: each command is served (`admin_next`), and its operands pass the checks in their order. -/
theorem queueCommands : Obligations.QueueCommands := by
  refine ⟨?createCq, ?createSq, ?deleteSq, ?deleteCq, ?abortIo, ?abortEst, ?request, ?unsupported⟩
  case createCq =>
    intro e s hserves id size hlow hhigh hfree hsize hmax hvec hpc
    refine admin_next hserves _ e ((if_neg ?_).trans ((if_neg ?_).trans ((if_neg ?_).trans (if_neg ?_))))
    · simp only [State.nvme_adminTaken, id] at *; simp [hfree]; omega
    · simp only [size] at *; omega
    · omega
    · simp [hpc]
  case createSq =>
    intro e s hserves id size cq hcqLow hcqHigh hlow hhigh hfree hcq hsize hmax hpc
    refine admin_next hserves _ e ((if_neg ?_).trans ((if_neg ?_).trans ((if_neg ?_).trans (if_neg ?_))))
    · simp only [State.nvme_adminTaken, id, cq] at *; simp [hfree]; omega
    · simp only [State.nvme_adminTaken, cq] at *; simp [hcq]
    · simp only [size] at *; omega
    · simp [hpc]
  case deleteSq =>
    intro e s hserves hfound hidle
    exact admin_next hserves _ e (if_neg (by simp [hfound, hidle]))
  case deleteCq =>
    intro e s hserves hfound hunused
    exact admin_next hserves _ e ((if_neg (by simp [hfound])).trans (if_neg (by simp [hunused])))
  case abortIo =>
    intro e s hserves hsq
    exact admin_next hserves _ e (if_neg hsq)
  case abortEst =>
    intro e s hserves hsq
    exact admin_next hserves _ e (if_pos hsq)
  case request =>
    intro e s hserves hroom
    exact admin_next hserves _ e (if_neg (by simpa using hroom))
  case unsupported =>
    intro q e s
    refine ⟨fun hq hserves hwf => ?_, fun hq hfetch hop => ?_⟩
    · have unknown : adminOps.contains e.op = false := by
        simpa using (if_pos hq).symm.trans hwf
      refine (congrArg Host.Outcome.next ((if_pos hq).trans (if_neg ?_))).trans (admin_next hserves _ e rfl)
      exact ne_true_of_eq_false unknown
    · refine congrArg Host.Outcome.next ((if_neg hq).trans ((if_neg (by simp [hop])).trans ?_))
      rw [State.ioCommand, if_neg hq]
      rfl

/-! ## Features -/

/-- A served Set Features of the feature that it names, with a value that the feature permits. -/
theorem setFeature_next {s t : State} {fid : Nat} {f : State → Except CplRec State} {e : Sqe} (h : s.serves = true)
    (hsave : e.dw10.getLsbD 31 = false) (hfid : e.dw10.toNat % 256 = fid) (hf : f s.adminTaken = .ok t) :
    (Host.Outcome.next (s.setFeature fid f e) : Host.Outcome State Fault Refusal) = .next (t.adminDone e.cid CplRec.ok) :=
  congrArg Host.Outcome.next (setFeature_of_serves h hsave hfid hf)

/-- A value that passes a feature's only check. -/
theorem permitted {c : Prop} [Decidable c] {r : CplRec} {t : State} (h : ¬ c) :
    (if c then .error r else .ok t : Except CplRec State) = .ok t := if_neg h

/-- What the feature holds that Get Features selects: the current value, or the default. -/
theorem getFeature_of_value {e : Sqe} {s : State} {dw0 : Nat} {d : List Byte} (hsel : natBits e.dw10.toNat 8 3 ≤ 3)
    (hvalue : (if natBits e.dw10.toNat 8 3 = 0 then s.featValue s.nvme.feats s.acou e else s.featValue Feats.default 7 e) = some (dw0, d)) :
    s.getFeature e = s.adminDone e.cid (if natBits e.dw10.toNat 8 3 = 3 then CplRec.good 4 [] else CplRec.good dw0 d) := by
  rw [State.getFeature]
  simp only [hvalue]
  rw [if_neg (by omega)]
  exact (apply_ite (State.adminDone e.cid · s) _ _ _).symm

/-- The current value of a feature. -/
theorem getFeature_current {e : Sqe} {s : State} {dw0 : Nat} {d : List Byte} (hsel : natBits e.dw10.toNat 8 3 = 0)
    (hvalue : s.featValue s.nvme.feats s.acou e = some (dw0, d)) : s.getFeature e = s.adminDone e.cid (CplRec.good dw0 d) := by
  rw [getFeature_of_value (by omega) (by rw [if_pos hsel, hvalue]), if_neg (by omega)]

/-- The default of a feature with SEL 2, its capabilities with SEL 3. -/
theorem getFeature_default {e : Sqe} {s : State} {dw0 : Nat} {d : List Byte} (hsel : natBits e.dw10.toNat 8 3 = 2 ∨ natBits e.dw10.toNat 8 3 = 3)
    (hvalue : s.featValue Feats.default 7 e = some (dw0, d)) :
    s.getFeature e = s.adminDone e.cid (if natBits e.dw10.toNat 8 3 = 3 then CplRec.good 4 [] else CplRec.good dw0 d) :=
  getFeature_of_value (by omega) (by rw [if_neg (by omega), hvalue])

/-- Settles O27: a served feature command comes to its value (`setFeature_next`) once the feature's check permits it
(`permitted`). -/
theorem featureCommands : Obligations.FeatureCommands := by
  refine ⟨?arbitration, ?power, ?threshold, ?queues, ?coalescing, ?vector, ?events, ?apst, ?noCeiling, ?ceiling, ?magazine, ?get,
    ?getMagazine⟩
  case arbitration => exact fun e s hserves hsave hfid => setFeature_next hserves hsave hfid rfl
  case power =>
    intro e s hserves hsave hfid hk hfree
    exact setFeature_next hserves hsave hfid ((if_neg (by omega)).trans (permitted (by simp [hfree])))
  case threshold =>
    intro e s hserves hsave hfid hsel hth k
    have passes : ¬ ((!decide (natBits e.dw11.toNat 16 4 = 0 ∨ natBits e.dw11.toNat 16 4 = 15)) = true ∨ 1 < natBits e.dw11.toNat 20 2) := by
      rintro (h | h)
      · simp [hsel] at h
      · omega
    exact setFeature_next hserves hsave hfid ((if_neg passes).trans (apply_ite Except.ok _ _ _).symm)
  case queues =>
    intro e s hserves hsave hfid hsq hcq hnosq hnocq sq cq
    refine admin_next hserves _ e ((if_neg (ne_true_of_eq_false hsave)).trans ((if_neg (by omega)).trans (if_neg ?_)))
    simp [hnosq, hnocq]
  case coalescing => exact fun e s hserves hsave hfid => setFeature_next hserves hsave hfid rfl
  case vector =>
    intro e s hserves hsave hfid hv
    exact setFeature_next hserves hsave hfid (permitted (by omega))
  case events => exact fun e s hserves hsave hfid => setFeature_next hserves hsave hfid rfl
  case apst =>
    intro e s hserves hsave hfid hgood
    exact setFeature_next hserves hsave hfid (permitted (by simp [hgood]))
  case noCeiling =>
    intro e s hserves hsave hfid hk hbound
    rw [← hk]
    exact setFeature_next hserves hsave hfid ((if_neg (by omega)).trans (permitted (by simp [hbound])))
  case ceiling =>
    intro e s hserves hsave hfid hk hbound
    have above : ¬ (s.adminTaken.bound && decide (e.dw11.toNat < s.adminTaken.neededPoint)) = true := by
      simpa using hbound
    exact setFeature_next hserves hsave hfid ((if_neg (by omega)).trans (permitted above))
  case magazine =>
    intro e s hserves hsave hfid
    refine congrArg Host.Outcome.next ((admin_of_serves hserves ..).trans ((if_neg (ne_true_of_eq_false hsave)).trans (if_neg ?_)))
    exact not_not_intro hfid
  case get =>
    intro e s dw0 d hserves hsel hvalue
    exact admin_next hserves _ e (getFeature_current hsel hvalue)
  case getMagazine =>
    intro e s dw0 d hserves hfid hsel hvalue
    exact admin_next hserves _ e ((if_pos hfid).trans (getFeature_current hsel hvalue))

/-- Settles O28: a Save bit fails every Set Features before the feature is asked (`setFeature_refused`), and SEL picks the default or
the capabilities (`getFeature_default`). -/
theorem saveAndSelectOfFeatures : Obligations.SaveAndSelectOfFeatures := by
  refine ⟨fun e s hserves hsave => ?save, fun e s dw0 d hserves hvalue => ⟨fun hsel => ?default, fun hsel => ?capabilities⟩⟩
  case save =>
    have refused (fid : Nat) (f : State → Except CplRec State) : (Host.Outcome.next (s.setFeature fid f e) : Host.Outcome State Fault Refusal) =
        .next (s.adminTaken.adminDone e.cid (CplRec.bad 1 0x0D)) := congrArg _ (setFeature_refused hserves hsave)
    simp only [List.forall_mem_cons]
    refine ⟨refused .., refused .., refused .., admin_next hserves _ e (if_pos hsave), refused .., refused .., refused .., refused ..,
      refused .., refused .., by simp⟩
  case default =>
    exact admin_next hserves _ e ((getFeature_default (.inl hsel) hvalue).trans (by rw [if_neg (by omega)]))
  case capabilities =>
    exact admin_next hserves _ e ((getFeature_default (.inr hsel) hvalue).trans (by rw [if_pos hsel]))

end Sys2Proof.Machine
end

section
/-! PROOFS. The power commands, the handshake of a cocoon, emergence, pads, idle domains and power-good inputs (12_power_states.md R504
to R527, 16_package_and_electrical.md R635). -/

namespace Sys2Proof.Machine
open Sys2Proof

/-! ## The power command -/

section PowerCommand
variable {p : Path} {v : Word} {s : State} (hacc : s.accepts p R.PWR_CMD v = true) (hgo : v.getLsbD 31 = true)
include hacc hgo

theorem writePwrCmd_of_bad (hbad : s.pwrBad (s.domains (F.PWR_CMD_wake.of v)) (s.domains (F.PWR_CMD_stop.of v)) = true) :
    s.writePwrCmd p v = s.ignoreRule p R.PWR_CMD := by
  unfold State.writePwrCmd
  exact State.gated_bad_of_accepts hacc (by simp only [hgo, hbad, Bool.and_self])

/-- A power command that R528 allows: it waits in an entry, and begins where neither an entry nor an emergence runs. -/
theorem writePwrCmd_of_good (hgood : s.pwrBad (s.domains (F.PWR_CMD_wake.of v)) (s.domains (F.PWR_CMD_stop.of v)) = false) :
    let wake := s.domains (F.PWR_CMD_wake.of v)
    s.writePwrCmd p v = if s.get F.PWR_PSTAT_phase = 1 ∨ s.get F.PWR_PSTAT_phase = 2
      then (s.put F.PWR_PSTAT_wakepend 1).onPwr (fun p => { p with wake := p.wake ++ wake.filter (fun d => !(p.wake.contains d)) })
      else s.pwrGo wake (s.domains (F.PWR_CMD_stop.of v)) := by
  intro wake
  have go : ¬ (!v.getLsbD 31) = true := by rw [hgo]; decide
  unfold State.writePwrCmd
  exact (State.gated_of_accepts hacc (by rw [hgood, Bool.and_false])).trans (if_neg go)

end PowerCommand

/-- While an emergence runs every command is bad; while an entry runs every one that is not wake-only. -/
theorem pwrBad_of_handshake {wake stop : List Nat} {s : State} (h : s.get F.PWR_PSTAT_phase = 4 ∨
    (s.get F.PWR_PSTAT_phase = 1 ∨ s.get F.PWR_PSTAT_phase = 2) ∧ ¬(stop = [] ∧ wake ≠ [])) : s.pwrBad wake stop = true := by
  unfold State.pwrBad
  rcases h with emerging | ⟨entering, other⟩
  · simp [emerging]
  · have notWakeOnly : stop = [] → wake = [] := by simpa using other
    have barred : (!stop.isEmpty || wake.isEmpty) = true := by
      cases stop with
      | nil => simp [notWakeOnly rfl]
      | cons d ds => rfl
    rcases entering with h | h <;> simp only [h, barred, Bool.and_true, Bool.or_true, BEq.rfl, Bool.true_or]

/-- A wake-only command is good in an entry. -/
theorem pwrBad_of_wakeOnly {wake : List Nat} {s : State} (h : s.get F.PWR_PSTAT_phase = 1 ∨ s.get F.PWR_PSTAT_phase = 2)
    (hwake : wake ≠ []) : s.pwrBad wake [] = false := by
  unfold State.pwrBad
  rcases h with h | h <;> simp [h, hwake]

/-- Settles O21: a command in a handshake is bad unless it is wake-only in an entry (`pwrBad_of_handshake`, `pwrBad_of_wakeOnly`), and
then PWR_PSTAT.wakepend and the domains that wait are all it changes (`writePwrCmd_of_good`). -/
theorem powerCommandDuringEntryIsIgnored : Obligations.PowerCommandDuringEntryIsIgnored := by
  intro p v s hacc hgo wake stop
  refine ⟨fun h => congrArg Host.Outcome.next (writePwrCmd_of_bad hacc hgo (pwrBad_of_handshake h)), fun ⟨entering, hstop, hwake⟩ => ?_⟩
  have good : s.pwrBad wake stop = false := by rw [hstop]; exact pwrBad_of_wakeOnly entering hwake
  refine ⟨_, congrArg Host.Outcome.next ((writePwrCmd_of_good hacc hgo good).trans (if_pos entering)), ?pending, ?waits, ?frame⟩
  case pending => rw [State.get_onPwr, State.get_put_self _ _ _ (by decide)]; rfl
  case waits =>
    intro d hd
    change d ∈ s.pwr.wake ++ wake.filter (fun d => !(s.pwr.wake.contains d))
    by_cases held : d ∈ s.pwr.wake <;> simp [held, hd]
  case frame =>
    intro a ha
    rw [State.reg_onPwr, reg_put_ne ha]

/-! ## The handshake -/

section Entry
variable {s : State} {d : Nat} {ds : List Nat} (hphase : s.get F.PWR_PSTAT_phase = 1) (hask : s.pwr.ask = d :: ds)
include hphase hask

/-- What the domain asked answers: it refuses, cocoons, or delays (R505). -/
theorem cocoonAgree_of_asked : exec .cocoonAgree s = .next ((s.refusal d).elim (if s.agrees d then s.cocoonHead else s) (s.rollback d)) := by
  have answers : exec .cocoonAgree s = execCocoonAgree s := rfl
  rw [answers, execCocoonAgree, if_neg (not_not_intro hphase), hask]
  cases hr : s.refusal d <;> simp [hr]

theorem cocoonDelayTimeout_of_delay (hrefuse : s.refusal d = none) (hagree : s.agrees d = false) :
    exec .cocoonDelayTimeout s = .next (s.rollback d 1) := by
  have late : exec .cocoonDelayTimeout s = execCocoonDelayTimeout s := rfl
  rw [late, execCocoonDelayTimeout, if_neg (not_not_intro hphase), hask]
  simp [hrefuse, hagree]

end Entry

section Emergence
variable {s : State} {d : Nat} {ds : List Nat} (hphase : s.get F.PWR_PSTAT_phase = 4) (hemerg : s.pwr.emerg = d :: ds)
include hphase hemerg

/-- The end of a wait goes on to the next one of the domain, or ends its emergence (R514). -/
theorem emergenceStepDone_of_waiting : exec .emergenceStepDone s = .next (((s.waits d).find? (fun k => decide (s.pwr.step < k))).elim
    (if isLane d then (s.emerged d).autoLane (Fin.ofNat 4 d) else s.emerged d) (fun k => s.onPwr (fun p => { p with step := k }))) := by
  have ends : exec .emergenceStepDone s = execEmergenceStepDone s := rfl
  rw [ends, execEmergenceStepDone, if_neg (not_not_intro hphase), hemerg]
  cases hk : (s.waits d).find? (fun k => decide (s.pwr.step < k)) <;> simp [hk]

theorem emergenceStepTimeout_of_waiting : exec .emergenceStepTimeout s =
    .next (if s.pwr.again then s.domFailed d else s.onPwr (fun p => { p with step := 1, again := true })) := by
  have late : exec .emergenceStepTimeout s = execEmergenceStepTimeout s := rfl
  rw [late, execEmergenceStepTimeout, if_neg (not_not_intro hphase), hemerg]

end Emergence

/-- Settles O22: the command begins where it may (`writePwrCmd_of_good`), the domain asked decides the entry (`cocoonAgree_of_asked`,
`cocoonDelayTimeout_of_delay`), and the waits of R514 decide the emergence. -/
theorem powerHandshake : Obligations.PowerHandshake := by
  refine ⟨?go, ?agree, ?delay, ?retry, ?stepDone, ?stepTimeout⟩
  case go =>
    intro p v s hacc hgo hgood h1 h2
    exact congrArg Host.Outcome.next ((writePwrCmd_of_good hacc hgo hgood).trans (if_neg (by tauto)))
  case agree =>
    intro s d ds hphase hask
    refine ⟨fun hrefuse hagree => ?_, fun r hrefuse => ?_⟩ <;> rw [cocoonAgree_of_asked hphase hask, hrefuse]
    · exact congrArg Host.Outcome.next (if_pos hagree)
    · rfl
  case delay => exact fun s d ds hphase hask => cocoonDelayTimeout_of_delay hphase hask
  case retry => exact fun s hphase => congrArg Host.Outcome.next (if_pos hphase)
  case stepDone =>
    intro s d ds hphase hemerg
    refine ⟨fun k hk => ?_, fun hk => ?_⟩ <;> rw [emergenceStepDone_of_waiting hphase hemerg, hk] <;> rfl
  case stepTimeout => exact fun s d ds => emergenceStepTimeout_of_waiting

/-! ## Idle domains and power-good inputs -/

/-- The firmware may cocoon a domain that runs while no handshake and no transition runs and nothing drains. -/
theorem mayCocoon {d : Nat} {s : State} (hphase : s.get F.PWR_PSTAT_phase = 0) (hto : s.pwr.to_ = none) (hruns : s.runs d = true)
    (hboot : s.boot.phase = 4) (hdrain : s.draining = false) : ¬ (s.get F.PWR_PSTAT_phase ≠ 0 ∨ s.pwr.to_.isSome = true ∨
      (!(s.runs d)) = true ∨ s.boot.phase ≠ 4 ∨ s.draining = true) := by
  simp [hphase, hto, hruns, hboot, hdrain]

/-- A lane of PS2 with nothing queued, in progress or handed to it goes back into the cocoon (R523). -/
theorem domainIdleCocoon_lane {n : Fin 4} {s : State} (hphase : s.get F.PWR_PSTAT_phase = 0) (hto : s.pwr.to_ = none)
    (hruns : s.runs n = true) (hboot : s.boot.phase = 4) (hdrain : s.draining = false) (hps : s.nvme.feats.ps = 2)
    (hfit : s.fitted n = true) (hqueue : (s.lane n).queue = []) (hcur : (s.lane n).cur = none) (hwork : s.buf.work[n] = []) :
    exec (.domainIdleCocoon (Fin.castLE (by decide) n)) s =
      .next ((if s.executing n then s.put (F.MCS_STAT_stopreq n) 1 else s).pwrGo [] [n.val]) := by
  have lane : isLane n = true := decide_eq_true n.isLt
  have same : Fin.ofNat 4 n.val = n := by simp
  refine congrArg Host.Outcome.next ((if_neg (mayCocoon hphase hto hruns hboot hdrain)).trans ((if_pos lane).trans ?_))
  simp only [Fin.val_castLE, same]
  exact if_neg (by simpa [hps, hfit, hqueue, hcur] using hwork)

/-- The entry of the present power state in the table of autonomous transitions, with its time and its target (R527). -/
theorem apstTransition_of_idle {ms to_ : Nat} {s : State} (hent : s.nvme.feats.apst[s.nvme.feats.ps]? = some (ms, to_))
    (hon : s.nvme.feats.apste = true) (hms : ms ≠ 0) (hbound : s.bound = false) (hout : s.outstanding = false)
    (hdrain : s.draining = false) (hhost : s.hostDown = false) (hboot : s.boot.phase = 4) (hlater : s.nvme.feats.ps < to_) :
    exec .apstTransition s = .next ((s.put F.PWR_IDLE_ms (max ms (s.get F.PWR_IDLE_ms))).enterPs to_) := by
  have transition : exec .apstTransition s = execApstTransition s := rfl
  rw [transition, execApstTransition]
  simp only [hent]
  exact congrArg Host.Outcome.next (if_neg (by simp [hon, hms, hbound, hout, hdrain, hhost, hboot]; omega))

/-- Settles O23: the write and the events come to their effect where their guards let them (`domainIdleCocoon_lane`,
`apstTransition_of_idle`). -/
theorem padsAndIdleDomains : Obligations.PadsAndIdleDomains := by
  refine ⟨?padrel, ?lane, ?hbm, ?apst, ?coreLow, ?coreReturn, ?coreTimeout, ?aLow, ?bLow⟩
  case padrel =>
    intro p v s hacc hruns
    exact congrArg Host.Outcome.next (State.gated_of_accepts hacc (by simpa using hruns))
  case lane => exact fun n s => domainIdleCocoon_lane
  case hbm =>
    intro s hphase hto hruns hboot hdrain hps hmotion
    refine congrArg Host.Outcome.next ((if_neg (mayCocoon hphase hto hruns hboot hdrain)).trans ((if_neg ?_).trans (if_pos ?_)))
    · decide
    · exact ⟨rfl, hps, hmotion⟩
  case apst => exact fun s ms to_ => apstTransition_of_idle
  case coreLow =>
    intro s hlow hhigh hdone
    exact congrArg Host.Outcome.next (if_neg (by omega))
  case coreReturn =>
    intro s hlow
    refine congrArg Host.Outcome.next ((if_neg (by simp [hlow])).trans (if_congr ?_ rfl rfl))
    simp only [Bool.or_eq_true, beq_iff_eq]
  case coreTimeout =>
    intro s hlow
    exact congrArg Host.Outcome.next (if_neg (by simp [hlow]))
  case aLow =>
    intro s hruns hboot
    exact congrArg Host.Outcome.next (if_neg (not_or.2 ⟨mt List.isEmpty_iff.1 hruns, by omega⟩))
  case bLow =>
    intro s hlow hhigh
    exact congrArg Host.Outcome.next (if_neg (by simp only [State.boot_onBoot]; omega))

end Sys2Proof.Machine
end

section
/-! PROOFS. The configuration flash as software reaches it, and the counters record (13_startup_and_image.md R540 to R543). -/

namespace Sys2Proof.Machine
open Sys2Proof

/-! ## The write of CFG_FLCMD -/

section FlashCommand
variable {p : Path} {v : Word} {s : State} (hacc : s.accepts p R.CFG_FLCMD v = true) (hgo : v.getLsbD 31 = true)
include hacc hgo

/-- A go that R542 permits starts its operation on the page of CFG_FLADDR. -/
theorem writeFlcmd_starts {op : Nat} (hop : F.CFG_FLCMD_op.of v = op) (hlow : op ≤ 2) (hidle : s.flag F.CFG_FLCMD_busy = false)
    (hbar : op = 0 ∨ s.flashBarred = false) : let t := s.take R.CFG_FLCMD v
    s.writeFlcmd p v = (t.put F.CFG_FLCMD_busy 1).onBoot (fun b => { b with fl := some (op, t.get F.CFG_FLADDR_page) }) := by
  subst hop
  have known : (F.CFG_FLCMD_op.of v == 3) = false := by simp; omega
  have free : ((F.CFG_FLCMD_op.of v == 1 || F.CFG_FLCMD_op.of v == 2) && s.flashBarred) = false := by
    rcases hbar with h | h <;> simp [h]
  unfold State.writeFlcmd
  exact (State.gated_of_accepts hacc (by simp only [known, hgo, hidle, free]; decide)).trans (if_pos hgo)

/-- A program or an erase of a forbidden region is ignored (R542). -/
theorem writeFlcmd_barred (hop : F.CFG_FLCMD_op.of v = 1 ∨ F.CFG_FLCMD_op.of v = 2) (hbar : s.flashBarred = true) :
    s.writeFlcmd p v = s.ignoreRule p R.CFG_FLCMD := by
  have changes : ((F.CFG_FLCMD_op.of v == 1 || F.CFG_FLCMD_op.of v == 2) && s.flashBarred) = true := by
    rcases hop with h | h <;> simp [h, hbar]
  unfold State.writeFlcmd
  exact State.gated_bad_of_accepts hacc (by simp only [changes, hgo, Bool.or_true, Bool.and_self])

end FlashCommand

/-! ## The end of an operation -/

/-- The registers of CFG_FLCMD once the operation has ended with result `res`. -/
def State.flashEnded (res : Nat) (s : State) : State :=
  ((s.put F.CFG_FLCMD_busy 0).put F.CFG_FLCMD_res res).onBoot (fun b => { b with fl := none })

theorem flashOpDone_of_running {op page : Nat} {s : State} (ok : Bool) (hfl : s.boot.fl = some (op, page)) :
    exec (.flashOpDone ok) s = .next (let t := s.flashEnded (if ok then 0 else 2)
      if !ok then t.spoilOp op page
      else if op = 0 then
        doAll (List.range 64) (fun i s => s.setReg (R.CFG_FLBUF i) (BitVec.ofNat 32 (ofLe (s.flashBytes (256 * page + 4 * i) 4)))) t
      else if op = 1 then t.program (256 * page) t.flbuf else t.eraseFlash (page / 256 * 65536) 65536) := by
  have ends : exec (.flashOpDone ok) s = execFlashOpDone ok s := rfl
  rw [ends, execFlashOpDone, hfl]
  rfl

theorem countersRecord_of_locked {s : State} (hphase : s.boot.phase = 4) (hlock : s.flag F.EVT_CTL_tlock = true) :
    s.countersRecord = s.addCounter s.potMs (s.get F.EVT_PCYC_count) := if_pos ⟨hphase, hlock⟩

/-- Settles O20: a go starts its operation or is barred (`writeFlcmd_starts`, `writeFlcmd_barred`), and the operation in progress decides
what its end does (`flashOpDone_of_running`). -/
theorem flashOperations : Obligations.FlashOperations := by
  refine ⟨?read, ?program, ?erase, ?barred, ?done, ?record, fun pot pcyc s => rfl⟩
  case read =>
    intro p v s hacc hgo hop hidle
    exact congrArg Host.Outcome.next (writeFlcmd_starts hacc hgo hop (by decide) hidle (.inl rfl))
  case program =>
    intro p v s hacc hgo hop hidle hbar
    exact congrArg Host.Outcome.next (writeFlcmd_starts hacc hgo hop (by decide) hidle (.inr hbar))
  case erase =>
    intro p v s hacc hgo hop hidle hbar
    exact congrArg Host.Outcome.next (writeFlcmd_starts hacc hgo hop (by decide) hidle (.inr hbar))
  case barred =>
    intro p v s hacc hgo hop hbar
    have ignored := congrArg (Host.Outcome.next (φ := Fault) (ρ := Refusal)) (writeFlcmd_barred hacc hgo hop hbar)
    exact ⟨ignored, ignored⟩
  case done => exact fun op page s hfl _ => ⟨flashOpDone_of_running true hfl, flashOpDone_of_running false hfl⟩
  case record => exact fun s hphase hlock => congrArg Host.Outcome.next (countersRecord_of_locked hphase hlock)

end Sys2Proof.Machine
end

section
/-! PROOFS. Triplicated words and their voter (14_integrity_and_selftest.md R566 to R571). -/

namespace Sys2Proof.Machine
open Sys2Proof

/-! ## Fields that a write takes as they are -/

/-- Every bit of the field is one that a write stores (R7). -/
def Field.stored (g : Field) : Bool :=
  (regDesc g.addr).any (fun d => (List.range g.width).all (fun i => (d.rw ||| d.rwl).testBit (g.lo + i)))

/-- Such a field reads as its bits in the word written. -/
theorem get_take_of_stored {g : Field} (hg : g.stored = true) (v : Word) (s : State) : (s.take g.addr v).get g = g.of v := by
  obtain ⟨d, hd, hbits⟩ := (Option.any_eq_true _ _).mp hg
  obtain ⟨kept, -⟩ := apply_of_masksApart d (s.reg g.addr) v (masksApart_of_regDesc hd)
  rw [State.get, State.take_of_regDesc hd, State.reg_setReg_self]
  refine Nat.eq_of_testBit_eq fun i => ?_
  rw [Field.testBit_of, Field.testBit_of]
  by_cases hi : i < g.width
  · have bit := congrArg (fun w : Word => w.getLsbD (g.lo + i)) kept
    have writes := List.all_eq_true.mp hbits i (List.mem_range.mpr hi)
    by_cases hw : g.lo + i < 32
    · simp only [BitVec.getLsbD_and, BitVec.getLsbD_ofNat, hw, writes, decide_true, Bool.and_true] at bit
      rw [bit]
    · rw [BitVec.getLsbD_of_ge _ _ (by omega), BitVec.getLsbD_of_ge _ _ (by omega)]
  · simp [hi]

/-! ## A copy that is replaced -/

/-- The voter has made all copies of word `w` equal `x`; where copy `k` held another value it has counted and named it (R570). -/
def VotedTo (s t : State) (w : Fin 8) (k : Fin 3) (x y : Word) : Prop :=
  (∀ c : Fin 3, t.reg (copyReg w c) = x) ∧ (y ≠ x → t.get F.TMR_FIXCNT_count = (s.get F.TMR_FIXCNT_count + 1) % 2 ^ 32 ∧
    t.get F.TMR_FIX_valid = 1 ∧ t.get F.TMR_FIX_copy = k ∧ t.get F.TMR_FIX_word = w)

/-- Where two copies agree, the voter gives their value to a third that takes any value. -/
theorem votedTo_of_replaced {w : Fin 8} {k : Fin 3} {x : Word} {s : State} (y : Word) (h : ∀ c : Fin 3, c ≠ k → s.reg (copyReg w c) = x) :
    VotedTo s ((s.setReg (copyReg w k) y).voteFix w) w k x y := by
  let u := s.setReg (copyReg w k) y
  have new : u.reg (copyReg w k) = y := State.reg_setReg_self _ _ _
  have others : ∀ c : Fin 3, c ≠ k → u.reg (copyReg w c) = x := fun c hc =>
    (State.reg_setReg_ne _ _ (fun e => hc (copyReg_inj w c k e))).trans (h c hc)
  have count : u.get F.TMR_FIXCNT_count = s.get F.TMR_FIXCNT_count :=
    State.get_setReg_ne _ _ _ _ (Ne.symm (copyReg_apart w k).2.2)
  obtain ⟨alike, apart⟩ := voteFix_one w k x u others
  by_cases hy : y = x
  · rw [show u.voteFix w = u from alike (new.trans hy)]
    refine ⟨fun c => ?_, fun hne => absurd hy hne⟩
    by_cases hc : c = k
    · rw [hc, new, hy]
    · exact others c hc
  · rw [show u.voteFix w = voted w k x u from apart (fun e => hy (new.symm.trans e))]
    refine ⟨fun c => ?_, fun _ => ?_⟩
    · rw [voted_copy]
      split
      · rfl
      · exact others c ‹_›
    · rw [← count]
      exact voted_count w k x u

theorem copyReg_ne_inj : ∀ (i : Fin 8) (c : Fin 3), copyReg i c ≠ R.TMR_INJ := by decide

/-- There is no copy 3 (R571). -/
theorem writeTmrInj_of_copy3 {p : Path} {v : Word} {s : State} (hacc : s.accepts p R.TMR_INJ v = true) (hgo : v.getLsbD 31 = true)
    (hk : F.TMR_INJ_copy.of v = 3) : s.writeTmrInj p v = s.ignoreRule p R.TMR_INJ := by
  unfold State.writeTmrInj
  exact State.gated_bad_of_accepts hacc (by rw [hgo, hk]; rfl)

/-- An accepted injection replaces the copy that it names with TMR_INJD, and the voter follows (R571). -/
theorem writeTmrInj_of_accepts {p : Path} {v : Word} {s : State} {w : Fin 8} {k : Fin 3} (hacc : s.accepts p R.TMR_INJ v = true)
    (hgo : v.getLsbD 31 = true) (hw : F.TMR_INJ_word.of v = w) (hk : F.TMR_INJ_copy.of v = k) :
    s.writeTmrInj p v = ((s.take R.TMR_INJ v).setReg (copyReg w k) (s.reg R.TMR_INJD)).voteFix w := by
  have word : (s.take R.TMR_INJ v).get F.TMR_INJ_word = w := (get_take_of_stored (by decide +kernel) v s).trans hw
  have copy : (s.take R.TMR_INJ v).get F.TMR_INJ_copy = k := (get_take_of_stored (by decide +kernel) v s).trans hk
  have data : (s.take R.TMR_INJ v).reg R.TMR_INJD = s.reg R.TMR_INJD := reg_take_ne v s (by decide)
  have known : (v.getLsbD 31 && F.TMR_INJ_copy.of v == 3) = false := by simp [hk]; omega
  unfold State.writeTmrInj
  refine (State.gated_of_accepts hacc known).trans ((if_pos hgo).trans ?_)
  rw [word, copy, data]

/-- A write of TMR_INJ leaves the copies and the count of corrections. -/
theorem votedTo_of_injected {w : Fin 8} {k : Fin 3} {x : Word} {s : State} (v : Word) (h : ∀ c : Fin 3, c ≠ k → s.reg (copyReg w c) = x) :
    VotedTo s (((s.take R.TMR_INJ v).setReg (copyReg w k) (s.reg R.TMR_INJD)).voteFix w) w k x (s.reg R.TMR_INJD) := by
  have copies : ∀ c : Fin 3, c ≠ k → (s.take R.TMR_INJ v).reg (copyReg w c) = x := fun c hc =>
    (reg_take_ne v s (copyReg_ne_inj w c)).trans (h c hc)
  obtain ⟨equal, counted⟩ := votedTo_of_replaced (s.reg R.TMR_INJD) copies
  rw [get_take_ne _ v s (by decide)] at counted
  exact ⟨equal, counted⟩

/-- Settles O57: an injection and a bit that changes both replace one copy, and the voter gives it the value of the other two
(`votedTo_of_replaced`, `votedTo_of_injected`) or finds no two alike (`voteFix_none`). -/
theorem voterCorrectsACopy : Obligations.VoterCorrectsACopy := by
  refine ⟨?injection, ?changed, ?memories⟩
  case injection =>
    intro p v s hacc hgo
    refine ⟨fun hcopy => ?_, fun w k x hw hk hsame => ?_⟩
    · exact congrArg Host.Outcome.next (writeTmrInj_of_copy3 hacc hgo hcopy)
    · exact ⟨_, congrArg Host.Outcome.next (writeTmrInj_of_accepts hacc hgo hw hk), votedTo_of_injected v hsame⟩
  case changed =>
    intro w k b s y
    exact ⟨fun x hsame => ⟨_, rfl, votedTo_of_replaced y hsame⟩, fun happart => congrArg Host.Outcome.next (voteFix_none w _ happart)⟩
  case memories =>
    intro m i a b place n w c s new
    refine ⟨fun hinst => congrArg Host.Outcome.next (if_neg (by simp [hinst])), fun hinst hup => ⟨?_, ?_⟩, rfl⟩
    · exact congrArg Host.Outcome.next (if_pos (by simp [hinst, hup]))
    · exact congrArg Host.Outcome.next (if_pos (by simp [hinst, hup]))

end Sys2Proof.Machine
end

section
/-! PROOFS. The tests of the checkers, the lockstep comparator, the rake, the slices of a self-test and the sense ADCs
(14_integrity_and_selftest.md R563 to R595). -/

namespace Sys2Proof.Machine
open Sys2Proof

/-! ## The tests of the checkers -/

/-- A write that no cause of R664 stops: the rule of its block decides. -/
theorem State.gated_decided {s : State} {p : Path} {a : Nat} {v : Word} {bad : Bool} {eff : State → State} {c : Prop} [Decidable c]
    (hacc : s.accepts p a v = true) (hbad : bad = true ↔ c) : s.gated p a v bad eff = if c then s.ignoreRule p a else eff s := by
  split
  · exact State.gated_bad_of_accepts hacc (hbad.mpr ‹_›)
  · exact State.gated_of_accepts hacc (Bool.eq_false_iff.mpr (mt hbad.mp ‹_›))

/-- A flip that R567 does not allow: of memory `m`, its number `i`. -/
abbrev State.flipBarred (s : State) (m i : Nat) : Prop :=
  s.flag F.ECC_FLIPCTL_arm = true ∨ s.flipWeight = 0 ∨ 12 ≤ m ∨ s.instOk m i = false ∨ s.memDown m i = true ∨
    s.factory = false ∧ 1 < s.flipWeight ∧ m ≤ 3

theorem writeFlipctl_of_accepts {p : Path} {v : Word} {s : State} (hacc : s.accepts p R.ECC_FLIPCTL v = true) :
    s.writeFlipctl p v = if v.getLsbD 31 = true ∧ s.flipBarred (F.ECC_FLIPCTL_mem.of v) (F.ECC_FLIPCTL_inst.of v)
      then s.ignoreRule p R.ECC_FLIPCTL else s.take R.ECC_FLIPCTL v := by
  unfold State.writeFlipctl
  refine State.gated_decided hacc ?_
  simp only [State.flipBarred, Bool.and_eq_true, Bool.or_eq_true, Bool.not_eq_true', beq_iff_eq, decide_eq_true_eq, or_assoc]

theorem writeSplitctl_of_accepts {p : Path} {v : Word} {s : State} (hacc : s.accepts p R.ECC_SPLITCTL v = true) :
    let m := F.ECC_SPLITCTL_mem.of v
    s.writeSplitctl p v = if v.getLsbD 31 = true ∧
        (s.factory = false ∨ m < 4 ∨ 9 < m ∨ s.flag F.ECC_FLIPCTL_arm = true ∧ s.get F.ECC_FLIPCTL_mem = m)
      then s.ignoreRule p R.ECC_SPLITCTL else s.take R.ECC_SPLITCTL v := by
  intro m
  unfold State.writeSplitctl
  refine State.gated_decided hacc ?_
  simp only [m, Bool.and_eq_true, Bool.or_eq_true, Bool.not_eq_true', beq_iff_eq, decide_eq_true_eq, or_assoc]

/-! ## The comparator -/

theorem writeLsctl_of_inject {p : Path} {v : Word} {s : State} (hacc : s.accepts p R.TMR_LSCTL v = true) (hinj : v.getLsbD 30 = true) :
    s.writeLsctl p v = if ¬(s.factory = true ∧ s.flag F.BUF_CTL_lock = false) then s.ignoreRule p R.TMR_LSCTL
      else let f := (s.take R.TMR_LSCTL v).fresh; f.2.mismatch (f.2.get F.TMR_LSCTL_group) (ofInt 32 f.1) := by
  unfold State.writeLsctl
  refine (State.gated_decided hacc ?_).trans (if_congr Iff.rfl rfl (if_pos hinj))
  cases s.factory <;> simp [hinj]

theorem mismatch_of_diverted {g cyc : Nat} {s : State} (h : s.diverted = true) : s.mismatch g cyc = s.put F.TMR_LSSTAT_tested 1 :=
  if_pos h

theorem mismatch_of_compared {g cyc : Nat} {s : State} (h : s.diverted = false) : s.mismatch g cyc =
    ((((s.put F.TMR_LSSTAT_mism 1).put F.TMR_LSSTAT_group g).put F.TMR_LSCYC_cyc cyc).diapauseFor 1) :=
  if_neg (by simp [h])

/-- The comparator runs with CORE. -/
theorem lockstepMismatch_of_core {g : Option (Fin 8)} {cyc : Word} {s : State} (h : s.coreUp = true ∨ 3 ≤ s.boot.phase) :
    exec (.lockstepMismatch g cyc) s = .next (match g with
      | some g => if s.flag F.TMR_LSSTAT_mism then s else s.mismatch g cyc.toNat
      | none => if s.flag F.BUF_CTL_lock then s else (s.put F.TMR_LSSTAT_stfail 1).diapauseFor 1) := by
  refine congrArg Host.Outcome.next (if_neg ?_)
  rcases h with h | h
  · simp [h]
  · simp; omega

/-! ## The rake -/

section Rake
variable {t : Fin 12} {s : State} (hrakes : s.raking t = true)
include hrakes

/-- The words of a control store are only passed over (R580). -/
theorem rakeScrub_store (place : HbmPlace) (ht : 8 ≤ t.val) :
    exec (.rakeScrub t place) s = .next (s.put (F.RAKE_CUR_addr t) ((s.get (F.RAKE_CUR_addr t) + 1) % 4096)) :=
  congrArg Host.Outcome.next ((if_neg (by simp [hrakes])).trans (if_pos ht))

/-- A word of a memory is read, and written back or handled as uncorrectable (R578, R579). -/
theorem rakeScrub_memory (place : HbmPlace) (ht : t.val < 8) :
    let at_ := if t.val = 0 then s.afterBrine (s.get (F.RAKE_CUR_addr t)) else s.get (F.RAKE_CUR_addr t)
    let w := rakeWord t at_
    let r := (s.put (F.RAKE_CUR_addr t) (if t.val = 0 then s.afterBrine (at_ + 1) else at_ + 1)).readWords w.1 w.2.1 w.2.2 1 false none
    exec (.rakeScrub t place) s = .next (if r.1 then r.2.memBad w.1 w.2.1 w.2.2 place
      else if (s.poisonAt w.1 w.2.1 w.2.2).weight = 0 ∨ r.2.split w.1 w.2.1 then r.2
      else (r.2.wroteWords w.1 w.2.1 w.2.2 1 none).inc (F.RAKE_FIX_count t)) :=
  congrArg Host.Outcome.next ((if_neg (by simp [hrakes])).trans (if_neg (by omega)))

theorem rakeLapEnd_of_raking (ms : Word) :
    let b := ((s.inc (F.RAKE_LAPCNT_count t)).put (F.RAKE_LAPTIME_ms t) ms.toNat).put (F.RAKE_CUR_addr t) 0
    exec (.rakeLapEnd t ms) s = .next (if 8 ≤ t.val then b.digestCheck (Fin.ofNat 4 (t.val - 8)) else b) :=
  congrArg Host.Outcome.next (if_neg (by simp [hrakes]))

end Rake

/-! ## Slices of a self-test -/

/-- A slice may start on lane `n` (R586). -/
theorem sliceBarred_eq_false {n : Fin 4} {s : State} : s.sliceBarred n = false ↔ s.get F.ISST_STAT_state = 0 ∧ s.laneUp n = true ∧
    (s.mcs n = 0 ∨ s.mcs n = 2 ∨ s.mcs n = 5) ∧ (s.lane n).wfifo = 0 ∧ (s.lane n).port = [] ∧ s.flag (F.LANE_STAT_wg n) = false ∧
    s.flag (F.LANE_STAT_rg n) = false ∧ s.harvesting = false ∧ s.diapause = false := by
  simp only [State.sliceBarred, Bool.or_eq_false_iff, bne_eq_false_iff_eq, Bool.not_eq_false', List.isEmpty_iff, Bool.or_eq_true,
    beq_iff_eq, and_assoc, or_assoc]

theorem writeIsstCmd_of_go {p : Path} {v : Word} {s : State} (hacc : s.accepts p R.ISST_CMD v = true) (hgo : v.getLsbD 31 = true) :
    s.writeIsstCmd p v = if ¬(F.ISST_CMD_len.of v ≠ 0 ∧ F.ISST_CMD_part.of v ≤ 5 ∧ s.sliceBarred (Fin.ofNat 4 (F.ISST_CMD_lane.of v)) = false)
      then s.ignoreRule p R.ISST_CMD
      else (s.take R.ISST_CMD v).startSlice (F.ISST_CMD_lane.of v) (F.ISST_CMD_part.of v) ((s.take R.ISST_CMD v).get F.ISST_CMD_len) false := by
  unfold State.writeIsstCmd
  refine (State.gated_decided hacc ?_).trans (if_congr Iff.rfl rfl (if_pos hgo))
  simp only [hgo, Bool.true_and, Bool.or_eq_true, beq_iff_eq, decide_eq_true_eq]
  cases s.sliceBarred (Fin.ofNat 4 (F.ISST_CMD_lane.of v)) <;> simp; omega

/-! ## The sense ADCs -/

/-- An ADC that is checked is fitted, while the checks are enabled and CORE runs (R592). -/
theorem senseAdcCheck_of_checked {a : Fin 7} {s : State} (ok : Bool) (hen : s.flag F.ISST_SENSECFG_en = true)
    (hfit : a.val < 3 ∨ s.fitted (a.val - 3) = true) (hphase : 3 ≤ s.boot.phase) :
    let u := s.putBit F.ISST_SENSEST_fail a.val (!ok); let t := u.raise F.ISST_ERR_sense
    exec (.senseAdcCheck a ok) s = .next (if ok then u
      else if a.val = 0 ∧ t.boot.phase = 4 ∧ t.flag F.HRV_CTL_arm then t.writeHrvCtl .core 0 else t) := by
  refine congrArg Host.Outcome.next (if_neg ?_)
  rcases hfit with h | h <;> simp [hen, h] <;> omega

/-- Settles O58: each write is decided by its block's rule (`gated_decided`), and the events by what they meet: the comparator, the word
at the cursor (`rakeScrub_memory`), the slice, the ADC. -/
theorem checkersRakeAndSelfTest : Obligations.CheckersRakeAndSelfTest := by
  refine ⟨?flip, ?split, ?clear, ?inject, ?mismatch, ?rake, ?slice, ?blockEnd, ?sense⟩
  case flip =>
    intro p v s hacc m i bad
    have written := writeFlipctl_of_accepts hacc
    exact ⟨fun harm => ⟨fun hbad => congrArg Host.Outcome.next (written.trans (if_pos ⟨harm, hbad⟩)),
      fun hgood => congrArg Host.Outcome.next (written.trans (if_neg (fun h => hgood h.2)))⟩,
      fun harm => congrArg Host.Outcome.next (written.trans (if_neg (by simp only [harm]; simp)))⟩
  case split =>
    intro p v s hacc hen m
    have written := writeSplitctl_of_accepts hacc
    refine ⟨fun hfactory hlow hhigh hfree => ?_, fun hbad => congrArg Host.Outcome.next (written.trans (if_pos ⟨hen, hbad⟩))⟩
    refine congrArg Host.Outcome.next (written.trans (if_neg ?_))
    rintro ⟨-, h | h | h | h⟩
    · simp [hfactory] at h
    · omega
    · omega
    · exact hfree h
  case clear => exact fun p v s hacc hclr => congrArg Host.Outcome.next ((State.gated_of_accepts hacc rfl).trans (if_pos hclr))
  case inject =>
    intro p v s hacc hinj
    have written := writeLsctl_of_inject hacc hinj
    exact ⟨fun hbad => congrArg Host.Outcome.next (written.trans (if_pos hbad)),
      fun hgood => congrArg Host.Outcome.next (written.trans (if_neg (not_not_intro hgood)))⟩
  case mismatch =>
    intro cyc s hcore
    refine ⟨fun hlock => ?_, fun g hmism => ⟨fun hdiv => ?_, fun hdiv => ?_⟩⟩ <;> rw [lockstepMismatch_of_core hcore]
    · exact congrArg Host.Outcome.next (if_neg (by simp [hlock]))
    · exact congrArg Host.Outcome.next ((if_neg (by simp [hmism])).trans (mismatch_of_diverted hdiv))
    · exact congrArg Host.Outcome.next ((if_neg (by simp [hmism])).trans (mismatch_of_compared hdiv))
  case rake =>
    intro t place ms s hrakes cur b
    refine ⟨rakeScrub_store hrakes place, fun ht => ?_, rakeLapEnd_of_raking hrakes ms,
      congrArg Host.Outcome.next (if_pos hrakes)⟩
    intro at_ w a r
    have scrubs := rakeScrub_memory hrakes place ht
    exact ⟨fun hue => scrubs.trans (congrArg _ (if_pos hue)), fun hce => scrubs.trans (congrArg _ (if_neg (ne_true_of_eq_false hce)))⟩
  case slice =>
    intro p v s hacc hgo n part ok
    have written := writeIsstCmd_of_go hacc hgo
    have may : ok ↔ F.ISST_CMD_len.of v ≠ 0 ∧ part ≤ 5 ∧ s.sliceBarred n = false :=
      and_congr_right' (and_congr_right' sliceBarred_eq_false.symm)
    exact ⟨fun hok => congrArg Host.Outcome.next (written.trans (if_neg (not_not_intro (may.mp hok)))),
      fun hbad => congrArg Host.Outcome.next (written.trans (if_pos (mt may.mpr hbad)))⟩
  case blockEnd =>
    intro s hrun
    have runs : ¬ s.get F.ISST_STAT_state ≠ 1 := not_not_intro hrun
    exact ⟨congrArg Host.Outcome.next (if_neg runs), congrArg Host.Outcome.next (if_neg runs)⟩
  case sense =>
    intro a s hen hfit hphase t
    exact ⟨senseAdcCheck_of_checked true hen hfit hphase, senseAdcCheck_of_checked false hen hfit hphase⟩

end Sys2Proof.Machine
end

section
/-! PROOFS. Causes, temperatures, the event recorder and measurements (15_alerts_and_events.md R598 to R622). -/

namespace Sys2Proof.Machine
open Sys2Proof

/-! ## Causes -/

/-- A write of ALR_CAUSE clears the latches that it names whose sources are clear, one after another (R598). -/
theorem writeCauseReg_of_accepts {p : Path} {v : Word} {s : State} (hacc : s.accepts p R.ALR_CAUSE v = true) :
    let t := s.writeCauseReg p v
    (∀ a, a ≠ R.ALR_CAUSE → t.reg a = s.reg a) ∧
      ∀ c, c < 24 → t.bit F.ALR_CAUSE_c c = (s.bit F.ALR_CAUSE_c c && !(v.getLsbD c && s.sourcesClear c)) := by
  intro t
  obtain ⟨frame, latches⟩ := clearCauses v s (List.range 24) (fun c hc => List.mem_range.mp hc)
  have written : t = _ := State.gated_of_accepts hacc rfl
  rw [written]
  refine ⟨frame, fun c hc => (latches c hc).trans ?_⟩
  rw [List.contains_iff_mem.mpr (List.mem_range.mpr hc), Bool.true_and]

/-! ## Firmware records -/

theorem writeSwHdr_of_accepts {p : Path} {c : Fin 4} {v : Word} {s : State} (hacc : s.accepts p (R.EVT_SW_HDR c) v = true) :
    let t := s.take (R.EVT_SW_HDR c) v; let src := (F.EVT_SW_HDR_src c).of v
    s.writeSwHdr p c v = if v.getLsbD 31 = true ∧ c ≠ 3 ∧ src ≠ 0x20 then s.ignoreRule p (R.EVT_SW_HDR c)
      else if v.getLsbD 31 then t.post (if c.val = 3 then 0x21 else src) ((F.EVT_SW_HDR_code c).of v)
        ((List.range 8).flatMap (fun w => leBytes 4 (t.reg (R.EVT_SW_P c w)).toNat))
      else t := by
  intro t src
  have core : c.val ≠ 3 ↔ c ≠ 3 := by rw [Ne, Ne, Fin.ext_iff]; rfl
  unfold State.writeSwHdr
  exact State.gated_decided hacc (by simp only [Bool.and_eq_true, bne_iff_ne, core, and_assoc, src])

/-! ## The recorder's flush -/

theorem evtFlushPageDone_of_flushing {s : State} (ok : Bool) (hflush : s.flag F.EVT_STAT_flush = true) (hfree : s.flushBlocked = false)
    (hleft : s.flushLeft ≠ []) : let hd := s.get F.EVT_RINGHD_slot
    let t := (s.raiseAt F.EVT_ERR_e 2).put F.EVT_RINGHD_slot (hd + (4 - hd % 4))
    exec (.evtFlushPageDone ok) s = .next (if ok then s.flushPage else { t with evt := { t.evt with left := 0 } }) :=
  congrArg Host.Outcome.next (if_neg (by simp [hflush, hfree, hleft]))

/-- What the end of a flush goes on with: the one asked for meanwhile, or the harvest that waited for it (R616, R350). -/
theorem evtFlushDone_of_over {s : State} (hflush : s.flag F.EVT_STAT_flush = true)
    (hover : s.flushLeft = [] ∨ s.harvesting = true ∧ s.flushBlocked = true) :
    let t : State := { s.put F.EVT_STAT_flush 0 with evt := { s.evt with left := 0 } }
    let last : State := { t with evt := { t.evt with again := false } }
    exec .evtFlushDone s = .next (if t.evt.again && !(t.harvesting && t.flushBlocked) then last.askFlush
      else if t.hrvState = 6 ∧ t.hrv.parked = true then last.put F.HRV_STAT_state 7 else t) := by
  refine congrArg Host.Outcome.next (if_neg ?_)
  rcases hover with h | ⟨h, k⟩ <;> simp [*]

theorem evtSectorEraseDone_of_erasing {k : Nat} {s : State} (herase : s.evt.erase = some k) : let t := s.put F.EVT_STAT_erase 0
    exec .evtSectorEraseDone s =
      .next { t with evt := { t.evt with erase := none, ring := t.evt.ring.filter (fun x => x.1 / 1024 != k) } } := by
  have ends : exec .evtSectorEraseDone s = execEvtSectorEraseDone s := rfl
  rw [ends, execEvtSectorEraseDone, herase]
  rfl

/-- Settles O59: the latches by `writeCauseReg_of_accepts`, a firmware record by `writeSwHdr_of_accepts`, a flush by
`evtFlushPageDone_of_flushing` and `evtFlushDone_of_over`; the temperatures and a measurement are their meanings' own steps. -/
theorem causesEventsAndMeasurements : Obligations.CausesEventsAndMeasurements := by
  refine ⟨?causes, ?temperatures, ?post, ?control, ?page, ?flushDone, ?erased, ?measured⟩
  case causes => exact fun p v s hacc => ⟨_, rfl, writeCauseReg_of_accepts hacc⟩
  case temperatures =>
    intro tj td hbm s old new above under crit a high b c d e
    have update : exec (.tempSensorUpdate tj td hbm) s = execTempSensorUpdate tj td hbm s := rfl
    rw [update, execTempSensorUpdate]
    simp only [doIf, Bool.and_eq_true, decide_eq_true_eq]
    rfl
  case post =>
    intro p c v s hacc src t rec_
    have written := writeSwHdr_of_accepts hacc
    refine ⟨fun hpost => ?_, fun hpost => ⟨fun hcore hsrc => ?_, fun hcore => ?_, fun hcore hsrc => ?_⟩⟩ <;>
      refine congrArg Host.Outcome.next (written.trans ?_)
    · rw [if_neg (fun h => ne_true_of_eq_false hpost h.1), if_neg (ne_true_of_eq_false hpost)]
    · exact if_pos ⟨hpost, hcore, hsrc⟩
    · rw [if_neg (by simp [hcore]), if_pos hpost, if_pos (by rw [hcore]; rfl)]
    · have author : (if c.val = 3 then 0x21 else src) = 0x20 := (if_neg (fun h => hcore (Fin.ext h))).trans hsrc
      exact (if_neg (fun h => h.2.2 hsrc)).trans ((if_pos hpost).trans (congrArg (fun n => State.post n _ _ t) author))
  case control =>
    intro p v s
    refine ⟨fun hacc => ?_, fun hacc => congrArg Host.Outcome.next (State.gated_of_accepts hacc rfl)⟩
    refine congrArg Host.Outcome.next ((State.gated_of_accepts hacc rfl).trans (if_congr ?_ rfl rfl))
    simp only [Bool.and_eq_true, Bool.not_eq_true']
  case page =>
    exact fun s hflush hfree hleft =>
      ⟨evtFlushPageDone_of_flushing true hflush hfree hleft, evtFlushPageDone_of_flushing false hflush hfree hleft⟩
  case flushDone =>
    intro s hflush hover t last
    have ended := evtFlushDone_of_over hflush hover
    refine ⟨fun hagain hfree => ?_, fun hend => ?_⟩
    · have asked : (t.evt.again && !(t.harvesting && t.flushBlocked)) = true := by
        rw [Bool.and_eq_true, Bool.not_eq_true', ← Bool.not_eq_true, Bool.and_eq_true]
        exact ⟨hagain, hfree⟩
      exact ended.trans (congrArg _ (if_pos asked))
    · have ends : ¬ (t.evt.again && !(t.harvesting && t.flushBlocked)) = true := by
        rcases hend with h | ⟨h, k⟩ <;> simp [*]
      exact ⟨fun hpark => ended.trans (congrArg _ ((if_neg ends).trans (if_pos hpark))),
        fun hpark => ended.trans (congrArg _ ((if_neg ends).trans (if_neg hpark)))⟩
  case erased => exact fun k s => evtSectorEraseDone_of_erasing
  case measured =>
    intro vin hold mbus s
    refine ⟨fun hoff => congrArg Host.Outcome.next (if_pos hoff), fun hon => ?_⟩
    intro m z a b c d e log
    have values : z = fun x => if (!s.runs 5) = true then 0 else x := by
      funext x
      cases h : s.runs 5 <;> simp [z, h]
    exact congrArg Host.Outcome.next ((if_neg hon).trans (by simp only [e, log, d, c, values]; rfl))

end Sys2Proof.Machine
end

section
/-! PROOFS. The sideband, the Alert Response Address, the test access port and PCIe errors (15_alerts_and_events.md R600 to R606,
11_host_interface.md R499, 16_package_and_electrical.md R646, R655). -/

namespace Sys2Proof.Machine
open Sys2Proof

/-! ## Writes on the sideband -/

/-- A sideband write is taken where the transaction names this device and its PEC is not wrong (R603). -/
theorem smbWrite_of_addressed {s : State} {tgt : BitVec 7} {sent : PecIn} (t : State) (haddr : s.smbFor tgt = true) :
    (if s.smbFor tgt && sent != .bad then t else s) = if sent = .bad then s else t := by
  rw [haddr, Bool.true_and, ← ite_not (sent = .bad)]
  exact if_congr bne_iff_ne rfl rfl

theorem smbWrite_of_elsewhere {s : State} {tgt : BitVec 7} {sent : PecIn} (t : State) (haddr : s.smbFor tgt = false) :
    (if s.smbFor tgt && sent != .bad then t else s) = s := by
  rw [haddr, Bool.false_and]
  exact if_neg Bool.false_ne_true

/-! ## The Alert Response Address -/

/-- The state once the Alert Response Address has been answered, but for the answer itself (R606). -/
def State.alertReleased (s : State) : State := (s.inc F.ALR_CTL_aracnt).put F.ALR_SUM_supp 1

theorem smbByte_alertReleased (s : State) : s.alertReleased.smbByte = s.smbByte := by
  unfold State.smbByte State.alertReleased State.inc
  rw [State.get_put_apart _ _ _ _ (by decide) (by decide), State.get_put_apart _ _ _ _ (by decide) (by decide)]

theorem alert_alertReleased (s : State) : s.alertReleased.alert = false := by
  have supp : s.alertReleased.flag F.ALR_SUM_supp = true := by
    rw [State.alertReleased, State.flag, State.get_put_self _ _ _ (by decide)]
    rfl
  rw [State.alert, supp, Bool.not_true, Bool.and_false]

theorem aracnt_alertReleased (s : State) :
    s.alertReleased.get F.ALR_CTL_aracnt = (s.get F.ALR_CTL_aracnt + 1) % 2 ^ F.ALR_CTL_aracnt.width := by
  unfold State.alertReleased State.inc
  rw [State.get_put_apart _ _ _ _ (by decide) (by decide), State.get_put_self _ _ _ (by decide)]

theorem alertResponse_next (won : Bool) (s : State) (hup : s.boot.phase ≠ 6) :
    exec (.alertResponse won) s = .next (if s.flag F.ALR_CTL_ara = true ∧ s.alert = true ∧ won = true then
      let t := s.alertReleased
      { t with smb := { t.smb with resp := [t.smbByte, pec [0x19, t.smbByte]] } } else s) := by
  have answered : (s.pathOpen .smbus && s.flag F.ALR_CTL_ara && s.alert && won) = true ↔
      s.flag F.ALR_CTL_ara = true ∧ s.alert = true ∧ won = true := by
    simp [State.pathOpen, hup, and_assoc]
  exact congrArg Host.Outcome.next (if_congr answered rfl rfl)

/-! ## The test access port and PCIe errors -/

theorem tapInstruction_of_product (ir : TapInstr) {s : State} (hprod : s.factory = false) :
    exec (.tapInstruction ir) s = .next { s with tap := if ir = .idcode ∨ ir = .samplePreload then ir else .bypass } := by
  have selects (x y : TapInstr) : (if s.factory then x else y) = y := if_neg (ne_true_of_eq_false hprod)
  cases ir <;> exact congrArg (fun x => Host.Outcome.next { s with tap := x }) (selects _ _)

theorem pcieError_of_live (corr : Bool) (xfer : Option Nat) {s : State} (hlink : s.nvme.linkUp = true) (hperst : s.nvme.perst = false)
    (hhost : s.hostDown = false) : exec (.pcieError corr xfer) s = .next (if corr then s.raise F.HST_ERR_corr else
      match xfer with
      | some id => (s.raise F.HST_ERR_uncorr).transferFails id
      | none => s.raise F.HST_ERR_uncorr) :=
  congrArg Host.Outcome.next (if_neg (by simp [hlink, hperst, hhost]))

/-- Settles O60: what names this device by `smbFor_own` and `smbWrite_of_addressed`, the Alert Response Address by
`alertResponse_next`, and the port and the link by `tapInstruction_of_product` and `pcieError_of_live`. -/
theorem sidebandAnswersAndAddresses : Obligations.SidebandAnswersAndAddresses := by
  refine ⟨fun tgt off len a v sent s => ⟨fun hown hup => ?own, fun hother => ?elsewhere⟩, fun won s hup => ⟨?answered, ?unanswered⟩,
    fun s => rfl, fun ir s => ⟨?factory, tapInstruction_of_product ir⟩, fun xfer s hlink hperst hhost => ?pcie⟩
  case own =>
    have addressed := smbFor_own hup hown
    refine ⟨congrArg Host.Outcome.next (if_pos addressed), congrArg Host.Outcome.next (if_pos addressed), fun hgood => ?_, fun hbad => ?_⟩
    · exact ⟨congrArg Host.Outcome.next ((smbWrite_of_addressed _ addressed).trans (if_neg hgood)),
        congrArg Host.Outcome.next ((smbWrite_of_addressed _ addressed).trans (if_neg hgood))⟩
    · exact ⟨congrArg Host.Outcome.next ((smbWrite_of_addressed _ addressed).trans (if_pos hbad)),
        congrArg Host.Outcome.next ((smbWrite_of_addressed _ addressed).trans (if_pos hbad))⟩
  case elsewhere =>
    have other := smbFor_other hother
    exact ⟨congrArg Host.Outcome.next (if_neg (ne_true_of_eq_false other)), congrArg Host.Outcome.next (if_neg (ne_true_of_eq_false other)),
      congrArg Host.Outcome.next (smbWrite_of_elsewhere _ other), congrArg Host.Outcome.next (smbWrite_of_elsewhere _ other)⟩
  case answered =>
    refine fun hara halert hwon => ⟨_, (alertResponse_next won s hup).trans (congrArg _ (if_pos ⟨hara, halert, hwon⟩)), ?_,
      alert_alertReleased s, aracnt_alertReleased s⟩
    exact congrArg (fun b => [b, pec [0x19, b]]) (smbByte_alertReleased s)
  case unanswered =>
    refine fun hnot => (alertResponse_next won s hup).trans (congrArg _ (if_neg ?_))
    rintro ⟨hara, halert, hwon⟩
    simp [hara, halert, hwon] at hnot
  case factory =>
    intro hfactory
    have selects (x y : TapInstr) : (if s.factory then x else y) = x := if_pos hfactory
    exact congrArg (fun x => Host.Outcome.next { s with tap := x }) (selects ir _)
  case pcie =>
    exact ⟨pcieError_of_live true xfer hlink hperst hhost, pcieError_of_live false none hlink hperst hhost,
      fun id => pcieError_of_live false (some id) hlink hperst hhost⟩

end Sys2Proof.Machine
end
